-- ==== Sys2Proof/Word.lean ====
section
/-! DEFINITION. The word types of the block and their plainest arithmetic. -/

namespace Sys2Proof

/-- A byte. -/
abbrev Byte := BitVec 8
/-- A 32-bit word: a register (R6), a header word (R43), a coordinate (R36). -/
abbrev W32 := BitVec 32
/-- A 64-bit word: a wide register (R7), a scalar register (R194), a fabric time (R279). -/
abbrev W64 := BitVec 64
/-- A vector register (R194). -/
abbrev W512 := BitVec 512

end Sys2Proof
end

