-- ==== Sys2Proof/Syntax.lean ====
section
/-! DEFINITION. The commands of the block: one constructor of `Instr` per row of
spec/opcode_table.json, with the data each command carries. -/

namespace Sys2Proof

/-- Who makes a register access: each has its own read latch and held low word (R494);
SOURCE of R505 numbers them. -/
inductive Requester where
  | host
  | warden (core : Fin 8)
  | steward
  | tray
  /-- The debug port, once a token has unlocked it (R481). -/
  | debug
  deriving DecidableEq, Repr

/-- A read of registers (R493): offset, length in bytes and the byte enables of its words. -/
structure ReadAt where
  off : Nat
  len : Nat := 4
  en : BitVec 4 := 0xF
  deriving DecidableEq, Repr

/-- The three registers with a LOCK bit (R500). -/
inductive LockReg where
  | sc | rt | global
  deriving DecidableEq, Repr

/-- The 16 header bytes of a packet as four words (R43). -/
structure Hdr where
  dest : W32
  src : W32
  w2 : W32
  w3 : W32
  deriving DecidableEq, Repr

/-- A grain cell (R55): three words and 52 payload bytes. -/
structure GrainCell where
  dest : W32
  src : W32
  ctrl : W32
  payload : List Byte
  deriving DecidableEq, Repr

/-- An instance is a handle, a generation and a step (R119). -/
structure InstKey where
  handle : BitVec 20
  gen : Byte
  step : W32
  deriving DecidableEq, Repr

/-- What the buffer's own checks find as a packet is stored or read (R65, R77): an error in data word
`word` of the packet (32 bytes each), in its reference count, in the queue pointer or in a free-list
link; a decrement of a count that is already 0, or an increment attempted after enqueuing is complete. -/
inductive BufObs where
  | clean
  | dataCe | dataUe (word : Nat)
  | refCe | refUe | refZero | refLate
  | ptrCe | ptrUe
  | linkCe | linkUe
  deriving DecidableEq, Repr

/-- What arrives on a port, and what the buffer's checks find as it is stored or read (R65, R77). -/
structure Arrived (α : Type) where
  item : α
  obs : BufObs
  deriving DecidableEq, Repr

/-- What a memory controller finds in the lines of one access (R313, R314); `line` is a pool
address divided by 64, or a word's byte address in a store. -/
inductive MemObs where
  | clean
  | corrected (line : Nat)
  | uncorrectable (line : Nat)
  deriving DecidableEq, Repr

/-- What an adder engine's checks find (R183, R184, R196). -/
inductive AdderObs where
  | clean
  | residue | tally | dualRail
  | crucibleCe | crucibleUe
  deriving DecidableEq, Repr

/-- An entry of a route table, as the COMMIT layout names it (R111). -/
structure EntryRef where
  bank : Bool
  table : Fin 4
  index : Fin 4096
  deriving DecidableEq, Repr

/-- A block that sleeps and wakes (R30), besides benches. -/
inductive WakeBlock where
  | switchCore
  | memory (m : Fin 28)
  | laneTx (lp : Fin 512)
  | laneRx (lp : Fin 512)
  | hostInterface
  deriving DecidableEq, Repr

/-- The measured eye of one transmit setting (R370): area and whether the pre-FEC ratio held. -/
structure EqPoint where
  pre : Nat
  post : Nat
  area : Nat
  berOk : Bool
  deriving DecidableEq, Repr

/-- An HDM decoder's programming (R387): base, size and skip in bytes, codes of ways and
granularity, Lock On Commit. -/
structure HdmDecoder where
  base : Nat
  size : Nat
  skip : Nat
  ways : Nat
  gran : Nat
  lock : Bool
  /-- The Commit bit: without it the write uncommits the decoder (R388). -/
  commit : Bool := true
  deriving DecidableEq, Repr

/-- The three transports of the SPDM responder (R478). -/
inductive Transport where
  | mailbox | i3c | vdm
  deriving DecidableEq, Repr

/-- The PLDM Type 2 sensors (R399). -/
inductive PldmSensor where
  | power
  | temperature (k : Fin 48)
  | flow
  | faultState
  deriving DecidableEq, Repr

/-- The steps of a PLDM Type 5 firmware update (R401, R472). -/
inductive FwStep where
  | start
  | part (offset : Nat) (data : List Byte)
  | activate
  | cancel
  /-- The other way to re-flash (R401, R464): the tray controller writes the chip select itself while it holds the
  flash pins. -/
  | direct (offset : Nat) (data : List Byte)
  deriving DecidableEq, Repr

/-- What starts a reset (R416, R417). -/
inductive ResetSource where
  | cmd (r : Requester)
  | fault (cls : Byte) (index : Nat)
  | steward
  | tray
  deriving DecidableEq, Repr

/-- The power the present work would draw (R436), in watts: at each bench bin 0-4 with domains at
their voltage floors, at each bin at factory voltage, and with every reduction of R435 applied. -/
structure PowerEstimate where
  floorW : List Nat
  factoryW : List Nat
  loamW : Nat
  dutyW : Nat
  paceW : Nat
  deriving DecidableEq, Repr

/-- A voltage domain with margin detectors (R458). -/
inductive MarginDomain where
  | bench (b : Fin 100)
  | switchCore
  deriving DecidableEq, Repr

/-- What the monitors of R458 report to one step of a Lehr pass (R459). -/
structure LehrMeasure where
  guardTarget : List Int
  eyeFallen : List Nat
  berBad : List Nat
  refresh : List Nat
  marginFallen : List Nat
  deriving DecidableEq, Repr

/-- How a flash read ended (R466 order 1). -/
inductive FlashObs where
  | complete
  | failed
  deriving DecidableEq, Repr

/-- The control state that a periodic sweep covers (R406). -/
inductive SweepClass where
  | switchState | collState | ctxState | resultTable
  deriving DecidableEq, Repr


/-- The commands of the block: one constructor per row of spec/opcode_table.json. -/
inductive Instr where
  /-- POWER_UP (R511): The rail groups ramp in order and both reference clocks start, with THERM_TRIP_N held asserted and the device inert. -/
  | powerUp
  /-- POWER_ON_RESET_RELEASE (R511): Power-on reset releases 1 ms after every rail is in range, which starts the always-on domain and boot step 1. -/
  | powerOnResetRelease
  /-- POWER_REMOVAL (R512): The rails are removed, in order or all at once, and pool contents and always-on state are lost. -/
  | powerRemoval
  /-- RAIL_FAULT (R513): A group 1–3 rail stays below range for more than 5 µs, so fast clocks stop, shutters close and every non-always-on domain is held in reset. -/
  | railFault
  /-- RAIL_FAULT_RECOVERY (R513): Once every rail has been in range for 1 ms after a rail fault, boot restarts at step 3 and the identity key pair is regenerated. -/
  | railFaultRecovery
  /-- FAB_REFCLK_LOSS (R516): FAB_REFCLK has no edge for 1 µs, so the lanes lose their clocks and fabric time runs on the held oscillator trim. -/
  | fabRefclkLoss
  /-- FAB_REFCLK_RETURN (R516): The fabric reference returns, the device retrims within 10 ms, and the ports may train again. -/
  | fabRefclkReturn
  /-- CXL_REFCLK_LOSS (R516): Loss of CXL_REFCLK is handled as a host link-down event. -/
  | cxlRefclkLoss
  /-- REGISTER_WRITE (R8): A write to a register with no row of its own takes effect according to its access type, lock state and field ranges. -/
  | registerWrite (r : Requester) (off : Nat) (len : Nat) (en : BitVec 4) (v : W64)
  /-- READ_CLEAR (R8): A read of an RC register returns its value and returns it to its rest value in the same access. -/
  | readClear (r : Requester) (off : ReadAt)
  /-- UNASSIGNED_OFFSET_ACCESS (R11): An access to an unassigned offset reads 0, ignores a write, and is counted. -/
  | unassignedOffsetAccess (r : Requester) (off : Nat) (wr : Bool)
  /-- LOW_WORD_READ (R7): A read of a 64-bit register's low word latches the high word for the requester. -/
  | lowWordRead (r : Requester) (off : Nat)
  /-- HIGH_WORD_READ (R7): A read of a 64-bit register's high word returns the latched value, or the live high word when no latch is valid. -/
  | highWordRead (r : Requester) (off : Nat)
  /-- LOW_WORD_WRITE (R494): A 32-bit write to a 64-bit register's low word is held for the same requester's high-word write. -/
  | lowWordWrite (r : Requester) (off : Nat) (v : W32)
  /-- HIGH_WORD_WRITE (R494): A high-word write sets both words together with a held low word, or sets the high word alone. -/
  | highWordWrite (r : Requester) (off : Nat) (v : W32)
  /-- HELD_LOW_WORD_EXPIRY (R494): A held low word is discarded and counted when more than 1 µs passes without the high-word write. -/
  | heldLowWordExpiry (r : Requester)
  /-- LOCK_WRITE (R500): A write of 1 to SC_LOCK, RT_LOCK or GLOBAL_LOCK locks the governed RWL fields until full device recovery. -/
  | lockWrite (r : Requester) (l : LockReg) (v : W32)
  /-- OWN_COORD_WRITE (R503): A write to OWN_COORD sets the device's coordinate when NODE is at least 240 and every port is down, and sets OWN_VALID. -/
  | ownCoordWrite (r : Requester) (v : W32)
  /-- HEADER_COMPLETE (R52): The first 16 bytes of an arriving packet are in, so the ingress checks, partition check and route lookup run and cut-through is decided. -/
  | headerComplete (lp : Fin 512) (h : Hdr)
  /-- PACKET_END (R54): The delimited end of an arriving packet is reached, its length is compared with LEN, and it is enqueued or delivered. -/
  | packetEnd (lp : Fin 512) (body : Arrived (List Byte))
  /-- VC5_MSG_TIMEOUT (R101): An open VC5 message that gets no packet for VC5_MSG_TIMEOUT is abandoned and counted. -/
  | vc5MsgTimeout (b : Fin 100) (src : W32) (chan : BitVec 12) (k : Nat)
  /-- CELL_ARRIVAL (R60): A grain cell arrives, is checked, and is forwarded on its message's egress or taken into reassembly. -/
  | cellArrival (lp : Fin 512) (x : Arrived GrainCell)
  /-- REASM_TIMEOUT (R61): An open reassembly that gets no cell for 100 µs is abandoned and counted. -/
  | reasmTimeout (src : W32) (vc : Fin 8) (unit : Byte)
  /-- EGRESS_SELECT (R82): At a packet boundary the egress port picks the next VC by cap balance and deficit round robin and sends its head packet. -/
  | egressSelect (lp : Fin 512) (obs : BufObs)
  /-- STALE_DROP (R81): A packet at the head of an egress queue past SC_LIFETIME is discarded and counted. -/
  | staleDrop (lp : Fin 512) (vc : Fin 8)
  /-- CT_ABORT (R75): A cut-through packet still incomplete after 10 µs is completed with padding and a stomped trailer. -/
  | ctAbort (lp : Fin 512) (got : List Byte)
  /-- BUFFER_AUDIT (R78): The periodic audit reconciles every buffer unit and quarantines mismatches. -/
  | bufferAudit (bad : Nat)
  /-- INTERNAL_WRITER_RESUME (R69): A held internal writer finds room in the internal reserve or shared pool and writes its packet. -/
  | internalWriterResume
  /-- CREDIT_LIMIT_WRITE (R73): A write to an XCRED or TCRED limit raises, lowers or closes an account, or is ignored when it breaks a bound. -/
  | creditLimitWrite (r : Requester) (lp : Fin 512) (term : Bool) (vc : Fin 8) (v : W32)
  /-- SWAP_ARM (R106): ARM puts the table swap in ARMED, or in REFUSED with a reason. -/
  | swapArm (r : Requester)
  /-- SWAP_CANCEL (R106): CANCEL returns an armed swap to IDLE. -/
  | swapCancel (r : Requester)
  /-- SWAP_COPY (R106): COPY starts copying the active bank, with check codes, into the inactive bank. -/
  | swapCopy (r : Requester)
  /-- COPY_COMPLETE (R106): The bank copy finishes and COPY_BUSY returns to 0 within 50 µs. -/
  | copyComplete
  /-- TABLE_BANK_SWAP (R105): Fabric time reaches SWAP_AT while armed, so all four tables change bank together and the state becomes DONE. -/
  | tableBankSwap
  /-- TABLE_COMMIT (R109): COMMIT copies the staging words into the named entry in one step with a fresh check code. -/
  | tableCommit (r : Requester) (v : W32)
  /-- TABLE_SWEEP (R110): The periodic sweep checks every entry of both banks and logs each newly found uncorrectable error. -/
  | tableSweep (bad : List EntryRef) (ce : Nat)
  /-- REJOIN_HOLD_END (R97): REJOIN_HOLD elapses after a port becomes active, so it becomes a deterministic candidate. -/
  | rejoinHoldEnd (lp : Fin 512)
  /-- CONTRIB_ARRIVAL (R124): A CONTRIB reaches the collective unit, is checked in order, opens or admits its instance and is steered to its owner bench. -/
  | contribArrival (obs : AdderObs)
  /-- OPEN_ARRIVAL (R132): An OPEN subheader is checked and opens the instance with admission, or is answered OK if it is already open. -/
  | openArrival
  /-- COUNT_ARRIVAL (R142): A COUNT of a VARSIZE count phase is checked and held in a frit slot. -/
  | countArrival
  /-- PARTIAL_ARRIVAL (R137): A lower-tier PARTIAL is parsed and checked and reduced in place of its member. -/
  | partialArrival (obs : AdderObs)
  /-- UPPER_RESULT_ARRIVAL (R137): A RESULT from the upper tier is matched to its local instance and sent on under PLACE. -/
  | upperResultArrival
  /-- UPPER_STATUS_ARRIVAL (R137): A STATUS from the upper tier poisons the matched local instance. -/
  | upperStatusArrival
  /-- ADDER_TAKE (R199): A bench adder engine takes a contribution from its ingress queue and adds it into its parison. -/
  | adderTake (b : Fin 100) (obs : AdderObs)
  /-- RESULT_WRITE_COMPLETE (R135): A chunk's result or PARTIAL write completes, its slot is freed, and the last one completes the instance with its lag recorded. -/
  | resultWriteComplete (k : InstKey) (chunk : Nat)
  /-- INSTANCE_TIMEOUT (R133): An instance reaches TIMEOUT, so it is abandoned with INCOMPLETE and its parisons or slot are freed. -/
  | instanceTimeout (k : InstKey)
  /-- TOMB_HOLD_EXPIRY (R131): A tombstone's TOMB_HOLD elapses and its record is freed. -/
  | tombHoldExpiry (k : InstKey)
  /-- TWIN_HOLD_EXPIRY (R147): The twin holds an unsent result for 1.5 µs, so the primary claim is withdrawn and the twin takes over. -/
  | twinHoldExpiry (k : InstKey) (chunk : Nat)
  /-- COLL_EN_WRITE (R157): A write of COLL_EN enables collectives only if the spill area overlaps nothing protected. -/
  | collEnWrite (r : Requester) (v : W32)
  /-- SPILL_BASE_WRITE (R157): A write to SPILL_BASE is accepted only if it is 1 GiB aligned with no reserved bits. -/
  | spillBaseWrite (r : Requester) (v : W64)
  /-- DMA_DESCRIPTOR_EXECUTE (R201): The DMA engine takes the next descriptor round robin, checks it, and starts moving bytes or completes it with a code. -/
  | dmaDescriptorExecute (b : Fin 100)
  /-- DMA_COMPLETE (R201): A descriptor finishes, its code goes to DMA_STATUS and its tally is incremented. -/
  | dmaComplete (b : Fin 100) (c : Fin 8)
  /-- ITEM_START (R202): An idle core takes the next item from its bench's queue under the placement rule and starts at its entry. -/
  | itemStart (b : Fin 100) (c : Fin 8)
  /-- STEAL (R203): An idle bench of a context takes the oldest unstarted non-chunk item from the most loaded bench of the same context. -/
  | steal (id : Fin 256) (thief : Fin 100)
  /-- WARDEN_RESTART (R193): The steward restarts the warden program on bench 99, escalating to a permanent hold after 8 restarts in 600 s. -/
  | wardenRestart
  /-- BENCH_SLEEP (R208): An idle AWAKE bench reaches SLEEP_IDLE and goes ASLEEP, or stays awake on a same-cycle demand. -/
  | benchSleep (b : Fin 100) (demand : Bool)
  /-- BENCH_WAKE_COMPLETE (R210): WAKING completes and the bench executes, starting at 0.8 GHz if more than 4 benches woke within 20 µs. -/
  | benchWakeComplete (b : Fin 100)
  /-- CLOCK_RAMP_COMPLETE (R210): A bench that began at 0.8 GHz reaches 1.6 GHz after its 20 µs ramp. -/
  | clockRampComplete (b : Fin 100)
  /-- BLOCK_WAKE_COMPLETE (R30): A sleeping block finishes waking, and the request that waited on it proceeds. -/
  | blockWakeComplete (blk : WakeBlock)
  /-- HOLD_AWAKE_WRITE (R211): A write of HOLD_AWAKE wakes the bench and keeps it awake, or releases it. -/
  | holdAwakeWrite (r : Requester) (b : Fin 104) (v : W32)
  /-- INSTRUCTION_ILLEGAL (R218): A fetched word with a reserved encoding raises ILLEGAL, whatever its guard. -/
  | instructionIllegal (b : Fin 100) (c : Fin 8)
  /-- FETCH_BEYOND_LOAD_LIMIT (R235): A fetch at or above the load limit raises IS_RANGE. -/
  | fetchBeyondLoadLimit (b : Fin 100) (c : Fin 8)
  /-- ADD (R223): Scalar add modulo 2^64. -/
  | add (b : Fin 100) (c : Fin 8)
  /-- SUB (R223): Scalar subtract modulo 2^64. -/
  | sub (b : Fin 100) (c : Fin 8)
  /-- AND (R223): Scalar bitwise and. -/
  | and (b : Fin 100) (c : Fin 8)
  /-- OR (R223): Scalar bitwise or. -/
  | or (b : Fin 100) (c : Fin 8)
  /-- XOR (R223): Scalar bitwise xor. -/
  | xor (b : Fin 100) (c : Fin 8)
  /-- SHL (R223): Scalar left shift by s[B][5:0]. -/
  | shl (b : Fin 100) (c : Fin 8)
  /-- SHR (R223): Scalar logical right shift by s[B][5:0]. -/
  | shr (b : Fin 100) (c : Fin 8)
  /-- SRA (R223): Scalar arithmetic right shift by s[B][5:0]. -/
  | sra (b : Fin 100) (c : Fin 8)
  /-- SLT (R223): Signed less-than comparison into s[D]. -/
  | slt (b : Fin 100) (c : Fin 8)
  /-- SLTU (R223): Unsigned less-than comparison into s[D]. -/
  | sltu (b : Fin 100) (c : Fin 8)
  /-- SEQ (R223): Equality comparison into s[D]. -/
  | seq (b : Fin 100) (c : Fin 8)
  /-- MIN (R223): Signed scalar minimum. -/
  | min (b : Fin 100) (c : Fin 8)
  /-- MAX (R223): Signed scalar maximum. -/
  | max (b : Fin 100) (c : Fin 8)
  /-- MINU (R223): Unsigned scalar minimum. -/
  | minu (b : Fin 100) (c : Fin 8)
  /-- MAXU (R223): Unsigned scalar maximum. -/
  | maxu (b : Fin 100) (c : Fin 8)
  /-- MUL (R223): Low 64 bits of the scalar product. -/
  | mul (b : Fin 100) (c : Fin 8)
  /-- MULHS (R223): High 64 bits of the signed 128-bit product. -/
  | mulhs (b : Fin 100) (c : Fin 8)
  /-- MULHU (R223): High 64 bits of the unsigned 128-bit product. -/
  | mulhu (b : Fin 100) (c : Fin 8)
  /-- DIV (R224): Signed division truncated toward zero, with defined edge results and no exception. -/
  | div (b : Fin 100) (c : Fin 8)
  /-- DIVU (R224): Unsigned division with defined divide-by-zero result. -/
  | divu (b : Fin 100) (c : Fin 8)
  /-- REM (R224): Signed remainder with the sign of s[A]. -/
  | rem (b : Fin 100) (c : Fin 8)
  /-- REMU (R224): Unsigned remainder. -/
  | remu (b : Fin 100) (c : Fin 8)
  /-- POPC (R223): Count of 1 bits in s[A]. -/
  | popc (b : Fin 100) (c : Fin 8)
  /-- CLZ (R223): Leading zeros of s[A]. -/
  | clz (b : Fin 100) (c : Fin 8)
  /-- CTZ (R223): Trailing zeros of s[A]. -/
  | ctz (b : Fin 100) (c : Fin 8)
  /-- ADDI (R223): Add the sign-extended immediate. -/
  | addi (b : Fin 100) (c : Fin 8)
  /-- ANDI (R223): And with the immediate. -/
  | andi (b : Fin 100) (c : Fin 8)
  /-- ORI (R223): Or with the immediate. -/
  | ori (b : Fin 100) (c : Fin 8)
  /-- XORI (R223): Xor with the immediate. -/
  | xori (b : Fin 100) (c : Fin 8)
  /-- SHLI (R223): Left shift by IMM[5:0]. -/
  | shli (b : Fin 100) (c : Fin 8)
  /-- SHRI (R223): Logical right shift by IMM[5:0]. -/
  | shri (b : Fin 100) (c : Fin 8)
  /-- SRAI (R223): Arithmetic right shift by IMM[5:0]. -/
  | srai (b : Fin 100) (c : Fin 8)
  /-- SLTI (R223): Signed less-than with the immediate. -/
  | slti (b : Fin 100) (c : Fin 8)
  /-- LI (R223): Load the sign-extended immediate into s[D]. -/
  | li (b : Fin 100) (c : Fin 8)
  /-- LIH (R223): Place the unsigned immediate in the high 32 bits over s[A]'s low 32 bits. -/
  | lih (b : Fin 100) (c : Fin 8)
  /-- VADD (R227): Lane-wise add with one rounding for floating types. -/
  | vadd (b : Fin 100) (c : Fin 8)
  /-- VSUB (R227): Lane-wise subtract. -/
  | vsub (b : Fin 100) (c : Fin 8)
  /-- VMUL (R227): Lane-wise multiply. -/
  | vmul (b : Fin 100) (c : Fin 8)
  /-- VFMA (R227): Lane-wise fused multiply-add with one rounding. -/
  | vfma (b : Fin 100) (c : Fin 8)
  /-- VMIN (R227): Lane-wise minimum with NaN and signed-zero rules. -/
  | vmin (b : Fin 100) (c : Fin 8)
  /-- VMAX (R227): Lane-wise maximum with NaN and signed-zero rules. -/
  | vmax (b : Fin 100) (c : Fin 8)
  /-- VADDS (R226): Lane-wise saturating integer add. -/
  | vadds (b : Fin 100) (c : Fin 8)
  /-- VSUBS (R226): Lane-wise saturating integer subtract. -/
  | vsubs (b : Fin 100) (c : Fin 8)
  /-- VAND (R226): Lane-wise bitwise and. -/
  | vand (b : Fin 100) (c : Fin 8)
  /-- VOR (R226): Lane-wise bitwise or. -/
  | vor (b : Fin 100) (c : Fin 8)
  /-- VXOR (R226): Lane-wise bitwise xor. -/
  | vxor (b : Fin 100) (c : Fin 8)
  /-- VSHL (R226): Lane-wise left shift by s[B]. -/
  | vshl (b : Fin 100) (c : Fin 8)
  /-- VSHR (R226): Lane-wise logical right shift by s[B]. -/
  | vshr (b : Fin 100) (c : Fin 8)
  /-- VSRA (R226): Lane-wise arithmetic right shift by s[B]. -/
  | vsra (b : Fin 100) (c : Fin 8)
  /-- VABS (R226): Lane-wise absolute value. -/
  | vabs (b : Fin 100) (c : Fin 8)
  /-- VNEG (R226): Lane-wise negation. -/
  | vneg (b : Fin 100) (c : Fin 8)
  /-- VCVT (R228): Lane conversion between types, selecting a part by Q. -/
  | vcvt (b : Fin 100) (c : Fin 8)
  /-- VCMP (R227): Lane-wise comparison into a predicate register. -/
  | vcmp (b : Fin 100) (c : Fin 8)
  /-- VBCAST (R226): Broadcast a scalar into every lane. -/
  | vbcast (b : Fin 100) (c : Fin 8)
  /-- VEXT (R226): Extract one lane into a scalar register. -/
  | vext (b : Fin 100) (c : Fin 8)
  /-- VINS (R226): Insert a scalar into one lane. -/
  | vins (b : Fin 100) (c : Fin 8)
  /-- VPERM (R226): Permute lanes by an index vector. -/
  | vperm (b : Fin 100) (c : Fin 8)
  /-- VRSUM (R227): Exact sum of the active lanes, rounded once, into a scalar register. -/
  | vrsum (b : Fin 100) (c : Fin 8)
  /-- VMOV (R226): Copy a vector register. -/
  | vmov (b : Fin 100) (c : Fin 8)
  /-- PAND (R229): Predicate and. -/
  | pand (b : Fin 100) (c : Fin 8)
  /-- POR (R229): Predicate or. -/
  | por (b : Fin 100) (c : Fin 8)
  /-- PXOR (R229): Predicate xor. -/
  | pxor (b : Fin 100) (c : Fin 8)
  /-- PANDN (R229): Predicate and-not. -/
  | pandn (b : Fin 100) (c : Fin 8)
  /-- PNOT (R229): Predicate not. -/
  | pnot (b : Fin 100) (c : Fin 8)
  /-- PFROMS (R229): Copy a scalar register into a predicate register. -/
  | pfroms (b : Fin 100) (c : Fin 8)
  /-- PTOS (R229): Copy a predicate register into a scalar register. -/
  | ptos (b : Fin 100) (c : Fin 8)
  /-- PCNT (R229): Count the 1 bits of a predicate register. -/
  | pcnt (b : Fin 100) (c : Fin 8)
  /-- PFIRST (R229): Find the lowest set bit of a predicate register. -/
  | pfirst (b : Fin 100) (c : Fin 8)
  /-- LD (R231): Load SZ bytes zero-extended from the selected space. -/
  | ld (b : Fin 100) (c : Fin 8)
  /-- LDS (R231): Load SZ bytes sign-extended from the selected space. -/
  | lds (b : Fin 100) (c : Fin 8)
  /-- ST (R231): Store SZ bytes to the selected space. -/
  | st (b : Fin 100) (c : Fin 8)
  /-- VLD (R231): Load 64 bytes into the active lanes. -/
  | vld (b : Fin 100) (c : Fin 8)
  /-- VST (R231): Store the active lanes' bytes. -/
  | vst (b : Fin 100) (c : Fin 8)
  /-- AADD (R231): Atomic int64 add at a pool address, returning the old value. -/
  | aadd (b : Fin 100) (c : Fin 8)
  /-- AADDF (R231): Atomic FP32 add at a pool address, returning the old value. -/
  | aaddf (b : Fin 100) (c : Fin 8)
  /-- ACAS (R231): Atomic 8-byte compare-and-swap at a pool address. -/
  | acas (b : Fin 100) (c : Fin 8)
  /-- FENCE (R232): Wait until earlier pool stores and atomics are performed and earlier loads have returned. -/
  | fence (b : Fin 100) (c : Fin 8)
  /-- FENCE_COMPLETE (R232): Every earlier pool access of the core has been performed, so FENCE retires. -/
  | fenceComplete (b : Fin 100) (c : Fin 8)
  /-- DMAQ (R231): Issue a 32-byte descriptor from local store to the core's DMA queue, stalling while the queue is full. -/
  | dmaq (b : Fin 100) (c : Fin 8)
  /-- POOL_ACCESS_RETURN (R233): An outstanding pool load or atomic of a core returns its data, or ECC_UE. -/
  | poolAccessReturn (b : Fin 100) (c : Fin 8) (k : Nat) (obs : MemObs)
  /-- CORE_STALL_RELEASE (R233): A core stalled at issue on an outstanding-access or queue limit gets room and issues. -/
  | coreStallRelease (b : Fin 100) (c : Fin 8)
  /-- NOP (R234): No operation. -/
  | nop (b : Fin 100) (c : Fin 8)
  /-- JMP (R234): Jump to TARGET. -/
  | jmp (b : Fin 100) (c : Fin 8)
  /-- JAL (R234): Jump and link. -/
  | jal (b : Fin 100) (c : Fin 8)
  /-- JR (R234): Jump to the index in s[A]. -/
  | jr (b : Fin 100) (c : Fin 8)
  /-- BEQZ (R234): Branch when s[A] is 0. -/
  | beqz (b : Fin 100) (c : Fin 8)
  /-- BNEZ (R234): Branch when s[A] is not 0. -/
  | bnez (b : Fin 100) (c : Fin 8)
  /-- END (R238): End the core's current launch program or item, so it takes its next item or halts. -/
  | endProg (b : Fin 100) (c : Fin 8)
  /-- POST (R202): Post a work item with an entry and an argument to the bench queue, stalling while it is full. -/
  | post (b : Fin 100) (c : Fin 8)
  /-- TINC (R236): Add to a tally. -/
  | tinc (b : Fin 100) (c : Fin 8)
  /-- TSET (R236): Set a tally. -/
  | tset (b : Fin 100) (c : Fin 8)
  /-- TRD (R236): Read a tally. -/
  | trd (b : Fin 100) (c : Fin 8)
  /-- TWAIT (R237): Wait until a tally reaches its target, with an optional timeout. -/
  | twait (b : Fin 100) (c : Fin 8)
  /-- TWAIT_REACHED (R237): The awaited tally reaches its target and TWAIT resumes with 0. -/
  | twaitReached (b : Fin 100) (c : Fin 8)
  /-- TWAIT_TIMEOUT (R237): TWAIT's timeout passes first and it resumes with 1. -/
  | twaitTimeout (b : Fin 100) (c : Fin 8)
  /-- RDSR (R240): Read a special register. -/
  | rdsr (b : Fin 100) (c : Fin 8)
  /-- CTRRD (R239): Read a 64-bit counter from the counter blocks, with the counter-read permission. -/
  | ctrrd (b : Fin 100) (c : Fin 8)
  /-- RDREG (R239): A bench 99 core reads a BAR0 register. -/
  | rdreg (b : Fin 100) (c : Fin 8)
  /-- WRREG (R239): A bench 99 core writes a BAR0 register. -/
  | wrreg (b : Fin 100) (c : Fin 8)
  /-- SEND (R248): Check and queue one packet from local store to the bench send queue. -/
  | send (b : Fin 100) (c : Fin 8)
  /-- SEND_QUEUE_ROOM (R249): The send queue gains room for a waiting SEND or DISPATCH, which proceeds. -/
  | sendQueueRoom (b : Fin 100) (c : Fin 8)
  /-- SENDQ_DEPART (R249): A queued packet is admitted by the buffer or taken by an own unit and leaves the send queue. -/
  | sendqDepart (b : Fin 100)
  /-- RECV (R251): Take the head packet of the receive queue into local store, or wait. -/
  | recv (b : Fin 100) (c : Fin 8)
  /-- RECVH (R251): Write only the head packet's header and count word, leaving it queued. -/
  | recvh (b : Fin 100) (c : Fin 8)
  /-- RECV_DELIVER (R251): A packet reaches the head for a waiting RECV or RECVH, which completes. -/
  | recvDeliver (b : Fin 100) (c : Fin 8)
  /-- RECV_TIMEOUT (R251): A waiting RECV or RECVH times out with 0. -/
  | recvTimeout (b : Fin 100) (c : Fin 8)
  /-- DROP (R246): Discard the head packet of the receive queue. -/
  | drop (b : Fin 100) (c : Fin 8)
  /-- CONTRIB (R255): Convert elements to ETYPE and contribute them to a local instance. -/
  | contrib (b : Fin 100) (c : Fin 8)
  /-- DQCONTRIB (R255): Dequantise MX blocks, convert them and contribute them. -/
  | dqcontrib (b : Fin 100) (c : Fin 8)
  /-- SCONTRIB (R257): Scale elements by an FP32 weight, convert them and contribute them. -/
  | scontrib (b : Fin 100) (c : Fin 8)
  /-- COPEN (R255): Send OPEN for an instance. -/
  | copen (b : Fin 100) (c : Fin 8)
  /-- CONTRIB_ISSUE_RESUME (R256): A fused contribution waiting for adder queue room or its window slot proceeds. -/
  | contribIssueResume (b : Fin 100) (c : Fin 8)
  /-- CTAKE (R260): Take the oldest untaken contribution to the bound chunk. -/
  | ctake (b : Fin 100) (c : Fin 8)
  /-- CTAKE_DELIVER (R260): A contribution arrives for a waiting CTAKE, which copies it. -/
  | ctakeDeliver (b : Fin 100) (c : Fin 8)
  /-- CTAKE_TIMEOUT (R260): A waiting CTAKE times out with VALID 0. -/
  | ctakeTimeout (b : Fin 100) (c : Fin 8)
  /-- FINAL (R261): Cast the chunk values to RTYPE, emit the RESULT or PARTIAL and unbind the parison. -/
  | finalChunk (b : Fin 100) (c : Fin 8)
  /-- DISPATCH (R262): Send one row with tags to up to 8 destinations. -/
  | dispatch (b : Fin 100) (c : Fin 8)
  /-- CINFO (R263): Read bound-chunk collective state or the status record. -/
  | cinfo (b : Fin 100) (c : Fin 8)
  /-- CONTEXT_CREATE (R267): CTX_CMD CREATE checks the staged record and opens the ID, clearing its benches. -/
  | contextCreate (r : Requester) (id : Fin 256)
  /-- CONTEXT_CREATE_COMPLETE (R268): Bench clearing finishes and CREATE completes within 20 µs. -/
  | contextCreateComplete
  /-- TEARDOWN (R286): CTX_CMD TEARDOWN makes the context CLOSING and stops its cores and instances. -/
  | teardown (r : Requester) (id : Fin 256)
  /-- TEARDOWN_COMPLETE (R286): Outstanding operations drain, resources are freed and the generation increments, leaving the ID FREE or RESTING. -/
  | teardownComplete (id : Fin 256)
  /-- RESTING_EXPIRY (R269): 2 s have passed since the quarantined generation value was left, so a RESTING ID becomes FREE. -/
  | restingExpiry (id : Fin 256)
  /-- SEQ_EN_WRITE (R271): A write of SEQ_EN enables the sequencer after the overlap checks, or clears the pending list. -/
  | seqEnWrite (r : Requester) (v : W32)
  /-- LT_BASE_WRITE (R271): A write to LT_BASE is accepted only when aligned and the sequencer is off. -/
  | ltBaseWrite (r : Requester) (v : W64)
  /-- LT_SWEEP (R273): A sweep of the launch table lists, updates or removes pending entries. -/
  | ltSweep
  /-- LAUNCH_WAKE (R276): At COUNT − WAKE_LEAD the named benches are woken and any image is loaded. -/
  | launchWake (idx : Nat)
  /-- IMAGE_LOAD_COMPLETE (R276): A launch image has been written to a bench's instruction stores. -/
  | imageLoadComplete (idx : Nat)
  /-- LAUNCH_TAKE (R274): Fabric time reaches COUNT and the listed entry is taken, checked, and started, held or refused. -/
  | launchTake
  /-- LAUNCH_START (R277): Every bench named by a held launch becomes free and the launch starts with its argument registers. -/
  | launchStart
  /-- FTIME_SET (R279): A write to FTIME_SET on a root device with invalid time sets fabric time valid. -/
  | ftimeSet (r : Requester) (v : W64)
  /-- TIME_REQUEST_SEND (R281): Every 2^PERIOD µs the device sends a time-transfer request on its source port. -/
  | timeRequestSend
  /-- TIME_REQUEST_ARRIVAL (R281): A well-formed time request is answered with T2, T3 and the TIME_STATUS. -/
  | timeRequestArrival
  /-- TIME_RESPONSE_ARRIVAL (R282): A time response gives the offset, which steps or slews fabric time and updates the lock state. -/
  | timeResponseArrival
  /-- TIME_REQUEST_TIMEOUT (R283): A request goes unanswered within 10 µs, and four in a row lose lock. -/
  | timeRequestTimeout
  /-- FTIME_COMPARE (R410): The two fabric-time counters disagree, which is an FTIME fault and starts a full device recovery. -/
  | ftimeCompare
  /-- WINDOW_WRITE (R293): WIN_CMD checks the staged window entry and replaces, adds or removes the window. -/
  | windowWrite (r : Requester) (v : W32)
  /-- POOL_READ (R300): A VC6 READ request is checked and performed, and its data is answered on VC7. -/
  | poolRead
  /-- POOL_WRITE (R300): A VC6 WRITE request is checked and performed, and OK is answered after the write. -/
  | poolWrite
  /-- POOL_AADD64 (R304): A VC6 atomic 64-bit add is checked, looked up in the result table and performed. -/
  | poolAadd64
  /-- POOL_AADDF32 (R304): A VC6 atomic FP32 add is checked, looked up and performed with one RNE rounding. -/
  | poolAaddf32
  /-- POOL_CAS64 (R304): A VC6 compare-and-swap is checked, looked up and performed. -/
  | poolCas64
  /-- POOL_MCREAD (R306): A VC6 multicast read reads once, sends the data to the group and completes to the requester. -/
  | poolMcread
  /-- POOL_ACCESS_PERFORMED (R303): A memory controller completes a pool access and the answer is sent. -/
  | poolAccessPerformed (k : Nat) (obs : MemObs)
  /-- CACHE_FILL_COMPLETE (R309): A cache-miss fill of a 4 KiB block from Subsoil completes and the access is performed. -/
  | cacheFillComplete (id : Fin 256) (w : Fin 16) (blk : Nat) (obs : MemObs)
  /-- PREFETCH_FILL_COMPLETE (R310): A run-ahead prefetch fill completes, or is discarded, or meets an error. -/
  | prefetchFillComplete (id : Fin 256) (w : Fin 16) (blk : Nat) (obs : MemObs)
  /-- CACHE_WRITEBACK_COMPLETE (R312): The write-back of a removed cached window's dirty blocks completes and its protection ends. -/
  | cacheWritebackComplete (id : Fin 256) (w : Fin 16)
  /-- PATROL_SCRUB (R315): A controller scrubs its next line, correcting or poisoning it. -/
  | patrolScrub (m : Fin 28) (obs : MemObs)
  /-- SELF_REFRESH_ENTRY (R317): A controller idle for MEM_IDLE enters self-refresh. -/
  | selfRefreshEntry (m : Fin 28)
  /-- SELF_REFRESH_SCRUB_WAKE (R315): A controller in self-refresh wakes every 100 ms to scrub the lines due. -/
  | selfRefreshScrubWake (m : Fin 28)
  /-- HOST_MEM_READ (R389): A host CXL.mem or BAR4 read is served from the pool, with poison on a bad line. -/
  | hostMemRead (addr : Nat) (len : Nat) (obs : MemObs)
  /-- HOST_MEM_WRITE (R389): A host MemWr, MemWrPtl or BAR4 write is performed, or dropped on a poisoned line. -/
  | hostMemWrite (addr : Nat) (data : List (Option Byte))
  /-- HOST_MEM_SPEC_READ (R389): A MemSpecRd is accepted as a hint or dropped. -/
  | hostMemSpecRead (addr : Nat)
  /-- HOST_PCIE_ATOMIC (R390): A PCIe FetchAdd or CAS is performed as AADD64 or CAS64. -/
  | hostPcieAtomic (cas : Bool) (addr : Nat) (x : W64) (y : W64)
  /-- GPF_FLUSH (R383): A global persistent flush completes within 1 ms. -/
  | gpfFlush
  /-- RPL_RECORD_START (R328): RPL_CTRL MODE 1 starts recording after checks and writes the START record. -/
  | rplRecordStart (r : Requester) (id : Fin 256) (outEn : Bool)
  /-- RPL_REPLAY_START (R328): RPL_CTRL MODE 2 starts replay after checking the log's START record. -/
  | rplReplayStart (r : Requester) (id : Fin 256) (outEn : Bool)
  /-- RPL_STOP (R334): RPL_CTRL MODE 0 stops recording with a STOP record, or stops replay. -/
  | rplStop (r : Requester) (id : Fin 256) (outEn : Bool)
  /-- RECQ_STALL_RELEASE (R333): The full record queue drains to Subsoil and stalled record points proceed. -/
  | recqStallRelease
  /-- REPLAY_LAUNCH_START (R336): The sequencer starts a recorded launch once earlier records are consumed and its benches are free. -/
  | replayLaunchStart (id : Fin 256)
  /-- LANE_FRAME_RECEIVED (R348): A wavelength frame is received, comma-locked, destuffed, descrambled and FEC-decoded. -/
  | laneFrameReceived (n : Fin 528) (w2 : Bool) (bits : List Bool)
  /-- COMMA_LOSS (R348): Four consecutive commas are missing, so the wavelength is out of lock and sparing or a fast retrain follows. -/
  | commaLoss (n : Fin 528) (w2 : Bool)
  /-- LANE_FRAME_TRANSMIT (R350): A lane frame is built and sent, or an idle frame replaces it when stuffing would exceed 64 bits. -/
  | laneFrameTransmit (n : Fin 528)
  /-- LINK_BLOCK_RECEIVED (R352): A 264-byte link block is checked and its body is parsed into items in port block order. -/
  | linkBlockReceived (n : Fin 528)
  /-- CREDIT (R362): A CREDIT control item sets or advances the sender's account credits. -/
  | credit (lp : Fin 512) (ws : List W32)
  /-- ACK (R359): An ACK frees replay-buffer items before NEXT. -/
  | ack (lp : Fin 512) (w : W32)
  /-- NAK (R359): A NAK frees items before NEXT and replays the rest, or starts a fast retrain after 16 replays. -/
  | nak (lp : Fin 512) (w : W32)
  /-- SLEEP (R375): A SLEEP control item makes the receiver follow the partner's transmit sleep state. -/
  | sleep (lp : Fin 512) (w : W32)
  /-- SPARE_SWAP (R377): A received SPARE_SWAP makes the partner hold blocks, wake its spare and answer SWAP_ECHO. -/
  | spareSwap (lp : Fin 512) (w : W32)
  /-- SWAP_ECHO (R377): A received SWAP_ECHO lets the initiator resume the position on the spare at its AT. -/
  | swapEcho (lp : Fin 512) (w : W32)
  /-- LINK_UP (R367): A received LINK_UP with INIT credits completes training and makes the port ACTIVE. -/
  | linkUp (lp : Fin 512) (ws : List W32)
  /-- ACK_SEND (R358): An ACK carrying NEXT is sent at least every 200 ns while NEXT moves. -/
  | ackSend (lp : Fin 512)
  /-- CREDIT_SEND (R362): A CREDIT is sent within 200 ns of a change and at least every 10 µs. -/
  | creditSend (lp : Fin 512)
  /-- REPLAY_TIMEOUT (R359): No ACK advances for REPLAY_TIMEOUT, so the transmitter replays from the oldest item. -/
  | replayTimeout (lp : Fin 512)
  /-- PORT_ADMIN_UP (R367): A write of ADMIN_UP 1 opens the shutters and starts full training of the port's lanes. -/
  | portAdminUp (r : Requester) (lp : Fin 512) (v : W32)
  /-- PORT_ADMIN_DOWN (R367): A write of ADMIN_UP 0 takes the port down or clears FAILED. -/
  | portAdminDown (r : Requester) (lp : Fin 512) (v : W32)
  /-- NO_LIGHT (R367): No laser feed light appears within 100 µs, so the port fails with NO_LIGHT. -/
  | noLight (t : Fin 528)
  /-- TRAINING_RECORD_RECEIVED (R368): A training record is checked, and lane identity, the wiring checks and equalisation requests advance. -/
  | trainingRecordReceived (n : Fin 528) (rec : List Byte) (freq : W32)
  /-- NATIVE_MODE_SWITCH (R367): At the agreed SWITCH_AT frame both ends switch to native signalling and regain lock. -/
  | nativeModeSwitch (t : Fin 528) (skewUi : Nat)
  /-- TX_EQ_COMPLETE (R370): The transmit equalisation search ends with the best setting requested, or the port fails with EQ. -/
  | txEqComplete (n : Fin 528) (w2 : Bool) (eyes : List EqPoint)
  /-- TRAIN_TIMEOUT (R367): Training has not reached ACTIVE within TRAIN_TIMEOUT, so the port becomes FAILED. -/
  | trainTimeout (t : Fin 528)
  /-- FAST_RETRAIN (R367): A PORT_CMD FAST_RETRAIN starts a fast retrain that keeps the mode, equalisation and queues. -/
  | fastRetrain (r : Requester) (lp : Fin 512)
  /-- FAST_RETRAIN_COMPLETE (R367): A fast retrain finishes within 50 µs, or the port becomes FAILED. -/
  | fastRetrainComplete (lp : Fin 512) (ok : Bool)
  /-- PORT_CMD_SPARE_SWAP (R377): PORT_CMD SPARE_SWAP starts moving a position to the STANDBY spare. -/
  | portCmdSpareSwap (r : Requester) (lp : Fin 512) (pos : Fin 4)
  /-- PORT_CMD_SPARE_BACK (R377): PORT_CMD SPARE_SWAP with BACK returns a position from the spare to its lane. -/
  | portCmdSpareBack (r : Requester) (lp : Fin 512) (pos : Fin 4)
  /-- SPARE_UE_THRESHOLD (R377): A lane exceeds SPARE_THRESH uncorrectable codewords in 1 ms and is replaced by the spare. -/
  | spareUeThreshold (n : Fin 528)
  /-- SPARE_SWAP_COMPLETE (R377): Both spares are awake and each transmitter resumes the position on the spare at its AT. -/
  | spareSwapComplete (lp : Fin 512)
  /-- PORT_CFG_WRITE (R379): A write to PORT_CFG while every logical port is DOWN sets the split and modes and reloads limits. -/
  | portCfgWrite (r : Requester) (p : Fin 128) (v : W32)
  /-- EYE_SCAN_START (R371): A START write sets the offset sampler to a voltage and phase and begins counting. -/
  | eyeScanStart (r : Requester) (n : Fin 528) (v : W32)
  /-- EYE_SCAN_DONE (R371): The eye-scan point ends with EYE_BITS and EYE_ERRS set. -/
  | eyeScanDone (n : Fin 528) (errs : W64)
  /-- PRBS_CTRL_WRITE (R372): A PRBS_CTRL write starts or stops the raw-mode generator and checker on an unused lane. -/
  | prbsCtrlWrite (r : Requester) (n : Fin 528) (v : W32)
  /-- INJ_CTRL_WRITE (R373): An INJ_CTRL write arms one-shot or periodic error injection. -/
  | injCtrlWrite (r : Requester) (n : Fin 528) (v : W32)
  /-- TX_DOZE_ENTRY (R375): A transmit direction idle for DOZE_IDLE sends SLEEP and enters doze. -/
  | txDozeEntry (lp : Fin 512) (demand : Bool)
  /-- TX_NAP_ENTRY (R375): A transmit direction idle for NAP_IDLE sends SLEEP and enters nap. -/
  | txNapEntry (lp : Fin 512) (demand : Bool)
  /-- TX_SLEEP_FORCE_WRITE (R375): TX_SLEEP_FORCE forces doze, nap or off, the off state once nothing is outstanding. -/
  | txSleepForceWrite (r : Requester) (lp : Fin 512) (v : W32)
  /-- TX_WAKE (R375): A demand wakes a sleeping transmit direction, which resumes blocks after the wake time. -/
  | txWake (lp : Fin 512)
  /-- HOST_LINK_TRAINED (R382): The host link trains as CXL or PCIe at its width and speed. -/
  | hostLinkTrained (cxl : Bool) (width : Fin 5) (speed : Fin 5)
  /-- HOST_LINK_DOWN (R397): Surprise removal, link-down or DPC fences host traffic within 1 µs and sets FENCED. -/
  | hostLinkDown
  /-- PERST_N_ASSERT (R398): PERST_N assertion or hot reset resets the host interface and uncommits the HDM decoders. -/
  | perstNAssert (hot : Bool)
  /-- FUNCTION_LEVEL_RESET (R398): A function level reset resets CXL.io state, BARs and MSI-X only. -/
  | functionLevelReset
  /-- HDM_DECODER_COMMIT (R388): A decoder commit maps a host range to DPA or fails with Error Not Committed. -/
  | hdmDecoderCommit (k : Fin 2) (d : HdmDecoder)
  /-- GET_EVENT_RECORDS (R393): Mailbox command returning event records. -/
  | getEventRecords (inp : List Byte)
  /-- CLEAR_EVENT_RECORDS (R393): Mailbox command clearing event records. -/
  | clearEventRecords (inp : List Byte)
  /-- GET_EVENT_INTERRUPT_POLICY (R393): Mailbox command returning the event interrupt policy. -/
  | getEventInterruptPolicy (inp : List Byte)
  /-- SET_EVENT_INTERRUPT_POLICY (R393): Mailbox command setting the event interrupt policy. -/
  | setEventInterruptPolicy (inp : List Byte)
  /-- GET_FW_INFO (R393): Mailbox command returning the two firmware slots. -/
  | getFwInfo (inp : List Byte)
  /-- TRANSFER_FW (R393): Background mailbox command writing a firmware part to the non-running image. -/
  | transferFw (inp : List Byte)
  /-- TRANSFER_FW_COMPLETE (R393): A background Transfer FW part completes and vector 0 signals it. -/
  | transferFwComplete
  /-- ACTIVATE_FW (R393): Activate FW on next cold reset inverts PRIMARY in a state record. -/
  | activateFw (inp : List Byte)
  /-- GET_TIMESTAMP (R393): Mailbox command returning the timestamp. -/
  | getTimestamp (inp : List Byte)
  /-- SET_TIMESTAMP (R393): Mailbox command setting the timestamp, independent of fabric time. -/
  | setTimestamp (inp : List Byte)
  /-- GET_SUPPORTED_LOGS (R393): Mailbox command listing the Command Effects Log. -/
  | getSupportedLogs (inp : List Byte)
  /-- GET_LOG (R393): Mailbox command returning the Command Effects Log. -/
  | getLog (inp : List Byte)
  /-- IDENTIFY_MEMORY_DEVICE (R393): Mailbox command returning the memory identity. -/
  | identifyMemoryDevice (inp : List Byte)
  /-- GET_HEALTH_INFO (R393): Mailbox command returning the health status. -/
  | getHealthInfo (inp : List Byte)
  /-- GET_POISON_LIST (R393): Mailbox command returning poisoned lines. -/
  | getPoisonList (inp : List Byte)
  /-- INJECT_POISON (R393): Mailbox command poisoning a line, refused outside test mode. -/
  | injectPoison (inp : List Byte)
  /-- CLEAR_POISON (R393): Mailbox command clearing a poisoned line. -/
  | clearPoison (inp : List Byte)
  /-- MBOX_UNSUPPORTED (R393): An unsupported mailbox opcode returns Unsupported. -/
  | mboxUnsupported (op : BitVec 16) (inp : List Byte)
  /-- GET_DEVICE_INFO (R394): Vendor command returning part, versions, map, coordinate and the equivalence flag. -/
  | getDeviceInfo (inp : List Byte)
  /-- GET_FAULT_LOG (R394): Vendor command returning fault-log entries. -/
  | getFaultLog (inp : List Byte)
  /-- GET_DUMP_INFO (R394): Vendor command returning the dump area description. -/
  | getDumpInfo (inp : List Byte)
  /-- SET_POWER_CAP (R396): Vendor command setting the host cap, which joins the effective cap. -/
  | setPowerCap (inp : List Byte)
  /-- GET_POWER_STATUS (R394): Vendor command returning power and cap status. -/
  | getPowerStatus (inp : List Byte)
  /-- LEHR_TRIGGER (R459): Vendor command starting a Lehr pass. -/
  | lehrTrigger (inp : List Byte)
  /-- SPDM_MESSAGE (R478): Vendor command carrying an SPDM request and returning its response. -/
  | spdmMessage (inp : List Byte)
  /-- GET_LINK_SUMMARY (R394): Vendor command returning every logical port's status. -/
  | getLinkSummary (inp : List Byte)
  /-- CLEAR_OUT_OF_SERVICE (R394): Vendor command that always returns PERM over the host mailbox. -/
  | clearOutOfService (inp : List Byte)
  /-- SMBUS_FALLBACK (R399): No I3C controller addresses the device within 100 ms, or SMBus framing is seen, so it answers as an SMBus target. -/
  | smbusFallback
  /-- MCTP_MESSAGE (R399): An MCTP message arrives over I3C, SMBus or PCIe VDM and is dispatched to PLDM or SPDM. -/
  | mctpMessage (t : Transport) (eid : Byte) (msgType : Byte) (body : List Byte)
  /-- PLDM_SENSOR_READ (R399): PLDM Type 2 reads power, temperature, flow or fault-state sensors. -/
  | pldmSensorRead (sensor : PldmSensor)
  /-- PLDM_SET_POWER_CAP (R396): The tray controller sets its cap over PLDM. -/
  | pldmSetPowerCap (w : Nat)
  /-- PLDM_FIRMWARE_UPDATE (R401): PLDM Type 5 writes an image, refused while another transfer runs. -/
  | pldmFirmwareUpdate (img : Bool) (step : FwStep)
  /-- PLDM_SELECT_BOOT_IMAGE (R400): The tray controller switches PRIMARY with a new state record. -/
  | pldmSelectBootImage (img : Bool)
  /-- PLDM_CLEAR_OUT_OF_SERVICE (R423): The tray controller clears out of service, which empties the escalation history and starts a full device recovery. -/
  | pldmClearOutOfService
  /-- PLDM_LEHR_TRIGGER (R459): The PLDM equivalent of LEHR_TRIGGER starts a Lehr pass. -/
  | pldmLehrTrigger
  /-- LEAK_CLEAR (R446): The tray controller's PLDM write clears the wet latch when the sensor reads dry. -/
  | leakClear
  /-- SPI_HOLD_OFF_ASSERT (R401): SPI_HOLD_OFF_N releases the SPI pins within 1 µs and holds boot. -/
  | spiHoldOffAssert
  /-- SPI_HOLD_OFF_RELEASE (R473): SPI_HOLD_OFF_N is released, so flash access and boot resume, restarting an image read. -/
  | spiHoldOffRelease
  /-- COMPUTE_RESET (R416): RESET_CMD 1 or a fault fences contexts, stops benches, drains, dumps and clears the compute part. -/
  | computeReset (src : ResetSource)
  /-- FULL_DEVICE_RECOVERY (R417): RESET_CMD 2 or a fault runs the compute reset steps, then retrains ports, retests SRAM, retrains memory and retakes time. -/
  | fullDeviceRecovery (src : ResetSource)
  /-- BENCH_HANG_CHECK (R412): A checked bench makes no progress for BENCH_HANG_WIN, so a program hang stops the launch or a hardware hang starts a compute reset. -/
  | benchHangCheck (b : Fin 100)
  /-- PORT_HANG_CHECK (R413): A port with queued packets sends nothing for PORT_HANG_WIN, which is PORT_HANG or PARTNER_STALL. -/
  | portHangCheck (lp : Fin 512)
  /-- MEM_HANG_CHECK (R414): A controller with pending accesses completes none for MEM_HANG_WIN, which is MEM_HANG. -/
  | memHangCheck (m : Fin 28)
  /-- STEWARD_WATCHDOG_EXPIRY (R406): The steward watchdog expires 100 ms after the last kick, so the steward restarts. -/
  | stewardWatchdogExpiry
  /-- STEWARD_RESTART_COMPLETE (R456): The steward is back within 300 ms and reclaims its outputs, regenerating the identity and resuming the mailbox. -/
  | stewardRestartComplete
  /-- RESULT_SLOT_POISON_END (R409): A result table slot poisoned by an uncorrectable error is released after RESULT_HOLD. -/
  | resultSlotPoisonEnd (k : Nat)
  /-- POWER_CONTROL_INTERVAL (R434): Every 10 µs the device combines its limits and sets bins, bandwidth limits, duty and pacing. -/
  | powerControlInterval (watts : Nat) (est : PowerEstimate)
  /-- CAP_WINDOW_END (R439): A 10 ms window ends, and if its average is over the cap CAP_DEFICIT is set and logged. -/
  | capWindowEnd (avgW : Nat)
  /-- PWR_CAP_N_RECOGNISED (R440): PWR_CAP_N held low for 200 ns enters the cap-floor state within 2 µs. -/
  | pwrCapNRecognised
  /-- CAP_FLOOR_END (R440): The cap-floor state ends after 100 µs with PWR_CAP_N high, so deferred launches are taken. -/
  | capFloorEnd
  /-- SHELF_ALERT_N_ASSERT (R441): SHELF_ALERT_N adds SHELF_CAP to the effective cap within 100 µs. -/
  | shelfAlertNAssert
  /-- SHELF_CAP_RELEASE (R441): SHELF_CAP leaves the effective cap 100 ms after the signal is released. -/
  | shelfCapRelease
  /-- FLOW_PULSE_EDGE (R444): A rising edge on FLOW_PULSE arms supervision or feeds the flow rate and flow-loss exit. -/
  | flowPulseEdge
  /-- FLOW_LOSS (R444): No flow edge for 50 ms applies the 35 % throttle, full cooling and ALERT_N. -/
  | flowLoss
  /-- LEAK_SENSE_EDGE (R445): An edge on LEAK_SENSE is decoded as dry, self-test or glitch. -/
  | leakSenseEdge (rising : Bool)
  /-- LEAK_WET (R446): LEAK_SENSE low for 20 ms latches wet, applies the emergency throttle and logs LEAK_WET. -/
  | leakWet
  /-- LEAK_SENSOR_FAILED (R447): A stopped or stuck leak sensor enters the sensor-fault state. -/
  | leakSensorFailed
  /-- THERMAL_SAMPLE (R448): Every 100 µs the 48 sensors are sampled, failed sensors substituted, and Tj responses applied. -/
  | thermalSample (temps : List Int)
  /-- THERMAL_TRIP (R449): Tj at or above 115 °C asserts THERM_TRIP_N, stops fast clocks and closes shutters within 10 µs. -/
  | thermalTrip
  /-- GOVERNOR_UPDATE (R454): Every 1 ms the governor computes its three stage values with claim 0x40. -/
  | governorUpdate
  /-- STEWARD_STAGE_WRITE (R455): The steward writes a stage input with a value and claim, and the higher claim drives the output. -/
  | stewardStageWrite (k : Fin 3) (value : BitVec 16) (claim : Byte)
  /-- STEWARD_CLAIM_EXPIRY (R455): A steward input not refreshed for 4 ms has its claim withdrawn. -/
  | stewardClaimExpiry (k : Fin 3)
  /-- TIMING_MARGIN_WARNING (R458): A margin detector warning raises the domain's voltage one step, or steps the bin down. -/
  | timingMarginWarning (d : MarginDomain)
  /-- FMAX_CTRL_WRITE (R433): A write to FMAX_CTRL sets the highest bench and switching-core bins. -/
  | fmaxCtrlWrite (r : Requester) (v : W32)
  /-- LEHR_INTERVAL_EXPIRY (R459): LEHR_INTERVAL elapses with AUTO_EN set and a Lehr pass starts. -/
  | lehrIntervalExpiry
  /-- LEHR_START (R459): A write of START to LEHR_CTRL starts a Lehr pass. -/
  | lehrStart (r : Requester) (v : W32)
  /-- LEHR_STEP_COMPLETE (R459): A step of the Lehr pass completes and the next begins, ending with a ledger entry. -/
  | lehrStepComplete (m : LehrMeasure)
  /-- MEMORY_RETRAIN_WINDOW (R459): A controller due for retraining is idle for 10 ms and is retrained within 50 ms. -/
  | memoryRetrainWindow (m : Fin 28)
  /-- FLASH_HEADER_READ_COMPLETE (R466): An image header is read and checked for format, key, signature and rollback. -/
  | flashHeaderReadComplete (obs : FlashObs)
  /-- FLASH_BODY_READ_COMPLETE (R466): An image body is read and its digest compared, falling back or entering RECOVERY on failure. -/
  | flashBodyReadComplete (obs : FlashObs)
  /-- HOST_READY (R470): The steward firmware runs, so host-ready is reached and the mailbox and MCTP are ready. -/
  | hostReady
  /-- MEMORY_TRAINING_COMPLETE (R470): Loam and Subsoil are trained and Memory_Active becomes 1. -/
  | memoryTrainingComplete
  /-- BOOT_READY (R470): The warden program starts, BOOT_STATUS reports READY and the image flags are applied. -/
  | bootReady
  /-- DEBUG_CHALLENGE_READ (R479): A read of CHALLENGE returns a new nonce and the identity hash, voiding the old nonce. -/
  | debugChallengeRead
  /-- DEBUG_TOKEN_WRITE (R480): A TOKEN is verified and unlocks the debug port, or is refused and counted toward lockout. -/
  | debugTokenWrite (token : List Byte)
  /-- GET_VERSION (R478): SPDM request returning the supported versions. -/
  | getVersion (t : Transport) (req : List Byte)
  /-- GET_CAPABILITIES (R478): SPDM request returning the responder capabilities. -/
  | getCapabilities (t : Transport) (req : List Byte)
  /-- NEGOTIATE_ALGORITHMS (R478): SPDM request agreeing SHA3-512 and SLH-DSA, or returning InvalidRequest. -/
  | negotiateAlgorithms (t : Transport) (req : List Byte)
  /-- GET_DIGESTS (R478): SPDM request returning certificate chain digests. -/
  | getDigests (t : Transport) (req : List Byte)
  /-- GET_CERTIFICATE (R476): SPDM request returning the slot 0 certificate chain. -/
  | getCertificate (t : Transport) (req : List Byte)
  /-- CHALLENGE (R478): SPDM request answered with an identity signature. -/
  | challenge (t : Transport) (req : List Byte)
  /-- GET_MEASUREMENTS (R477): SPDM request returning the signed measurement blocks. -/
  | getMeasurements (t : Transport) (req : List Byte)
  /-- CHUNK_SEND (R478): SPDM request carrying one chunk of a large message. -/
  | chunkSend (t : Transport) (req : List Byte)
  /-- CHUNK_GET (R478): SPDM request fetching one chunk of a large response. -/
  | chunkGet (t : Transport) (req : List Byte)
  /-- SPDM_UNSUPPORTED (R478): Any other SPDM request is answered with UnsupportedRequest. -/
  | spdmUnsupported (t : Transport) (req : List Byte)
  /-- SIGNATURE_COMPLETE (R475): A deterministic identity signature finishes within 400 ms and ATTEST_SIGNS is counted. -/
  | signatureComplete (t : Transport)
  /-- EVSEL_WRITE (R485): A write to EVSEL_k selects an event and clears its counter and OVF bit. -/
  | evselWrite (r : Requester) (blk : Fin 242) (k : Fin 8) (v : W32)
  /-- CNT_WRITE (R487): A write to CNT_k sets the count, discarding that cycle's increments. -/
  | cntWrite (r : Requester) (blk : Fin 242) (k : Fin 8) (v : W64)
  /-- BW_CTRL_WRITE (R491): A write of W discards the window in progress and starts a new one at the next boundary. -/
  | bwCtrlWrite (r : Requester) (p : Fin 128) (v : W32)
  /-- BW_WINDOW_END (R491): A bandwidth window ends, its byte counts are written and BW_SEQ increments. -/
  | bwWindowEnd (p : Fin 128)
  /-- COMPUTE_RESET_COMPLETE (R416): At the end of the compute reset the compute part is cleared, fenced generations increment, the fence ends, held teardowns begin and the warden program restarts. -/
  | computeResetComplete
  /-- FULL_DEVICE_RECOVERY_COMPLETE (R417): Full device recovery ends after memory retraining, port training and time retake, and the warden program reloads the tables. -/
  | fullDeviceRecoveryComplete
  /-- CONTROL_STATE_SWEEP (R406): A periodic sweep finds an uncorrectable switch state, instance record, context record or result table entry, which triggers its class's action. -/
  | controlStateSweep (cls : SweepClass) (idx : Nat)
  /-- CRUCIBLE_PATROL_SCRUB (R196): Patrol scrub reads each crucible slice line at least once every 24 h and corrects it or logs a LATENT fault. -/
  | cruciblePatrolScrub (b : Fin 100) (line : Nat) (obs : MemObs)
  /-- STEWARD_MEMORY_UE (R406): Steward ECC finds an uncorrectable steward memory error, which logs a STEWARD fault and restarts the steward. -/
  | stewardMemoryUe
  /-- SENSOR_SUPERVISION_ARM (R444): At 1 s after power-up, flow and leak supervision arm if no valid edge has already armed them. -/
  | sensorSupervisionArm
  /-- PERST_N_DEASSERT (R397): PERST_N deassertion releases the host interface from reset and starts host link training, with configuration responses 100 ms later. -/
  | perstNDeassert
  /-- SPARE_CFG_WRITE (R376): A write of SPARE_CFG with EN 1 sets the spare's target and starts its training toward STANDBY, or disables it. -/
  | spareCfgWrite (r : Requester) (n : Fin 528) (v : W32)
  /-- PRBS_CHECKER_LOCK (R372): The raw-mode PRBS checker seeds itself from the received bits and locks after 64 error-free bits, then counts bits and errors. -/
  | prbsCheckerLock (n : Fin 528) (w2 : Bool) (bits : List Bool)
  /-- FLASH_HOLD_TIMEOUT (R466): A chip select held by SPI_HOLD_OFF_N for more than 60 s during boot fails the image with reason FLASH. -/
  | flashHoldTimeout
  deriving DecidableEq, Repr

end Sys2Proof
end

