-- ==== Sys2Proof/Machine/State.lean ====
section
/-! DEFINITION. The state of the block: everything the spec gives Twijor, as plain data, and the
state after reset. BAR0 registers that no structured field holds live in `State.regs`, a sparse map
from BAR0 offset to value; an unlisted offset reads as its reset value (Machine/RegMap.lean). -/

namespace Sys2Proof.Machine

/-- A sparse map: keys strictly rising, no entry equal to what an unlisted key reads as. -/
abbrev Sparse (α : Type) := List (Nat × α)

/-! ### Packets and what leaves the device -/

/-- A packet (R42): header, payload, count word (present when CNT is 1) and trailer. -/
structure Packet where
  h : Hdr
  payload : List Byte
  count : W32 := 0
  crc : W32 := 0
  deriving DecidableEq, Repr

/-- What crosses a link or is stored in the buffer: a packet or a grain cell (R41). -/
inductive Item where
  | packet (p : Packet)
  | cell (c : GrainCell)
  deriving DecidableEq, Repr

/-- The MetaField of an S2M response: the device stores no meta state (R389). -/
inductive MetaField where
  | noOp
  deriving DecidableEq, Repr

/-- What leaves the device or reaches one of its pins' owners, in order of leaving. -/
inductive Emit where
  /-- A packet, or the cells it was segmented into, starts to leave logical port `lp`. -/
  | packet (lp : Nat) (p : Packet)
  | cells (lp : Nat) (cs : List GrainCell)
  | cell (lp : Nat) (c : GrainCell)
  /-- A packet whose header had left is ended with this (stomped) trailer (R50). -/
  | ended (lp : Nat) (p : Packet)
  /-- A control item (R356). -/
  | control (lp : Nat) (ws : List W32)
  /-- The line bits of one frame on one wavelength (R344). -/
  | frame (lane : Nat) (w2 : Bool) (bits : List Bool)
  /-- A training record on a lane (R368). -/
  | training (lane : Nat) (rec : List Byte)
  /-- An MSI-X message (R278, R395). -/
  | msix (vector : Nat)
  /-- The data of a register read (R8). -/
  | readData (r : Requester) (off : Nat) (v : W64)
  /-- The answer to a host memory access: its bytes, the poison or EP mark (R390), and in CXL mode the
  MetaField (R389). -/
  | hostData (addr : Nat) (data : List Byte) (poison : Bool) (mf : Option MetaField := none)
  /-- The S2M completion of a CXL.mem write (R389). -/
  | hostDone (addr : Nat) (mf : MetaField)
  | hostRefused (addr : Nat)
  /-- A completed mailbox command: return code and output payload (R393, R394). -/
  | mailbox (op : BitVec 16) (ret : BitVec 16) (out : List Byte)
  | spdm (t : Transport) (rsp : List Byte)
  | pldm (code : Byte) (data : List Byte)
  | jtag (data : List Byte)
  /-- Configuration Request Retry Status, for the access of the host at `off` (R397). -/
  | configRetry (off : Nat)
  /-- The response to an MCTP control request (R399). -/
  | mctp (t : Transport) (rsp : List Byte)
  deriving DecidableEq, Repr

/-! ### Time -/

/-- Always-on time and fabric time (R269, R279-R284, R410, R516). -/
structure Clock where
  aonNs : Nat := 0
  ftime : W64 := 0
  ftimeSub : BitVec 16 := 0
  ftimeB : W64 := 0
  timeValid : Bool := false
  locked : Bool := false
  goodRun : Nat := 0
  lostRun : Nat := 0
  seqnum : BitVec 16 := 0
  /-- The outstanding request: its SEQNUM, T1 and the always-on time it left. -/
  reqOut : Option (BitVec 16 × W64 × Nat) := none
  /-- When earlier requests left that a later one superseded, their 10 µs not over (R283). -/
  reqOld : List Nat := []
  lastReqAt : Nat := 0
  /-- Correction still to be slewed, in 1/65,536 ns. -/
  slew : Int := 0
  lastOffset : Int := 0
  fabRef : Bool := true
  cxlRef : Bool := true
  deriving DecidableEq, Repr

/-! ### Switching core -/

/-- The reserve that a stored item's granules are charged to (R66-R69). -/
inductive Charge where
  | headroom (lp vc : Nat)
  | shared
  | internal
  deriving DecidableEq, Repr

/-- A packet or cell in the output-queued buffer (R64, R65, R76). -/
structure Stored where
  id : Nat
  item : Item
  granules : Nat
  charge : Charge
  /-- The transit account its credits return to: logical port, VC; none when they are returned. -/
  credit : Option (Nat × Nat) := none
  /-- Egress queues that hold its pointer, plus 1 while an own unit has not read it (R76). -/
  refs : Nat := 0
  storedAt : Nat := 0
  /-- The words found uncorrectable, each at the first read that met it (R65). -/
  bad : List Nat := []
  /-- Egress ports whose copy had begun to leave when a word was found: it ends stomped (R50, R65). -/
  stomped : List Nat := []
  /-- Those of them whose header left with POISON, for a word found in error before (R48). -/
  poisoned : List Nat := []
  /-- The logical port it arrived on; none: made inside the device. -/
  inLp : Option Nat := none
  /-- Egress ports on which its header has left (R65, R75). -/
  headOut : List Nat := []
  /-- Still arriving (cut-through, R74). -/
  arriving : Bool := false
  cellsOnly : Bool := false
  /-- It arrived at a port and is forwarded, so its HOP falls by 1 at egress (R47). -/
  fwd : Bool := true
  /-- Cells of a segmented packet already sent, by egress port (R59, R71). -/
  cellsSent : Sparse Nat := []
  /-- One stored copy serves every stored packet of this group (R136, PLACE 3). -/
  share : Option Nat := none
  deriving DecidableEq, Repr

/-- A sender-side credit account (R71, R362): limit in units, the rest in granules. -/
structure TxAcct where
  advertised : Bool := false
  limit : Nat := 0
  returned : Nat := 0
  charged : Nat := 0
  deriving DecidableEq, Repr

/-- A receiver-side credit account (R72, R73, R362): limit at link-up in units; granules returned
and freed since link-up; the VALUE last sent. -/
structure RxAcct where
  granted : Bool := false
  base : Nat := 0
  returned : Nat := 0
  freed : Nat := 0
  sent : Nat := 0
  /-- Granules withheld while 1,024 messages are open in reassembly (R62). -/
  held : Nat := 0
  deriving DecidableEq, Repr

/-- Why a packet entered the buffer from inside the device (R27). -/
inductive Writer where
  /-- A result stage: bench `stage`'s, or the collective unit's own (100). -/
  | result (k : InstKey) (chunk : Nat) (stage : Nat)
  | answer
  | bench (b : Nat)
  deriving DecidableEq, Repr

/-- A packet an internal writer holds until the buffer admits it (R27, R69). -/
structure HeldWrite where
  writer : Writer
  pkt : Packet
  /-- The other packets that leave from the same stored copy (R136, PLACE 3). -/
  more : List Packet := []
  deriving DecidableEq, Repr

/-- The egress decision for an arriving packet (R89-R95). -/
inductive Decision where
  | discard
  /-- Discarded with this answer to the source of a VC2 or VC6 request (R90). -/
  | refuse (code : Nat)
  | own (unit : Nat)
  | forward (lps : List Nat) (localUnit : Option Nat) (cells : Bool)
  deriving DecidableEq, Repr

/-- A packet whose header is complete and whose end has not come (R52, R54). -/
structure Arrival where
  h : Hdr
  decision : Decision
  /-- The stored identifier when it is cut through (R74). -/
  ct : Option Nat := none
  beganAt : Nat := 0
  deriving DecidableEq, Repr

/-- Where the later cells of a cell message in transit go (R60). -/
structure CellRoute where
  lp : Nat
  src : W32
  vc : Nat
  /-- none: the first cell was discarded here, later cells are discarded without a count. -/
  egress : Option (List Nat × Option Nat)
  /-- Egresses of the message that have left the active state since its first cell (R99). -/
  gone : List Nat := []
  deriving DecidableEq, Repr

/-- A message open in reassembly (R61). -/
structure Reasm where
  src : W32
  vc : Nat
  unit : Nat
  lp : Nat
  dest : W32
  part : Nat
  mc : Bool
  next : Nat
  poison : Bool
  hop : Nat
  stream : List Byte
  lastAt : Nat
  /-- VC2 terminating granules that its end returns (R26, R62). -/
  held : Nat := 0
  deriving DecidableEq, Repr

/-- When and whence an access reached the pool unit (R305): always-on time; the host 0, a port 1 + logical port,
a bench path 1,024 + bench × 8 + core; and its number. -/
structure Reach where
  at' : Nat := 0
  rank : Nat := 0
  seq : Nat := 0
  deriving DecidableEq, Repr

/-- A packet waiting at an own unit, with the port it came by (none: made inside the device). -/
structure Inbound where
  pkt : Packet
  lp : Option Nat
  /-- The core that issued it (R256). -/
  core : Option (Nat × Nat) := none
  /-- Returns its terminating credit when taken (R72). -/
  units : Nat := 0
  arrivedAt : W64 := 0
  /-- A multicast's local copy: the stored packet that the unit reads (R76, R92). -/
  stored : Option Nat := none
  /-- A pool request's place in the order in which requests reach the pool unit (R305). -/
  reach : Reach := {}
  deriving DecidableEq, Repr

/-- A cell that waits because 1,024 messages are open in reassembly (R62). -/
structure WaitCell where
  lp : Nat
  unit : Nat
  cell : GrainCell
  term : Bool
  stored : Option Nat := none
  deriving DecidableEq, Repr

/-- A message whose cells leave port `lp`: its last cell has not left (R60). `msg` tells apart messages of
one SRC and VC: the ingress port of a message in transit. -/
structure CellOpen where
  lp : Nat
  vc : Nat
  src : W32
  msg : Nat
  deriving DecidableEq, Repr

structure Switch where
  stored : List Stored := []
  nextId : Nat := 0
  /-- Packet identifiers per egress queue, keyed logical port × 8 + VC. -/
  queues : Sparse (List Nat) := []
  deficit : Sparse Int := []
  /-- Cap balances of VC0 and VC1 in 1/1000 byte, and the time each was last credited. -/
  capBal : Sparse Int := []
  capAt : Sparse Nat := []
  rr : Sparse Nat := []
  txAcct : Sparse TxAcct := []
  rxAcct : Sparse RxAcct := []
  headroom : Sparse Nat := []
  sharedUsed : Nat := 0
  intUsed : Nat := 0
  quar : Nat := 0
  quarRaised : Bool := false
  held : List HeldWrite := []
  arrivals : Sparse Arrival := []
  cellRoute : List CellRoute := []
  /-- Messages in cells part-way out of an egress port (R60). -/
  cellOpen : List CellOpen := []
  reasm : List Reasm := []
  /-- Cells that wait for a reassembly entry, oldest first (R62). -/
  reasmWait : List WaitCell := []
  /-- Egress queues stopped by an uncorrectable pointer, by queue key (R77). -/
  stopped : List Nat := []
  ctlIn : List Inbound := []
  deriving DecidableEq, Repr

/-! ### Route tables -/

/-- An uncorrectable error in a table entry, and whether it was detected (R110). -/
structure EntryErr where
  ref : EntryRef
  detected : Bool
  deriving DecidableEq, Repr

structure Route where
  /-- Entry words, keyed as `entryKey` lays the banks out (R108). -/
  tbl : Sparse W32 := []
  errs : List EntryErr := []
  /-- Entries with a single-bit error that no lookup or sweep has corrected yet (R110). -/
  ces : List EntryRef := []
  activeBank : Bool := false
  /-- 0 IDLE, 1 ARMED, 2 DONE, 3 REFUSED (R106), and the reason. -/
  swap : BitVec 2 := 0
  reason : BitVec 2 := 0
  copyUntil : Option Nat := none
  rejoin : Sparse Nat := []
  deriving DecidableEq, Repr

/-! ### Ports and lanes -/

inductive PortState where
  | down | training | active | failed | outOfService
  deriving DecidableEq, Repr

/-- Sleep states of one direction (R374). -/
inductive DirState where
  | active | doze | nap | off
  deriving DecidableEq, Repr

/-- An item in the replay buffer (R357): its LSEQ and its tagged bytes. -/
structure Replayable where
  lseq : BitVec 12
  bytes : List Byte
  deriving DecidableEq, Repr

/-- A spare swap in progress (R377). -/
structure SpareSwap where
  pos : Nat
  back : Bool
  partnerAt : Option Nat := none
  initiator : Bool := true
  /-- When this end's SPARE_SWAP or SWAP_ECHO last left. -/
  sentAt : Nat := 0
  deriving DecidableEq, Repr

structure Port where
  st : PortState := .down
  retraining : Bool := false
  reason : Nat := 0
  tx : DirState := .active
  rx : DirState := .active
  offHeld : Bool := false
  idleSince : Nat := 0
  fadami : Bool := false
  partnerFabric : Bool := false
  partnerCellsOnly : Bool := false
  partnerIndep : Bool := false
  partnerCoord : W32 := 0
  rttNs : W32 := 0
  freqOffset : W32 := 0
  /-- Training step of R367 reached, its deadline and start. -/
  trainStep : Nat := 0
  trainAt : Nat := 0
  switchAt : Option Nat := none
  /-- The SWITCH_AT frame that this end proposes (R367 step 4). -/
  ownSwitch : Option Nat := none
  /-- Link-level retry (R357-R361). -/
  txLseq : BitVec 12 := 0
  rxLseq : BitVec 12 := 0
  ackOwed : Bool := false
  nakOut : Bool := false
  nakAt : Nat := 0
  replay : List Replayable := []
  ackAt : Nat := 0
  replayRun : Nat := 0
  /-- Tagged items waiting to be sent, with their LSEQ; the tagged stream being cut into blocks; cut
  blocks waiting for their lanes. -/
  txQ : List (Option (BitVec 12) × List Byte) := []
  txStream : List Byte := []
  /-- Offsets in `txStream` at which a tag starts. -/
  txTags : List Nat := []
  txBlk : Nat := 0
  txBlocks : List (Nat × List Byte) := []
  holdFrom : Option Nat := none
  /-- Received blocks by number, the next to parse, the parser's partial item. -/
  rxNextBlk : Nat := 0
  rxBlocks : List (Nat × Option (List Byte)) := []
  rxPart : List Byte := []
  rxSync : Bool := true
  rxItems : List (W32 × List Byte) := []
  swap : Option SpareSwap := none
  /-- A control item that only an ACTIVE end sends has come since this end's LINK_UP (R356). -/
  peerUp : Bool := false
  /-- The transmit direction is waking; the time it resumes blocks (R375). -/
  txWakeAt : Option Nat := none
  /-- Hang check (R413): last item sent or discarded. -/
  lastSendAt : Nat := 0
  deriving DecidableEq, Repr

/-- LANE_STATUS state (R381). -/
inductive LaneState where
  | off | training | locked | inUse | standby | faulty | test
  deriving DecidableEq, Repr

/-- One wavelength's frame of a native lane, which waits for the other's of its index: the line bit at which it starts,
and its codewords, none of an idle frame (R351). -/
structure RxHalf where
  w2 : Bool
  at' : Nat
  words : Option (List (List Bool × Bool))
  deriving DecidableEq, Repr

/-- Per-wavelength receive and transmit state (R344-R350, R372, R373). -/
structure Wave where
  lock : Bool := false
  commas : Nat := 0
  missed : Nat := 0
  txScr : BitVec 58 := 0
  rxScr : BitVec 58 := 0
  prbsGen : BitVec 31 := 1
  prbsRx : BitVec 31 := 0
  prbsClean : Nat := 0
  /-- Line bits received that are not part of a frame yet (R348). -/
  tail : List Bool := []
  /-- Line bits received since the lane's signalling began, by which frames of two wavelengths are paired (R351). -/
  rxBits : Nat := 0
  prbsLock : Bool := false
  /-- The equalisation search of its receiver is done (R370). -/
  eqDone : Bool := false
  /-- The last PAM4 level sent and received (R365). -/
  txY : BitVec 2 := 0
  rxY : BitVec 2 := 0
  deriving DecidableEq, Repr

structure Lane where
  st : LaneState := .off
  fadami : Bool := false
  miscabled : Bool := false
  position : Nat := 0
  w1 : Wave := {}
  w2 : Wave := {}
  shutter : Bool := false
  partnerId : W64 := 0
  sameIds : Nat := 0
  frameNo : BitVec 16 := 0
  rxFrameNo : BitVec 16 := 0
  rxCaps : Byte := 0
  rxCoord : W32 := 0
  eqRequest : W32 := 0
  eqAck : Bool := false
  /-- When the last record came, frames sent with their times, and step 6 reached (R367, R368). -/
  rxAt : Nat := 0
  frames : List (BitVec 16 × Nat) := []
  ready : Bool := false
  /-- When a spare's training started (R367, R376). -/
  trainAt : Nat := 0
  /-- Lane content received, with a bad mark per byte, and the other wavelength's codewords. -/
  rxBytes : List (Byte × Bool) := []
  rxHalf : Option RxHalf := none
  txBytes : List Byte := []
  idleRun : Nat := 0
  prbs31 : BitVec 31 := 1
  injArmed : Bool := false
  injFrames : Nat := 0
  ueTimes : List Nat := []
  eyeBusy : Bool := false
  eyeDone : Bool := false
  /-- The SWITCH_AT frames that a spare proposes and its partner proposed (R367 step 4, R376). -/
  ownSwitch : Option Nat := none
  switchAt : Option Nat := none
  /-- A spare stands in for this lane (R376, R377). -/
  serves : Option Nat := none
  deriving DecidableEq, Repr

/-! ### Collectives -/

inductive InstState where
  | counting | running | complete | poisoned | refused | abandoned
  deriving DecidableEq, Repr

/-- The accumulator of one element: the exact integer and tallies of R165, R166, or the
accumulator float of R168. -/
structure Acc where
  x : Int := 0
  pinf : Bool := false
  ninf : Bool := false
  nan : Bool := false
  nz : Bool := false
  f : BitVec 48 := 0
  started : Bool := false
  deriving DecidableEq, Repr

/-- A contribution on its way to a parison (R199, R260). -/
structure Contribution where
  key : InstKey
  chunk : Nat
  member : Nat
  ecount : Nat
  first : Nat
  isPartial : Bool
  elems : List Byte
  sub : List Byte
  src : W32
  core : Option (Nat × Nat)
  twin : Bool
  deriving DecidableEq, Repr

/-- One bench's reduction of a chunk: the primary's, or the twin's (R126, R146, R171, R260). -/
structure Side where
  /-- Members added or taken, in order. -/
  applied : List Nat := []
  acc : List Acc := []
  /-- Contributions ahead of their turn in pinned mode (R171). -/
  staged : List Contribution := []
  /-- Elements received, and those of each member (VARSIZE, R133, R135). -/
  got : Nat := 0
  gotBy : Sparse Nat := []
  /-- Element bytes of a result held or being written, with the always-on time it was finalised. -/
  result : Option (List Byte × Nat) := none
  /-- The chunk program's item is posted (R259). -/
  posted : Bool := false
  /-- Crucible bytes a chunk program wrote (R130, R195), keyed by byte offset. -/
  scratch : List Host.Cell := []
  /-- Crucible words with an error: byte offset, and whether it can be corrected (R196). -/
  bad : List (Nat × Bool) := []
  deriving DecidableEq, Repr

/-- One chunk of an instance in its parison (R126, R135, R146, R259). -/
structure Chunk where
  idx : Nat
  /-- Members whose contribution is admitted. -/
  seen : List Nat := []
  /-- Elements admitted per member (VARSIZE, R144). -/
  recv : Sparse Nat := []
  main : Side := {}
  twin : Side := {}
  /-- Its result or PARTIAL has been handed to the buffer. -/
  sent : Bool := false
  /-- Subheaders of a twin instance's contributions whose COLL record is made or consumed (R331). -/
  recorded : List (List Byte) := []
  deriving DecidableEq, Repr

/-- An instance record, live or tombstone (R131, R132). -/
structure Inst where
  key : InstKey
  st : InstState
  spilled : Bool := false
  frit : Bool := false
  code : Byte := 0
  /-- The handle's entry and member table as read at open (R117). -/
  entry : List W32 := []
  members : List W32 := []
  total : Nat := 0
  part : Byte := 0
  owners : List Nat := []
  openedAt : Nat := 0
  openFt : W64 := 0
  tombAt : Nat := 0
  chunks : List Chunk := []
  /-- Chunks finalised, and chunks whose result or PARTIAL is written. -/
  finalised : List Nat := []
  written : List Nat := []
  upperDone : List Nat := []
  counts : Sparse Nat := []
  offsets : List Nat := []
  /-- Per member: chunks applied, the fabric time of the last, the SRC it sent from. -/
  memberChunks : Sparse Nat := []
  memberTime : Sparse Nat := []
  memberSrc : Sparse W32 := []
  /-- The core that contributes for a member (bench × 8 + core + 1). -/
  memberCore : Sparse Nat := []
  /-- The member or the entry that a tombstone's code names (R138). -/
  blame : Option Nat := none
  entryFault : Bool := false
  /-- The first member whose contribution failed R124 order 8 (R138). -/
  firstBad : Option Nat := none
  sent : List (Nat × Byte) := []
  primClaim : Byte := 0x80
  twinClaim : Byte := 0
  /-- The twin's own record of applied contributions, and the member each side applied last (R140). -/
  twinChunks : Sparse Nat := []
  twinTime : Sparse Nat := []
  lastMember : Option Nat := none
  twinLast : Option Nat := none
  /-- Chunk programs' sides that have taken every contribution: chunk × 2, plus 1 for the twin (R260). -/
  allTaken : List Nat := []
  lastProgress : Nat := 0
  progressEnd : Bool := false
  deriving DecidableEq, Repr

structure Coll where
  insts : List Inst := []
  inq : List Inbound := []
  deriving DecidableEq, Repr

/-! ### Benches and cores -/

inductive BenchState where
  | asleep | waking | awake
  deriving DecidableEq, Repr

/-- A work item (R202, R259): entry, argument, the chunk it is bound to. -/
structure WorkItem where
  entry : Nat
  arg : W64
  chunk : Option (InstKey × Nat) := none
  /-- Its number in posting order since the launch began (R202). -/
  num : Nat := 0
  /-- A chunk program that the chunk's twin bench runs (R259). -/
  twin : Bool := false
  deriving DecidableEq, Repr

/-- A DMA descriptor as its eight words (R200). -/
structure DmaDesc where
  ws : List W32
  deriving DecidableEq, Repr

/-- A VC5 message open at a bench (R100, R101): its range when known, and the packets held. -/
structure OpenMsg where
  src : W32
  chan : BitVec 12
  range : Option (BitVec 16 × Nat)
  pkts : List Inbound
  lastAt : Nat
  /-- Complete, its packets entering the receive queue: it stays open until the last has entered (R250). -/
  entering : Bool := false
  deriving DecidableEq, Repr

/-- Receive state of an ordered channel at an own unit (R99, R103). -/
structure ChanState where
  vc : Nat
  src : W32
  chan : BitVec 12
  lastSeq : Option (BitVec 16)
  count : Nat
  deriving DecidableEq, Repr

structure Bench where
  st : BenchState := .asleep
  wokeAt : Nat := 0
  halfRate : Bool := false
  idleSince : Nat := 0
  adderQ : List Contribution := []
  items : List WorkItem := []
  itemNum : Nat := 0
  /-- Chunk-program items that the device posts while the queue holds 256 (R202, R259). -/
  itemWait : List WorkItem := []
  /-- The adder queue took its last contribution from a core of the bench, not from the collective unit (R199). -/
  coreTurn : Bool := false
  /-- Times a core of the bench has become idle (R202). -/
  idleCount : Nat := 0
  tallies : Sparse W32 := []
  sendQ : List (Packet × Nat) := []
  /-- The receive queue, and what waits to enter it in order: single packets, and the packets of
  complete VC5 messages (R250). -/
  recvQ : List Inbound := []
  recvWait : List (List Inbound) := []
  /-- VC5 packets that wait while 64 messages are open (R103). -/
  vc5Wait : List Inbound := []
  msgs : List OpenMsg := []
  /-- Terminating credit withheld while the receive queue has no room or 64 VC5 messages are open, keyed
  logical port × 8 + VC (R72, R103). -/
  owed : Sparse Nat := []
  chans : List ChanState := []
  /-- The launch that holds the bench (its sequence number). -/
  launch : Option Nat := none
  dmaTurn : Nat := 0
  /-- Descriptors in progress by core, and when each reached the pool unit. -/
  dmaActive : Sparse (DmaDesc × Reach) := []
  lastAdderFault : Option Nat := none
  progressAt : Nat := 0
  deriving DecidableEq, Repr

/-- What a core waits for (R237, R249, R251, R256, R260, R232, R233). -/
inductive WaitKind where
  | tally | sendRoom | recv | recvh | ctake | contrib | fence | stall | record
  /-- A contribution whose slot holds another chunk (R256). -/
  | window
  deriving DecidableEq, Repr

/-- A waiting instruction: its word and the fabric-time or always-on deadline. -/
structure Waiting where
  kind : WaitKind
  word : W64
  deadline : Option Nat
  deriving DecidableEq, Repr

inductive RunState where
  | halted | running | waiting | stopped
  deriving DecidableEq, Repr

/-- A pool access of a core that is outstanding (R233). -/
structure OutAccess where
  op : Nat
  addr : Nat
  size : Nat
  dest : Nat
  x : W64
  y : W64
  data : List (Option Byte)
  mask : List Bool
  /-- Index of the instruction. -/
  pc : BitVec 13 := 0
  reach : Reach := {}
  deriving DecidableEq, Repr

structure Core where
  sreg : Sparse W64 := []
  vreg : Sparse W512 := []
  preg : Sparse W64 := []
  pc : BitVec 13 := 0
  /-- The program fell through from index 8,191: the next index, 8,192, does not exist (R235). -/
  pastEnd : Bool := false
  run : RunState := .halted
  wait : Option Waiting := none
  cause : Byte := 0
  excPc : BitVec 13 := 0
  excAddr : W64 := 0
  /-- The 64 KiB quarter of the local store of its most recent access (R430). -/
  lsQuarter : Nat := 0
  dmaStatus : Byte := 0
  dmaQ : List DmaDesc := []
  loadLimit : Nat := 0
  outs : List OutAccess := []
  bound : Option (InstKey × Nat) := none
  statusRec : W64 := 0
  item : Option WorkItem := none
  /-- Its bench's `idleCount` when it became idle (R202). -/
  idleSeq : Nat := 0
  /-- Packets of a DISPATCH that wait for room in the send queue (R249, R262). -/
  toSend : List Packet := []
  deriving DecidableEq, Repr

/-! ### Contexts and launches -/

inductive CtxState where
  | free | opened | closing | resting
  deriving DecidableEq, Repr

structure Ctx where
  st : CtxState := .free
  gen : Byte := 0
  part : Byte := 0
  perms : BitVec 4 := 0
  benchSet : BitVec 128 := 0
  crucibleQuota : Nat := 0
  loamQuota : Nat := 0
  subsoilQuota : Nat := 0
  ltFirst : Nat := 0
  ltCount : Nat := 0
  collBase : Nat := 0
  jobSeed : W64 := 0
  doneAddr : Nat := 0
  fenced : Bool := false
  heldTeardown : Bool := false
  /-- Always-on time at which each generation value was last left (R269). -/
  left : Sparse Nat := []
  restUntil : Nat := 0
  deriving DecidableEq, Repr

/-- A listed copy of a launch-table entry (R273, R276): its eight 64-bit words. -/
structure Listed where
  idx : Nat
  ws : List W64
  woken : Bool := false
  loaded : Bool := false
  loadCode : Option Byte := none
  deriving DecidableEq, Repr

/-- A launch taken (R274, R277): held until its benches are free, then running. -/
structure Run where
  num : Nat
  idx : Nat
  ws : List W64
  ctx : Nat
  benches : List Nat
  started : Bool := false
  /-- A bench it names ran an earlier launch at its take (R277). -/
  held : Bool := false
  startLo : W32 := 0
  dba : Bool := false
  waitsImage : Bool := false
  replayed : Bool := false
  /-- A core has raised: the launch is stopped by this always-on time (R206, R207). -/
  stopAt : Option Nat := none
  deriving DecidableEq, Repr

structure Launch where
  listed : List Listed := []
  runs : List Run := []
  nextNum : Nat := 0
  deriving DecidableEq, Repr

/-! ### The pool -/

/-- A request being performed (R297, R303): a VC6 request under its POP, or a host access (8 read, 9 write,
10 FetchAdd, 11 CAS). -/
structure PoolOp where
  h : Hdr
  pop : Nat
  ctx : Nat
  addr : Nat
  len : Nat
  data : List Byte
  group : Nat
  lp : Option Nat
  reach : Reach := {}
  /-- A host access: the address it used, and the bytes of a write that are enabled. -/
  hostAt : Nat := 0
  bytes : List (Option Byte) := []
  /-- The last piece of a host write: its completion answers (R389). -/
  lastPiece : Bool := true
  deriving DecidableEq, Repr

/-- An entry of the atomic result table (R307, R409). -/
structure ResultEntry where
  src : W32
  chan : BitVec 12
  seq : BitVec 16
  ctx : Nat
  pop : Nat
  addr : Nat
  code : Byte
  old : W64
  madeAt : Nat
  poisoned : Bool := false
  deriving DecidableEq, Repr

/-- A 4 KiB block held in a cached window's backing (R309), least recently used first. -/
structure CacheBlock where
  blk : Nat
  dirty : Bool := false
  prefetched : Bool := false
  /-- Filled for a demand miss not served yet: that access is not a hit. -/
  fresh : Bool := false
  /-- Its way in its set, which places it in the backing (log entry 61). -/
  way : Nat := 0
  deriving DecidableEq, Repr

/-- A miss stream of the prefetcher (R310). -/
structure Stream where
  last : Nat
  deriving DecidableEq, Repr

structure CacheWin where
  ctx : Nat
  win : Nat
  blocks : List CacheBlock := []
  filling : List Nat := []
  prefetching : List Nat := []
  streams : List Stream := []
  deriving DecidableEq, Repr

/-- A write-back in progress after a cached window left (R312): words of the old entry. -/
structure Flush where
  ctx : Nat
  win : Nat
  ws : List W32
  /-- The dirty blocks that are written back. -/
  blks : List CacheBlock
  startedAt : Nat
  deriving DecidableEq, Repr

inductive MemState where
  | selfRefresh | waking | active | training
  deriving DecidableEq, Repr

/-- A Loam controller (0-11) or a Subsoil channel (12-27) (R315, R317, R320). -/
structure MemCtl where
  st : MemState := .selfRefresh
  /-- Refresh rate multiplier 1-4; 0 until the memory is trained (R320's reset value). -/
  refresh : Nat := 0
  lastAccess : Nat := 0
  lastDone : Nat := 0
  /-- Since when an access has been pending without one completing (R414). -/
  hangFrom : Nat := 0
  scrubPos : Nat := 0
  ueAddr : Nat := 0
  passes : Nat := 0
  writebackOwed : List Nat := []
  deriving DecidableEq, Repr

structure Pool where
  mem : List Host.Cell := []
  poisoned : List Nat := []
  /-- Lines with an error that no read has met: the line, and whether it can be corrected (R313, R314). -/
  latent : List (Nat × Bool) := []
  /-- Physical lines found uncorrectable that no access reads now: under a cached block, or unused in a backing (R315). -/
  hidden : List Nat := []
  /-- Accesses that have reached the pool unit (R305). -/
  nextSeq : Nat := 0
  windows : Sparse W32 := []
  winResult : W32 := 0
  winBusyUntil : Nat := 0
  inq : List Inbound := []
  inflight : List PoolOp := []
  results : List ResultEntry := []
  cache : List CacheWin := []
  flushing : List Flush := []
  ctl : Sparse MemCtl := []
  deriving DecidableEq, Repr

/-! ### Replay -/

inductive RplState where
  | idle | recording | replaying | stopped | done | diverged | refused
  deriving DecidableEq, Repr

structure Rpl where
  st : RplState := .idle
  code : Byte := 0
  reason : BitVec 3 := 0
  overflow : Bool := false
  clean : Bool := false
  fwMatch : Bool := false
  mapMatch : Bool := false
  outEn : Bool := false
  mode : BitVec 2 := 0
  used : Nat := 0
  rseq : Nat := 0
  divergeRseq : Nat := 0
  outPos : Nat := 0
  outSeq : Nat := 0
  consumed : List Nat := []
  deriving DecidableEq, Repr

/-! ### Host, sideband, flash -/

structure EventLog where
  recs : List (List Byte) := []
  overflow : Bool := false
  dropped : Nat := 0
  deriving DecidableEq, Repr

structure HostIf where
  linkUp : Bool := false
  cxlMode : Bool := false
  width : Nat := 0
  speed : Nat := 0
  fenced : Bool := false
  memActive : Bool := false
  perst : Bool := true
  /-- When configuration requests begin to be answered (R397). -/
  configAt : Option Nat := none
  dec0 : Option HdmDecoder := none
  dec1 : Option HdmDecoder := none
  /-- The DPA base of decoder 1 as it committed (R387). -/
  dpa1 : Nat := 0
  /-- Error Not Committed of each decoder (R388). -/
  err0 : Bool := false
  err1 : Bool := false
  msixPending : List Nat := []
  /-- The masked vectors: all of them after reset, as in PCIe (R385, R395, log entry 65). -/
  msixMasked : List Nat := List.range 64
  /-- The words of the MSI-X table but the mask bits, the words written to the BARs, and the subsystem IDs (R384, R385). -/
  msixTable : Sparse W32 := []
  bars : Sparse W32 := []
  subsys : W32 := 0
  /-- The words last written to the HDM decoder registers, by offset in BAR2 (R385, R387). -/
  comp : Sparse W32 := []
  /-- AER: uncorrectable status, mask and severity, correctable status and mask, at PCIe's defaults (R383, log entry 65). -/
  ueStatus : W32 := 0
  ueMask : W32 := 0x00400000
  ueSev : W32 := 0x00462030
  ceStatus : W32 := 0
  ceMask : W32 := 0x00002000
  mboxReady : Bool := false
  mboxBusy : Option (BitVec 16) := none
  /-- Results that are left for a later read while the link is down (R397). -/
  mboxResult : List (BitVec 16 × BitVec 16 × List Byte) := []
  /-- A firmware part written in the background (R393): image, offset, bytes, and whether it is the last. -/
  background : Option (Bool × Nat × List Byte × Bool) := none
  logs : List EventLog := [{}, {}, {}, {}]
  policy : List Byte := [0, 0, 0, 0]
  timestampBase : Nat := 0
  timestampAt : Nat := 0
  deriving DecidableEq, Repr

/-- An SPDM connection of one transport (R478). -/
structure Spdm where
  version : Bool := false
  capabilities : Bool := false
  algorithms : Bool := false
  /-- A signature in progress (R478): the response that it ends, and the message it covers. -/
  signing : Option (List Byte × List Byte) := none
  /-- Messages that later signatures cover: version to algorithms, certificates, measurements. -/
  vca : List Byte := []
  certs : List Byte := []
  meas : List Byte := []
  /-- A request being received in chunks, and a response being sent in chunks. -/
  chunkIn : List Byte := []
  inSeq : Nat := 0
  large : List Byte := []
  outSeq : Nat := 0
  handle : Byte := 0
  deriving DecidableEq, Repr

/-- A chip select of the boot flash (R464): image header and body, the ledger entries by position (R468), and the state
records (R469). -/
structure Flash where
  header : List Byte := []
  body : List Byte := []
  ledger : List (List Byte) := []
  recs : List (List Byte) := []
  deriving DecidableEq, Repr

structure Mgmt where
  /-- The EID that the bus owner assigned (R399). -/
  eid : Byte := 0
  smbus : Bool := false
  mctpReady : Bool := false
  /-- A firmware transfer in progress: over PLDM, else over the mailbox; target image. -/
  fwTransfer : Option (Bool × Bool) := none
  spiHeld : Bool := false
  spiHeldAt : Nat := 0
  mbox : Spdm := {}
  i3c : Spdm := {}
  vdm : Spdm := {}
  flashA : Flash := {}
  flashB : Flash := {}
  ledgerSeq : Nat := 0
  stateSeq : Nat := 0
  /-- State records and ledger entries waiting for the release of SPI_HOLD_OFF_N (R469). -/
  recWaiting : List (List Byte) := []
  ledgerWaiting : List (List Byte) := []
  deriving DecidableEq, Repr

/-! ### Faults and resets -/

/-- A fault-log entry (R411). -/
structure LogEntry where
  ftime : W64
  seq : Nat
  cls : Byte
  severity : BitVec 2
  action : BitVec 3
  code : Byte
  block : Byte
  index : BitVec 16
  detail : W64
  ctx : Option (Byte × Byte)
  deriving DecidableEq, Repr

/-- A reset in progress (R416, R417): level 1 compute, 2 full recovery; trigger time, step reached. -/
structure ResetRun where
  level : Nat
  startedAt : Nat
  step : Nat := 1
  cls : Byte := 0
  index : Nat := 0
  logSeq : Nat := 0
  ftime : W64 := 0
  /-- The levels counted for it, and what its counts moved out of CR_HIST_1 and FR_HIST (R513). -/
  counted : List Nat := []
  lostCr : W64 := 0
  lostFr : W64 := 0
  deriving DecidableEq, Repr

structure FaultUnit where
  log : List LogEntry := []
  next : Nat := 0
  /-- Times of recent entries: class, BLOCK, INDEX, always-on ns (R411). -/
  recent : List (Byte × Byte × BitVec 16 × Nat) := []
  lastSevere : Byte := 0
  reset : Option ResetRun := none
  oos : Bool := false
  /-- Reset triggers raised by faults and not yet taken (level, class, index); those raised before
  READY wait for it (R406, R407, R473). -/
  deferred : List (Nat × Byte × Nat) := []
  wardenRestarts : List Nat := []
  /-- A WARDEN fault that the steward answers with a restart (R193, R412). -/
  wardenOwed : Bool := false
  wardenHeld : Bool := false
  stewardUp : Bool := false
  dumpValid : Bool := false
  dumpTrunc : Bool := false
  dumpSeq : Nat := 0
  deriving DecidableEq, Repr

/-! ### Power, thermal, ageing -/

/-- One output stage (R453): steward and governor inputs, output. -/
structure Stage where
  sVal : BitVec 16 := 0
  sClaim : Byte := 0
  sStale : Bool := false
  sAt : Nat := 0
  gVal : BitVec 16 := 0
  out : BitVec 16 := 0
  /-- An input has driven the output since power-up. -/
  driven : Bool := false
  tie : Bool := false
  held : Bool := false
  deriving DecidableEq, Repr

inductive LeakState where
  | unarmed | dry | wet | failed
  deriving DecidableEq, Repr

structure Power where
  railsUp : Bool := true
  railFault : Bool := false
  hostCap : Nat := 1500
  trayCap : Nat := 1500
  shelf : Bool := false
  capFloor : Bool := false
  capFloorUntil : Nat := 0
  powerNow : Nat := 0
  powerAvg : Nat := 0
  /-- The 10 µs samples of the last ms, newest first. -/
  samples : List Nat := []
  policyConflict : Bool := false
  capDeficit : Bool := false
  benchBin : Nat := 0
  loamPct : Nat := 100
  dutyPct : Nat := 100
  pacePct : Nat := 100
  thermLimit : Nat := 1900
  thermOn : Bool := false
  thermFall : Bool := false
  thermSub : Nat := 0
  over105 : Bool := false
  over110 : Bool := false
  trip : Bool := false
  flowArmed : Bool := false
  flowLoss : Bool := false
  flowEdges : List Nat := []
  flowLast : Nat := 0
  flowGoodSince : Nat := 0
  leak : LeakState := .unarmed
  leakLatched : Bool := false
  leakLine : Bool := true
  leakEdgeAt : Nat := 0
  /-- The last rising edge, and the last toggle period in range (R445). -/
  leakRise : Nat := 0
  leakValidAt : Nat := 0
  leakSelfTest : Nat := 0
  leakRecover : Bool := false
  temps : List Int := []
  coolSince : Sparse Nat := []
  failedSensors : List Nat := []
  blind : Bool := false
  tj : Int := 0
  tjRegion : Nat := 0
  cooling : Stage := {}
  request : Stage := {}
  throttleSt : Stage := {}
  guard : Sparse Int := []
  live : Sparse Nat := []
  /-- Bins forced down by live margin; key 100 is the switching core. -/
  curBin : Sparse Nat := []
  ageBin : Sparse Nat := []
  /-- The switching core's ageing bin, and the one in force since the last full device recovery. -/
  swcAge : Bool := false
  swcAged : Bool := false
  /-- A Lehr pass has released the switching core's bin that live margin forced: it rises at the next full device
  recovery. -/
  swcFree : Bool := false
  eqStale : List Nat := []
  lehrStep : Nat := 0
  lehrPaused : Bool := false
  lehrDeferred : List Nat := []
  lehrChanged : Bool := false
  lehrAt : Nat := 0
  lehrStepAt : Nat := 0
  lehrDue : List Nat := []
  lehrRetrained : Nat := 0
  epochGain : Nat := 0
  passGain : Nat := 0
  tempSum : Int := 0
  tempCount : Nat := 0
  tempMax : Int := -4096
  /-- Samples of 100 µs above 100 °C. -/
  over100 : Nat := 0
  deriving DecidableEq, Repr

/-! ### Boot and security -/

inductive BootStage where
  /-- Power-on reset is not released. -/
  | inert
  /-- Steps of R470 completed, 1 to 9. -/
  | step (n : Nat)
  | recovery
  deriving DecidableEq, Repr

structure Boot where
  stage : BootStage := .inert
  image : Bool := false
  primary : Bool := false
  fallback : Bool := false
  reasonA : BitVec 4 := 0
  reasonB : BitVec 4 := 0
  oosAtBoot : Bool := false
  timeHost : Nat := 0
  timeReady : Nat := 0
  /-- The header under check or of the running image, the verified body, and the measurements of indices
  2 to 5 (R477). -/
  header : List Byte := []
  body : List Byte := []
  measured : List (List Byte) := []
  seedPresent : Bool := false
  keyPresent : Bool := false
  identityErased : Bool := false
  /-- Fuse bits programmed since manufacture (R471): revoke 2, revoke 3, SVN. -/
  revoke2 : Bool := false
  revoke3 : Bool := false
  svnAdded : Nat := 0
  nonce : Option (List Byte) := none
  refusals : Nat := 0
  debugLevel : BitVec 2 := 0
  lockout : Bool := false
  deriving DecidableEq, Repr

/-- The output pin that no register drives: THERM_TRIP_N asserted (R449, R450). -/
structure Pins where
  thermTrip : Bool := true
  deriving DecidableEq, Repr

/-- Byte counts of the bandwidth window in progress, keyed logical port (R491). -/
structure Perf where
  rx : Sparse Nat := []
  tx : Sparse Nat := []
  /-- Port blocks whose window in progress a write to BW_CTRL has discarded. -/
  discard : List Nat := []
  /-- The number of the window in progress at each port block, counted from time 0. -/
  win : Sparse Nat := []
  /-- Cycles of each counter block, in tenths of a cycle (R483). -/
  cyc : List Nat := List.replicate 242 0
  deriving DecidableEq, Repr

/-- A store word that holds an error (R196): space 0 local store, 3 instruction store; the core
(bench × 8 + core); byte address; whether the error can be corrected. -/
structure BadWord where
  space : Nat
  owner : Nat
  addr : Nat
  ce : Bool := false
  deriving DecidableEq, Repr

/-- A CREATE in progress (R268). -/
structure CtxCmd where
  id : Nat
  deriving DecidableEq, Repr

/-! ### The whole state -/

/-- The block. -/
structure State where
  /-- Commands waiting, first in first out. -/
  pending : List Instr := []
  /-- Free values drawn so far (the model's own). -/
  freeCtr : Nat := 0
  /-- What has left the device (the model's own). -/
  out : List Emit := []
  clk : Clock := {}
  /-- BAR0 registers that differ from their reset value, by offset. -/
  regs : Sparse W64 := []
  /-- Read latches (R7): requester, low-word offset, high word. -/
  latches : List (Requester × Nat × W32) := []
  /-- Held low words (R494): requester, offset, word, always-on ns. -/
  heldLow : List (Requester × Nat × W32 × Nat) := []
  sw : Switch := {}
  route : Route := {}
  ports : Sparse Port := []
  lanes : Sparse Lane := []
  coll : Coll := {}
  benches : Sparse Bench := []
  cores : Sparse Core := []
  /-- Local-store bytes, keyed core × 2^18 + address, core = bench × 8 + core. -/
  ls : List Host.Cell := []
  /-- Instruction-store bytes, keyed core × 2^16 + address. -/
  is : List Host.Cell := []
  badWords : List BadWord := []
  ctxs : Sparse Ctx := []
  ctxCmd : Option CtxCmd := none
  ctxResult : W32 := 0
  launch : Launch := {}
  pool : Pool := {}
  rpl : Sparse Rpl := []
  /-- The record queue (R333): context, log address and record bytes, oldest first. -/
  recq : List (Nat × Nat × List Byte) := []
  host : HostIf := {}
  mgmt : Mgmt := {}
  fault : FaultUnit := {}
  pwr : Power := {}
  boot : Boot := {}
  pins : Pins := {}
  perf : Perf := {}
  deriving DecidableEq, Repr

/-- The machine stops with a fault: no command raises one, since the spec gives every command an
effect or an outcome; the type is kept for the interface. -/
inductive Fault where
  /-- Raised by nothing (safe). -/
  | unstated
  deriving DecidableEq, Repr

/-- A command without a meaning. -/
inductive Refusal where
  /-- Raised by an arm of `exec` whose meaning is not written yet (safe). -/
  | notModelled (mnemonic : String)
  deriving DecidableEq, Repr

/-- The machine right after reset: inert (R2), rails in range and both reference clocks running
(R511 steps 1-3), power-on reset not yet released, every register at its reset value. -/
def State.reset : State := {}

end Sys2Proof.Machine
end

