-- ==== Sys2Proof/Machine/Bits.lean ====
section
/-! DEFINITION. Bit fields, byte order, and sparse maps in canonical form: the helpers every
operation is written over. -/

namespace Sys2Proof.Machine

/-! ### Bit fields and byte order -/

/-- Bits [lo + len - 1 : lo] as a number. -/
def fld {n : Nat} (w : BitVec n) (lo len : Nat) : Nat := w.toNat / 2 ^ lo % 2 ^ len

/-- Bit `i`. -/
def bit {n : Nat} (w : BitVec n) (i : Nat) : Bool := w.getLsbD i

/-- `w` with bits [lo + len - 1 : lo] replaced by the low bits of `v`. -/
def setFld {n : Nat} (w : BitVec n) (lo len v : Nat) : BitVec n :=
  BitVec.ofNat n (w.toNat % 2 ^ lo + v % 2 ^ len * 2 ^ lo + w.toNat / 2 ^ (lo + len) * 2 ^ (lo + len))

/-- A boolean as 0 or 1. -/
def b2n (b : Bool) : Nat := if b then 1 else 0

/-- A number from bit fields, given as (low bit, value); fields do not overlap. -/
def pack (fs : List (Nat × Nat)) : Nat := fs.foldl (fun a f => a + f.2 * 2 ^ f.1) 0

def w32 (n : Nat) : W32 := BitVec.ofNat 32 n
def w64 (n : Nat) : W64 := BitVec.ofNat 64 n
def byte (n : Nat) : Byte := BitVec.ofNat 8 n

/-- The low `k` bytes of `n`, least significant first (little-endian). -/
def leBytes : Nat → Nat → List Byte
  | 0, _ => []
  | k + 1, n => byte n :: leBytes k (n / 256)

/-- The number that bytes spell, least significant first. -/
def ofLe : List Byte → Nat
  | [] => 0
  | b :: bs => b.toNat + 256 * ofLe bs

/-- Sign extension of an `n`-bit number as an integer. -/
def sgn (n v : Nat) : Int := if v % 2 ^ n < 2 ^ (n - 1) then (v % 2 ^ n : Nat) else (v % 2 ^ n : Nat) - (2 ^ n : Nat)

/-- The low `n` bits of an integer in two's complement. -/
def tc (n : Nat) (x : Int) : Nat := (x % (2 ^ n : Nat)).toNat

/-- `k` bytes from offset `i`, 0 beyond the end. -/
def slice (bs : List Byte) (i k : Nat) : List Byte :=
  let r := (bs.drop i).take k
  r ++ List.replicate (k - r.length) 0

/-- Little-endian fields of a byte list. -/
def u8 (bs : List Byte) (i : Nat) : Nat := (bs.getD i 0).toNat
def u16 (bs : List Byte) (i : Nat) : Nat := ofLe (slice bs i 2)
def u32 (bs : List Byte) (i : Nat) : Nat := ofLe (slice bs i 4)
def u64 (bs : List Byte) (i : Nat) : Nat := ofLe (slice bs i 8)

/-- Pieces of `k` elements in order. -/
def chunksOf {α : Type} (k : Nat) : Nat → List α → List (List α)
  | 0, _ => []
  | f + 1, xs => if xs.isEmpty then [] else xs.take k :: chunksOf k f (xs.drop k)

/-- `⌈a / b⌉`. -/
def cdiv (a b : Nat) : Nat := (a + b - 1) / b

/-- The set bits of a number below `n`, ascending. -/
def bitsOf (n v : Nat) : List Nat := (List.range n).filter (fun i => v / 2 ^ i % 2 == 1)

/-- Saturation of an integer. -/
def clampInt (lo hi x : Int) : Int := if x < lo then lo else if hi < x then hi else x

/-! ### Sparse maps -/

/-- The value at a key; `d` is what an unlisted key reads as. -/
def sget {α : Type} (d : α) : Sparse α → Nat → α
  | [], _ => d
  | (k, v) :: m, i => if i = k then v else sget d m i

/-- The map with `v` at key `i`, put before the first larger key. -/
def sput {α : Type} : Sparse α → Nat → α → Sparse α
  | [], i, v => [(i, v)]
  | (k, w) :: m, i, v =>
    if i < k then (i, v) :: (k, w) :: m
    else if i = k then (i, v) :: m
    else (k, w) :: sput m i v

/-- The map with `v` at key `i`: rising keys stay rising, and `v = d` removes the entry. -/
def sset {α : Type} [DecidableEq α] (d : α) (m : Sparse α) (i : Nat) (v : α) : Sparse α :=
  if v = d then m.filter (fun e => decide (e.1 ≠ i)) else sput m i v

/-- The map with the entry at `i` changed by `f`. -/
def smod {α : Type} [DecidableEq α] (d : α) (m : Sparse α) (i : Nat) (f : α → α) : Sparse α :=
  sset d m i (f (sget d m i))

/-- Keys rise strictly from above `lo`, and no entry equals `d`. -/
def swfFrom {α : Type} [DecidableEq α] (d : α) : Option Nat → Sparse α → Bool
  | _, [] => true
  | lo, (k, v) :: m => decide (lo.all (· < k)) && !decide (v = d) && swfFrom d (some k) m

/-- The canonical form of a sparse map. -/
def swf {α : Type} [DecidableEq α] (d : α) (m : Sparse α) : Bool := swfFrom d none m

/-- The listed keys. -/
def skeys {α : Type} (m : Sparse α) : List Nat := m.map (·.1)

/-- `k` bytes from key `a` upward of a byte map whose unlisted bytes read 0. -/
def mread (m : List Host.Cell) (a : Nat) : Nat → List Byte
  | 0 => []
  | k + 1 => sget 0 m a :: mread m (a + 1) k

/-- The byte map with `bs` written from key `a` upward. -/
def mwrite (m : List Host.Cell) (a : Nat) : List Byte → List Host.Cell
  | [] => m
  | b :: bs => mwrite (sset 0 m a b) (a + 1) bs

/-- The byte map with only the bytes given written. -/
def mwriteSome (m : List Host.Cell) (a : Nat) : List (Option Byte) → List Host.Cell
  | [] => m
  | none :: bs => mwriteSome m (a + 1) bs
  | some b :: bs => mwriteSome (sset 0 m a b) (a + 1) bs

/-- Every value of the map replaced by `f` of it. -/
def smap {α : Type} [DecidableEq α] (d : α) (m : Sparse α) (f : α → α) : Sparse α :=
  (m.map (fun e => (e.1, f e.2))).filter (fun e => decide (e.2 ≠ d))

/-- The map without the keys in [lo, hi). -/
def sdropRange {α : Type} (m : Sparse α) (lo hi : Nat) : Sparse α :=
  m.filter (fun e => e.1 < lo || hi ≤ e.1)

/-- The first element that satisfies `p`, replaced by `f` of it. -/
def modFirst {α : Type} (p : α → Bool) (f : α → α) : List α → List α
  | [] => []
  | x :: xs => if p x then f x :: xs else x :: modFirst p f xs

/-- The first element that satisfies `p` removed. -/
def dropFirst {α : Type} (p : α → Bool) : List α → List α
  | [] => []
  | x :: xs => if p x then xs else x :: dropFirst p xs

/-- Insert into a rising list without repeats. -/
def insertNat (x : Nat) : List Nat → List Nat
  | [] => [x]
  | y :: ys => if x < y then x :: y :: ys else if x = y then y :: ys else y :: insertNat x ys

end Sys2Proof.Machine
end

