-- ==== Sys2Proof/Config.lean ====
section
/-! DEFINITION. What an implementation or a part fixes, and the values the spec leaves open. None
has a body, so nothing can be proved of a particular value. -/

namespace Sys2Proof

/-- The `n`-th free value: a value the spec does not state (log entry 1). -/
opaque Config.freeWord : Nat → BitVec 64

/-- The lane width of VINS: 0 32 bits, 1 16 bits, 2 or 3 8 bits. R226 gives VINS the IMM format,
which has no TYPE field, and permits every type: the spec does not say which bits hold it. -/
opaque Config.vinsLane : BitVec 64 → BitVec 2

/-- SHAKE256 of a message, 64 bytes (R464, R468, R474): an uninterpreted function. -/
opaque Config.shake256 : List Byte → Nat → List Byte

/-- SHA3-512 (R478): an uninterpreted function. -/
opaque Config.sha3x512 : List Byte → List Byte

/-- SLH-DSA: key generation from a seed, deterministic signing, verification (R465, R475). -/
opaque Config.slhPublic : List Byte → List Byte
opaque Config.slhSign : List Byte → List Byte → List Byte
opaque Config.slhVerify : List Byte → List Byte → List Byte → Bool

/-- Per part: how far above the bench before it each of the four benches that the disabled-unit map
leaves out lies (R24, R189); `disabledBenches` reads it. -/
opaque Config.disabledGap : Nat → Nat

/-- Per part: the fuses at manufacture (R463): the 512 bits of each key slot, the three bits of each revoke fuse, the
thermometer bits of the fused SVN, and DEBUG_FUSE. -/
opaque Config.slotFuses : Nat → BitVec 512
opaque Config.revokeFuses : Nat → BitVec 3
opaque Config.svnFuses : BitVec 32
opaque Config.debugFuse : Bool
/-- The 256-bit device secret (R463). -/
opaque Config.deviceSecret : List Byte
/-- What R476 leaves open of certificate `k` of SPDM slot 0 (0 root, 1 intermediate, 2 device): serial number, name,
validity and extensions in DER, the public key of the first two, and the key that signs each. -/
opaque Config.certSerial : Nat → List Byte
opaque Config.certName : Nat → List Byte
opaque Config.certValidity : Nat → List Byte
opaque Config.certExtensions : Nat → List Byte
opaque Config.certKey : Nat → List Byte
opaque Config.certSignKey : Nat → List Byte
opaque Config.bootRom : List Byte

/-- The bytes of a CXL event record that carries a fault-log entry (R395), beside the entry itself in a vendor-defined
record: true for the General Media Event record of a memory error. The spec gives neither layout. -/
opaque Config.eventRecord : Bool → List Byte → List Byte

/-- An error that appears by itself (R65, R110, R196, R313): a single-bit error that its check code corrects
(`ce`), else an uncorrectable one. -/
inductive Upset where
  /-- A 64-byte line of the pool. -/
  | line (n : Nat) (ce : Bool)
  /-- A word of core `owner`'s local store (space 0) or instruction store (space 3). -/
  | word (space owner addr : Nat) (ce : Bool)
  /-- A crucible word of the `inst`-th instance's parison. -/
  | crucible (inst chunk : Nat) (twin : Bool) (addr : Nat) (ce : Bool)
  /-- A route-table entry. -/
  | entry (bank : Bool) (table : Fin 4) (index : Fin 4096) (ce : Bool)
  deriving DecidableEq, Repr

/-- The error that appears in the `n`-th nanosecond, if one does (log entry 12). -/
opaque Config.upset : Nat → Option Upset

/-- The sign of the NaN that the device writes for an accumulator float, by what it comes from (R168 allows both;
log entry 62). -/
opaque Config.accNanSign : BitVec 48 → BitVec 48 → Bool

/-- Per part: the fused factory voltage of domain `k` (100 is the switching core) at a bin, within the bin's range
(R432). -/
opaque Config.factoryVoltage : Nat → Nat → BitVec 10

/-- SOURCE of an ignored access that the debug port makes (R505 gives it no code), and the device identification register
of the debug port (R479 gives no value). -/
opaque Config.debugSource : BitVec 2
opaque Config.jtagIdcode : W32

/-- Per part: the fixed neighbours of thermal sensor `k` and its fused offset in 1/16 °C (R448). -/
opaque Config.sensorNbrs : Nat → List Nat
opaque Config.sensorOffset : Nat → Int

end Sys2Proof
end

