-- ==== Sys2Proof/Machine/RegMap.lean ====
section
/-! DEFINITION. The BAR0 register map (R492, R498, R499): the offset of every register, and one row
per register or register array of the spec's tables with its access type, writable bits, reset
value and governing LOCK (R8, R9, R500). -/

namespace Sys2Proof.Machine

/-- Access types of R8. -/
inductive Access where
  | ro | rw | rw1c | wo | rc | rwl
  deriving DecidableEq, Repr

/-- A row of a register table: `dims` lists the stride and count of each repetition, outermost
first; `len` is its length in bytes (above 4, or 8 when wide, for a run of 32-bit words); `mask`
holds the bits that are not reserved (R9). -/
structure RegRow where
  base : Nat
  dims : List (Nat × Nat)
  len : Nat
  wide : Bool
  acc : Access
  mask : Nat
  reset : Nat
  lock : Option LockReg
  deriving DecidableEq, Repr

/-! ### Offsets -/

abbrev Reg.lenBad (n : Nat) : Nat := 0x1008000 + n * 0x10000
abbrev Reg.lenMismatch (n : Nat) : Nat := 0x1008004 + n * 0x10000
abbrev Reg.mcBad (n : Nat) : Nat := 0x1008008 + n * 0x10000
abbrev Reg.flagBad (n : Nat) : Nat := 0x100800C + n * 0x10000
abbrev Reg.aokIgnored (n : Nat) : Nat := 0x1008010 + n * 0x10000
abbrev Reg.spareSet (n : Nat) : Nat := 0x1008014 + n * 0x10000
abbrev Reg.vc1NotCell (n : Nat) : Nat := 0x1008018 + n * 0x10000
abbrev Reg.vc0FromEndpoint (n : Nat) : Nat := 0x100801C + n * 0x10000
abbrev Reg.srcMismatch (n : Nat) : Nat := 0x1008020 + n * 0x10000
abbrev Reg.hopExpired (n : Nat) : Nat := 0x1008024 + n * 0x10000
abbrev Reg.planeBad (n : Nat) : Nat := 0x1008028 + n * 0x10000
abbrev Reg.cellBad (n : Nat) : Nat := 0x100802C + n * 0x10000
abbrev Reg.crcE2eBad (n : Nat) : Nat := 0x1008030 + n * 0x10000
abbrev Reg.crcStomped (n : Nat) : Nat := 0x1008034 + n * 0x10000
abbrev Reg.unitBad (n : Nat) : Nat := 0x1008038 + n * 0x10000
abbrev Reg.poisonRx (n : Nat) : Nat := 0x100803C + n * 0x10000
abbrev Reg.segOut (n : Nat) : Nat := 0x1008040 + n * 0x10000
abbrev Reg.reasmTimeout (n : Nat) : Nat := 0x1008044 + n * 0x10000
abbrev Reg.scCtrl : Nat := 0x100000
abbrev Reg.scLifetime : Nat := 0x100004
abbrev Reg.scLock : Nat := 0x100008
abbrev Reg.bufTotal : Nat := 0x100010
abbrev Reg.bufShared : Nat := 0x100014
abbrev Reg.bufSharedFree : Nat := 0x100018
abbrev Reg.bufSharedFreeMin : Nat := 0x10001C
abbrev Reg.intReserve : Nat := 0x100020
abbrev Reg.intUsed : Nat := 0x100024
abbrev Reg.quarUnits : Nat := 0x100028
abbrev Reg.quarEvents : Nat := 0x10002C
abbrev Reg.refcntCe : Nat := 0x100030
abbrev Reg.ptrCe : Nat := 0x100034
abbrev Reg.dataCe : Nat := 0x100038
abbrev Reg.dataUe : Nat := 0x10003C
abbrev Reg.auditMismatch : Nat := 0x100040
abbrev Reg.pktLostFault : Nat := 0x100044
abbrev Reg.staleDrop : Nat := 0x100048
abbrev Reg.portDownDrop : Nat := 0x10004C
abbrev Reg.ctPackets : Nat := 0x100050
abbrev Reg.ctAbort : Nat := 0x100054
abbrev Reg.intStallCycles : Nat := 0x100058
abbrev Reg.termRoomVc (n : Nat) : Nat := 0x100060 + n * 0x4
abbrev Reg.xcredVc (n m k : Nat) : Nat := 0x1009000 + n * 0x10000 + m * 0x100 + k * 0x4
abbrev Reg.tcredVc (n m k : Nat) : Nat := 0x1009020 + n * 0x10000 + m * 0x100 + k * 0x4
abbrev Reg.vcWeightA (n m : Nat) : Nat := 0x1009040 + n * 0x10000 + m * 0x100
abbrev Reg.vcWeightB (n m : Nat) : Nat := 0x1009044 + n * 0x10000 + m * 0x100
abbrev Reg.capVc0 (n m : Nat) : Nat := 0x1009048 + n * 0x10000 + m * 0x100
abbrev Reg.capVc1 (n m : Nat) : Nat := 0x100904C + n * 0x10000 + m * 0x100
abbrev Reg.rtCtrl : Nat := 0x200000
abbrev Reg.rtLock : Nat := 0x200004
abbrev Reg.activeBank : Nat := 0x200008
abbrev Reg.swapAt : Nat := 0x200010
abbrev Reg.swapCmd : Nat := 0x200018
abbrev Reg.swapStatus : Nat := 0x20001C
abbrev Reg.rejoinHold : Nat := 0x200020
abbrev Reg.vc5MsgTimeout : Nat := 0x200024
abbrev Reg.stage (n : Nat) : Nat := 0x200040 + n * 0x4
abbrev Reg.commit : Nat := 0x200080
abbrev Reg.noRouteDrop : Nat := 0x200100
abbrev Reg.partInDeny : Nat := 0x200104
abbrev Reg.partOutDeny : Nat := 0x200108
abbrev Reg.mcMiss : Nat := 0x20010C
abbrev Reg.tableCe : Nat := 0x200110
abbrev Reg.tableUe : Nat := 0x200114
abbrev Reg.tableUeLoc : Nat := 0x200118
abbrev Reg.orderEvents : Nat := 0x20011C
abbrev Reg.seqDrop : Nat := 0x200120
abbrev Reg.dupDrop : Nat := 0x200124
abbrev Reg.lastcntBad : Nat := 0x200128
abbrev Reg.msgTimeoutDrop : Nat := 0x20012C
abbrev Reg.adaptPicks : Nat := 0x200130
abbrev Reg.lportAbsent : Nat := 0x200134
abbrev Reg.swapRefused : Nat := 0x200138
abbrev Reg.rxPkts (n m : Nat) : Nat := 0x100A000 + n * 0x10000 + m * 0x40
abbrev Reg.rxBytes (n m : Nat) : Nat := 0x100A008 + n * 0x10000 + m * 0x40
abbrev Reg.txPkts (n m : Nat) : Nat := 0x100A010 + n * 0x10000 + m * 0x40
abbrev Reg.txBytes (n m : Nat) : Nat := 0x100A018 + n * 0x10000 + m * 0x40
abbrev Reg.qdepth (n m : Nat) : Nat := 0x100A020 + n * 0x10000 + m * 0x40
abbrev Reg.qdepthMax (n m : Nat) : Nat := 0x100A024 + n * 0x10000 + m * 0x40
abbrev Reg.starvedCycles (n m : Nat) : Nat := 0x100A028 + n * 0x10000 + m * 0x40
abbrev Reg.collCtrl : Nat := 0x104000
abbrev Reg.spillBase : Nat := 0x104008
abbrev Reg.spillSize : Nat := 0x104010
abbrev Reg.spillFree : Nat := 0x104014
abbrev Reg.tombHold : Nat := 0x104018
abbrev Reg.resultHop : Nat := 0x10401C
abbrev Reg.instLive : Nat := 0x104020
abbrev Reg.instTomb : Nat := 0x104024
abbrev Reg.fritUsed : Nat := 0x104028
abbrev Reg.instMax : Nat := 0x10402C
abbrev Reg.opens : Nat := 0x104040
abbrev Reg.spillOpens : Nat := 0x104044
abbrev Reg.refusedBusy : Nat := 0x104048
abbrev Reg.capacityRefused : Nat := 0x10404C
abbrev Reg.windowOverrun : Nat := 0x104050
abbrev Reg.contractEv : Nat := 0x104054
abbrev Reg.entryBad : Nat := 0x104058
abbrev Reg.lenErrEv : Nat := 0x10405C
abbrev Reg.addrEv : Nat := 0x104060
abbrev Reg.poisonEv : Nat := 0x104064
abbrev Reg.incompleteEv : Nat := 0x104068
abbrev Reg.genStaleDrop : Nat := 0x10406C
abbrev Reg.permDrop : Nat := 0x104070
abbrev Reg.closedDrop : Nat := 0x104074
abbrev Reg.dupContrib : Nat := 0x104078
abbrev Reg.statusSuppressed : Nat := 0x10407C
abbrev Reg.collBad : Nat := 0x104080
abbrev Reg.fritBusy : Nat := 0x104084
abbrev Reg.twinTakeover : Nat := 0x104088
abbrev Reg.twinLost : Nat := 0x10408C
abbrev Reg.claimTie : Nat := 0x104090
abbrev Reg.upperOrphan : Nat := 0x104094
abbrev Reg.arithCtrl : Nat := 0x104100
abbrev Reg.residueFault : Nat := 0x104104
abbrev Reg.dualrailFault : Nat := 0x104108
abbrev Reg.tallyFault : Nat := 0x10410C
abbrev Reg.satEvents : Nat := 0x104110
abbrev Reg.nanToInt : Nat := 0x104114
abbrev Reg.srElems : Nat := 0x104118
abbrev Reg.benchId (n : Nat) : Nat := 0x2000000 + n * 0x10000
abbrev Reg.benchState (n : Nat) : Nat := 0x2000004 + n * 0x10000
abbrev Reg.benchCtrl (n : Nat) : Nat := 0x2000008 + n * 0x10000
abbrev Reg.sleepIdle (n : Nat) : Nat := 0x200000C + n * 0x10000
abbrev Reg.wakeCount (n : Nat) : Nat := 0x2000010 + n * 0x10000
abbrev Reg.wakeRace (n : Nat) : Nat := 0x2000014 + n * 0x10000
abbrev Reg.adderQdepth (n : Nat) : Nat := 0x2000018 + n * 0x10000
abbrev Reg.adderQdepthMax (n : Nat) : Nat := 0x200001C + n * 0x10000
abbrev Reg.itemQdepth (n : Nat) : Nat := 0x2000020 + n * 0x10000
abbrev Reg.stealsIn (n : Nat) : Nat := 0x2000024 + n * 0x10000
abbrev Reg.stealsOut (n : Nat) : Nat := 0x2000028 + n * 0x10000
abbrev Reg.lsCe (n : Nat) : Nat := 0x2000030 + n * 0x10000
abbrev Reg.lsUe (n : Nat) : Nat := 0x2000034 + n * 0x10000
abbrev Reg.isCe (n : Nat) : Nat := 0x2000038 + n * 0x10000
abbrev Reg.isUe (n : Nat) : Nat := 0x200003C + n * 0x10000
abbrev Reg.crCe (n : Nat) : Nat := 0x2000040 + n * 0x10000
abbrev Reg.crUe (n : Nat) : Nat := 0x2000044 + n * 0x10000
abbrev Reg.coreStatus (n m : Nat) : Nat := 0x2000100 + n * 0x10000 + m * 0x40
abbrev Reg.excPc (n m : Nat) : Nat := 0x2000104 + n * 0x10000 + m * 0x40
abbrev Reg.excAddr (n m : Nat) : Nat := 0x2000108 + n * 0x10000 + m * 0x40
abbrev Reg.excCount (n m : Nat) : Nat := 0x2000110 + n * 0x10000 + m * 0x40
abbrev Reg.dmaStatus (n m : Nat) : Nat := 0x2000114 + n * 0x10000 + m * 0x40
abbrev Reg.disabledMap (n : Nat) : Nat := 0x2F00000 + n * 0x4
abbrev Reg.benchCommonCtrl : Nat := 0x2F00010
abbrev Reg.stealOk (n : Nat) : Nat := 0x2F00020 + n * 0x4
abbrev Reg.ftime : Nat := 0x1000
abbrev Reg.timeCtrl : Nat := 0x1008
abbrev Reg.ftimeSet : Nat := 0x1010
abbrev Reg.timeStatus : Nat := 0x1018
abbrev Reg.timeOffset : Nat := 0x101C
abbrev Reg.timeAsym : Nat := 0x1020
abbrev Reg.timeLoss : Nat := 0x1024
abbrev Reg.timeStep : Nat := 0x1028
abbrev Reg.timeBad : Nat := 0x102C
abbrev Reg.ltBase : Nat := 0x1100
abbrev Reg.ltCtrl : Nat := 0x1108
abbrev Reg.wakeLead : Nat := 0x110C
abbrev Reg.launchLead : Nat := 0x1110
abbrev Reg.pending : Nat := 0x1114
abbrev Reg.launches : Nat := 0x1118
abbrev Reg.launchRefused : Nat := 0x111C
abbrev Reg.launchLate : Nat := 0x1120
abbrev Reg.launchWait : Nat := 0x1124
abbrev Reg.pendingFull : Nat := 0x1128
abbrev Reg.notifyFail : Nat := 0x112C
abbrev Reg.sendqDrop : Nat := 0x1130
abbrev Reg.ltEntryUe : Nat := 0x1134
abbrev Reg.ctxStage : Nat := 0x2000
abbrev Reg.ctxCmd : Nat := 0x2040
abbrev Reg.ctxResult : Nat := 0x2044
abbrev Reg.ctxState (n : Nat) : Nat := 0x4000 + n * 0x40
abbrev Reg.ctxPart (n : Nat) : Nat := 0x4004 + n * 0x40
abbrev Reg.benchSet (n m : Nat) : Nat := 0x4008 + n * 0x40 + m * 0x4
abbrev Reg.crucibleQuota (n : Nat) : Nat := 0x4018 + n * 0x40
abbrev Reg.loamQuota (n : Nat) : Nat := 0x401C + n * 0x40
abbrev Reg.subsoilQuota (n : Nat) : Nat := 0x4020 + n * 0x40
abbrev Reg.ltRange (n : Nat) : Nat := 0x4024 + n * 0x40
abbrev Reg.collBase (n : Nat) : Nat := 0x4028 + n * 0x40
abbrev Reg.jobSeed (n : Nat) : Nat := 0x4030 + n * 0x40
abbrev Reg.doneAddr (n : Nat) : Nat := 0x4038 + n * 0x40
abbrev Reg.poolCtrl : Nat := 0x3110000
abbrev Reg.poolHop : Nat := 0x3110004
abbrev Reg.resultHold : Nat := 0x3110008
abbrev Reg.pfDepth : Nat := 0x311000C
abbrev Reg.memIdle : Nat := 0x3110010
abbrev Reg.resultUsed : Nat := 0x3110014
abbrev Reg.inflight : Nat := 0x3110018
abbrev Reg.winStage (n : Nat) : Nat := 0x3110020 + n * 0x4
abbrev Reg.winCmd : Nat := 0x3110040
abbrev Reg.winResult : Nat := 0x3110044
abbrev Reg.cacheFlushing : Nat := 0x3110048
abbrev Reg.class3Weight : Nat := 0x311004C
abbrev Reg.reqRx : Nat := 0x3110100
abbrev Reg.reqRefused : Nat := 0x3110104
abbrev Reg.addrRefused : Nat := 0x3110108
abbrev Reg.permRefused : Nat := 0x311010C
abbrev Reg.resultHits : Nat := 0x3110110
abbrev Reg.resultConflict : Nat := 0x3110114
abbrev Reg.resultFull : Nat := 0x3110118
abbrev Reg.ueAnswers : Nat := 0x311011C
abbrev Reg.cacheHits : Nat := 0x3110120
abbrev Reg.cacheMisses : Nat := 0x3110124
abbrev Reg.writebacks : Nat := 0x3110128
abbrev Reg.pfFills : Nat := 0x311012C
abbrev Reg.pfUsed : Nat := 0x3110130
abbrev Reg.pfDrops : Nat := 0x3110134
abbrev Reg.pfUe : Nat := 0x3110138
abbrev Reg.memStatus (n : Nat) : Nat := 0x3000000 + n * 0x10000
abbrev Reg.memCe (n : Nat) : Nat := 0x3000004 + n * 0x10000
abbrev Reg.memUe (n : Nat) : Nat := 0x3000008 + n * 0x10000
abbrev Reg.ueAddr (n : Nat) : Nat := 0x3000010 + n * 0x10000
abbrev Reg.poisonedLines (n : Nat) : Nat := 0x3000018 + n * 0x10000
abbrev Reg.scrubPasses (n : Nat) : Nat := 0x300001C + n * 0x10000
abbrev Reg.scrubPos (n : Nat) : Nat := 0x3000020 + n * 0x10000
abbrev Reg.scrubFixed (n : Nat) : Nat := 0x3000028 + n * 0x10000
abbrev Reg.rplCtrl (n : Nat) : Nat := 0x8000 + n * 0x40
abbrev Reg.rplStatus (n : Nat) : Nat := 0x8004 + n * 0x40
abbrev Reg.logBase (n : Nat) : Nat := 0x8008 + n * 0x40
abbrev Reg.logSize (n : Nat) : Nat := 0x8010 + n * 0x40
abbrev Reg.logUsed (n : Nat) : Nat := 0x8018 + n * 0x40
abbrev Reg.rseqNext (n : Nat) : Nat := 0x8020 + n * 0x40
abbrev Reg.divergeRseq (n : Nat) : Nat := 0x8024 + n * 0x40
abbrev Reg.liveDrop (n : Nat) : Nat := 0x8028 + n * 0x40
abbrev Reg.rplActive : Nat := 0xC000
abbrev Reg.recqStallCycles : Nat := 0xC004
abbrev Reg.recqDepth : Nat := 0xC008
abbrev Reg.portCfg (n : Nat) : Nat := 0x1000000 + n * 0x10000
abbrev Reg.trainTimeout (n : Nat) : Nat := 0x1000004 + n * 0x10000
abbrev Reg.replayTimeout (n : Nat) : Nat := 0x1000008 + n * 0x10000
abbrev Reg.dozeIdle (n : Nat) : Nat := 0x100000C + n * 0x10000
abbrev Reg.napIdle (n : Nat) : Nat := 0x1000010 + n * 0x10000
abbrev Reg.spareThresh (n : Nat) : Nat := 0x1000014 + n * 0x10000
abbrev Reg.blockBad (n : Nat) : Nat := 0x1000100 + n * 0x10000
abbrev Reg.tagBad (n : Nat) : Nat := 0x1000104 + n * 0x10000
abbrev Reg.kindBad (n : Nat) : Nat := 0x1000108 + n * 0x10000
abbrev Reg.acctBad (n : Nat) : Nat := 0x100010C + n * 0x10000
abbrev Reg.ctrlBad (n : Nat) : Nat := 0x1000110 + n * 0x10000
abbrev Reg.lseqDrop (n : Nat) : Nat := 0x1000114 + n * 0x10000
abbrev Reg.nakSent (n : Nat) : Nat := 0x1000118 + n * 0x10000
abbrev Reg.replays (n : Nat) : Nat := 0x100011C + n * 0x10000
abbrev Reg.replayTimeouts (n : Nat) : Nat := 0x1000120 + n * 0x10000
abbrev Reg.replayFails (n : Nat) : Nat := 0x1000124 + n * 0x10000
abbrev Reg.vc47Lost (n : Nat) : Nat := 0x1000128 + n * 0x10000
abbrev Reg.idleDeleted (n : Nat) : Nat := 0x100012C + n * 0x10000
abbrev Reg.idleInserted (n : Nat) : Nat := 0x1000130 + n * 0x10000
abbrev Reg.retrains (n : Nat) : Nat := 0x1000134 + n * 0x10000
abbrev Reg.trainFails (n : Nat) : Nat := 0x1000138 + n * 0x10000
abbrev Reg.spareSwaps (n : Nat) : Nat := 0x100013C + n * 0x10000
abbrev Reg.sleepRace (n : Nat) : Nat := 0x1000140 + n * 0x10000
abbrev Reg.wiringMismatch (n : Nat) : Nat := 0x1000144 + n * 0x10000
abbrev Reg.portCtrl (n m : Nat) : Nat := 0x1000040 + n * 0x10000 + m * 0x20
abbrev Reg.portStatus (n m : Nat) : Nat := 0x1000044 + n * 0x10000 + m * 0x20
abbrev Reg.partnerCoord (n m : Nat) : Nat := 0x1000048 + n * 0x10000 + m * 0x20
abbrev Reg.rttNs (n m : Nat) : Nat := 0x100004C + n * 0x10000 + m * 0x20
abbrev Reg.portCmd (n m : Nat) : Nat := 0x1000050 + n * 0x10000 + m * 0x20
abbrev Reg.freqOffset (n m : Nat) : Nat := 0x1000054 + n * 0x10000 + m * 0x20
abbrev Reg.laneStatus (n : Nat) : Nat := 0x1800000 + n * 0x800
abbrev Reg.spareCfg (n : Nat) : Nat := 0x1800004 + n * 0x800
abbrev Reg.txeqW1 (n : Nat) : Nat := 0x1800008 + n * 0x800
abbrev Reg.txeqW2 (n : Nat) : Nat := 0x180000C + n * 0x800
abbrev Reg.partnerId (n : Nat) : Nat := 0x1800010 + n * 0x800
abbrev Reg.expectId (n : Nat) : Nat := 0x1800018 + n * 0x800
abbrev Reg.expectEn (n : Nat) : Nat := 0x1800020 + n * 0x800
abbrev Reg.fecCorrSym (n : Nat) : Nat := 0x1800030 + n * 0x800
abbrev Reg.fecUncorrCw (n : Nat) : Nat := 0x1800034 + n * 0x800
abbrev Reg.stuffSlip (n : Nat) : Nat := 0x1800038 + n * 0x800
abbrev Reg.hostileIdle (n : Nat) : Nat := 0x180003C + n * 0x800
abbrev Reg.commaLoss (n : Nat) : Nat := 0x1800040 + n * 0x800
abbrev Reg.recBad (n : Nat) : Nat := 0x1800044 + n * 0x800
abbrev Reg.eyeCtrl (n : Nat) : Nat := 0x1800080 + n * 0x800
abbrev Reg.eyeStatus (n : Nat) : Nat := 0x1800084 + n * 0x800
abbrev Reg.eyeBits (n : Nat) : Nat := 0x1800088 + n * 0x800
abbrev Reg.eyeErrs (n : Nat) : Nat := 0x1800090 + n * 0x800
abbrev Reg.prbsCtrl (n : Nat) : Nat := 0x18000C0 + n * 0x800
abbrev Reg.prbsStatus (n : Nat) : Nat := 0x18000C4 + n * 0x800
abbrev Reg.prbsBitsW1 (n : Nat) : Nat := 0x18000C8 + n * 0x800
abbrev Reg.prbsErrsW1 (n : Nat) : Nat := 0x18000D0 + n * 0x800
abbrev Reg.prbsBitsW2 (n : Nat) : Nat := 0x18000D8 + n * 0x800
abbrev Reg.prbsErrsW2 (n : Nat) : Nat := 0x18000E0 + n * 0x800
abbrev Reg.injCtrl (n : Nat) : Nat := 0x1800100 + n * 0x800
abbrev Reg.injCount (n : Nat) : Nat := 0x1800104 + n * 0x800
abbrev Reg.hostStatus : Nat := 0x3C80000
abbrev Reg.hostLinkDowns : Nat := 0x3C80004
abbrev Reg.hostMemRefused : Nat := 0x3C80008
abbrev Reg.hostPoisonRd : Nat := 0x3C8000C
abbrev Reg.hostPtlDrop : Nat := 0x3C80010
abbrev Reg.mboxCmds : Nat := 0x3C80014
abbrev Reg.mboxRetry : Nat := 0x3C80018
abbrev Reg.spiHoldEvents : Nat := 0x3C8001C
abbrev Reg.faultCtrl : Nat := 0xD000
abbrev Reg.faultStatus : Nat := 0xD004
abbrev Reg.resetCmd : Nat := 0xD008
abbrev Reg.benchHangWin : Nat := 0xD00C
abbrev Reg.portHangWin : Nat := 0xD010
abbrev Reg.memHangWin : Nat := 0xD014
abbrev Reg.dumpBase : Nat := 0xD018
abbrev Reg.dumpStatus : Nat := 0xD020
abbrev Reg.dumpSeq : Nat := 0xD024
abbrev Reg.computeResets : Nat := 0xD028
abbrev Reg.fullRecoveries : Nat := 0xD02C
abbrev Reg.progHangs : Nat := 0xD030
abbrev Reg.benchHangs : Nat := 0xD034
abbrev Reg.portHangs : Nat := 0xD038
abbrev Reg.partnerStalls : Nat := 0xD03C
abbrev Reg.memHangs : Nat := 0xD040
abbrev Reg.fenceDrop : Nat := 0xD044
abbrev Reg.wardenRestarts : Nat := 0xD048
abbrev Reg.stewardRestarts : Nat := 0xD04C
abbrev Reg.crHist0 : Nat := 0xD050
abbrev Reg.crHist1 : Nat := 0xD058
abbrev Reg.frHist : Nat := 0xD060
abbrev Reg.flogNext : Nat := 0xD068
abbrev Reg.flogOverwritten : Nat := 0xD06C
abbrev Reg.flogSuppressed : Nat := 0xD070
abbrev Reg.flog : Nat := 0x10000
abbrev Reg.pwrCtrl : Nat := 0x3800000
abbrev Reg.hostCap : Nat := 0x3800004
abbrev Reg.trayCap : Nat := 0x3800008
abbrev Reg.shelfCap : Nat := 0x380000C
abbrev Reg.sensorFaultCap : Nat := 0x3800010
abbrev Reg.capEffective : Nat := 0x3800014
abbrev Reg.fmaxCtrl : Nat := 0x3800018
abbrev Reg.tjTarget : Nat := 0x380001C
abbrev Reg.pwrStatus : Nat := 0x3800020
abbrev Reg.powerNow : Nat := 0x3800024
abbrev Reg.powerAvg : Nat := 0x3800028
abbrev Reg.preq : Nat := 0x380002C
abbrev Reg.capDeficitMj : Nat := 0x3800030
abbrev Reg.alertStatus : Nat := 0x3800034
abbrev Reg.tjMax : Nat := 0x3800040
abbrev Reg.sensorFailed0 : Nat := 0x3800044
abbrev Reg.sensorFailed1 : Nat := 0x3800048
abbrev Reg.leakStatus : Nat := 0x3800050
abbrev Reg.leakClear : Nat := 0x3800054
abbrev Reg.flowHz : Nat := 0x3800058
abbrev Reg.stageSteward (n : Nat) : Nat := 0x3800060 + n * 0x10
abbrev Reg.stageGovernor (n : Nat) : Nat := 0x3800064 + n * 0x10
abbrev Reg.stageOutput (n : Nat) : Nat := 0x3800068 + n * 0x10
abbrev Reg.pwrClaimTie : Nat := 0x38000A0
abbrev Reg.pwrCapEvents : Nat := 0x38000A4
abbrev Reg.capDeficitEv : Nat := 0x38000A8
abbrev Reg.policyConflictEv : Nat := 0x38000AC
abbrev Reg.flowLossEv : Nat := 0x38000B0
abbrev Reg.leakEv : Nat := 0x38000B4
abbrev Reg.thermLimitMs : Nat := 0x38000B8
abbrev Reg.marginWarn : Nat := 0x38000BC
abbrev Reg.paceCycles : Nat := 0x38000C0
abbrev Reg.temp (n : Nat) : Nat := 0x3800100 + n * 0x4
abbrev Reg.lehrCtrl : Nat := 0x3800200
abbrev Reg.lehrStatus : Nat := 0x3800204
abbrev Reg.ageingEpoch : Nat := 0x3800208
abbrev Reg.lehrPasses : Nat := 0x380020C
abbrev Reg.swcMargin : Nat := 0x3800210
abbrev Reg.laneEqStale (n : Nat) : Nat := 0x3800240 + n * 0x4
abbrev Reg.benchMarginB (n : Nat) : Nat := 0x3800300 + n * 0x4
abbrev Reg.bootStatus : Nat := 0x3C00000
abbrev Reg.bootTimeHost : Nat := 0x3C00004
abbrev Reg.bootTimeReady : Nat := 0x3C00008
abbrev Reg.primary : Nat := 0x3C0000C
abbrev Reg.keyStatus : Nat := 0x3C00010
abbrev Reg.fwVersion : Nat := 0x3C00014
abbrev Reg.wardenVersion : Nat := 0x3C00018
abbrev Reg.imageSvn : Nat := 0x3C0001C
abbrev Reg.debugStatus : Nat := 0x3C00020
abbrev Reg.attestSigns : Nat := 0x3C00024
abbrev Reg.debugFails : Nat := 0x3C00028
abbrev Reg.identityHash (n : Nat) : Nat := 0x3C00040 + n * 0x4
abbrev Reg.cycles (n : Nat) : Nat := 0x3F00000 + n * 0x1000
abbrev Reg.ovf (n : Nat) : Nat := 0x3F00008 + n * 0x1000
abbrev Reg.blockInfo (n : Nat) : Nat := 0x3F0000C + n * 0x1000
abbrev Reg.evsel (n m : Nat) : Nat := 0x3F00040 + n * 0x1000 + m * 0x4
abbrev Reg.cnt (n m : Nat) : Nat := 0x3F00080 + n * 0x1000 + m * 0x8
abbrev Reg.bwCtrl (n : Nat) : Nat := 0x3F00100 + n * 0x1000
abbrev Reg.bwSeq (n : Nat) : Nat := 0x3F00104 + n * 0x1000
abbrev Reg.bwRx (n m : Nat) : Nat := 0x3F00110 + n * 0x1000 + m * 0x10
abbrev Reg.bwTx (n m : Nat) : Nat := 0x3F00118 + n * 0x1000 + m * 0x10
abbrev Reg.partId : Nat := 0x0
abbrev Reg.vendorId : Nat := 0x4
abbrev Reg.ownCoord : Nat := 0x8
abbrev Reg.globalLock : Nat := 0xC
abbrev Reg.devStatus : Nat := 0x10
abbrev Reg.portsActive : Nat := 0x14
abbrev Reg.benchesAwake : Nat := 0x18
abbrev Reg.ignoredWrites : Nat := 0x20
abbrev Reg.ignoredOffset : Nat := 0x24
abbrev Reg.reservedStatus : Nat := 0x28
abbrev Reg.scratch (n : Nat) : Nat := 0x30 + n * 0x4
abbrev Reg.intUnitBad : Nat := 0x40
abbrev Reg.intPoisonRx : Nat := 0x44
abbrev Reg.intCrcBad : Nat := 0x48

/-! ### Rows -/

def regRowsGlobal0 : List RegRow := [
  { base := 0x1000, dims := [], len := 8, wide := true, acc := .ro, mask := 0x0, reset := 0x0, lock := none },
  { base := 0x1008, dims := [], len := 4, wide := false, acc := .rw, mask := 0xFFFF, reset := 0xA000, lock := none },
  { base := 0x1010, dims := [], len := 8, wide := true, acc := .wo, mask := 0xFFFFFFFFFFFFFFFF, reset := 0x0, lock := none },
  { base := 0x1018, dims := [], len := 4, wide := false, acc := .ro, mask := 0x0, reset := 0x0, lock := none },
  { base := 0x101C, dims := [], len := 4, wide := false, acc := .ro, mask := 0x0, reset := 0x0, lock := none },
  { base := 0x1020, dims := [], len := 4, wide := false, acc := .rw, mask := 0xFFFF, reset := 0x0, lock := none },
  { base := 0x1024, dims := [], len := 4, wide := false, acc := .rc, mask := 0x0, reset := 0x0, lock := none },
  { base := 0x1028, dims := [], len := 4, wide := false, acc := .rc, mask := 0x0, reset := 0x0, lock := none },
  { base := 0x102C, dims := [], len := 4, wide := false, acc := .rc, mask := 0x0, reset := 0x0, lock := none },
  { base := 0x1100, dims := [], len := 8, wide := true, acc := .rwl, mask := 0xFFFFFFFFFFFF, reset := 0x0, lock := some .global },
  { base := 0x1108, dims := [], len := 4, wide := false, acc := .rw, mask := 0x1F, reset := 0x10, lock := none },
  { base := 0x110C, dims := [], len := 4, wide := false, acc := .rw, mask := 0x3FF, reset := 0x19, lock := none },
  { base := 0x1110, dims := [], len := 4, wide := false, acc := .ro, mask := 0x0, reset := 0x0, lock := none },
  { base := 0x1114, dims := [], len := 4, wide := false, acc := .ro, mask := 0x0, reset := 0x0, lock := none },
  { base := 0x1118, dims := [], len := 4, wide := false, acc := .rc, mask := 0x0, reset := 0x0, lock := none },
  { base := 0x111C, dims := [], len := 4, wide := false, acc := .rc, mask := 0x0, reset := 0x0, lock := none },
  { base := 0x1120, dims := [], len := 4, wide := false, acc := .rc, mask := 0x0, reset := 0x0, lock := none },
  { base := 0x1124, dims := [], len := 4, wide := false, acc := .rc, mask := 0x0, reset := 0x0, lock := none },
  { base := 0x1128, dims := [], len := 4, wide := false, acc := .rc, mask := 0x0, reset := 0x0, lock := none },
  { base := 0x112C, dims := [], len := 4, wide := false, acc := .rc, mask := 0x0, reset := 0x0, lock := none },
  { base := 0x1130, dims := [], len := 4, wide := false, acc := .rc, mask := 0x0, reset := 0x0, lock := none },
  { base := 0x1134, dims := [], len := 4, wide := false, acc := .rc, mask := 0x0, reset := 0x0, lock := none },
  { base := 0x2000, dims := [], len := 64, wide := false, acc := .rw, mask := 0xFFFFFFFF, reset := 0x0, lock := none },
  { base := 0x2040, dims := [], len := 4, wide := false, acc := .wo, mask := 0x3FF, reset := 0x0, lock := none },
  { base := 0x2044, dims := [], len := 4, wide := false, acc := .ro, mask := 0x0, reset := 0x0, lock := none },
  { base := 0x4000, dims := [(0x40, 256)], len := 4, wide := false, acc := .ro, mask := 0x0, reset := 0x0, lock := none },
  { base := 0x4004, dims := [(0x40, 256)], len := 4, wide := false, acc := .ro, mask := 0x0, reset := 0x0, lock := none },
  { base := 0x4008, dims := [(0x40, 256), (0x4, 4)], len := 4, wide := false, acc := .ro, mask := 0x0, reset := 0x0, lock := none },
  { base := 0x4018, dims := [(0x40, 256)], len := 4, wide := false, acc := .ro, mask := 0x0, reset := 0x0, lock := none },
  { base := 0x401C, dims := [(0x40, 256)], len := 4, wide := false, acc := .ro, mask := 0x0, reset := 0x0, lock := none } ]

def regRowsGlobal1 : List RegRow := [
  { base := 0x4020, dims := [(0x40, 256)], len := 4, wide := false, acc := .ro, mask := 0x0, reset := 0x0, lock := none },
  { base := 0x4024, dims := [(0x40, 256)], len := 4, wide := false, acc := .ro, mask := 0x0, reset := 0x0, lock := none },
  { base := 0x4028, dims := [(0x40, 256)], len := 8, wide := true, acc := .ro, mask := 0x0, reset := 0x0, lock := none },
  { base := 0x4030, dims := [(0x40, 256)], len := 8, wide := true, acc := .ro, mask := 0x0, reset := 0x0, lock := none },
  { base := 0x4038, dims := [(0x40, 256)], len := 8, wide := true, acc := .ro, mask := 0x0, reset := 0x0, lock := none },
  { base := 0x8000, dims := [(0x40, 256)], len := 4, wide := false, acc := .rw, mask := 0x7, reset := 0x0, lock := none },
  { base := 0x8004, dims := [(0x40, 256)], len := 4, wide := false, acc := .ro, mask := 0x0, reset := 0x0, lock := none },
  { base := 0x8008, dims := [(0x40, 256)], len := 8, wide := true, acc := .rw, mask := 0xFFFFFFFFF000, reset := 0x0, lock := none },
  { base := 0x8010, dims := [(0x40, 256)], len := 4, wide := false, acc := .rw, mask := 0x1FFFFF, reset := 0x10, lock := none },
  { base := 0x8018, dims := [(0x40, 256)], len := 8, wide := true, acc := .ro, mask := 0x0, reset := 0x0, lock := none },
  { base := 0x8020, dims := [(0x40, 256)], len := 4, wide := false, acc := .ro, mask := 0x0, reset := 0x0, lock := none },
  { base := 0x8024, dims := [(0x40, 256)], len := 4, wide := false, acc := .ro, mask := 0x0, reset := 0x0, lock := none },
  { base := 0x8028, dims := [(0x40, 256)], len := 4, wide := false, acc := .rc, mask := 0x0, reset := 0x0, lock := none },
  { base := 0x802C, dims := [(0x40, 256)], len := 20, wide := false, acc := .ro, mask := 0x0, reset := 0x0, lock := none },
  { base := 0xC000, dims := [], len := 4, wide := false, acc := .ro, mask := 0x0, reset := 0x0, lock := none },
  { base := 0xC004, dims := [], len := 4, wide := false, acc := .rc, mask := 0x0, reset := 0x0, lock := none },
  { base := 0xC008, dims := [], len := 4, wide := false, acc := .ro, mask := 0x0, reset := 0x0, lock := none },
  { base := 0xC00C, dims := [], len := 244, wide := false, acc := .ro, mask := 0x0, reset := 0x0, lock := none },
  { base := 0xD000, dims := [], len := 4, wide := false, acc := .rwl, mask := 0x1, reset := 0x0, lock := some .global },
  { base := 0xD004, dims := [], len := 4, wide := false, acc := .ro, mask := 0x0, reset := 0x0, lock := none },
  { base := 0xD008, dims := [], len := 4, wide := false, acc := .wo, mask := 0x3, reset := 0x0, lock := none },
  { base := 0xD00C, dims := [], len := 4, wide := false, acc := .rw, mask := 0x3FFF, reset := 0xA, lock := none },
  { base := 0xD010, dims := [], len := 4, wide := false, acc := .rw, mask := 0x3FF, reset := 0x1, lock := none },
  { base := 0xD014, dims := [], len := 4, wide := false, acc := .rw, mask := 0x3FF, reset := 0x1, lock := none },
  { base := 0xD018, dims := [], len := 8, wide := true, acc := .rwl, mask := 0xFFFFFFFFFFFFFFFF, reset := 0xFFC0000000, lock := some .global },
  { base := 0xD020, dims := [], len := 4, wide := false, acc := .ro, mask := 0x0, reset := 0x0, lock := none },
  { base := 0xD024, dims := [], len := 4, wide := false, acc := .ro, mask := 0x0, reset := 0x0, lock := none },
  { base := 0xD028, dims := [], len := 4, wide := false, acc := .rc, mask := 0x0, reset := 0x0, lock := none },
  { base := 0xD02C, dims := [], len := 4, wide := false, acc := .rc, mask := 0x0, reset := 0x0, lock := none },
  { base := 0xD030, dims := [], len := 4, wide := false, acc := .rc, mask := 0x0, reset := 0x0, lock := none } ]

def regRowsGlobal2 : List RegRow := [
  { base := 0xD034, dims := [], len := 4, wide := false, acc := .rc, mask := 0x0, reset := 0x0, lock := none },
  { base := 0xD038, dims := [], len := 4, wide := false, acc := .rc, mask := 0x0, reset := 0x0, lock := none },
  { base := 0xD03C, dims := [], len := 4, wide := false, acc := .rc, mask := 0x0, reset := 0x0, lock := none },
  { base := 0xD040, dims := [], len := 4, wide := false, acc := .rc, mask := 0x0, reset := 0x0, lock := none },
  { base := 0xD044, dims := [], len := 4, wide := false, acc := .rc, mask := 0x0, reset := 0x0, lock := none },
  { base := 0xD048, dims := [], len := 4, wide := false, acc := .rc, mask := 0x0, reset := 0x0, lock := none },
  { base := 0xD04C, dims := [], len := 4, wide := false, acc := .rc, mask := 0x0, reset := 0x0, lock := none },
  { base := 0xD050, dims := [], len := 8, wide := true, acc := .ro, mask := 0x0, reset := 0x0, lock := none },
  { base := 0xD058, dims := [], len := 8, wide := true, acc := .ro, mask := 0x0, reset := 0x0, lock := none },
  { base := 0xD060, dims := [], len := 8, wide := true, acc := .ro, mask := 0x0, reset := 0x0, lock := none },
  { base := 0xD068, dims := [], len := 4, wide := false, acc := .ro, mask := 0x0, reset := 0x0, lock := none },
  { base := 0xD06C, dims := [], len := 4, wide := false, acc := .rc, mask := 0x0, reset := 0x0, lock := none },
  { base := 0xD070, dims := [], len := 4, wide := false, acc := .rc, mask := 0x0, reset := 0x0, lock := none },
  { base := 0xD074, dims := [], len := 3980, wide := false, acc := .ro, mask := 0x0, reset := 0x0, lock := none },
  { base := 0x10000, dims := [], len := 32768, wide := false, acc := .ro, mask := 0x0, reset := 0x0, lock := none },
  { base := 0x0, dims := [], len := 4, wide := false, acc := .ro, mask := 0x0, reset := 0x15120, lock := none },
  { base := 0x4, dims := [], len := 4, wide := false, acc := .ro, mask := 0x0, reset := 0x1EA7, lock := none },
  { base := 0x8, dims := [], len := 4, wide := false, acc := .rwl, mask := 0xFFFFFF00, reset := 0x0, lock := some .global },
  { base := 0xC, dims := [], len := 4, wide := false, acc := .rwl, mask := 0x1, reset := 0x0, lock := some .global },
  { base := 0x10, dims := [], len := 4, wide := false, acc := .ro, mask := 0x0, reset := 0x0, lock := none },
  { base := 0x14, dims := [], len := 4, wide := false, acc := .ro, mask := 0x0, reset := 0x0, lock := none },
  { base := 0x18, dims := [], len := 4, wide := false, acc := .ro, mask := 0x0, reset := 0x0, lock := none },
  { base := 0x20, dims := [], len := 4, wide := false, acc := .rc, mask := 0x0, reset := 0x0, lock := none },
  { base := 0x24, dims := [], len := 4, wide := false, acc := .ro, mask := 0x0, reset := 0x0, lock := none },
  { base := 0x28, dims := [], len := 4, wide := false, acc := .rc, mask := 0x0, reset := 0x0, lock := none },
  { base := 0x30, dims := [(0x4, 4)], len := 4, wide := false, acc := .rw, mask := 0xFFFFFFFF, reset := 0x0, lock := none },
  { base := 0x40, dims := [], len := 4, wide := false, acc := .rc, mask := 0x0, reset := 0x0, lock := none },
  { base := 0x44, dims := [], len := 4, wide := false, acc := .rc, mask := 0x0, reset := 0x0, lock := none },
  { base := 0x48, dims := [], len := 4, wide := false, acc := .rc, mask := 0x0, reset := 0x0, lock := none },
  { base := 0x4C, dims := [], len := 4020, wide := false, acc := .ro, mask := 0x0, reset := 0x0, lock := none } ]

def regRowsGlobal : List RegRow := regRowsGlobal0 ++ regRowsGlobal1 ++ regRowsGlobal2

def regRowsSwitch0 : List RegRow := [
  { base := 0x100000, dims := [], len := 4, wide := false, acc := .rwl, mask := 0x1F, reset := 0x17, lock := some .sc },
  { base := 0x100004, dims := [], len := 4, wide := false, acc := .rwl, mask := 0x3FF, reset := 0x14, lock := some .sc },
  { base := 0x100008, dims := [], len := 4, wide := false, acc := .rwl, mask := 0x1, reset := 0x0, lock := some .sc },
  { base := 0x100010, dims := [], len := 4, wide := false, acc := .ro, mask := 0x0, reset := 0x180000, lock := none },
  { base := 0x100014, dims := [], len := 4, wide := false, acc := .ro, mask := 0x0, reset := 0xF0000, lock := none },
  { base := 0x100018, dims := [], len := 4, wide := false, acc := .ro, mask := 0x0, reset := 0xF0000, lock := none },
  { base := 0x10001C, dims := [], len := 4, wide := false, acc := .rc, mask := 0x0, reset := 0xF0000, lock := none },
  { base := 0x100020, dims := [], len := 4, wide := false, acc := .ro, mask := 0x0, reset := 0x10000, lock := none },
  { base := 0x100024, dims := [], len := 4, wide := false, acc := .ro, mask := 0x0, reset := 0x0, lock := none },
  { base := 0x100028, dims := [], len := 4, wide := false, acc := .ro, mask := 0x0, reset := 0x0, lock := none },
  { base := 0x10002C, dims := [], len := 4, wide := false, acc := .rc, mask := 0x0, reset := 0x0, lock := none },
  { base := 0x100030, dims := [], len := 4, wide := false, acc := .rc, mask := 0x0, reset := 0x0, lock := none },
  { base := 0x100034, dims := [], len := 4, wide := false, acc := .rc, mask := 0x0, reset := 0x0, lock := none },
  { base := 0x100038, dims := [], len := 4, wide := false, acc := .rc, mask := 0x0, reset := 0x0, lock := none },
  { base := 0x10003C, dims := [], len := 4, wide := false, acc := .rc, mask := 0x0, reset := 0x0, lock := none },
  { base := 0x100040, dims := [], len := 4, wide := false, acc := .rc, mask := 0x0, reset := 0x0, lock := none },
  { base := 0x100044, dims := [], len := 4, wide := false, acc := .rc, mask := 0x0, reset := 0x0, lock := none },
  { base := 0x100048, dims := [], len := 4, wide := false, acc := .rc, mask := 0x0, reset := 0x0, lock := none },
  { base := 0x10004C, dims := [], len := 4, wide := false, acc := .rc, mask := 0x0, reset := 0x0, lock := none },
  { base := 0x100050, dims := [], len := 4, wide := false, acc := .rc, mask := 0x0, reset := 0x0, lock := none },
  { base := 0x100054, dims := [], len := 4, wide := false, acc := .rc, mask := 0x0, reset := 0x0, lock := none },
  { base := 0x100058, dims := [], len := 4, wide := false, acc := .rc, mask := 0x0, reset := 0x0, lock := none },
  { base := 0x100060, dims := [(0x4, 8)], len := 4, wide := false, acc := .ro, mask := 0x0, reset := 0x0, lock := none },
  { base := 0x100080, dims := [], len := 128, wide := false, acc := .ro, mask := 0x0, reset := 0x0, lock := none },
  { base := 0x104000, dims := [], len := 4, wide := false, acc := .rwl, mask := 0x1, reset := 0x0, lock := some .sc },
  { base := 0x104008, dims := [], len := 8, wide := true, acc := .rwl, mask := 0xFFFFFFFFFFFF, reset := 0x6A00000000, lock := some .sc },
  { base := 0x104010, dims := [], len := 4, wide := false, acc := .rwl, mask := 0x7F, reset := 0x8, lock := some .sc },
  { base := 0x104014, dims := [], len := 4, wide := false, acc := .ro, mask := 0x0, reset := 0x0, lock := none },
  { base := 0x104018, dims := [], len := 4, wide := false, acc := .rw, mask := 0x3FFF, reset := 0xC8, lock := none },
  { base := 0x10401C, dims := [], len := 4, wide := false, acc := .rw, mask := 0xF, reset := 0x3, lock := none } ]

def regRowsSwitch1 : List RegRow := [
  { base := 0x104020, dims := [], len := 4, wide := false, acc := .ro, mask := 0x0, reset := 0x0, lock := none },
  { base := 0x104024, dims := [], len := 4, wide := false, acc := .ro, mask := 0x0, reset := 0x0, lock := none },
  { base := 0x104028, dims := [], len := 4, wide := false, acc := .ro, mask := 0x0, reset := 0x0, lock := none },
  { base := 0x10402C, dims := [], len := 4, wide := false, acc := .ro, mask := 0x0, reset := 0x4000, lock := none },
  { base := 0x104040, dims := [], len := 4, wide := false, acc := .rc, mask := 0x0, reset := 0x0, lock := none },
  { base := 0x104044, dims := [], len := 4, wide := false, acc := .rc, mask := 0x0, reset := 0x0, lock := none },
  { base := 0x104048, dims := [], len := 4, wide := false, acc := .rc, mask := 0x0, reset := 0x0, lock := none },
  { base := 0x10404C, dims := [], len := 4, wide := false, acc := .rc, mask := 0x0, reset := 0x0, lock := none },
  { base := 0x104050, dims := [], len := 4, wide := false, acc := .rc, mask := 0x0, reset := 0x0, lock := none },
  { base := 0x104054, dims := [], len := 4, wide := false, acc := .rc, mask := 0x0, reset := 0x0, lock := none },
  { base := 0x104058, dims := [], len := 4, wide := false, acc := .rc, mask := 0x0, reset := 0x0, lock := none },
  { base := 0x10405C, dims := [], len := 4, wide := false, acc := .rc, mask := 0x0, reset := 0x0, lock := none },
  { base := 0x104060, dims := [], len := 4, wide := false, acc := .rc, mask := 0x0, reset := 0x0, lock := none },
  { base := 0x104064, dims := [], len := 4, wide := false, acc := .rc, mask := 0x0, reset := 0x0, lock := none },
  { base := 0x104068, dims := [], len := 4, wide := false, acc := .rc, mask := 0x0, reset := 0x0, lock := none },
  { base := 0x10406C, dims := [], len := 4, wide := false, acc := .rc, mask := 0x0, reset := 0x0, lock := none },
  { base := 0x104070, dims := [], len := 4, wide := false, acc := .rc, mask := 0x0, reset := 0x0, lock := none },
  { base := 0x104074, dims := [], len := 4, wide := false, acc := .rc, mask := 0x0, reset := 0x0, lock := none },
  { base := 0x104078, dims := [], len := 4, wide := false, acc := .rc, mask := 0x0, reset := 0x0, lock := none },
  { base := 0x10407C, dims := [], len := 4, wide := false, acc := .rc, mask := 0x0, reset := 0x0, lock := none },
  { base := 0x104080, dims := [], len := 4, wide := false, acc := .rc, mask := 0x0, reset := 0x0, lock := none },
  { base := 0x104084, dims := [], len := 4, wide := false, acc := .rc, mask := 0x0, reset := 0x0, lock := none },
  { base := 0x104088, dims := [], len := 4, wide := false, acc := .rc, mask := 0x0, reset := 0x0, lock := none },
  { base := 0x10408C, dims := [], len := 4, wide := false, acc := .rc, mask := 0x0, reset := 0x0, lock := none },
  { base := 0x104090, dims := [], len := 4, wide := false, acc := .rc, mask := 0x0, reset := 0x0, lock := none },
  { base := 0x104094, dims := [], len := 4, wide := false, acc := .rc, mask := 0x0, reset := 0x0, lock := none },
  { base := 0x104098, dims := [], len := 104, wide := false, acc := .ro, mask := 0x0, reset := 0x0, lock := none },
  { base := 0x104100, dims := [], len := 4, wide := false, acc := .rwl, mask := 0x3, reset := 0x3, lock := some .sc },
  { base := 0x104104, dims := [], len := 4, wide := false, acc := .rc, mask := 0x0, reset := 0x0, lock := none },
  { base := 0x104108, dims := [], len := 4, wide := false, acc := .rc, mask := 0x0, reset := 0x0, lock := none } ]

def regRowsSwitch2 : List RegRow := [
  { base := 0x10410C, dims := [], len := 4, wide := false, acc := .rc, mask := 0x0, reset := 0x0, lock := none },
  { base := 0x104110, dims := [], len := 4, wide := false, acc := .rc, mask := 0x0, reset := 0x0, lock := none },
  { base := 0x104114, dims := [], len := 4, wide := false, acc := .rc, mask := 0x0, reset := 0x0, lock := none },
  { base := 0x104118, dims := [], len := 4, wide := false, acc := .rc, mask := 0x0, reset := 0x0, lock := none },
  { base := 0x10411C, dims := [], len := 228, wide := false, acc := .ro, mask := 0x0, reset := 0x0, lock := none } ]

def regRowsSwitch : List RegRow := regRowsSwitch0 ++ regRowsSwitch1 ++ regRowsSwitch2

def regRowsRoute : List RegRow := [
  { base := 0x200000, dims := [], len := 4, wide := false, acc := .rwl, mask := 0x1FFFF, reset := 0x10000, lock := some .rt },
  { base := 0x200004, dims := [], len := 4, wide := false, acc := .rwl, mask := 0x1, reset := 0x0, lock := some .rt },
  { base := 0x200008, dims := [], len := 4, wide := false, acc := .ro, mask := 0x0, reset := 0x0, lock := none },
  { base := 0x200010, dims := [], len := 8, wide := true, acc := .rw, mask := 0xFFFFFFFFFFFFFFFF, reset := 0x0, lock := none },
  { base := 0x200018, dims := [], len := 4, wide := false, acc := .wo, mask := 0x7, reset := 0x0, lock := none },
  { base := 0x20001C, dims := [], len := 4, wide := false, acc := .ro, mask := 0x0, reset := 0x0, lock := none },
  { base := 0x200020, dims := [], len := 4, wide := false, acc := .rw, mask := 0x3FF, reset := 0x19, lock := none },
  { base := 0x200024, dims := [], len := 4, wide := false, acc := .rw, mask := 0x3FF, reset := 0xA, lock := none },
  { base := 0x200040, dims := [(0x4, 16)], len := 4, wide := false, acc := .rw, mask := 0xFFFFFFFF, reset := 0x0, lock := none },
  { base := 0x200080, dims := [], len := 4, wide := false, acc := .wo, mask := 0xFFF13, reset := 0x0, lock := none },
  { base := 0x200100, dims := [], len := 4, wide := false, acc := .rc, mask := 0x0, reset := 0x0, lock := none },
  { base := 0x200104, dims := [], len := 4, wide := false, acc := .rc, mask := 0x0, reset := 0x0, lock := none },
  { base := 0x200108, dims := [], len := 4, wide := false, acc := .rc, mask := 0x0, reset := 0x0, lock := none },
  { base := 0x20010C, dims := [], len := 4, wide := false, acc := .rc, mask := 0x0, reset := 0x0, lock := none },
  { base := 0x200110, dims := [], len := 4, wide := false, acc := .rc, mask := 0x0, reset := 0x0, lock := none },
  { base := 0x200114, dims := [], len := 4, wide := false, acc := .rc, mask := 0x0, reset := 0x0, lock := none },
  { base := 0x200118, dims := [], len := 4, wide := false, acc := .ro, mask := 0x0, reset := 0x0, lock := none },
  { base := 0x20011C, dims := [], len := 4, wide := false, acc := .rc, mask := 0x0, reset := 0x0, lock := none },
  { base := 0x200120, dims := [], len := 4, wide := false, acc := .rc, mask := 0x0, reset := 0x0, lock := none },
  { base := 0x200124, dims := [], len := 4, wide := false, acc := .rc, mask := 0x0, reset := 0x0, lock := none },
  { base := 0x200128, dims := [], len := 4, wide := false, acc := .rc, mask := 0x0, reset := 0x0, lock := none },
  { base := 0x20012C, dims := [], len := 4, wide := false, acc := .rc, mask := 0x0, reset := 0x0, lock := none },
  { base := 0x200130, dims := [], len := 4, wide := false, acc := .rc, mask := 0x0, reset := 0x0, lock := none },
  { base := 0x200134, dims := [], len := 4, wide := false, acc := .rc, mask := 0x0, reset := 0x0, lock := none },
  { base := 0x200138, dims := [], len := 4, wide := false, acc := .rc, mask := 0x0, reset := 0x0, lock := none },
  { base := 0x20013C, dims := [], len := 3780, wide := false, acc := .ro, mask := 0x0, reset := 0x0, lock := none } ]

def regRowsPort0 : List RegRow := [
  { base := 0x1008000, dims := [(0x10000, 128)], len := 4, wide := false, acc := .rc, mask := 0x0, reset := 0x0, lock := none },
  { base := 0x1008004, dims := [(0x10000, 128)], len := 4, wide := false, acc := .rc, mask := 0x0, reset := 0x0, lock := none },
  { base := 0x1008008, dims := [(0x10000, 128)], len := 4, wide := false, acc := .rc, mask := 0x0, reset := 0x0, lock := none },
  { base := 0x100800C, dims := [(0x10000, 128)], len := 4, wide := false, acc := .rc, mask := 0x0, reset := 0x0, lock := none },
  { base := 0x1008010, dims := [(0x10000, 128)], len := 4, wide := false, acc := .rc, mask := 0x0, reset := 0x0, lock := none },
  { base := 0x1008014, dims := [(0x10000, 128)], len := 4, wide := false, acc := .rc, mask := 0x0, reset := 0x0, lock := none },
  { base := 0x1008018, dims := [(0x10000, 128)], len := 4, wide := false, acc := .rc, mask := 0x0, reset := 0x0, lock := none },
  { base := 0x100801C, dims := [(0x10000, 128)], len := 4, wide := false, acc := .rc, mask := 0x0, reset := 0x0, lock := none },
  { base := 0x1008020, dims := [(0x10000, 128)], len := 4, wide := false, acc := .rc, mask := 0x0, reset := 0x0, lock := none },
  { base := 0x1008024, dims := [(0x10000, 128)], len := 4, wide := false, acc := .rc, mask := 0x0, reset := 0x0, lock := none },
  { base := 0x1008028, dims := [(0x10000, 128)], len := 4, wide := false, acc := .rc, mask := 0x0, reset := 0x0, lock := none },
  { base := 0x100802C, dims := [(0x10000, 128)], len := 4, wide := false, acc := .rc, mask := 0x0, reset := 0x0, lock := none },
  { base := 0x1008030, dims := [(0x10000, 128)], len := 4, wide := false, acc := .rc, mask := 0x0, reset := 0x0, lock := none },
  { base := 0x1008034, dims := [(0x10000, 128)], len := 4, wide := false, acc := .rc, mask := 0x0, reset := 0x0, lock := none },
  { base := 0x1008038, dims := [(0x10000, 128)], len := 4, wide := false, acc := .rc, mask := 0x0, reset := 0x0, lock := none },
  { base := 0x100803C, dims := [(0x10000, 128)], len := 4, wide := false, acc := .rc, mask := 0x0, reset := 0x0, lock := none },
  { base := 0x1008040, dims := [(0x10000, 128)], len := 4, wide := false, acc := .rc, mask := 0x0, reset := 0x0, lock := none },
  { base := 0x1008044, dims := [(0x10000, 128)], len := 4, wide := false, acc := .rc, mask := 0x0, reset := 0x0, lock := none },
  { base := 0x1008048, dims := [(0x10000, 128)], len := 184, wide := false, acc := .ro, mask := 0x0, reset := 0x0, lock := none },
  { base := 0x1009000, dims := [(0x10000, 128), (0x100, 4), (0x4, 8)], len := 4, wide := false, acc := .rw, mask := 0xFFFF, reset := 0x0, lock := none },
  { base := 0x1009020, dims := [(0x10000, 128), (0x100, 4), (0x4, 8)], len := 4, wide := false, acc := .rw, mask := 0xFFFF, reset := 0x0, lock := none },
  { base := 0x1009040, dims := [(0x10000, 128), (0x100, 4)], len := 4, wide := false, acc := .rw, mask := 0xFFFFFFFF, reset := 0xF0F2828, lock := none },
  { base := 0x1009044, dims := [(0x10000, 128), (0x100, 4)], len := 4, wide := false, acc := .rw, mask := 0xFFFF, reset := 0xF0F, lock := none },
  { base := 0x1009048, dims := [(0x10000, 128), (0x100, 4)], len := 4, wide := false, acc := .rw, mask := 0x3FF03FF, reset := 0x400014, lock := none },
  { base := 0x100904C, dims := [(0x10000, 128), (0x100, 4)], len := 4, wide := false, acc := .rw, mask := 0x3FF03FF, reset := 0x800032, lock := none },
  { base := 0x1009050, dims := [(0x10000, 128), (0x100, 4)], len := 176, wide := false, acc := .ro, mask := 0x0, reset := 0x0, lock := none },
  { base := 0x100A000, dims := [(0x10000, 128), (0x40, 32)], len := 8, wide := true, acc := .ro, mask := 0x0, reset := 0x0, lock := none },
  { base := 0x100A008, dims := [(0x10000, 128), (0x40, 32)], len := 8, wide := true, acc := .ro, mask := 0x0, reset := 0x0, lock := none },
  { base := 0x100A010, dims := [(0x10000, 128), (0x40, 32)], len := 8, wide := true, acc := .ro, mask := 0x0, reset := 0x0, lock := none },
  { base := 0x100A018, dims := [(0x10000, 128), (0x40, 32)], len := 8, wide := true, acc := .ro, mask := 0x0, reset := 0x0, lock := none } ]

def regRowsPort1 : List RegRow := [
  { base := 0x100A020, dims := [(0x10000, 128), (0x40, 32)], len := 4, wide := false, acc := .ro, mask := 0x0, reset := 0x0, lock := none },
  { base := 0x100A024, dims := [(0x10000, 128), (0x40, 32)], len := 4, wide := false, acc := .rc, mask := 0x0, reset := 0x0, lock := none },
  { base := 0x100A028, dims := [(0x10000, 128), (0x40, 32)], len := 4, wide := false, acc := .rc, mask := 0x0, reset := 0x0, lock := none },
  { base := 0x100A02C, dims := [(0x10000, 128), (0x40, 32)], len := 20, wide := false, acc := .ro, mask := 0x0, reset := 0x0, lock := none },
  { base := 0x1000000, dims := [(0x10000, 128)], len := 4, wide := false, acc := .rw, mask := 0x7F, reset := 0x0, lock := none },
  { base := 0x1000004, dims := [(0x10000, 128)], len := 4, wide := false, acc := .rw, mask := 0xFFFF, reset := 0x7D0, lock := none },
  { base := 0x1000008, dims := [(0x10000, 128)], len := 4, wide := false, acc := .rw, mask := 0x3FFFF, reset := 0xFA0, lock := none },
  { base := 0x100000C, dims := [(0x10000, 128)], len := 4, wide := false, acc := .rw, mask := 0xFFFF, reset := 0xC8, lock := none },
  { base := 0x1000010, dims := [(0x10000, 128)], len := 4, wide := false, acc := .rw, mask := 0xFFFFF, reset := 0xC350, lock := none },
  { base := 0x1000014, dims := [(0x10000, 128)], len := 4, wide := false, acc := .rw, mask := 0xFF, reset := 0x10, lock := none },
  { base := 0x1000100, dims := [(0x10000, 128)], len := 4, wide := false, acc := .rc, mask := 0x0, reset := 0x0, lock := none },
  { base := 0x1000104, dims := [(0x10000, 128)], len := 4, wide := false, acc := .rc, mask := 0x0, reset := 0x0, lock := none },
  { base := 0x1000108, dims := [(0x10000, 128)], len := 4, wide := false, acc := .rc, mask := 0x0, reset := 0x0, lock := none },
  { base := 0x100010C, dims := [(0x10000, 128)], len := 4, wide := false, acc := .rc, mask := 0x0, reset := 0x0, lock := none },
  { base := 0x1000110, dims := [(0x10000, 128)], len := 4, wide := false, acc := .rc, mask := 0x0, reset := 0x0, lock := none },
  { base := 0x1000114, dims := [(0x10000, 128)], len := 4, wide := false, acc := .rc, mask := 0x0, reset := 0x0, lock := none },
  { base := 0x1000118, dims := [(0x10000, 128)], len := 4, wide := false, acc := .rc, mask := 0x0, reset := 0x0, lock := none },
  { base := 0x100011C, dims := [(0x10000, 128)], len := 4, wide := false, acc := .rc, mask := 0x0, reset := 0x0, lock := none },
  { base := 0x1000120, dims := [(0x10000, 128)], len := 4, wide := false, acc := .rc, mask := 0x0, reset := 0x0, lock := none },
  { base := 0x1000124, dims := [(0x10000, 128)], len := 4, wide := false, acc := .rc, mask := 0x0, reset := 0x0, lock := none },
  { base := 0x1000128, dims := [(0x10000, 128)], len := 4, wide := false, acc := .rc, mask := 0x0, reset := 0x0, lock := none },
  { base := 0x100012C, dims := [(0x10000, 128)], len := 4, wide := false, acc := .rc, mask := 0x0, reset := 0x0, lock := none },
  { base := 0x1000130, dims := [(0x10000, 128)], len := 4, wide := false, acc := .rc, mask := 0x0, reset := 0x0, lock := none },
  { base := 0x1000134, dims := [(0x10000, 128)], len := 4, wide := false, acc := .rc, mask := 0x0, reset := 0x0, lock := none },
  { base := 0x1000138, dims := [(0x10000, 128)], len := 4, wide := false, acc := .rc, mask := 0x0, reset := 0x0, lock := none },
  { base := 0x100013C, dims := [(0x10000, 128)], len := 4, wide := false, acc := .rc, mask := 0x0, reset := 0x0, lock := none },
  { base := 0x1000140, dims := [(0x10000, 128)], len := 4, wide := false, acc := .rc, mask := 0x0, reset := 0x0, lock := none },
  { base := 0x1000144, dims := [(0x10000, 128)], len := 4, wide := false, acc := .rc, mask := 0x0, reset := 0x0, lock := none },
  { base := 0x1000148, dims := [(0x10000, 128)], len := 32440, wide := false, acc := .ro, mask := 0x0, reset := 0x0, lock := none },
  { base := 0x1000040, dims := [(0x10000, 128), (0x20, 4)], len := 4, wide := false, acc := .rw, mask := 0x7, reset := 0x0, lock := none } ]

def regRowsPort2 : List RegRow := [
  { base := 0x1000044, dims := [(0x10000, 128), (0x20, 4)], len := 4, wide := false, acc := .ro, mask := 0x0, reset := 0x0, lock := none },
  { base := 0x1000048, dims := [(0x10000, 128), (0x20, 4)], len := 4, wide := false, acc := .ro, mask := 0x0, reset := 0x0, lock := none },
  { base := 0x100004C, dims := [(0x10000, 128), (0x20, 4)], len := 4, wide := false, acc := .ro, mask := 0x0, reset := 0x0, lock := none },
  { base := 0x1000050, dims := [(0x10000, 128), (0x20, 4)], len := 4, wide := false, acc := .wo, mask := 0x1F, reset := 0x0, lock := none },
  { base := 0x1000054, dims := [(0x10000, 128), (0x20, 4)], len := 4, wide := false, acc := .ro, mask := 0x0, reset := 0x0, lock := none },
  { base := 0x1000058, dims := [(0x10000, 128), (0x20, 4)], len := 8, wide := false, acc := .ro, mask := 0x0, reset := 0x0, lock := none } ]

def regRowsPort : List RegRow := regRowsPort0 ++ regRowsPort1 ++ regRowsPort2

def regRowsLane : List RegRow := [
  { base := 0x1800000, dims := [(0x800, 528)], len := 4, wide := false, acc := .ro, mask := 0x0, reset := 0x0, lock := none },
  { base := 0x1800004, dims := [(0x800, 528)], len := 4, wide := false, acc := .rw, mask := 0xF, reset := 0x0, lock := none },
  { base := 0x1800008, dims := [(0x800, 528)], len := 4, wide := false, acc := .rw, mask := 0x3FF, reset := 0x82, lock := none },
  { base := 0x180000C, dims := [(0x800, 528)], len := 4, wide := false, acc := .rw, mask := 0x3FF, reset := 0x82, lock := none },
  { base := 0x1800010, dims := [(0x800, 528)], len := 8, wide := true, acc := .ro, mask := 0x0, reset := 0x0, lock := none },
  { base := 0x1800018, dims := [(0x800, 528)], len := 8, wide := true, acc := .rw, mask := 0xFFFFFFFFFFFFFFFF, reset := 0x0, lock := none },
  { base := 0x1800020, dims := [(0x800, 528)], len := 4, wide := false, acc := .rw, mask := 0x1, reset := 0x0, lock := none },
  { base := 0x1800030, dims := [(0x800, 528)], len := 4, wide := false, acc := .rc, mask := 0x0, reset := 0x0, lock := none },
  { base := 0x1800034, dims := [(0x800, 528)], len := 4, wide := false, acc := .rc, mask := 0x0, reset := 0x0, lock := none },
  { base := 0x1800038, dims := [(0x800, 528)], len := 4, wide := false, acc := .rc, mask := 0x0, reset := 0x0, lock := none },
  { base := 0x180003C, dims := [(0x800, 528)], len := 4, wide := false, acc := .rc, mask := 0x0, reset := 0x0, lock := none },
  { base := 0x1800040, dims := [(0x800, 528)], len := 4, wide := false, acc := .rc, mask := 0x0, reset := 0x0, lock := none },
  { base := 0x1800044, dims := [(0x800, 528)], len := 4, wide := false, acc := .rc, mask := 0x0, reset := 0x0, lock := none },
  { base := 0x1800080, dims := [(0x800, 528)], len := 4, wide := false, acc := .rw, mask := 0x7FFFFF, reset := 0x140000, lock := none },
  { base := 0x1800084, dims := [(0x800, 528)], len := 4, wide := false, acc := .ro, mask := 0x0, reset := 0x0, lock := none },
  { base := 0x1800088, dims := [(0x800, 528)], len := 8, wide := true, acc := .ro, mask := 0x0, reset := 0x0, lock := none },
  { base := 0x1800090, dims := [(0x800, 528)], len := 8, wide := true, acc := .ro, mask := 0x0, reset := 0x0, lock := none },
  { base := 0x18000C0, dims := [(0x800, 528)], len := 4, wide := false, acc := .rw, mask := 0x1F, reset := 0x0, lock := none },
  { base := 0x18000C4, dims := [(0x800, 528)], len := 4, wide := false, acc := .ro, mask := 0x0, reset := 0x0, lock := none },
  { base := 0x18000C8, dims := [(0x800, 528)], len := 8, wide := true, acc := .ro, mask := 0x0, reset := 0x0, lock := none },
  { base := 0x18000D0, dims := [(0x800, 528)], len := 8, wide := true, acc := .ro, mask := 0x0, reset := 0x0, lock := none },
  { base := 0x18000D8, dims := [(0x800, 528)], len := 8, wide := true, acc := .ro, mask := 0x0, reset := 0x0, lock := none },
  { base := 0x18000E0, dims := [(0x800, 528)], len := 8, wide := true, acc := .ro, mask := 0x0, reset := 0x0, lock := none },
  { base := 0x1800100, dims := [(0x800, 528)], len := 4, wide := false, acc := .rw, mask := 0x3FFFF, reset := 0x0, lock := none },
  { base := 0x1800104, dims := [(0x800, 528)], len := 4, wide := false, acc := .rc, mask := 0x0, reset := 0x0, lock := none },
  { base := 0x1800108, dims := [(0x800, 528)], len := 1784, wide := false, acc := .ro, mask := 0x0, reset := 0x0, lock := none } ]

def regRowsBench : List RegRow := [
  { base := 0x2000000, dims := [(0x10000, 104)], len := 4, wide := false, acc := .ro, mask := 0x0, reset := 0x0, lock := none },
  { base := 0x2000004, dims := [(0x10000, 104)], len := 4, wide := false, acc := .ro, mask := 0x0, reset := 0x0, lock := none },
  { base := 0x2000008, dims := [(0x10000, 104)], len := 4, wide := false, acc := .rw, mask := 0x1, reset := 0x0, lock := none },
  { base := 0x200000C, dims := [(0x10000, 104)], len := 4, wide := false, acc := .rw, mask := 0xFFFF, reset := 0x64, lock := none },
  { base := 0x2000010, dims := [(0x10000, 104)], len := 4, wide := false, acc := .rc, mask := 0x0, reset := 0x0, lock := none },
  { base := 0x2000014, dims := [(0x10000, 104)], len := 4, wide := false, acc := .rc, mask := 0x0, reset := 0x0, lock := none },
  { base := 0x2000018, dims := [(0x10000, 104)], len := 4, wide := false, acc := .ro, mask := 0x0, reset := 0x0, lock := none },
  { base := 0x200001C, dims := [(0x10000, 104)], len := 4, wide := false, acc := .rc, mask := 0x0, reset := 0x0, lock := none },
  { base := 0x2000020, dims := [(0x10000, 104)], len := 4, wide := false, acc := .ro, mask := 0x0, reset := 0x0, lock := none },
  { base := 0x2000024, dims := [(0x10000, 104)], len := 4, wide := false, acc := .rc, mask := 0x0, reset := 0x0, lock := none },
  { base := 0x2000028, dims := [(0x10000, 104)], len := 4, wide := false, acc := .rc, mask := 0x0, reset := 0x0, lock := none },
  { base := 0x2000030, dims := [(0x10000, 104)], len := 4, wide := false, acc := .rc, mask := 0x0, reset := 0x0, lock := none },
  { base := 0x2000034, dims := [(0x10000, 104)], len := 4, wide := false, acc := .rc, mask := 0x0, reset := 0x0, lock := none },
  { base := 0x2000038, dims := [(0x10000, 104)], len := 4, wide := false, acc := .rc, mask := 0x0, reset := 0x0, lock := none },
  { base := 0x200003C, dims := [(0x10000, 104)], len := 4, wide := false, acc := .rc, mask := 0x0, reset := 0x0, lock := none },
  { base := 0x2000040, dims := [(0x10000, 104)], len := 4, wide := false, acc := .rc, mask := 0x0, reset := 0x0, lock := none },
  { base := 0x2000044, dims := [(0x10000, 104)], len := 4, wide := false, acc := .rc, mask := 0x0, reset := 0x0, lock := none },
  { base := 0x2000048, dims := [(0x10000, 104)], len := 184, wide := false, acc := .ro, mask := 0x0, reset := 0x0, lock := none },
  { base := 0x2000300, dims := [(0x10000, 104)], len := 64768, wide := false, acc := .ro, mask := 0x0, reset := 0x0, lock := none },
  { base := 0x2000100, dims := [(0x10000, 104), (0x40, 8)], len := 4, wide := false, acc := .ro, mask := 0x0, reset := 0x0, lock := none },
  { base := 0x2000104, dims := [(0x10000, 104), (0x40, 8)], len := 4, wide := false, acc := .ro, mask := 0x0, reset := 0x0, lock := none },
  { base := 0x2000108, dims := [(0x10000, 104), (0x40, 8)], len := 8, wide := true, acc := .ro, mask := 0x0, reset := 0x0, lock := none },
  { base := 0x2000110, dims := [(0x10000, 104), (0x40, 8)], len := 4, wide := false, acc := .rc, mask := 0x0, reset := 0x0, lock := none },
  { base := 0x2000114, dims := [(0x10000, 104), (0x40, 8)], len := 4, wide := false, acc := .ro, mask := 0x0, reset := 0x0, lock := none },
  { base := 0x2000118, dims := [(0x10000, 104), (0x40, 8)], len := 40, wide := false, acc := .ro, mask := 0x0, reset := 0x0, lock := none } ]

def regRowsCommon : List RegRow := [
  { base := 0x2F00000, dims := [(0x4, 4)], len := 4, wide := false, acc := .ro, mask := 0x0, reset := 0x0, lock := none },
  { base := 0x2F00010, dims := [], len := 4, wide := false, acc := .rwl, mask := 0x1, reset := 0x1, lock := some .sc },
  { base := 0x2F00020, dims := [(0x4, 8)], len := 4, wide := false, acc := .rw, mask := 0xFFFFFFFF, reset := 0xFFFFFFFF, lock := none },
  { base := 0x2F00040, dims := [], len := 4032, wide := false, acc := .ro, mask := 0x0, reset := 0x0, lock := none } ]

def regRowsMem : List RegRow := [
  { base := 0x3000000, dims := [(0x10000, 12)], len := 4, wide := false, acc := .ro, mask := 0x0, reset := 0x0, lock := none },
  { base := 0x3000004, dims := [(0x10000, 12)], len := 4, wide := false, acc := .rc, mask := 0x0, reset := 0x0, lock := none },
  { base := 0x3000008, dims := [(0x10000, 12)], len := 4, wide := false, acc := .rc, mask := 0x0, reset := 0x0, lock := none },
  { base := 0x3000010, dims := [(0x10000, 12)], len := 8, wide := true, acc := .ro, mask := 0x0, reset := 0x0, lock := none },
  { base := 0x3000018, dims := [(0x10000, 12)], len := 4, wide := false, acc := .ro, mask := 0x0, reset := 0x0, lock := none },
  { base := 0x300001C, dims := [(0x10000, 12)], len := 4, wide := false, acc := .ro, mask := 0x0, reset := 0x0, lock := none },
  { base := 0x3000020, dims := [(0x10000, 12)], len := 8, wide := true, acc := .ro, mask := 0x0, reset := 0x0, lock := none },
  { base := 0x3000028, dims := [(0x10000, 12)], len := 4, wide := false, acc := .rc, mask := 0x0, reset := 0x0, lock := none },
  { base := 0x300002C, dims := [(0x10000, 12)], len := 65492, wide := false, acc := .ro, mask := 0x0, reset := 0x0, lock := none },
  { base := 0x3100000, dims := [(0x800, 16)], len := 4, wide := false, acc := .ro, mask := 0x0, reset := 0x0, lock := none },
  { base := 0x3100004, dims := [(0x800, 16)], len := 4, wide := false, acc := .rc, mask := 0x0, reset := 0x0, lock := none },
  { base := 0x3100008, dims := [(0x800, 16)], len := 4, wide := false, acc := .rc, mask := 0x0, reset := 0x0, lock := none },
  { base := 0x3100010, dims := [(0x800, 16)], len := 8, wide := true, acc := .ro, mask := 0x0, reset := 0x0, lock := none },
  { base := 0x3100018, dims := [(0x800, 16)], len := 4, wide := false, acc := .ro, mask := 0x0, reset := 0x0, lock := none },
  { base := 0x310001C, dims := [(0x800, 16)], len := 4, wide := false, acc := .ro, mask := 0x0, reset := 0x0, lock := none },
  { base := 0x3100020, dims := [(0x800, 16)], len := 8, wide := true, acc := .ro, mask := 0x0, reset := 0x0, lock := none },
  { base := 0x3100028, dims := [(0x800, 16)], len := 4, wide := false, acc := .rc, mask := 0x0, reset := 0x0, lock := none },
  { base := 0x310002C, dims := [(0x800, 16)], len := 2004, wide := false, acc := .ro, mask := 0x0, reset := 0x0, lock := none } ]

def regRowsPool : List RegRow := [
  { base := 0x3110000, dims := [], len := 4, wide := false, acc := .rwl, mask := 0x3, reset := 0x2, lock := some .global },
  { base := 0x3110004, dims := [], len := 4, wide := false, acc := .rw, mask := 0xF, reset := 0x3, lock := none },
  { base := 0x3110008, dims := [], len := 4, wide := false, acc := .rw, mask := 0x3FFF, reset := 0xC8, lock := none },
  { base := 0x311000C, dims := [], len := 4, wide := false, acc := .rw, mask := 0x7F, reset := 0x8, lock := none },
  { base := 0x3110010, dims := [], len := 4, wide := false, acc := .rw, mask := 0xFFFF, reset := 0x32, lock := none },
  { base := 0x3110014, dims := [], len := 4, wide := false, acc := .ro, mask := 0x0, reset := 0x0, lock := none },
  { base := 0x3110018, dims := [], len := 4, wide := false, acc := .ro, mask := 0x0, reset := 0x0, lock := none },
  { base := 0x3110020, dims := [(0x4, 8)], len := 4, wide := false, acc := .rw, mask := 0xFFFFFFFF, reset := 0x0, lock := none },
  { base := 0x3110040, dims := [], len := 4, wide := false, acc := .wo, mask := 0xFFF, reset := 0x0, lock := none },
  { base := 0x3110044, dims := [], len := 4, wide := false, acc := .ro, mask := 0x0, reset := 0x0, lock := none },
  { base := 0x3110048, dims := [], len := 4, wide := false, acc := .ro, mask := 0x0, reset := 0x0, lock := none },
  { base := 0x311004C, dims := [], len := 4, wide := false, acc := .rw, mask := 0xFFFF, reset := 0x1113, lock := none },
  { base := 0x3110100, dims := [], len := 4, wide := false, acc := .rc, mask := 0x0, reset := 0x0, lock := none },
  { base := 0x3110104, dims := [], len := 4, wide := false, acc := .rc, mask := 0x0, reset := 0x0, lock := none },
  { base := 0x3110108, dims := [], len := 4, wide := false, acc := .rc, mask := 0x0, reset := 0x0, lock := none },
  { base := 0x311010C, dims := [], len := 4, wide := false, acc := .rc, mask := 0x0, reset := 0x0, lock := none },
  { base := 0x3110110, dims := [], len := 4, wide := false, acc := .rc, mask := 0x0, reset := 0x0, lock := none },
  { base := 0x3110114, dims := [], len := 4, wide := false, acc := .rc, mask := 0x0, reset := 0x0, lock := none },
  { base := 0x3110118, dims := [], len := 4, wide := false, acc := .rc, mask := 0x0, reset := 0x0, lock := none },
  { base := 0x311011C, dims := [], len := 4, wide := false, acc := .rc, mask := 0x0, reset := 0x0, lock := none },
  { base := 0x3110120, dims := [], len := 4, wide := false, acc := .rc, mask := 0x0, reset := 0x0, lock := none },
  { base := 0x3110124, dims := [], len := 4, wide := false, acc := .rc, mask := 0x0, reset := 0x0, lock := none },
  { base := 0x3110128, dims := [], len := 4, wide := false, acc := .rc, mask := 0x0, reset := 0x0, lock := none },
  { base := 0x311012C, dims := [], len := 4, wide := false, acc := .rc, mask := 0x0, reset := 0x0, lock := none },
  { base := 0x3110130, dims := [], len := 4, wide := false, acc := .rc, mask := 0x0, reset := 0x0, lock := none },
  { base := 0x3110134, dims := [], len := 4, wide := false, acc := .rc, mask := 0x0, reset := 0x0, lock := none },
  { base := 0x3110138, dims := [], len := 4, wide := false, acc := .rc, mask := 0x0, reset := 0x0, lock := none },
  { base := 0x311013C, dims := [], len := 65220, wide := false, acc := .ro, mask := 0x0, reset := 0x0, lock := none } ]

def regRowsPower0 : List RegRow := [
  { base := 0x3800000, dims := [], len := 4, wide := false, acc := .rwl, mask := 0x3, reset := 0x0, lock := some .global },
  { base := 0x3800004, dims := [], len := 4, wide := false, acc := .ro, mask := 0x0, reset := 0x5DC, lock := none },
  { base := 0x3800008, dims := [], len := 4, wide := false, acc := .ro, mask := 0x0, reset := 0x5DC, lock := none },
  { base := 0x380000C, dims := [], len := 4, wide := false, acc := .rw, mask := 0x7FF, reset := 0x3E8, lock := none },
  { base := 0x3800010, dims := [], len := 4, wide := false, acc := .rw, mask := 0x7FF, reset := 0x3E8, lock := none },
  { base := 0x3800014, dims := [], len := 4, wide := false, acc := .ro, mask := 0x0, reset := 0x5DC, lock := none },
  { base := 0x3800018, dims := [], len := 4, wide := false, acc := .rw, mask := 0xF, reset := 0x0, lock := none },
  { base := 0x380001C, dims := [], len := 4, wide := false, acc := .rw, mask := 0xFF, reset := 0x64, lock := none },
  { base := 0x3800020, dims := [], len := 4, wide := false, acc := .ro, mask := 0x0, reset := 0x64, lock := none },
  { base := 0x3800024, dims := [], len := 4, wide := false, acc := .ro, mask := 0x0, reset := 0x0, lock := none },
  { base := 0x3800028, dims := [], len := 4, wide := false, acc := .ro, mask := 0x0, reset := 0x0, lock := none },
  { base := 0x380002C, dims := [], len := 4, wide := false, acc := .ro, mask := 0x0, reset := 0x5DC, lock := none },
  { base := 0x3800030, dims := [], len := 4, wide := false, acc := .rc, mask := 0x0, reset := 0x0, lock := none },
  { base := 0x3800034, dims := [], len := 4, wide := false, acc := .rw1c, mask := 0xFFFE, reset := 0x0, lock := none },
  { base := 0x3800040, dims := [], len := 4, wide := false, acc := .ro, mask := 0x0, reset := 0x0, lock := none },
  { base := 0x3800044, dims := [], len := 4, wide := false, acc := .ro, mask := 0x0, reset := 0x0, lock := none },
  { base := 0x3800048, dims := [], len := 4, wide := false, acc := .ro, mask := 0x0, reset := 0x0, lock := none },
  { base := 0x3800050, dims := [], len := 4, wide := false, acc := .ro, mask := 0x0, reset := 0x0, lock := none },
  { base := 0x3800054, dims := [], len := 4, wide := false, acc := .wo, mask := 0x1, reset := 0x0, lock := none },
  { base := 0x3800058, dims := [], len := 4, wide := false, acc := .ro, mask := 0x0, reset := 0x0, lock := none },
  { base := 0x3800060, dims := [(0x10, 3)], len := 4, wide := false, acc := .ro, mask := 0x0, reset := 0x0, lock := none },
  { base := 0x3800064, dims := [(0x10, 3)], len := 4, wide := false, acc := .ro, mask := 0x0, reset := 0x400000, lock := none },
  { base := 0x3800068, dims := [(0x10, 3)], len := 4, wide := false, acc := .ro, mask := 0x0, reset := 0x0, lock := none },
  { base := 0x380006C, dims := [(0x10, 3)], len := 4, wide := false, acc := .ro, mask := 0x0, reset := 0x0, lock := none },
  { base := 0x38000A0, dims := [], len := 4, wide := false, acc := .rc, mask := 0x0, reset := 0x0, lock := none },
  { base := 0x38000A4, dims := [], len := 4, wide := false, acc := .rc, mask := 0x0, reset := 0x0, lock := none },
  { base := 0x38000A8, dims := [], len := 4, wide := false, acc := .rc, mask := 0x0, reset := 0x0, lock := none },
  { base := 0x38000AC, dims := [], len := 4, wide := false, acc := .rc, mask := 0x0, reset := 0x0, lock := none },
  { base := 0x38000B0, dims := [], len := 4, wide := false, acc := .rc, mask := 0x0, reset := 0x0, lock := none },
  { base := 0x38000B4, dims := [], len := 4, wide := false, acc := .rc, mask := 0x0, reset := 0x0, lock := none } ]

def regRowsPower1 : List RegRow := [
  { base := 0x38000B8, dims := [], len := 4, wide := false, acc := .rc, mask := 0x0, reset := 0x0, lock := none },
  { base := 0x38000BC, dims := [], len := 4, wide := false, acc := .rc, mask := 0x0, reset := 0x0, lock := none },
  { base := 0x38000C0, dims := [], len := 4, wide := false, acc := .rc, mask := 0x0, reset := 0x0, lock := none },
  { base := 0x38000C4, dims := [], len := 60, wide := false, acc := .ro, mask := 0x0, reset := 0x0, lock := none },
  { base := 0x3800100, dims := [(0x4, 48)], len := 4, wide := false, acc := .ro, mask := 0x0, reset := 0x0, lock := none },
  { base := 0x38001C0, dims := [], len := 64, wide := false, acc := .ro, mask := 0x0, reset := 0x0, lock := none },
  { base := 0x3800200, dims := [], len := 4, wide := false, acc := .rw, mask := 0xFFFF3, reset := 0xA81, lock := none },
  { base := 0x3800204, dims := [], len := 4, wide := false, acc := .ro, mask := 0x0, reset := 0x0, lock := none },
  { base := 0x3800208, dims := [], len := 4, wide := false, acc := .ro, mask := 0x0, reset := 0x0, lock := none },
  { base := 0x380020C, dims := [], len := 4, wide := false, acc := .ro, mask := 0x0, reset := 0x0, lock := none },
  { base := 0x3800210, dims := [], len := 4, wide := false, acc := .ro, mask := 0x0, reset := 0x0, lock := none },
  { base := 0x3800214, dims := [], len := 44, wide := false, acc := .ro, mask := 0x0, reset := 0x0, lock := none },
  { base := 0x3800240, dims := [(0x4, 17)], len := 4, wide := false, acc := .ro, mask := 0x0, reset := 0x0, lock := none },
  { base := 0x3800284, dims := [], len := 124, wide := false, acc := .ro, mask := 0x0, reset := 0x0, lock := none },
  { base := 0x3800300, dims := [(0x4, 100)], len := 4, wide := false, acc := .ro, mask := 0x0, reset := 0x0, lock := none },
  { base := 0x3800490, dims := [], len := 64368, wide := false, acc := .ro, mask := 0x0, reset := 0x0, lock := none } ]

def regRowsPower : List RegRow := regRowsPower0 ++ regRowsPower1

def regRowsBoot : List RegRow := [
  { base := 0x3C00000, dims := [], len := 4, wide := false, acc := .ro, mask := 0x0, reset := 0x0, lock := none },
  { base := 0x3C00004, dims := [], len := 4, wide := false, acc := .ro, mask := 0x0, reset := 0x0, lock := none },
  { base := 0x3C00008, dims := [], len := 4, wide := false, acc := .ro, mask := 0x0, reset := 0x0, lock := none },
  { base := 0x3C0000C, dims := [], len := 4, wide := false, acc := .ro, mask := 0x0, reset := 0x0, lock := none },
  { base := 0x3C00010, dims := [], len := 4, wide := false, acc := .ro, mask := 0x0, reset := 0x0, lock := none },
  { base := 0x3C00014, dims := [], len := 4, wide := false, acc := .ro, mask := 0x0, reset := 0x0, lock := none },
  { base := 0x3C00018, dims := [], len := 4, wide := false, acc := .ro, mask := 0x0, reset := 0x0, lock := none },
  { base := 0x3C0001C, dims := [], len := 4, wide := false, acc := .ro, mask := 0x0, reset := 0x0, lock := none },
  { base := 0x3C00020, dims := [], len := 4, wide := false, acc := .ro, mask := 0x0, reset := 0x0, lock := none },
  { base := 0x3C00024, dims := [], len := 4, wide := false, acc := .rc, mask := 0x0, reset := 0x0, lock := none },
  { base := 0x3C00028, dims := [], len := 4, wide := false, acc := .rc, mask := 0x0, reset := 0x0, lock := none },
  { base := 0x3C00040, dims := [(0x4, 16)], len := 4, wide := false, acc := .ro, mask := 0x0, reset := 0x0, lock := none },
  { base := 0x3C00080, dims := [], len := 3968, wide := false, acc := .ro, mask := 0x0, reset := 0x0, lock := none } ]

def regRowsHost : List RegRow := [
  { base := 0x3C80000, dims := [], len := 4, wide := false, acc := .ro, mask := 0x0, reset := 0x0, lock := none },
  { base := 0x3C80004, dims := [], len := 4, wide := false, acc := .rc, mask := 0x0, reset := 0x0, lock := none },
  { base := 0x3C80008, dims := [], len := 4, wide := false, acc := .rc, mask := 0x0, reset := 0x0, lock := none },
  { base := 0x3C8000C, dims := [], len := 4, wide := false, acc := .rc, mask := 0x0, reset := 0x0, lock := none },
  { base := 0x3C80010, dims := [], len := 4, wide := false, acc := .rc, mask := 0x0, reset := 0x0, lock := none },
  { base := 0x3C80014, dims := [], len := 4, wide := false, acc := .rc, mask := 0x0, reset := 0x0, lock := none },
  { base := 0x3C80018, dims := [], len := 4, wide := false, acc := .rc, mask := 0x0, reset := 0x0, lock := none },
  { base := 0x3C8001C, dims := [], len := 4, wide := false, acc := .rc, mask := 0x0, reset := 0x0, lock := none },
  { base := 0x3C80020, dims := [], len := 4064, wide := false, acc := .ro, mask := 0x0, reset := 0x0, lock := none } ]

def regRowsCounter : List RegRow := [
  { base := 0x3F00000, dims := [(0x1000, 242)], len := 8, wide := true, acc := .ro, mask := 0x0, reset := 0x0, lock := none },
  { base := 0x3F00008, dims := [(0x1000, 242)], len := 4, wide := false, acc := .rw1c, mask := 0xFF, reset := 0x0, lock := none },
  { base := 0x3F0000C, dims := [(0x1000, 242)], len := 4, wide := false, acc := .ro, mask := 0x0, reset := 0x0, lock := none },
  { base := 0x3F00040, dims := [(0x1000, 242), (0x4, 8)], len := 4, wide := false, acc := .rw, mask := 0xFFFF, reset := 0x0, lock := none },
  { base := 0x3F00080, dims := [(0x1000, 242), (0x8, 8)], len := 8, wide := true, acc := .rw, mask := 0xFFFFFFFFFFFF, reset := 0x0, lock := none },
  { base := 0x3F00100, dims := [(0x1000, 242)], len := 4, wide := false, acc := .rw, mask := 0x1F, reset := 0xA, lock := none },
  { base := 0x3F00104, dims := [(0x1000, 242)], len := 4, wide := false, acc := .ro, mask := 0x0, reset := 0x0, lock := none },
  { base := 0x3F80108, dims := [(0x1000, 114)], len := 8, wide := false, acc := .ro, mask := 0x0, reset := 0x0, lock := none },
  { base := 0x3F00110, dims := [(0x1000, 242), (0x10, 4)], len := 8, wide := true, acc := .ro, mask := 0x0, reset := 0x0, lock := none },
  { base := 0x3F00118, dims := [(0x1000, 242), (0x10, 4)], len := 8, wide := true, acc := .ro, mask := 0x0, reset := 0x0, lock := none },
  { base := 0x3F00150, dims := [(0x1000, 242)], len := 3760, wide := false, acc := .ro, mask := 0x0, reset := 0x0, lock := none } ]

/-- The read-only windows of R108 (route tables), R289 and R318 (window table) that the tables give
as regions. -/
def regRowsWin : List RegRow := [
  { base := 0x400000, dims := [(0x400000, 2)], len := 0x20000, wide := false, acc := .ro, mask := 0, reset := 0, lock := none },
  { base := 0x420000, dims := [(0x400000, 2)], len := 0x2000, wide := false, acc := .ro, mask := 0, reset := 0, lock := none },
  { base := 0x440000, dims := [(0x400000, 2)], len := 0x20000, wide := false, acc := .ro, mask := 0, reset := 0, lock := none },
  { base := 0x460000, dims := [(0x400000, 2)], len := 0x4000, wide := false, acc := .ro, mask := 0, reset := 0, lock := none },
  { base := 0x3120000, dims := [], len := 0x20000, wide := false, acc := .ro, mask := 0, reset := 0, lock := none } ]

/-- The rows of the region that holds `off` (R492). -/
def regRowsAt (off : Nat) : List RegRow :=
  if off < 0x100000 then regRowsGlobal
  else if off < 0x200000 then regRowsSwitch
  else if off < 0x400000 then regRowsRoute
  else if off < 0x1000000 then regRowsWin
  else if off < 0x1800000 then regRowsPort
  else if off < 0x2000000 then regRowsLane
  else if off < 0x2F00000 then regRowsBench
  else if off < 0x3000000 then regRowsCommon
  else if off < 0x3110000 then regRowsMem
  else if off < 0x3800000 then regRowsPool ++ regRowsWin
  else if off < 0x3C00000 then regRowsPower
  else if off < 0x3C80000 then regRowsBoot
  else if off < 0x3F00000 then regRowsHost
  else if off < 0x4000000 then regRowsCounter
  else []

/-- Where `r` lies within the repetitions `dims`: the remainder past the last start, and whether
every index is below its count. -/
def locate : List (Nat × Nat) → Nat → Option Nat
  | [], r => some r
  | (stride, count) :: ds, r => if r / stride < count then locate ds (r % stride) else none

/-- The row that covers an aligned offset, if any. -/
def RegRow.covers (w : RegRow) (off : Nat) : Bool :=
  if off < w.base then false
  else match locate w.dims (off - w.base) with
    | some r => decide (r < w.len)
    | none => false

/-- The row of the register at BAR0 offset `off` (none: unassigned, R11, R492). -/
def findReg (off : Nat) : Option RegRow := (regRowsAt off).find? (·.covers off)

/-- The low-word offset of the 64-bit register, or the register, that holds `off` (R7). -/
def RegRow.start (w : RegRow) (off : Nat) : Nat :=
  if w.wide then off - (off - w.base) % 8 else off

/-- The reset values that R87 and R88 give by table: XCRED and TCRED of logical port 0 unsplit,
and those the other tables leave "per part" or "per SIZE" are computed at the read. -/
def xcredDefault (split : Nat) (v : Nat) : Nat :=
  match split with
  | 0 => [128, 256, 1024, 1024, 416, 416, 416, 416].getD v 0
  | 1 => [64, 128, 512, 512, 208, 208, 208, 208].getD v 0
  | _ => [33, 62, 256, 256, 104, 104, 104, 104].getD v 0

def tcredDefault (split : Nat) (v : Nat) : Nat :=
  match split with
  | 0 => [33, 8, 256, 33, 33, 33, 64, 33].getD v 0
  | 1 => [33, 8, 128, 33, 33, 33, 33, 33].getD v 0
  | _ => [33, 8, 64, 33, 33, 33, 33, 33].getD v 0

/-- Offsets of the logical port `lp` (= 4 × block + l) credit limits. -/
def xcredOff (lp v : Nat) : Nat := Reg.xcredVc (lp / 4) (lp % 4) v
def tcredOff (lp v : Nat) : Nat := Reg.tcredVc (lp / 4) (lp % 4) v

/-- Whether `off` is a credit limit, and which: logical port, terminating, VC. -/
def creditReg (off : Nat) : Option (Nat × Bool × Nat) :=
  if 0x1000000 ≤ off && off < 0x1800000 then
    let r := off % 0x10000
    if 0x9000 ≤ r && r < 0x9400 && r % 0x100 < 0x40 then
      some ((off - 0x1000000) / 0x10000 * 4 + (r - 0x9000) / 0x100, decide (0x20 ≤ r % 0x100),
        r % 0x20 / 4)
    else none
  else none

/-- The reset value of the stored register at `off`. -/
def regReset (off : Nat) : W64 :=
  match creditReg off with
  | some (lp, term, v) =>
    if lp % 4 = 0 then BitVec.ofNat 64 (if term then tcredDefault 0 v else xcredDefault 0 v) else 0
  | none =>
    match findReg off with
    | some w => BitVec.ofNat 64 w.reset
    | none => 0

end Sys2Proof.Machine
end

