-- ==== Sys2Proof/Machine/Ops.lean ====
section
/-! DEFINITION. Operations every family uses: stored registers and counters, free values, ports,
lanes, benches and cores by number, the fault log, the event logs and interrupts. -/

namespace Sys2Proof.Machine

/-! ### Completion codes (R12) -/

abbrev Code.ok : Nat := 0x00
abbrev Code.fenced : Nat := 0x01
abbrev Code.busy : Nat := 0x02
abbrev Code.contract : Nat := 0x03
abbrev Code.genStale : Nat := 0x04
abbrev Code.lenErr : Nat := 0x05
abbrev Code.perm : Nat := 0x06
abbrev Code.poison : Nat := 0x07
abbrev Code.incomplete : Nat := 0x08
abbrev Code.addr : Nat := 0x09
abbrev Code.capacity : Nat := 0x0A
abbrev Code.noRoute : Nat := 0x0B
abbrev Code.closed : Nat := 0x0C
abbrev Code.internal : Nat := 0x0F

/-! ### Stored registers and counters -/

/-- The stored value of the register at BAR0 offset `off`. -/
def State.reg (s : State) (off : Nat) : W64 := sget (regReset off) s.regs off

/-- The register as a number. -/
def State.regN (s : State) (off : Nat) : Nat := (s.reg off).toNat

/-- The state with the stored register at `off` set. -/
def State.setReg (s : State) (off : Nat) (v : W64) : State :=
  { s with regs := sset (regReset off) s.regs off v }

/-- A 32-bit saturating counter advanced by `n`. -/
def State.bumpBy (s : State) (off n : Nat) : State :=
  s.setReg off (w64 (min (s.regN off + n) 0xFFFFFFFF))

/-- A 32-bit saturating counter advanced by 1. -/
def State.bump (s : State) (off : Nat) : State := s.bumpBy off 1

/-- A 64-bit counter that wraps (R112). -/
def State.bump64 (s : State) (off n : Nat) : State := s.setReg off (s.reg off + w64 n)

/-- A register that tracks a maximum (R8). -/
def State.trackMax (s : State) (off v : Nat) : State :=
  if s.regN off < v then s.setReg off (w64 v) else s

/-- A register that tracks a minimum (R8). -/
def State.trackMin (s : State) (off v : Nat) : State :=
  if v < s.regN off then s.setReg off (w64 v) else s

/-! ### Free values and what leaves the device -/

/-- A fresh free value, and the state that will not draw it again (log entry 1). -/
def State.free (s : State) : W64 × State :=
  (Config.freeWord s.freeCtr, { s with freeCtr := s.freeCtr + 1 })

/-- `k` fresh free bytes. -/
def State.freeBytes : Nat → State → List Byte × State
  | 0, s => ([], s)
  | k + 1, s =>
    let r := s.free
    let t := State.freeBytes k r.2
    (byte r.1.toNat :: t.1, t.2)

def State.emit (s : State) (e : Emit) : State := { s with out := s.out ++ [e] }

/-! ### Time -/

/-- Always-on time in ns. -/
def State.now (s : State) : Nat := s.clk.aonNs
/-- Fabric time, 0 while invalid. -/
def State.ftimeOr0 (s : State) : W64 := if s.clk.timeValid then s.clk.ftime else 0
/-- Always-on time in µs. -/
def State.nowUs (s : State) : Nat := s.clk.aonNs / 1000
def ms : Nat := 1000000
def us : Nat := 1000
def sec : Nat := 1000000000

/-! ### Identity and configuration -/

def State.ownCoord (s : State) : W32 := w32 (s.regN Reg.ownCoord)
def State.ownNode (s : State) : Nat := fld (s.ownCoord) 8 8
def State.ownPlane (s : State) : Nat := fld (s.ownCoord) 16 4
def State.ownRack (s : State) : Nat := fld (s.ownCoord) 20 12
def State.poolEn (s : State) : Bool := bit (s.reg Reg.poolCtrl) 0
def State.collEn (s : State) : Bool := bit (s.reg Reg.collCtrl) 0
def State.seqEn (s : State) : Bool := bit (s.reg Reg.ltCtrl) 0
def State.testMode (s : State) : Bool := bit (s.reg Reg.faultCtrl) 0
/-- FENCE_ACTIVE (R416): from a reset's trigger until its clearing step. -/
def State.fenceActive (s : State) : Bool := s.fault.reset.isSome
/-- READY (R470): boot step 9 is complete. -/
def State.ready (s : State) : Bool := decide (s.boot.stage = .step 9)

/-- The four physical benches that the part leaves out, rising (R24, R189): any four of the 104. -/
def disabledBenches : List Nat :=
  let a := Config.disabledGap 0 % 101
  let b := a + 1 + Config.disabledGap 1 % (101 - a)
  let c := b + 1 + Config.disabledGap 2 % (102 - b)
  [a, b, c, c + 1 + Config.disabledGap 3 % (103 - c)]

/-- The disabled-unit map (R189): exactly four bits are 1. -/
def disabledMap : BitVec 104 := BitVec.ofNat 104 (disabledBenches.foldl (fun m k => m + 2 ^ k) 0)

/-! ### Port blocks, logical ports and lanes -/

/-- SPLIT of a port block: 0 x4, 1 x2, 2 x1 (R379). -/
def State.split (s : State) (p : Nat) : Nat := fld (s.reg (Reg.portCfg p)) 0 2
/-- How many logical ports a port block is split into. -/
def State.lportsOf (s : State) (p : Nat) : Nat := match s.split p with | 0 => 1 | 1 => 2 | _ => 4
/-- Logical port 4p + l exists under the current split (R499). -/
def State.lportExists (s : State) (lp : Nat) : Bool :=
  decide (lp < 512) && decide (lp % 4 < s.lportsOf (lp / 4))
/-- Lanes of a logical port: 4, 2 or 1. -/
def State.laneCount (s : State) (lp : Nat) : Nat := 4 / s.lportsOf (lp / 4)
/-- The lanes of a logical port by position (R22). -/
def State.lanesOf (s : State) (lp : Nat) : List Nat :=
  let k := s.laneCount lp
  (List.range k).map (fun i => 4 * (lp / 4) + (lp % 4) * k + i)
/-- The logical port that owns lane `n` of a port block, and its position there. -/
def State.lportOfLane (s : State) (n : Nat) : Nat × Nat :=
  let p := n / 4
  let k := 4 / s.lportsOf p
  (4 * p + n % 4 / k, n % 4 % k)
/-- The logical ports that exist. -/
def State.lports (s : State) : List Nat := (List.range 512).filter s.lportExists

def State.port (s : State) (lp : Nat) : Port := sget {} s.ports lp
def State.modPort (s : State) (lp : Nat) (f : Port → Port) : State :=
  { s with ports := smod {} s.ports lp f }
def State.lane (s : State) (n : Nat) : Lane := sget {} s.lanes n
def State.modLane (s : State) (n : Nat) (f : Lane → Lane) : State :=
  { s with lanes := smod {} s.lanes n f }
/-- The port is in the active state. -/
def State.portActive (s : State) (lp : Nat) : Bool :=
  s.lportExists lp && decide ((s.port lp).st = .active)

/-! ### Benches, cores, contexts -/

def State.bench (s : State) (b : Nat) : Bench := sget {} s.benches b
def State.modBench (s : State) (b : Nat) (f : Bench → Bench) : State :=
  { s with benches := smod {} s.benches b f }
/-- Cores are keyed bench × 8 + core. -/
def State.core (s : State) (k : Nat) : Core := sget {} s.cores k
def State.modCore (s : State) (k : Nat) (f : Core → Core) : State :=
  { s with cores := smod {} s.cores k f }
def State.ctx (s : State) (id : Nat) : Ctx := sget {} s.ctxs id
def State.modCtx (s : State) (id : Nat) (f : Ctx → Ctx) : State :=
  { s with ctxs := smod {} s.ctxs id f }
/-- The context whose bench set holds bench `b` (R265). -/
def State.ownerOf (s : State) (b : Nat) : Option Nat :=
  ((s.ctxs.filter (fun e => (e.2.st = .opened ∨ e.2.st = .closing) && e.2.benchSet.getLsbD b)).head?).map (·.1)

/-- A core that waits without being pending work, as far as its bench shows it (R412): RECV or RECVH on an empty queue,
or CTAKE. -/
def Bench.restful (x : Bench) (c : Core) : Bool :=
  match c.run with
  | .running => false
  | .waiting => c.wait.any (fun w => match w.kind with | .recv | .recvh => x.recvQ.isEmpty | .ctake => true | _ => false)
  | _ => true

/-- Bench `b` holds no pending work, so that BENCH_HANG_WIN starts when some reaches it (R412). -/
def State.benchQuiet (s : State) (b : Nat) : Bool :=
  let x := s.bench b
  x.items.isEmpty && x.adderQ.isEmpty && x.dmaActive.isEmpty &&
  (List.range 8).all (fun c => x.restful (s.core (b * 8 + c)) && (s.core (b * 8 + c)).dmaQ.isEmpty)

/-- Work reaches bench `b`. -/
def State.stirBench (s : State) (b : Nat) : State :=
  s.modBench b (fun x => { x with idleSince := s.now, progressAt := if s.benchQuiet b then s.now else x.progressAt })

/-- A demand reaches bench `b` (R208): an ASLEEP bench starts WAKING. -/
def State.wakeBench (s : State) (b : Nat) : State :=
  if (s.bench b).st = .asleep then
    (s.bump (Reg.wakeCount b)).modBench b (fun x => { x with st := .waking })
  else s.stirBench b

/-- The warden is held stopped (R407). -/
def State.benchHeld (s : State) (b : Nat) : Bool := b == 99 && s.fault.wardenHeld

/-! ### Interrupts, event logs and the fault log -/

/-- Raise MSI-X vector `v`; a masked vector sets its pending bit (R395), and messages are held while the
host link is down (R397). -/
def State.msix (s : State) (v : Nat) : State :=
  if s.host.msixMasked.contains v || !s.host.linkUp then
    { s with host := { s.host with msixPending := insertNat v s.host.msixPending } }
  else s.emit (.msix v)

/-- The 32 bytes of a fault-log entry (R411). -/
def LogEntry.bytes (e : LogEntry) : List Byte :=
  leBytes 8 e.ftime.toNat ++ leBytes 4 e.seq ++
  [e.cls, byte (e.severity.toNat + 4 * e.action.toNat), e.code, 0, e.block, 0] ++
  leBytes 2 e.index.toNat ++ leBytes 8 e.detail.toNat ++
  (match e.ctx with | some (c, g) => [c, g, 1, 0] | none => [0, 0, 0, 0])

/-- Copy an entry into the event log of its severity (R395): a full log keeps its oldest records.
Memory errors are the classes POOL_LINE and LATENT at a memory controller. -/
def State.logEvent (s : State) (e : LogEntry) : State :=
  let k := e.severity.toNat
  let memErr := decide (e.cls = 0x0E ∨ e.cls = 0x0F) && decide (e.block = 6 ∨ e.block = 7)
  let l := s.host.logs.getD k {}
  let l := if l.recs.length < 1024
    then { l with recs := l.recs ++ [byte (b2n memErr) :: e.bytes] }
    else { l with overflow := true, dropped := l.dropped + 1 }
  let s := { s with host := { s.host with logs := s.host.logs.set k l } }
  if ((s.host.policy.getD k 0).toNat % 4) = 1 then s.msix 1 else s

/-- What a fault-log entry records of a fault (R406, R411). -/
structure FaultInfo where
  cls : Nat
  sev : Nat
  act : Nat
  code : Nat := 0
  block : Nat := 0
  index : Nat := 0
  detail : W64 := 0
  ctx : Option Nat := none

/-- Write one fault-log entry, or count it suppressed beyond 16 in 1 s at one location (R411). -/
def State.logFault (s : State) (f : FaultInfo) : State :=
  let key := fun (r : Byte × Byte × BitVec 16 × Nat) =>
    decide (r.1 = byte f.cls ∧ r.2.1 = byte f.block ∧ r.2.2.1 = BitVec.ofNat 16 f.index ∧
      s.now ≤ r.2.2.2 + sec)
  if 16 ≤ (s.fault.recent.filter key).length then s.bump Reg.flogSuppressed
  else
    let e : LogEntry :=
      { ftime := s.ftimeOr0, seq := s.fault.next, cls := byte f.cls, severity := BitVec.ofNat 2 f.sev,
        action := BitVec.ofNat 3 f.act, code := byte f.code, block := byte f.block,
        index := BitVec.ofNat 16 f.index, detail := f.detail,
        ctx := f.ctx.map (fun c => (byte c, (s.ctx c).gen)) }
    let full := 1024 ≤ s.fault.log.length
    let s := if full then s.bump Reg.flogOverwritten else s
    let s := { s with fault := { s.fault with
      log := (if full then s.fault.log.drop 1 else s.fault.log) ++ [e],
      next := s.fault.next + 1,
      recent := s.fault.recent.filter (fun (r : Byte × Byte × BitVec 16 × Nat) => s.now ≤ r.2.2.2 + sec) ++
        [(byte f.cls, byte f.block, BitVec.ofNat 16 f.index, s.now)],
      lastSevere := if 2 ≤ f.sev then byte f.cls else s.fault.lastSevere } }
    s.logEvent e

/-- Raise a reset trigger: the level's reset is taken by its own command (R416, R417, R473). -/
def State.oweReset (s : State) (level : Nat) (cls : Nat) (index : Nat) : State :=
  { s with fault := { s.fault with deferred := s.fault.deferred ++ [(level, byte cls, index)] } }

/-- An environment event (R457): its ALERT_STATUS bit and its fault-log entry. -/
def State.envEvent (s : State) (code sev act index : Nat) : State :=
  let s := s.setReg Reg.alertStatus (s.reg Reg.alertStatus ||| w64 (2 ^ code))
  s.logFault { cls := 0x28, sev := sev, act := act, block := 8, index := index, detail := w64 code }

/-! ### Ignored accesses -/

/-- SOURCE of R505. -/
def requesterSource : Requester → Nat
  | .host => 0 | .warden _ => 1 | .steward => 2 | .tray => 3 | .debug => Config.debugSource.toNat

/-- Count an access under R10 or R11 and describe it in IGNORED_OFFSET (R505). -/
def State.ignored (s : State) (r : Requester) (off : Nat) (read : Bool) : State :=
  let s := s.bump Reg.ignoredWrites
  s.setReg Reg.ignoredOffset
    (w64 (pack [(0, off / 4 * 4 % 2 ^ 26), (26, requesterSource r), (28, b2n read), (31, 1)]))

/-- Reserved bits of the staging registers CTX_STAGE (R289) and WIN_STAGE (R292): CREATE and WIN_CMD fail
when one was written as 1, a write of 1 is counted (R10), and the bits read 0 (R9). -/
def stagedRes (off : Nat) : Nat :=
  if 0x2000 ≤ off ∧ off < 0x2040 then
    [0xFFF000FC, 0xFFFFFF00, 0, 0, 0, 0, 0, 0xFFF00000, 0xFFF00000, 0, 0x00000FFF, 0xFFFF0000, 0, 0, 0x7,
      0xFFFF0000].getD ((off - 0x2000) / 4) 0
  else if 0x3110020 ≤ off ∧ off < 0x3110040 then
    [0xFFFFFFF0, 0xF8000000, 0xFFF80000, 0xFFF80000, 0xF8000000, 0xFFFFFFFF, 0xFFFFFFFF, 0xFFFFFFFF].getD
      ((off - 0x3110020) / 4) 0
  else 0

/-! ### Counter blocks (R485-R487) -/

/-- Advance CNT_k by `n`, wrapping modulo 2^48 with OVF (R487). -/
def State.addCnt (s : State) (blk k n : Nat) : State :=
  let c := s.regN (Reg.cnt blk k) + n
  let s := s.setReg (Reg.cnt blk k) (w64 (c % 2 ^ 48))
  if 2 ^ 48 ≤ c then s.setReg (Reg.ovf blk) (s.reg (Reg.ovf blk) ||| w64 (2 ^ k)) else s

/-- The event `code` of counter block `blk` adds `n` to every counter that selects it; port events
are qualified by VC (none: no VC) and logical port. -/
def State.countEv (s : State) (blk code n : Nat) (vc : Option Nat := none) (l : Option Nat := none) :
    State :=
  (List.range 8).foldl (fun s k =>
    let e := s.reg (Reg.evsel blk k)
    let vcOk := match vc with | some v => bit e 12 || decide (fld e 9 3 = v) | none => true
    let lOk := match l with | some i => bit e 15 || decide (fld e 13 2 = i) | none => true
    if fld e 0 8 = code && bit e 8 && vcOk && lOk then s.addCnt blk k n else s) s

/-! ### Power-up gating -/

/-- The always-on domain runs: the rails of group 0 are up and power-on reset is released (R470). -/
def State.aonUp (s : State) : Bool := s.pwr.railsUp && decide (s.boot.stage ≠ .inert)

/-- The device runs: no rail fault and no thermal trip stops the fast clocks (R449, R513). -/
def State.powered (s : State) : Bool := s.aonUp && !s.pwr.railFault && !s.pwr.trip

/-- Lanes and ports have their transmit and receive clocks: power, and the fabric reference (R516). -/
def State.clocked (s : State) : Bool := s.powered && s.clk.fabRef

/-- Steps of R470 completed: 0 before the first; RECOVERY is none. -/
def State.bootStep (s : State) : Option Nat :=
  match s.boot.stage with
  | .inert => some 0
  | .step n => some n
  | .recovery => none
/-- The host-ready stage is reached (R470 step 7). -/
def State.hostReached (s : State) : Bool := s.bootStep.any (fun n => decide (7 ≤ n))

/-- The answer to a configuration request (R397): 0 none yet, 1 Configuration Request Retry Status, 2 served. -/
def State.configAnswer (s : State) : Nat :=
  if s.host.configAt.any (fun t => decide (t ≤ s.now)) then (if s.hostReached then 2 else 1) else 0

/-- A requester's register accesses reach the registers: the host over a trained link once configuration requests are
served (R397, R470), the warden and the steward from host-ready on (R472), the tray controller through the steward, and
the debug port at the level that permits the access (R481). -/
def State.reaches (s : State) (r : Requester) (write : Bool) : Bool :=
  s.powered && (match r with
    | .host => s.host.linkUp && s.configAnswer == 2
    | .warden _ => s.hostReached
    | .steward | .tray => s.hostReached && s.fault.stewardUp
    | .debug => decide ((if write then 2 else 1) ≤ s.boot.debugLevel.toNat))

end Sys2Proof.Machine
end

