-- ==== Sys2Proof/Machine/Arith.lean ====
section
/-! DEFINITION. Number formats, exact values, rounding and the accumulators of spec/06 (R158-R181),
shared by the adder engines, the frit path and the fused and vector instructions. -/

namespace Sys2Proof.Machine

/-! ### Exact values and formats (R158) -/

/-- An exact value: NaN, an infinity, or (−1)^neg · m · 2^e (m = 0: a signed zero). -/
inductive Val where
  | nan
  | inf (neg : Bool)
  | fin (neg : Bool) (m : Nat) (e : Int)
  deriving DecidableEq, Repr

/-- Which encodings of a floating format are special: IEEE's, E4M3's single NaN, or none. -/
inductive Special where
  | ieee | e4m3 | none
  deriving DecidableEq, Repr

/-- A floating format: exponent bits, fraction bits, bias, special encodings (R158, R168). -/
structure Fmt where
  eb : Nat
  fb : Nat
  bias : Nat
  sp : Special
  deriving DecidableEq, Repr

def fp32 : Fmt := ⟨8, 23, 127, .ieee⟩
def bf16 : Fmt := ⟨8, 7, 127, .ieee⟩
def fp16 : Fmt := ⟨5, 10, 15, .ieee⟩
def e4m3 : Fmt := ⟨4, 3, 7, .e4m3⟩
def e5m2 : Fmt := ⟨5, 2, 15, .ieee⟩
def e3m2 : Fmt := ⟨3, 2, 3, .none⟩
def e2m3 : Fmt := ⟨2, 3, 1, .none⟩
def e2m1 : Fmt := ⟨2, 1, 1, .none⟩
/-- The accumulator float (R168). -/
def accF : Fmt := ⟨11, 36, 1023, .ieee⟩

/-- The floating format of an element type's elements; none for integers. -/
def etypeFmt : Nat → Option Fmt
  | 0 => some fp32 | 1 => some bf16 | 2 => some fp16 | 3 => some e4m3 | 4 => some e5m2
  | 5 => some e4m3 | 6 => some e5m2 | 7 => some e3m2 | 8 => some e2m3 | 9 => some e2m1
  | _ => none

/-- Bits of one element (R158). -/
def etypeBits : Nat → Nat
  | 0 => 32 | 1 => 16 | 2 => 16 | 3 => 8 | 4 => 8 | 5 => 8 | 6 => 8 | 7 => 6 | 8 => 6 | 9 => 4
  | 10 => 8 | 11 => 16 | 12 => 32 | _ => 8

def isMx (t : Nat) : Bool := decide (5 ≤ t ∧ t ≤ 9)
def isInt (t : Nat) : Bool := decide (10 ≤ t ∧ t ≤ 12)
/-- Floating class A (R165). -/
def isClassA (t : Nat) : Bool := decide (2 ≤ t ∧ t ≤ 4)

/-- Bytes of `n` elements of a type, scale bytes included (R160). -/
def elemBytes (t n : Nat) : Nat :=
  if isMx t then cdiv n 32 * (1 + 4 * etypeBits t) else n * etypeBits t / 8

/-- Sign-and-magnitude index of the largest finite value. -/
def Fmt.maxIdx (f : Fmt) : Nat :=
  match f.sp with
  | .ieee => (2 ^ f.eb - 1) * 2 ^ f.fb - 1
  | .e4m3 => 2 ^ (f.eb + f.fb) - 2
  | .none => 2 ^ (f.eb + f.fb) - 1

/-- Decode an encoding (R158): subnormals at their exact value (R161). -/
def Fmt.decode (f : Fmt) (w : Nat) : Val :=
  let neg := decide (w / 2 ^ (f.eb + f.fb) % 2 = 1)
  let i := w % 2 ^ (f.eb + f.fb)
  if f.maxIdx < i then
    (match f.sp with
     | .ieee => if i = f.maxIdx + 1 then .inf neg else .nan
     | _ => .nan)
  else
    let e := i / 2 ^ f.fb
    let m := i % 2 ^ f.fb
    if e = 0 then .fin neg m (1 - (f.bias : Int) - f.fb)
    else .fin neg (2 ^ f.fb + m) ((e : Int) - f.bias - f.fb)

/-- Sign bit and magnitude index put together. -/
def Fmt.enc (f : Fmt) (neg : Bool) (i : Nat) : Nat := b2n neg * 2 ^ (f.eb + f.fb) + i

/-- The NaN the device writes (R173). -/
def Fmt.nan (f : Fmt) : Nat :=
  match f.sp with
  | .ieee => f.maxIdx + 1 + 2 ^ (f.fb - 1)
  | .e4m3 => 0x7F
  | .none => 0

/-! ### Rounding (R172, R173, R175) -/

/-- A magnitude on a grid: the index at or below it, and the remainder over `den` of one step. -/
structure Grid where
  idx : Nat
  rem : Nat
  den : Nat
  deriving DecidableEq, Repr

/-- m · 2^k as whole part and remainder. -/
def shiftGrid (m : Nat) (k : Int) : Grid :=
  match k with
  | .ofNat j => ⟨m * 2 ^ j, 0, 1⟩
  | .negSucc j => ⟨m / 2 ^ (j + 1), m % 2 ^ (j + 1), 2 ^ (j + 1)⟩

/-- Place m · 2^e on the grid of a format, whose indices count representable magnitudes. -/
def Fmt.place (f : Fmt) (m : Nat) (e : Int) : Grid :=
  if m = 0 then ⟨0, 0, 1⟩
  else
    let top := max ((m.log2 : Int) + e) (1 - (f.bias : Int))
    let q := top - f.fb
    let g := shiftGrid m (e - q)
    ⟨((q + f.fb + f.bias - 1).toNat) * 2 ^ f.fb + g.idx, g.rem, g.den⟩

/-- Rounding rules of R172 (code 3: RNE). -/
inductive Rnd where
  | rne | zero
  /-- Stochastic, with the drawn 32 bits (R175). -/
  | sr (u : W32)
  deriving DecidableEq, Repr

/-- Round a non-negative grid position of a value with sign `neg` (R172, R175). -/
def Grid.round (g : Grid) (neg : Bool) : Rnd → Nat
  | .rne =>
    if 2 * g.rem < g.den then g.idx
    else if g.den < 2 * g.rem then g.idx + 1
    else if g.rem = 0 then g.idx else g.idx + g.idx % 2
  | .zero => g.idx
  | .sr u =>
    if g.rem = 0 then g.idx
    else if neg then
      (if u.toNat < (g.den - g.rem) * 2 ^ 32 / g.den then g.idx else g.idx + 1)
    else (if u.toNat < g.rem * 2 ^ 32 / g.den then g.idx + 1 else g.idx)

/-- An encoded result and what its conversion counts (R173, R176). -/
structure Conv where
  bits : Nat
  sat : Bool := false
  nanInt : Bool := false
  deriving DecidableEq, Repr

/-- Convert to a floating format; `sat` says that the type saturates instead of overflowing to Inf
(types without infinity, and MX elements, R173). -/
def Fmt.conv (f : Fmt) (sat : Bool) (r : Rnd) : Val → Conv
  | .nan => ⟨f.nan, false, false⟩
  | .inf neg => if sat then ⟨f.enc neg f.maxIdx, true, false⟩ else ⟨f.enc neg (f.maxIdx + 1), false, false⟩
  | .fin neg m e =>
    let g := f.place m e
    if f.maxIdx < g.idx ∨ (g.idx = f.maxIdx ∧ g.rem ≠ 0) then
      if sat then ⟨f.enc neg f.maxIdx, true, false⟩
      else match r with
        | .rne => if f.maxIdx < g.idx ∨ g.den ≤ 2 * g.rem then ⟨f.enc neg (f.maxIdx + 1), false, false⟩
                  else ⟨f.enc neg f.maxIdx, false, false⟩
        | .zero => ⟨f.enc neg f.maxIdx, true, false⟩
        | .sr u => if f.maxIdx < g.idx ∨ u.toNat < g.rem * 2 ^ 32 / g.den
                   then ⟨f.enc neg (f.maxIdx + 1), false, false⟩
                   else ⟨f.enc neg f.maxIdx, false, false⟩
    else ⟨f.enc neg (g.round neg r), false, false⟩

/-- Convert to an `n`-bit integer (R172, R173): NaN is 0, what lies outside the range saturates. -/
def intConv (n : Nat) (r : Rnd) : Val → Conv
  | .nan => ⟨0, false, true⟩
  | .inf neg => ⟨if neg then 2 ^ (n - 1) else 2 ^ (n - 1) - 1, true, false⟩
  | .fin neg m e =>
    let g := shiftGrid m e
    let top := if neg then 2 ^ (n - 1) else 2 ^ (n - 1) - 1
    if top < g.idx ∨ (g.idx = top ∧ g.rem ≠ 0) then ⟨if neg then 2 ^ (n - 1) else 2 ^ (n - 1) - 1, true, false⟩
    else
      let q := g.round neg r
      ⟨tc n (if neg then -(q : Int) else q), false, false⟩

/-- Convert to a non-MX type. -/
def convTo (t : Nat) (r : Rnd) (v : Val) : Conv :=
  match etypeFmt t with
  | some f => f.conv (decide (t = 3)) r v
  | none => intConv (etypeBits t) r v

def Val.isFinite : Val → Bool
  | .fin _ _ _ => true
  | _ => false

def Val.neg : Val → Bool
  | .nan => false
  | .inf n => n
  | .fin n _ _ => n

/-- An integer times a power of two as a value (0 is +0). -/
def valOfInt (x : Int) (e : Int) : Val := .fin (decide (x < 0)) x.natAbs e

/-- The value as an integer multiple of 2^e0, when it is one. -/
def Val.scaled (v : Val) (e0 : Int) : Int :=
  match v with
  | .fin neg m e =>
    let q := (shiftGrid m (e - e0)).idx
    if neg then -(q : Int) else q
  | _ => 0

/-- Exact sum (R169). -/
def Val.add : Val → Val → Val
  | .nan, _ => .nan
  | _, .nan => .nan
  | .inf a, .inf b => if a = b then .inf a else .nan
  | .inf a, _ => .inf a
  | _, .inf b => .inf b
  | .fin a m e, .fin b n k =>
    let e0 := min e k
    let x := (Val.fin a m e).scaled e0 + (Val.fin b n k).scaled e0
    if x = 0 then .fin (a && b && decide (m = 0) && decide (n = 0)) 0 0 else valOfInt x e0

/-- Exact product. -/
def Val.mul : Val → Val → Val
  | .nan, _ => .nan
  | _, .nan => .nan
  | .inf a, .inf b => .inf (a != b)
  | .inf a, .fin b n _ => if n = 0 then .nan else .inf (a != b)
  | .fin a m _, .inf b => if m = 0 then .nan else .inf (a != b)
  | .fin a m e, .fin b n k => .fin (a != b) (m * n) (e + k)

def Val.negate : Val → Val
  | .nan => .nan
  | .inf n => .inf (!n)
  | .fin n m e => .fin (!n) m e

/-- Order of two values that are not NaN; zeros compare equal. -/
def Val.lt : Val → Val → Bool
  | .nan, _ => false
  | _, .nan => false
  | .inf a, .inf b => a && !b
  | .inf a, _ => a
  | _, .inf b => !b
  | .fin a m e, .fin b n k =>
    let e0 := min e k
    decide ((Val.fin a m e).scaled e0 < (Val.fin b n k).scaled e0)

def Val.eqv : Val → Val → Bool
  | .nan, _ => false
  | _, .nan => false
  | a, b => !(a.lt b) && !(b.lt a)

/-! ### Element streams (R159, R160) -/

/-- The value of element `i` of a payload of type `t`. -/
def decodeElem (t : Nat) (bs : List Byte) (i : Nat) : Val :=
  if isMx t then
    let w := etypeBits t
    let blk := i / 32
    let base := blk * (1 + 4 * w)
    let s := u8 bs base
    if s = 255 then .nan
    else
      let raw := ofLe (slice bs (base + 1) (4 * w)) / 2 ^ (w * (i % 32)) % 2 ^ w
      match (etypeFmt t).getD e4m3 |>.decode raw with
      | .fin neg m e => .fin neg m (e + (s : Int) - 127)
      | v => v
  else
    let k := etypeBits t / 8
    let raw := ofLe (slice bs (i * k) k)
    match etypeFmt t with
    | some f => f.decode raw
    | none => valOfInt (sgn (etypeBits t) raw) 0

/-- All `n` elements of a payload. -/
def decodeElems (t n : Nat) (bs : List Byte) : List Val := (List.range n).map (decodeElem t bs)

/-! ### Stochastic draws (R176) -/

def mix32 (x : W32) : W32 :=
  let x := x ^^^ (x >>> 16)
  let x := x * 0x6A4F2C3B
  let x := x ^^^ (x >>> 15)
  let x := x * 0xB5D18E27
  x ^^^ (x >>> 16)

def srDraw (seed : W64) (step handle : W32) (index : Nat) : W32 :=
  let x := mix32 (w32 (fld seed 0 32) ^^^ 0x2F9A63C5)
  let x := mix32 (x ^^^ w32 (fld seed 32 32))
  let x := mix32 (x ^^^ step)
  let x := mix32 (x ^^^ handle ^^^ w32 (index / 2 ^ 32 % 256 * 2 ^ 20))
  mix32 (x ^^^ w32 index)

/-- What fixes the draws of a conversion: ROUND, and the inputs of R176. -/
structure RoundCtx where
  round : Nat
  seed : W64 := 0
  step : W32 := 0
  handle : W32 := 0
  first : Nat := 0
  deriving DecidableEq, Repr

/-- The rule for the element at position `i`. -/
def RoundCtx.rnd (c : RoundCtx) (i : Nat) : Rnd :=
  match c.round with
  | 1 => .zero
  | 2 => .sr (srDraw c.seed c.step c.handle (c.first + i))
  | _ => .rne

/-- Encoded elements with the counts of R173 and R176. -/
structure Encoded where
  bytes : List Byte := []
  sat : Nat := 0
  nanInt : Nat := 0
  sr : Nat := 0
  deriving DecidableEq, Repr

/-- emax of R174. -/
def mxEmax : Nat → Int
  | 5 => 8 | 6 => 15 | 7 => 4 | _ => 2

/-- floor(log2) of the largest finite non-zero magnitude, if there is one. -/
def maxLog2 (vs : List Val) : Option Int :=
  vs.foldl (fun a v => match v with
    | .fin _ m e => if m = 0 then a else
        let l := (m.log2 : Int) + e
        some (match a with | some b => max b l | none => l)
    | _ => a) none

/-- One MX result block of up to 32 values starting at position `i0` (R174). -/
def mxBlock (t : Nat) (c : RoundCtx) (i0 : Nat) (vs : List Val) : Encoded :=
  let f := (etypeFmt t).getD e4m3
  let w := etypeBits t
  let fin := (vs.filter Val.isFinite).length
  let sr := if c.round = 2 then fin else 0
  if vs.any (· == .nan) then
    -- no element is converted (R174 step 3), so SR_ELEMS counts none
    { bytes := byte 255 :: leBytes (4 * w) 0 }
  else
    let ex : Int := match maxLog2 vs with
      | some l => clampInt (-127) 127 (l - mxEmax t)
      | none => -127
    let cs := (vs.zipIdx).map (fun p => f.conv true (c.rnd (i0 + p.2))
      (match p.1 with | .fin neg m e => .fin neg m (e - ex) | v => v))
    let bits := pack ((cs.zipIdx).map (fun p => (w * p.2, p.1.bits)))
    { bytes := byte (ex + 127).toNat :: leBytes (4 * w) bits,
      sat := (cs.filter (·.sat)).length, sr := sr }

/-- Encode values as elements of type `t` (R160, R172-R176). -/
def encodeElems (t : Nat) (c : RoundCtx) (vs : List Val) : Encoded :=
  if isMx t then
    ((chunksOf 32 vs.length vs).zipIdx).foldl (fun a p =>
      let b := mxBlock t c (32 * p.2) p.1
      { bytes := a.bytes ++ b.bytes, sat := a.sat + b.sat, nanInt := a.nanInt, sr := a.sr + b.sr }) {}
  else
    let cs := (vs.zipIdx).map (fun p => convTo t (c.rnd p.2) p.1)
    { bytes := (cs.map (fun x => leBytes (etypeBits t / 8) x.bits)).flatten,
      sat := (cs.filter (·.sat)).length, nanInt := (cs.filter (·.nanInt)).length,
      sr := if c.round = 2 then (vs.filter Val.isFinite).length else 0 }

/-- Add a conversion's counts to SAT_EVENTS, NAN_TO_INT and SR_ELEMS (R173, R176). -/
def State.countConv (s : State) (e : Encoded) : State :=
  ((s.bumpBy Reg.satEvents e.sat).bumpBy Reg.nanToInt e.nanInt).bumpBy Reg.srElems e.sr

/-! ### Accumulators (R163-R171) -/

/-- Exponent of the weight of bit 0 of the exact accumulator (R165). -/
def accExp (t : Nat) : Int := if isInt t then 0 else if isClassA t then -24 else -160

/-- Width of the exact accumulator (R165). -/
def accWidth (t : Nat) : Nat := if isInt t || isClassA t then 64 else 320

/-- The exact path: mould mode, and integers in every mode (R163). MODE 2 is mould. -/
def exactPath (mode t : Nat) : Bool := decide (mode = 2) || isInt t

/-- An accumulator float from a value (R162: never rounds), that came from `a` and `b`: a NaN is one of the two
encodings the device writes (R168). -/
def accFrom (a b : BitVec 48) (v : Val) : BitVec 48 :=
  if v == .nan then (if Config.accNanSign a b then 0xFFF800000000 else 0x7FF800000000)
  else BitVec.ofNat 48 (accF.conv false .rne v).bits

/-- The accumulator float of a value. -/
def accOf (v : Val) : BitVec 48 := accFrom 0 0 v

/-- One addition of R169. -/
def accAdd (a b : BitVec 48) : BitVec 48 := accFrom a b ((accF.decode a.toNat).add (accF.decode b.toNat))

/-- Add an exact multiple of the weight, with tallies. -/
def Acc.addExact (t : Nat) (a : Acc) (x : Int) (pinf ninf nan nz : Bool) : Acc :=
  { a with
    x := sgn (accWidth t) (tc (accWidth t) (a.x + x))
    pinf := a.pinf || pinf, ninf := a.ninf || ninf, nan := a.nan || nan, nz := a.nz || nz
    started := true }

/-- Add one element of a contribution (R165-R171). -/
def Acc.addVal (mode t : Nat) (a : Acc) (v : Val) : Acc :=
  if exactPath mode t then
    a.addExact t (v.scaled (accExp t)) (v == .inf false) (v == .inf true) (v == .nan)
      (match v with | .fin true 0 _ => false | _ => true)
  else { a with f := if a.started then accAdd a.f (accOf v) else accOf v, started := true }

/-- The value an element finalises to (R163, R167). -/
def Acc.value (mode t : Nat) (a : Acc) : Val :=
  if exactPath mode t then
    if isInt t then valOfInt a.x 0
    else if a.nan || (a.pinf && a.ninf) then .nan
    else if a.pinf then .inf false
    else if a.ninf then .inf true
    else if a.x = 0 then .fin (!a.nz) 0 0
    else valOfInt a.x (accExp t)
  else accF.decode a.f.toNat

/-- Add values from position `first`; an accumulator not yet held stands for a new one. -/
def addElems (mode t : Nat) (acc : List Acc) (first : Nat) (vs : List Val) : List Acc :=
  let need := first + vs.length
  let acc := acc ++ List.replicate (need - acc.length) ({} : Acc)
  acc.take first ++ (List.zipWith (Acc.addVal mode t) (acc.drop first) vs) ++ acc.drop need

/-! ### Partials across tiers (R177-R181) -/

/-- One element of a partial as received: what it adds. -/
inductive Part where
  | exact (x : Int) (pinf ninf nan nz : Bool)
  | float (f : BitVec 48)
  deriving DecidableEq, Repr

/-- Add one element of a partial. Every NaN encoding counts as NaN (R168). -/
def Acc.addPart (t : Nat) (a : Acc) : Part → Acc
  | .exact x p n q z => a.addExact t x p n q z
  | .float f => { a with f := if a.started then accAdd a.f f else accFrom f 0 (accF.decode f.toNat), started := true }

/-- The smallest k for which x fits limb k (R180). -/
def culletTop (x : Int) : Nat :=
  ((List.range 5).find? (fun k => decide (-(2 ^ (64 * k + 63) : Nat) ≤ x ∧ x < (2 ^ (64 * k + 63) : Nat)))).getD 4

/-- A cullet in minimal form (R179, R180). -/
def cullet (a : Acc) : List Byte :=
  let tal := b2n a.pinf * 64 + b2n a.ninf * 128 + b2n a.nan * 256 + b2n a.nz * 512
  if a.pinf || a.ninf || a.nan || decide (a.x = 0) then leBytes 2 tal
  else
    let n := tc 320 a.x
    let top := culletTop a.x
    let low := ((List.range 5).find? (fun k => n / 2 ^ (64 * k) % 2 ^ 64 != 0)).getD 0
    let low := min low top
    let cnt := top - low + 1
    leBytes 2 (top + 8 * cnt + tal) ++
      ((List.range cnt).map (fun i => leBytes 8 (n / 2 ^ (64 * (low + i)) % 2 ^ 64))).flatten

/-- One element of a PARTIAL's payload as sent (R177, R178). -/
def Acc.partBytes (mode t : Nat) (a : Acc) : List Byte :=
  if isInt t then leBytes 8 (tc 64 a.x)
  else if mode = 2 then
    (if isClassA t then
      leBytes 8 (tc 60 a.x + (b2n a.pinf * 2 ^ 60 + b2n a.ninf * 2 ^ 61 + b2n a.nan * 2 ^ 62 + b2n a.nz * 2 ^ 63))
    else cullet a)
  else leBytes 6 a.f.toNat

/-- Parse one cullet: the element and the bytes it takes; none when malformed (R180). -/
def parseCullet (bs : List Byte) : Option (Part × Nat) :=
  if bs.length < 2 then none
  else
    let h := u16 bs 0
    let top := h % 8
    let cnt := h / 8 % 8
    let pinf := h / 64 % 2 == 1
    let ninf := h / 128 % 2 == 1
    let nan := h / 256 % 2 == 1
    let nz := h / 512 % 2 == 1
    if 4 < top ∨ top + 1 < cnt ∨ (cnt = 0 ∧ top ≠ 0) ∨ (cnt ≠ 0 ∧ (pinf || ninf || nan)) ∨ h / 1024 ≠ 0 then none
    else if bs.length < 2 + 8 * cnt then none
    else
      let n := ofLe (slice bs 2 (8 * cnt)) * 2 ^ (64 * (top + 1 - cnt))
      some (.exact (if cnt = 0 then 0 else sgn (64 * top + 64) n) pinf ninf nan nz, 2 + 8 * cnt)

def parseCullets : Nat → List Byte → Option (List Part)
  | 0, bs => if bs.isEmpty then some [] else none
  | n + 1, bs => match parseCullet bs with
    | none => none
    | some (p, k) => (parseCullets n (bs.drop k)).map (p :: ·)

/-- Bytes per element of a fixed-size partial form; none for cullets (R177). -/
def partWidth (mode t : Nat) : Option Nat :=
  if isInt t then some 8 else if mode = 2 then (if isClassA t then some 8 else none) else some 6

/-- The elements of a PARTIAL of `n` elements, or none where its length or a header is wrong (R177-R180). -/
def parsePartial (mode t n : Nat) (bs : List Byte) : Option (List Part) :=
  match partWidth mode t with
  | none => parseCullets n bs
  | some w =>
    if bs.length ≠ n * w then none
    else some ((List.range n).map (fun i =>
      let r := ofLe (slice bs (i * w) w)
      if isInt t then .exact (sgn 64 r) false false false true
      else if w = 8 then .exact (sgn 60 r) (r / 2 ^ 60 % 2 == 1) (r / 2 ^ 61 % 2 == 1)
        (r / 2 ^ 62 % 2 == 1) (r / 2 ^ 63 % 2 == 1)
      else .float (BitVec.ofNat 48 r)))

/-- Add the elements of a partial from position `first`. -/
def addParts (t : Nat) (acc : List Acc) (first : Nat) (ps : List Part) : List Acc :=
  let need := first + ps.length
  let acc := acc ++ List.replicate (need - acc.length) ({} : Acc)
  acc.take first ++ (List.zipWith (Acc.addPart t) (acc.drop first) ps) ++ acc.drop need

/-- Largest bytes of one element of a partial (R181). -/
def partMax (mode t : Nat) : Nat := (partWidth mode t).getD 42

end Sys2Proof.Machine
end

