-- ==== Sys2Proof/Machine/Packet.lean ====
section
/-! DEFINITION. Packets, grain cells and the end-to-end CRC (R36-R61). -/

namespace Sys2Proof.Machine

/-! ### Coordinates -/

/-- The fields of a coordinate (R36). -/
def coordRack (c : W32) : Nat := fld c 20 12
def coordPlane (c : W32) : Nat := fld c 16 4
def coordNode (c : W32) : Nat := fld c 8 8
def coordUnit (c : W32) : Nat := fld c 0 8

/-- The device's own coordinate with a unit. -/
def State.ownUnit (s : State) (unit : Nat) : W32 := w32 (s.ownCoord.toNat + unit)

/-- `c` names a unit of this device. -/
def State.isOwn (s : State) (c : W32) : Bool :=
  decide (coordRack c = s.ownRack ∧ coordPlane c = s.ownPlane ∧ coordNode c = s.ownNode)

/-- The own units (R39). -/
def unitCtl : Nat := 0
def unitColl : Nat := 1
def unitPool : Nat := 2
def unitBench (b : Nat) : Nat := 0x10 + b
/-- The bench that a unit value names. -/
def benchOfUnit (u : Nat) : Option Nat := if 0x10 ≤ u ∧ u ≤ 0x73 then some (u - 0x10) else none

/-- A unit exists and accepts the VC (R39). -/
def unitAccepts (u vc : Nat) : Bool :=
  if u = 0 then decide (vc = 0)
  else if u = 1 then decide (vc = 1 ∨ vc = 2 ∨ vc = 3)
  else if u = 2 then decide (vc = 6)
  else if 0x10 ≤ u ∧ u ≤ 0x73 then decide (vc = 4 ∨ vc = 5 ∨ vc = 7)
  else false

/-! ### Header fields (R43) -/

def hLen (h : Hdr) : Nat := fld h.w2 0 14
def hVc (h : Hdr) : Nat := fld h.w2 14 3
def hLast (h : Hdr) : Bool := bit h.w2 17
def hAok (h : Hdr) : Bool := bit h.w2 18
def hMc (h : Hdr) : Bool := bit h.w2 19
def hCnt (h : Hdr) : Bool := bit h.w2 20
def hPoison (h : Hdr) : Bool := bit h.w2 21
def hSpare (h : Hdr) : Bool := bit h.w2 22 || bit h.w2 31
def hPart (h : Hdr) : Nat := fld h.w2 23 8
def hChan (h : Hdr) : Nat := fld h.w3 0 12
def hSeq (h : Hdr) : Nat := fld h.w3 12 16
def hHop (h : Hdr) : Nat := fld h.w3 28 4

/-- The header with POISON set (R48). -/
def poisonHdr (h : Hdr) : Hdr := { h with w2 := setFld h.w2 21 1 1 }
/-- The header with HOP replaced. -/
def hopHdr (h : Hdr) (hop : Nat) : Hdr := { h with w3 := setFld h.w3 28 4 hop }
/-- The header as the CRC sees it: POISON and HOP taken as 0 (R49). -/
def crcHdr (h : Hdr) : Hdr := { h with w2 := setFld h.w2 21 1 0, w3 := setFld h.w3 28 4 0 }

/-- The values a header is made of (R43). -/
structure HdrFields where
  dest : W32
  src : W32
  len : Nat
  vc : Nat
  last : Bool := true
  aok : Bool := false
  mc : Bool := false
  cnt : Bool := false
  poison : Bool := false
  part : Nat := 0
  chan : Nat := 0
  seq : Nat := 0
  hop : Nat := 0

/-- A header from its fields; spare bits are sent as 0. -/
def mkHdr (f : HdrFields) : Hdr :=
  { dest := f.dest, src := f.src,
    w2 := w32 (pack [(0, f.len % 2 ^ 14), (14, f.vc % 8), (17, b2n f.last), (18, b2n f.aok),
      (19, b2n f.mc), (20, b2n f.cnt), (21, b2n f.poison), (23, f.part % 256)]),
    w3 := w32 (pack [(0, f.chan % 4096), (12, f.seq % 65536), (28, f.hop % 16)]) }

/-- The 16 header bytes, least significant byte of each word first (R42). -/
def hdrBytes (h : Hdr) : List Byte :=
  leBytes 4 h.dest.toNat ++ leBytes 4 h.src.toNat ++ leBytes 4 h.w2.toNat ++ leBytes 4 h.w3.toNat

/-- A header read from its 16 bytes. -/
def hdrOfBytes (bs : List Byte) : Hdr :=
  { dest := w32 (u32 bs 0), src := w32 (u32 bs 4), w2 := w32 (u32 bs 8), w3 := w32 (u32 bs 12) }

/-- Size of a packet on the link (R46). -/
def hdrSize (h : Hdr) : Nat := 20 + hLen h + (if hCnt h then 4 else 0)
def packetSize (p : Packet) : Nat := hdrSize p.h

/-! ### CRC-32C (R49) -/

/-- One bit of the reflected CRC-32C: polynomial 0x1EDC6F41 reflected is 0x82F63B78. -/
def crcBit (c : Nat) : Nat := if c % 2 = 1 then (c / 2) ^^^ 0x82F63B78 else c / 2

def crcByte (c : Nat) (b : Byte) : Nat :=
  let x := c ^^^ b.toNat
  crcBit (crcBit (crcBit (crcBit (crcBit (crcBit (crcBit (crcBit x)))))))

/-- The register after a byte string, from a register value. -/
def crcRun (c : Nat) (bs : List Byte) : Nat := bs.foldl crcByte c

/-- CRC-32C of a byte string. -/
def crc32c (bs : List Byte) : W32 := w32 (crcRun 0xFFFFFFFF bs ^^^ 0xFFFFFFFF)

/-- The end-to-end CRC of a packet: header with POISON and HOP 0, payload, count word (R49). -/
def packetCrc (p : Packet) : W32 :=
  crc32c (hdrBytes (crcHdr p.h) ++ p.payload ++ (if hCnt p.h then leBytes 4 p.count.toNat else []))

/-- A stomped trailer (R50). -/
def stompedCrc (p : Packet) : W32 := packetCrc p ^^^ 0xFFFFFFFF

/-- A packet with its CRC, made by this device. -/
def mkPacket (f : HdrFields) (payload : List Byte) (count : W32 := 0) : Packet :=
  let p : Packet := { h := mkHdr { f with len := payload.length }, payload := payload, count := count }
  { p with crc := packetCrc p }

/-- The bytes of a packet on the link (R42). -/
def packetBytes (p : Packet) : List Byte :=
  hdrBytes p.h ++ p.payload ++ (if hCnt p.h then leBytes 4 p.count.toNat else []) ++
  leBytes 4 p.crc.toNat

/-- A packet from a header and the delimited bytes after it, cut to the required length. The trailer is the
last 4 bytes delimited, so that of a packet with excess bytes is the one that arrived in the excess (R54). -/
def packetOf (h : Hdr) (body : List Byte) : Packet :=
  let n := hLen h
  let c := if hCnt h then 4 else 0
  { h := h, payload := slice body 0 n,
    count := if hCnt h then w32 (u32 body n) else 0,
    crc := w32 (u32 body (max (n + c) (body.length - 4))) }

/-! ### Grain cells (R55-R59) -/

def cVc (c : GrainCell) : Nat := fld c.ctrl 29 3
def cPart (c : GrainCell) : Nat := fld c.ctrl 21 8
def cKind (c : GrainCell) : Nat := fld c.ctrl 19 2
def cMc (c : GrainCell) : Bool := bit c.ctrl 18
def cPoison (c : GrainCell) : Bool := bit c.ctrl 17
def cHop (c : GrainCell) : Nat := fld c.ctrl 13 4
def cReserved (c : GrainCell) : Nat := fld c.ctrl 8 5
def cIndex (c : GrainCell) : Nat := fld c.ctrl 0 8
/-- First or only; last or only. -/
def cFirst (c : GrainCell) : Bool := cKind c % 2 == 1
def cLast (c : GrainCell) : Bool := 2 ≤ cKind c

def poisonCell (c : GrainCell) : GrainCell := { c with ctrl := setFld c.ctrl 17 1 1 }
def hopCell (c : GrainCell) (hop : Nat) : GrainCell := { c with ctrl := setFld c.ctrl 13 4 hop }

/-- The 64 bytes of a cell. -/
def cellBytes (c : GrainCell) : List Byte :=
  leBytes 4 c.dest.toNat ++ leBytes 4 c.src.toNat ++ leBytes 4 c.ctrl.toNat ++ slice c.payload 0 52

def cellOfBytes (bs : List Byte) : GrainCell :=
  { dest := w32 (u32 bs 0), src := w32 (u32 bs 4), ctrl := w32 (u32 bs 8), payload := slice bs 12 52 }

/-- Length of a message's byte stream (R57). -/
def streamLen (len : Nat) (cnt : Bool) : Nat := 8 + len + (if cnt then 4 else 0)
/-- Number of cells of a message (R57). -/
def cellCount (len : Nat) (cnt : Bool) : Nat := cdiv (streamLen len cnt + 4) 52

/-- A packet segmented into cells (R57, R58): the trailer is copied, not recomputed. Payload bytes that the stream does
not reach are 0; R57 says so of the last cell alone, and where S mod 52 is 49 or more the last bytes of the cell before
it are 0 too (DESIGN CHOICE, log entry 57). -/
def segment (p : Packet) : List GrainCell :=
  let stream := leBytes 4 p.h.w2.toNat ++ leBytes 4 p.h.w3.toNat ++ p.payload ++
    (if hCnt p.h then leBytes 4 p.count.toNat else [])
  let n := cellCount (hLen p.h) (hCnt p.h)
  (List.range n).map (fun i =>
    let kind := if n = 1 then 3 else if i = 0 then 1 else if i + 1 = n then 2 else 0
    let body := if i + 1 = n then slice stream (52 * i) 48 ++ leBytes 4 p.crc.toNat
      else slice stream (52 * i) 52
    { dest := p.h.dest, src := p.h.src,
      ctrl := w32 (pack [(29, hVc p.h), (21, hPart p.h), (19, kind), (18, b2n (hMc p.h)),
        (17, b2n (hPoison p.h)), (13, hHop p.h), (0, i % 256)]),
      payload := body })

/-- The packet that a reassembled stream and its trailer spell (R61): POISON and HOP as given. -/
def packetOfStream (dest src : W32) (stream : List Byte) (crc : W32) (poison : Bool) (hop : Nat) : Packet :=
  let w2 := w32 (u32 stream 0)
  let h : Hdr := { dest := dest, src := src, w2 := if poison then setFld w2 21 1 1 else w2,
                   w3 := w32 (u32 stream 4) }
  { h := hopHdr h hop, payload := slice stream 8 (hLen h),
    count := if hCnt h then w32 (u32 stream (8 + hLen h)) else 0, crc := crc }

/-- How a packet fares under the end-to-end check (R51). -/
inductive CrcCheck where
  | good | stomped | bad
  deriving DecidableEq, Repr

def checkCrc (p : Packet) : CrcCheck :=
  if p.crc = packetCrc p then .good else if p.crc = stompedCrc p then .stomped else .bad

end Sys2Proof.Machine
end

