-- ==== Sys2Proof/Machine/Buffer.lean ====
section
/-! DEFINITION. The output-queued buffer: units and granules, reserves, credits, reference counts and
freeing (R64-R81). -/

namespace Sys2Proof.Machine

/-! ### Granules and accounts -/

/-- Granules charged for a stored item (R64). -/
def itemGranules : Item → Nat
  | .packet p => 4 * cdiv (packetSize p) 256
  | .cell _ => 1

def hdrGranules (h : Hdr) : Nat := 4 * cdiv (hdrSize h) 256

/-- Size on the link (R46), or 64 for a cell. -/
def itemSize : Item → Nat
  | .packet p => packetSize p
  | .cell _ => 64

def itemVc : Item → Nat
  | .packet p => hVc p.h
  | .cell c => cVc c

def itemDest : Item → W32 × Bool
  | .packet p => (p.h.dest, hMc p.h)
  | .cell c => (c.dest, cMc c)

/-- Queue and account keys. -/
def qkey (lp vc : Nat) : Nat := lp * 8 + vc
def akey (lp vc : Nat) (term : Bool) : Nat := qkey lp vc * 2 + b2n term

def State.modSw (s : State) (f : Switch → Switch) : State := { s with sw := f s.sw }

/-- The limit of a credit account in units, from its register (R73, R87). -/
def State.credLimit (s : State) (lp vc : Nat) (term : Bool) : Nat :=
  s.regN (if term then tcredOff lp vc else xcredOff lp vc)

/-- What a receiver has returned when `freed` granules are free again under limit `lim` (R73, R362):
the credits outstanding, 4·base + returned − freed, rise to 4·lim and no further. -/
def settleAcct (lim : Nat) (a : RxAcct) : RxAcct :=
  if a.granted then { a with returned := max a.returned (a.freed + 4 * lim - 4 * a.base) } else a

def State.rxAcct (s : State) (lp vc : Nat) (term : Bool) : RxAcct := sget {} s.sw.rxAcct (akey lp vc term)
def State.modRx (s : State) (lp vc : Nat) (term : Bool) (f : RxAcct → RxAcct) : State :=
  s.modSw (fun w => { w with rxAcct := smod {} w.rxAcct (akey lp vc term) f })

/-- Return `g` granules of credit to the account of logical port `lp` (R67, R72). -/
def State.returnCredit (s : State) (lp vc : Nat) (term : Bool) (g : Nat) : State :=
  s.modRx lp vc term (fun a => settleAcct (s.credLimit lp vc term) { a with freed := a.freed + g })

/-- Apply a changed limit to the account (R73). -/
def State.settle (s : State) (lp vc : Nat) (term : Bool) : State :=
  s.modRx lp vc term (settleAcct (s.credLimit lp vc term))

/-- Credit the sender's side of an account holds, in granules (R362). -/
def txAvail (a : TxAcct) : Nat := a.limit * 4 + a.returned - a.charged

/-- The account a sender uses on port `lp` for a destination: terminating for a unicast to the
partner itself, else transit (R70). -/
def State.acctFor (s : State) (lp : Nat) (dest : W32) (mc : Bool) : Bool :=
  !mc && decide (dest.toNat / 256 = (s.port lp).partnerCoord.toNat / 256)

def State.txAcct (s : State) (lp vc : Nat) (term : Bool) : TxAcct := sget {} s.sw.txAcct (akey lp vc term)

/-- The account holds `g` granules, and the partner advertised it (R70, R71). -/
def State.txHolds (s : State) (lp vc : Nat) (term : Bool) (g : Nat) : Bool :=
  let a := s.txAcct lp vc term
  a.advertised && decide (g ≤ txAvail a)

def State.txCharge (s : State) (lp vc : Nat) (term : Bool) (g : Nat) : State :=
  let f : TxAcct → TxAcct := fun a => { a with charged := a.charged + g }
  s.modSw (fun w => { w with txAcct := smod {} w.txAcct (akey lp vc term) f })

/-! ### Queues -/

def State.queue (s : State) (lp vc : Nat) : List Nat := sget [] s.sw.queues (qkey lp vc)
def State.stored? (s : State) (id : Nat) : Option Stored := s.sw.stored.find? (·.id == id)
def State.modStored (s : State) (id : Nat) (f : Stored → Stored) : State :=
  s.modSw (fun w => { w with stored := modFirst (·.id == id) f w.stored })
def State.setQueue (s : State) (lp vc : Nat) (q : List Nat) : State :=
  s.modSw (fun w => { w with queues := sset [] w.queues (qkey lp vc) q })

/-- Granules queued for a port and VC: QDEPTH (R112). -/
def State.qdepth (s : State) (lp vc : Nat) : Nat :=
  (s.queue lp vc).foldl (fun a id => a + ((s.stored? id).map (·.granules)).getD 0) 0

/-- Granules queued on a port, across all VCs: Q(p) of R95. -/
def State.portDepth (s : State) (lp : Nat) : Nat :=
  (List.range 8).foldl (fun a v => a + s.qdepth lp v) 0

/-- Granules that stored items have in the shared pool; the packets of one shared copy, of which `seen` were met, are
charged once (R136). -/
def sharedSum : List Nat → List Stored → Nat
  | _, [] => 0
  | seen, x :: xs =>
    if x.charge ≠ .shared then sharedSum seen xs
    else match x.share with
      | none => x.granules + sharedSum seen xs
      | some g => if seen.contains g then sharedSum seen xs else x.granules + sharedSum (g :: seen) xs

/-- shared(q) of R68: granules charged to the shared pool whose copy still waits in the queue. -/
def State.sharedOf (s : State) (lp vc : Nat) : Nat := sharedSum [] ((s.queue lp vc).filterMap s.stored?)

/-- The shared pool's size in units: 983,040 less QUAR_UNITS (R85). -/
def State.sharedUnits (s : State) : Nat := 983040 - s.sw.quar
/-- free of R68, in granules. -/
def State.sharedFree (s : State) : Nat := 4 * s.sharedUnits - s.sw.sharedUsed

/-- The shared-pool test of R68, exact: alpha = 2^(ALPHA − 4). -/
def State.passesShared (s : State) (g : Nat) (lp vc : Nat) : Bool :=
  decide ((s.sharedOf lp vc + g) * 16 ≤ 2 ^ fld (s.reg Reg.scCtrl) 1 3 * s.sharedFree) &&
  decide (g ≤ s.sharedFree)

/-- BUF_SHARED_FREE in units. -/
def State.bufSharedFree (s : State) : Nat := s.sharedFree / 4

/-- Track BUF_SHARED_FREE_MIN after a change (R85). -/
def State.trackFree (s : State) : State := s.trackMin Reg.bufSharedFreeMin s.bufSharedFree

/-- Put a stored item on an egress queue and track QDEPTH_MAX (R112). -/
def State.enqueue (s : State) (id lp vc : Nat) : State :=
  let s := s.setQueue lp vc (s.queue lp vc ++ [id])
  s.trackMax (Reg.qdepthMax (lp / 4) (lp % 4 * 8 + vc)) (s.qdepth lp vc)

/-! ### Freeing and quarantine -/

/-- Quarantine `n` units (R79), raising the limit fault at 16,384. -/
def State.quarantine (s : State) (n : Nat) : State :=
  if n = 0 then s
  else
    let s := (s.modSw (fun w => { w with quar := w.quar + n })).bump Reg.quarEvents
    let s := s.trackFree
    if 16384 ≤ s.sw.quar && !s.sw.quarRaised then
      ((s.modSw (fun w => { w with quarRaised := true })).logFault
        { cls := 0x07, sev := 2, act := 5, block := 1 }).oweReset 2 0x07 0
    else s

/-- Another stored packet of the same copy is there (R136). -/
def State.shared (s : State) (x : Stored) : Bool := x.share.isSome && s.sw.stored.any (fun y => y.share == x.share)

/-- Give back the charge of a stored item (R66, R68, R69); the last packet of a shared copy gives it back. -/
def State.uncharge (s : State) (x : Stored) : State :=
  if s.shared x then s
  else match x.charge with
  | .headroom lp vc => s.modSw (fun w => { w with
      headroom := smod 0 w.headroom (qkey lp vc) (fun n => n - x.granules) })
  | .shared => (s.modSw (fun w => { w with sharedUsed := w.sharedUsed - x.granules }))
  | .internal => s.modSw (fun w => { w with intUsed := w.intUsed - x.granules })

/-- Free a stored item whose reference count is 0: its charge, its pending credits, and the
quarantine of the units that hold failing words, 8 words to a unit (R65, R76). -/
def State.freeStored (s : State) (id : Nat) : State :=
  match s.stored? id with
  | none => s
  | some x =>
    let s := (s.modSw (fun w => { w with stored := dropFirst (·.id == id) w.stored })).uncharge x
    let s := match x.credit with
      | some (lp, vc) => s.returnCredit lp vc false x.granules
      | none => s
    s.quarantine (x.bad.map (· / 8)).eraseDups.length

/-- Decrement the reference count once (R76); at 0 the item is freed once it is complete. -/
def State.deref (s : State) (id : Nat) : State :=
  match s.stored? id with
  | none => s
  | some x =>
    let s := s.modStored id (fun x => { x with refs := x.refs - 1 })
    if x.refs ≤ 1 && !x.arriving then s.freeStored id else s

/-! ### Buffer faults met on a read (R65, R77) -/

/-- A fault of the buffer (R405, R406). Its DETAIL is the number of the unit (R411), which the state does not hold, since
it counts units: a free one of the 1,572,864 (log entry 17). -/
def State.bufFault (s : State) (cls : Nat) : State :=
  let f := s.free
  f.2.logFault { cls := cls, sev := 1, act := 2, block := 1, detail := w64 (f.1.toNat % 1572864) }

/-- The first read that meets word `w` of a stored item in error (R65): counted, logged and the word marked.
The copies whose header has left, the reading ports `ports` among them, will end stomped; the others carry POISON. A
header that left after an earlier such error carried POISON, and still does. The packets of one shared copy hold the same
word (R136). -/
def State.dataUe (s : State) (x : Stored) (w : Nat) (ports : List Nat) : State :=
  let k := w % cdiv (itemSize x.item) 32
  if x.bad.contains k then s
  else
    let s := (s.bump Reg.dataUe).bufFault 0x04
    let mark := fun (y : Stored) =>
      let out := ((if y.id = x.id then ports else []) ++ y.headOut ++ y.cellsSent.map (·.1)).filter (fun l => !y.stomped.contains l)
      { y with
        bad := y.bad ++ [k], stomped := y.stomped ++ out,
        poisoned := if y.bad.isEmpty then y.poisoned else y.poisoned ++ out }
    s.modSw (fun w => { w with stored := w.stored.map (fun y =>
      if y.id == x.id || (x.share.isSome && y.share == x.share) then mark y else y) })

/-- Lose a stored packet whose units can no longer be accounted for: every unit is quarantined. -/
def State.losePacket (s : State) (x : Stored) : State :=
  let s := s.modSw (fun w => { w with
    stored := dropFirst (·.id == x.id) w.stored,
    queues := (w.queues.map (fun q => (q.1, q.2.filter (· != x.id)))).filter (fun q => !q.2.isEmpty) })
  let s := s.uncharge x
  let s := match x.credit with
    | some (l, v) => s.returnCredit l v false x.granules
    | none => s
  (s.bump Reg.pktLostFault).quarantine (cdiv x.granules 4)

/-- An uncorrectable reference count, a decrement at 0 or an increment after enqueuing: the packet is lost and its
units are quarantined (R77). -/
def State.refFault (s : State) (x : Stored) : State :=
  (s.bufFault 0x05).losePacket x

/-- An uncorrectable queue pointer: the queue stops and its contents are discarded; packets no other queue holds
are quarantined (R77). It stays stopped until its port leaves the active state or the device is recovered in full
(DESIGN CHOICE, log entry 55). -/
def State.ptrFault (s : State) (lp vc : Nat) : State :=
  let s := s.bufFault 0x05
  let q := s.queue lp vc
  let s := (s.setQueue lp vc []).modSw (fun w => { w with stopped := insertNat (qkey lp vc) w.stopped })
  q.foldl (fun s id =>
    match s.stored? id with
    | none => s
    | some x => if x.refs ≤ 1 then s.losePacket x else (s.deref id).bump Reg.pktLostFault) s

/-- An uncorrectable free-list link: the unit that holds it cannot be handed out, and is quarantined (log entry 55). -/
def State.linkFault (s : State) : State :=
  (s.bufFault 0x05).quarantine 1

/-- What the buffer's checks find while a stored item is read for `ports` (R65, R77); true: the item is lost. -/
def State.readObs (s : State) (obs : BufObs) (x : Stored) (ports : List Nat) : State × Bool :=
  match obs with
  | .clean | .ptrUe => (s, false)
  | .dataCe => (s.bump Reg.dataCe, false)
  | .dataUe w => (s.dataUe x w ports, false)
  | .refCe => (s.bump Reg.refcntCe, false)
  | .refUe | .refZero | .refLate => (s.refFault x, true)
  | .ptrCe | .linkCe => (s.bump Reg.ptrCe, false)
  | .linkUe => (s.linkFault, false)

/-- What the buffer's checks find where no command's observation says it: one of `l`, by a free value (R65, R77, log
entry 17). -/
def pickObs (v : W64) (l : List BufObs) : BufObs := l.getD (v.toNat % l.length) .clean

/-- What a discard's checks can find: the reference count and the queue's pointer are read for it. -/
def discardObs : List BufObs := [.clean, .refCe, .refUe, .refZero, .ptrCe, .ptrUe]

/-- A queue discards its copy of a stored item: the queue's pointer and the reference count are read for it (R76, R77). -/
def State.discardCopy (s : State) (lp vc id : Nat) : State :=
  match s.stored? id with
  | none => s.setQueue lp vc (dropFirst (· == id) (s.queue lp vc))
  | some x =>
    let r := s.free
    let obs := pickObs r.1 discardObs
    if obs = .ptrUe then r.2.ptrFault lp vc
    else
      match (r.2.setQueue lp vc (dropFirst (· == id) (r.2.queue lp vc))).readObs obs x [] with
      | (t, true) => t
      | (t, false) => t.deref id

/-- Discard every item queued on a port and VC (R80): one PORT_DOWN_DROP per packet or cell. What a pointer fault on the
way leaves of the queue is lost by it (R77). -/
def State.dropQueue (s : State) (lp vc : Nat) : State :=
  ((s.queue lp vc).foldl (fun s id =>
    if (s.queue lp vc).contains id then (s.bump Reg.portDownDrop).discardCopy lp vc id else s) s).setQueue lp vc []

def State.dropPortQueues (s : State) (lp : Nat) : State := (List.range 8).foldl (fun s v => s.dropQueue lp v) s

/-- An own unit has read its copy of a stored multicast packet: the reference count is read for it (R76, R77). -/
def State.readCopy (s : State) (stored : Option Nat) : State :=
  match stored.bind s.stored? with
  | none => s
  | some x =>
    let r := s.free
    match r.2.readObs (pickObs r.1 [.clean, .refCe, .refUe, .refZero]) x [] with
    | (t, true) => t
    | (t, false) => t.deref x.id

/-- What the buffer's checks find while an own unit's copy of stored item `id` is read (R65, R77, R92): none where the
item is lost, else whether the copy is poisoned. -/
def State.readLocal (s : State) (obs : BufObs) (id : Nat) : State × Option Bool :=
  match s.stored? id with
  | none => (s, none)
  | some x =>
    match s.readObs obs x [] with
    | (t, true) => (t, none)
    | (t, false) => (t, (t.stored? id).map (fun y => !y.bad.isEmpty))

/-! ### Storing -/

/-- Store an item with its charge; its reference count is the number of target queues, plus 1 when an own
unit is a target (R76). A stopped queue takes nothing: a copy for it is lost and counted (R77, log entry 55), and an item
with no other target is freed. -/
def State.store (s : State) (x : Stored) (qs : List Nat) (vc : Nat) (own : Bool := false) : State :=
  let id := s.sw.nextId
  let all := qs.length
  let qs := qs.filter (fun lp => !s.sw.stopped.contains (qkey lp vc))
  let x := { x with id := id, refs := qs.length + b2n own, storedAt := s.now }
  let held := s.shared x
  let s := s.modSw (fun w => { w with stored := w.stored ++ [x], nextId := id + 1 })
  let s := if held then s else match x.charge with
    | .headroom lp v => s.modSw (fun w => { w with
        headroom := smod 0 w.headroom (qkey lp v) (· + x.granules) })
    | .shared => s.modSw (fun w => { w with sharedUsed := w.sharedUsed + x.granules })
    | .internal => s.modSw (fun w => { w with intUsed := w.intUsed + x.granules })
  let s := (qs.foldl (fun s lp => s.enqueue id lp vc) s).trackFree
  let s := if held then s else s.countEv 241 0xC0 (itemSize x.item)
  let s := s.bumpBy Reg.pktLostFault (all - qs.length)
  if qs.isEmpty && !own && all != 0 then s.freeStored id else s

/-- Try once to move a complete forwarded item's charge from transit headroom to the shared pool; a
move returns its credits at once (R67). -/
def State.tryMove (s : State) (id : Nat) (qs : List Nat) (vc : Nat) : State :=
  match s.stored? id with
  | none => s
  | some x =>
    match x.charge, x.credit with
    | .headroom lp v, some (clp, cvc) =>
      if qs.all (s.passesShared x.granules · vc) && decide (x.granules ≤ s.sharedFree) then
        let s := s.modSw (fun w => { w with
          headroom := smod 0 w.headroom (qkey lp v) (fun n => n - x.granules),
          sharedUsed := w.sharedUsed + x.granules })
        let s := s.modStored id (fun x => { x with charge := .shared, credit := none })
        (s.returnCredit clp cvc false x.granules).trackFree
      else s
    | _, _ => s

/-- The charge an internal writer finds for `g` granules to these queues (R69). -/
def State.internalCharge (s : State) (g : Nat) (qs : List Nat) (vc : Nat) : Option Charge :=
  if s.sw.intUsed + g ≤ 4 * 65536 then some .internal
  else if qs.all (s.passesShared g · vc) && decide (g ≤ s.sharedFree) then some .shared
  else none

end Sys2Proof.Machine
end

