-- ==== Sys2Proof/Machine/Route.lean ====
section
/-! DEFINITION. Route, multicast and partition tables and the egress decision (R89-R98, R104-R110). -/

namespace Sys2Proof.Machine

/-! ### Tables: keyed by their BAR0 window offset (R108) -/

def tableBase (bank : Bool) (t : Nat) : Nat := (if bank then 0x800000 else 0x400000) + t * 0x20000
def tableStride (t : Nat) : Nat := if t = 3 then 64 else 32
def tableEntries (t : Nat) : Nat := if t = 0 ∨ t = 2 then 4096 else 256
def entryAddr (bank : Bool) (t i : Nat) : Nat := tableBase bank t + i * tableStride t

/-- Word `w` of an entry. -/
def State.tblWord (s : State) (bank : Bool) (t i w : Nat) : W32 := sget 0 s.route.tbl (entryAddr bank t i + 4 * w)

/-- An entry in the COMMIT layout (R111). -/
def commitLayout (e : EntryRef) : Nat :=
  pack [(0, e.table.val), (4, b2n e.bank), (8, e.index.val)]

def entryRef (bank : Bool) (t i : Nat) : EntryRef :=
  { bank := bank, table := Fin.ofNat 4 t, index := Fin.ofNat 4096 i }

def State.modRoute (s : State) (f : Route → Route) : State := { s with route := f s.route }

/-- First detection of an uncorrectable entry error: counted, located, logged once, and it refuses an
armed swap when the entry is in the inactive bank (R106, R110). -/
def State.detectErr (s : State) (e : EntryRef) : State :=
  let s := s.modRoute (fun r => { r with
    errs := r.errs.filter (fun x => !decide (x.ref = e)) ++ [{ ref := e, detected := true }] })
  let s := (s.bump Reg.tableUe).setReg Reg.tableUeLoc (w64 (commitLayout e))
  let s := s.logFault { cls := 0x08, sev := 1, act := 2, block := 2, detail := w64 (commitLayout e) }
  if s.route.swap = 1 && e.bank != s.route.activeBank then
    (s.modRoute (fun r => { r with swap := 3, reason := 2 })).bump Reg.swapRefused
  else s

/-- A single-bit error of an entry is corrected by the read that meets it, and counted (R110). -/
def State.correctEntry (s : State) (e : EntryRef) : State :=
  if s.route.ces.contains e then
    (s.modRoute (fun r => { r with ces := r.ces.filter (fun x => !decide (x = e)) })).bump Reg.tableCe
  else s

/-- Whether an entry has an uncorrectable error; an undetected one is detected by this lookup, and a single-bit error
is corrected (R110). -/
def State.lookupErr (s : State) (bank : Bool) (t i : Nat) : Bool × State :=
  match s.route.errs.find? (fun x => decide (x.ref = entryRef bank t i)) with
  | none => (false, s.correctEntry (entryRef bank t i))
  | some x => (true, if x.detected then s else s.detectErr x.ref)

/-! ### Partitions (R104) -/

/-- Logical port `lp` is in the partition entry of `part`, in the active bank. -/
def State.memberBit (s : State) (part lp : Nat) : Bool :=
  bit (s.tblWord s.route.activeBank 3 part (lp / 32)) (lp % 32)

/-- `lp` may carry traffic of `part` on `vc`: VC0 is exempt; an entry in error admits no port. -/
def State.partOk (s : State) (err : Bool) (part vc lp : Nat) : Bool :=
  decide (vc = 0) || (!err && s.memberBit part lp)

/-! ### What is routed -/

/-- The header facts a lookup uses, of a packet or of the first cell of a message. -/
structure RouteReq where
  dest : W32
  src : W32
  mc : Bool
  vc : Nat
  part : Nat
  aok : Bool
  hop : Nat
  chan : Nat
  /-- A cell is routed deterministically (R60). -/
  cell : Bool
  /-- Granules the whole packet takes (R71). -/
  gran : Nat

def routeReqOf (h : Hdr) : RouteReq :=
  { dest := h.dest, src := h.src, mc := hMc h, vc := hVc h, part := hPart h, aok := hAok h,
    hop := hHop h, chan := hChan h, cell := false, gran := hdrGranules h }

/-- A first cell carries header words 2 and 3 in its payload (R57). -/
def routeReqOfCell (c : GrainCell) : RouteReq :=
  { dest := c.dest, src := c.src, mc := cMc c, vc := cVc c, part := cPart c, aok := false,
    hop := cHop c, chan := fld (w32 (u32 c.payload 4)) 0 12, cell := true, gran := 1 }

/-- Outcome of R89, R90: dropped (with the code that answers a VC2 or VC6 unicast), or sent. -/
inductive RouteRes where
  | drop (code : Option Nat)
  | go (lps : List Nat) (localUnit : Option Nat) (cells : Bool)
  deriving DecidableEq, Repr

/-- The hash of R93. -/
def routeHash (src : W32) (chan seed : Nat) : W32 :=
  crc32c (leBytes 4 src.toNat ++ leBytes 2 chan ++ leBytes 2 seed)

/-- Index of the deterministic choice among `n` sorted candidates (R93). -/
def hashIndex (h : W32) (n : Nat) : Nat := fld h 16 16 * n / 2 ^ 16

/-- The candidates of a route or group entry before removals: existing logical ports LPORT of the
named blocks, and the number of blocks skipped as absent (R91). -/
def State.entryPorts (s : State) (ws : List W32) : List Nat × Nat :=
  let mask := (ws.getD 0 0).toNat + (ws.getD 1 0).toNat * 2 ^ 32 + (ws.getD 2 0).toNat * 2 ^ 64 +
    (ws.getD 3 0).toNat * 2 ^ 96
  let l := fld (ws.getD 4 0) 0 2
  let blocks := bitsOf 128 mask
  let lps := (blocks.filter (fun p => decide (l < s.lportsOf p))).map (fun p => 4 * p + l)
  (lps, blocks.length - lps.length)

/-- Inside its rejoin hold (R97): keyed by logical port, the always-on time the port became ACTIVE. -/
def State.inRejoin (s : State) (lp : Nat) : Bool := s.route.rejoin.any (fun e => e.1 == lp)

/-- The load of R95 for a candidate; a packet that the candidate would segment is asked its whole units of credit too
(DESIGN CHOICE, log entry 58). -/
def State.adaptLoad (s : State) (gran lp : Nat) : Nat :=
  if s.txHolds lp 5 false gran then s.portDepth lp * (4 / s.laneCount lp) else 2 ^ 32 - 1

/-- Choose one candidate: adaptively (R95) or by the hash (R93). -/
def State.choose (s : State) (r : RouteReq) (adapt : Bool) (cands : List Nat) : Nat × State :=
  let seed := fld (s.reg Reg.rtCtrl) 0 16
  let pick := fun (cs : List Nat) => cs.getD (hashIndex (routeHash r.src r.chan seed) cs.length) 0
  if adapt then
    let best := cands.foldl (fun m lp => min m (s.adaptLoad r.gran lp)) (2 ^ 64)
    let tied := cands.filter (fun lp => s.adaptLoad r.gran lp == best)
    (pick tied, s.bump Reg.adaptPicks)
  else (pick cands, s)

/-- The egress of a packet or first cell not addressed to an own unit (R89-R96). `ingress` is the
logical port it arrived on, none for a packet made inside the device. PART_OUT_DENY counts the multicast candidates
that only the partition removes; a multicast with HOP 0 forms no candidate set and counts neither that nor LPORT_ABSENT
(DESIGN CHOICE, log entry 58). -/
def State.routePkt (s : State) (r : RouteReq) (ingress : Option Nat) : RouteRes × State :=
  let bank := s.route.activeBank
  let (perr, s) := if r.vc = 0 then (false, s) else s.lookupErr bank 3 r.part
  let inDeny := match ingress with | some lp => !s.partOk perr r.part r.vc lp | none => false
  if inDeny then (.drop none, s.bump Reg.partInDeny)
  else
    let (t, i) := if r.mc then (2, fld r.dest 0 12)
      else if coordRack r.dest ≠ s.ownRack then (0, coordRack r.dest) else (1, coordNode r.dest)
    let (err, s) := s.lookupErr bank t i
    let ws := (List.range 8).map (s.tblWord bank t i)
    let w4 := ws.getD 4 0
    let code := fun (c : Nat) => if !r.mc && (r.vc = 2 || r.vc = 6) then some c else none
    let miss := if r.mc then Reg.mcMiss else Reg.noRouteDrop
    if err then (.drop (code 0x0F), s.bump miss)
    else if !bit w4 2 || (r.mc && fld w4 8 8 ≠ r.part) then (.drop (code 0x0B), s.bump miss)
    else
      let localUnit := if r.mc && bit w4 24 then some (fld w4 16 8) else none
      if r.mc && r.hop = 0 && ingress.isSome then
        -- R92: no port copies; the local copy alone
        let s := match ingress with | some lp => s.bump (Reg.hopExpired (lp / 4)) | none => s
        match localUnit with
        | some u => (.go [] (some u) false, s)
        | none => (.drop none, s)
      else
        let (lps, absent) := s.entryPorts ws
        let s := s.bumpBy Reg.lportAbsent absent
        let adapt := !r.cell && r.vc = 5 && r.aok && bit w4 3 && bit (s.reg Reg.rtCtrl) 16 && !r.mc
        let live := lps.filter (fun lp => s.portActive lp && ingress ≠ some lp)
        let inPart := live.filter (s.partOk perr r.part r.vc)
        let s := if r.mc then s.bumpBy Reg.partOutDeny (live.length - inPart.length) else s
        let cands := if r.mc || adapt then inPart else inPart.filter (fun lp => !s.inRejoin lp)
        if r.mc then
          if cands.isEmpty && localUnit.isNone then (.drop none, s.bump Reg.mcMiss)
          else (.go cands localUnit (bit w4 4), s)
        else if cands.isEmpty then (.drop (code 0x0B), s.bump Reg.noRouteDrop)
        else
          let (lp, s) := s.choose r adapt cands
          (.go [lp] none (bit w4 4), s)

/-- A port event changes the candidate set of some valid entry of the active bank (R98). -/
def State.portInEntries (s : State) (lp : Nat) : Bool :=
  let bank := s.route.activeBank
  let p := lp / 4
  -- entries are found by their PORTS word that names the block
  s.route.tbl.any (fun e =>
    [0, 1, 2].any (fun t =>
      let lo := tableBase bank t
      decide (lo ≤ e.1) && decide (e.1 < lo + tableEntries t * 32) &&
      decide ((e.1 - lo) % 32 / 4 = p / 32) && bit e.2 (p % 32) &&
      (let w4 := sget 0 s.route.tbl (lo + (e.1 - lo) / 32 * 32 + 16)
       bit w4 2 && decide (fld w4 0 2 = lp % 4))))

/-- Count an ordering event of a port (R98). -/
def State.orderEvent (s : State) (lp : Nat) : State :=
  if s.portInEntries lp then s.bump Reg.orderEvents else s

end Sys2Proof.Machine
end

