-- ==== Sys2Proof/Machine/Deliver.lean ====
section
/-! DEFINITION. Delivery to the device's own units, answers to refused requests, and packets that the
device itself writes into the buffer (R25, R27, R40, R48, R51, R69, R90, R99-R103, R250, R523). -/

namespace Sys2Proof.Machine

/-! ### Answers (R40, R90, R121, R122, R301, R302) -/

/-- The subheader words of a collective packet (R119); none when the payload is shorter. -/
def subWords (payload : List Byte) : Option (List W32) :=
  if payload.length < 24 then none
  else some ((List.range 6).map (fun i => w32 (u32 payload (4 * i))))

def subBytes (ws : List W32) : List Byte := ws.flatMap (fun w => leBytes 4 w.toNat)

/-- STYPE values (R120). -/
def stContrib : Nat := 0
def stOpen : Nat := 1
def stCount : Nat := 2
def stPartial : Nat := 3
def stResult : Nat := 4
def stStatus : Nat := 5
def stOffsets : Nat := 6
def stProgress : Nat := 7

/-- AUX of a STATUS (R121). -/
def statusAux (code : Nat) (member : Option Nat) (entryFault : Bool) : W32 :=
  w32 (pack [(0, code), (8, (member.getD 0) % 4096), (20, b2n member.isSome), (21, b2n entryFault)])

/-- A STATUS subheader that copies a refused packet's subheader where it had one (R121). -/
def statusSub (payload : List Byte) (aux : W32) : List Byte :=
  match subWords payload with
  | some ws =>
    subBytes [setFld (ws.getD 0 0) 28 4 stStatus, ws.getD 1 0, ws.getD 2 0,
      setFld (ws.getD 3 0) 12 16 0, ws.getD 4 0, aux]
  | none => subBytes [w32 (stStatus * 2 ^ 28), 0, 0, 0, 0, aux]

/-- The STATUS that answers the source of a refused VC2 packet (R90, R121, R122). PART is the partition of the context
that its HANDLE names; where that context is not open, or the packet is not for this device, it is the packet's
(DEDUCED, log entry 13). -/
def State.statusAnswer (s : State) (p : Packet) (code : Nat) : Packet :=
  let had := (subWords p.payload).isSome
  let member := if had then some (u16 p.payload 12 % 4096) else none
  let sub := statusSub p.payload (statusAux code member false)
  let mine := had && !hMc p.h && s.isOwn p.h.dest
  let c := s.ctx (u32 sub 0 / 4096 % 256)
  let f : HdrFields :=
    { dest := p.h.src, src := s.ownUnit unitColl, len := 24, vc := 3,
      part := if mine && (c.st == .opened || c.st == .closing) then c.part.toNat else hPart p.h,
      chan := u32 sub 0 % 4096, seq := u32 sub 8 % 65536, hop := s.regN Reg.resultHop }
  mkPacket f sub

/-- The answer header of a pool request (R301, R302). -/
def State.poolAnswer (s : State) (h : Hdr) (code pop len : Nat) (data : List Byte) : Packet :=
  let f : HdrFields :=
    { dest := h.src, src := s.ownUnit unitPool, len := 0, vc := 7, part := hPart h,
      chan := hChan h, seq := hSeq h, hop := s.regN Reg.poolHop }
  mkPacket f (leBytes 4 (pack [(0, code), (8, pop), (16, len)]) ++ leBytes 4 0 ++ data)

/-- The answer to a refused VC2 or VC6 packet (R40, R90): none on another VC. -/
def State.refusalAnswer (s : State) (p : Packet) (code : Nat) : Option Packet :=
  if hVc p.h = 2 then some (s.statusAnswer p code)
  else if hVc p.h = 6 then some (s.poolAnswer p.h code (u8 p.payload 0 % 16) 0 [])
  else none

/-! ### Where an event at an own unit is counted (R63, R523) -/

/-- Bump the ingress port block's counter, or the global one for a packet made inside. -/
def State.bumpAt (s : State) (lp : Option Nat) (port : Nat → Nat) (int : Nat) : State :=
  match lp with
  | some l => s.bump (port (l / 4))
  | none => s.bump int

/-- Messages open in reassembly that count toward 1,024 (R62). -/
def State.reasmOpen (s : State) : Nat := (s.sw.reasm.filter (fun m => m.vc ≠ 1 ∧ m.vc ≠ 2)).length

/-- The next cell on this port and VC would open a message while 1,024 are open: its credits are withheld (R62). Which
cell comes next cannot be known: a VC with a message open on that port, of whatever SRC, counts as one whose next cell
opens none (DESIGN CHOICE, log entry 57). -/
def State.reasmFull (s : State) (lp vc : Nat) : Bool :=
  decide (1024 ≤ s.reasmOpen) && vc != 1 && vc != 2 && !s.sw.reasm.any (fun m => m.lp == lp && m.vc == vc)

/-- Return the terminating credit of an item that an own unit has taken (R72), or withhold it (R62). -/
def State.takeCredit (s : State) (lp : Option Nat) (vc g : Nat) : State :=
  match lp with
  | some l =>
    if g = 0 then s
    else if s.reasmFull l vc then s.modRx l vc true (fun a => { a with held := a.held + g })
    else s.returnCredit l vc true g
  | none => s

/-- Give back the credits withheld for reassembly once an entry is free (R62). -/
def State.releaseHeld (s : State) : State :=
  if 1024 ≤ s.reasmOpen then s
  else
    s.sw.rxAcct.foldl (fun s e =>
      if e.2.held = 0 then s
      else
        let lp := e.1 / 16
        let vc := e.1 / 2 % 8
        (s.modRx lp vc (e.1 % 2 == 1) (fun a => { a with held := 0 })).returnCredit lp vc (e.1 % 2 == 1) e.2.held) s

/-- An own unit takes a packet out of its ingress queue. -/
def State.tookIn (s : State) (p : Inbound) : State := (s.readCopy p.stored).takeCredit p.lp (hVc p.pkt.h) p.units

/-! ### The bench receive queue and VC5 messages (R99-R103, R250) -/

/-- SEQ `q` lies in the range of `n` values from `first`, modulo 65,536 (R100). -/
def inSeqRange (q : Nat) (r : BitVec 16 × Nat) : Bool :=
  decide ((q + 65536 - r.1.toNat) % 65536 < r.2)

/-- Packets of an open message in ascending SEQ from its first. -/
def orderedPkts (m : OpenMsg) : List Inbound :=
  match m.range with
  | none => m.pkts
  | some (first, n) =>
    (List.range n).filterMap (fun i =>
      m.pkts.find? (fun p => decide (hSeq p.pkt.h = (first.toNat + i) % 65536)))

/-- Units of 256 bytes a packet takes in a bench queue (R249, R250). -/
def pktUnits (p : Packet) : Nat := cdiv (packetSize p) 256

/-- Units of 256 bytes in a bench's receive queue. -/
def Bench.recvUnits (x : Bench) : Nat := (x.recvQ.map (fun p => pktUnits p.pkt)).sum

/-- The bench's ingress queue holds no room for `g` granules of credit on a VC: packets wait to enter its receive queue
of 256 units, it is too full, or 64 VC5 messages are open (R72, R103, R250). -/
def State.benchFull (s : State) (b vc g : Nat) : Bool :=
  let x := s.bench b
  !x.recvWait.isEmpty || decide (256 < x.recvUnits + min 256 (cdiv g 4)) || (vc == 5 && decide (64 ≤ x.msgs.length))

/-- Return terminating credit of bench `b`'s unit, or withhold it while the bench is full. -/
def State.benchCredit (s : State) (b : Nat) (lp : Option Nat) (vc g : Nat) : State :=
  match lp with
  | some l =>
    if g ≠ 0 && s.benchFull b vc g then
      s.modBench b (fun x => { x with owed := smod 0 x.owed (qkey l vc) (· + g) })
    else s.takeCredit lp vc g
  | none => s

/-- Return what was withheld, once there is room. -/
def State.releaseOwed (s : State) (b : Nat) : State :=
  (s.bench b).owed.foldl (fun s e =>
    if s.benchFull b (e.1 % 8) e.2 then s
    else (s.modBench b (fun x => { x with owed := sset 0 x.owed e.1 0 })).takeCredit (some (e.1 / 8)) (e.1 % 8) e.2) s

/-- A packet of bench `b`'s unit is taken or discarded. -/
def State.benchTook (s : State) (b : Nat) (p : Inbound) : State :=
  (s.readCopy p.stored).benchCredit b p.lp (hVc p.pkt.h) p.units

/-- Discard packets of bench `b`'s unit. -/
def State.discardAll (s : State) (b : Nat) (ps : List Inbound) : State := ps.foldl (fun s p => s.benchTook b p) s

/-- Packets of groups that enter a queue of 256 units holding `used`, in order, and the groups that wait. -/
def feedGroups : Nat → List (List Inbound) → List Inbound × List (List Inbound)
  | _, [] => ([], [])
  | used, g :: gs =>
    let fits := fun (n : Nat) => decide (used + ((g.take n).map (fun p => pktUnits p.pkt)).sum ≤ 256)
    let k := (((List.range g.length).map (· + 1)).filter fits).length
    if k < g.length then (g.take k, g.drop k :: gs)
    else
      let r := feedGroups (used + (g.map (fun p => pktUnits p.pkt)).sum) gs
      (g ++ r.1, r.2)

/-- A packet belongs to an open VC5 message of known range. -/
def OpenMsg.owns (m : OpenMsg) (p : Inbound) : Bool :=
  decide (hVc p.pkt.h = 5 ∧ p.pkt.h.src = m.src ∧ hChan p.pkt.h = m.chan.toNat) && m.range.any (inSeqRange (hSeq p.pkt.h))

/-- Packets enter the receive queue as it has room (R250); a message whose last packet has entered is no
longer open. -/
def State.feedRecv (s : State) (b : Nat) : State :=
  s.modBench b (fun x =>
    let r := feedGroups x.recvUnits x.recvWait
    { x with
      recvQ := x.recvQ ++ r.1, recvWait := r.2,
      msgs := x.msgs.filter (fun m => !m.entering || r.2.flatten.any m.owns) })

/-- A packet, or the packets of a complete message, enter after those before them. -/
def State.enterRecv (s : State) (b : Nat) (g : List Inbound) : State :=
  (s.modBench b (fun x => { x with recvWait := x.recvWait ++ [g] })).feedRecv b

/-- Open VC5 messages of a bench: a complete one keeps its place until its last packet has entered (R103, R250). -/
def State.openMsgs (s : State) (b : Nat) : Nat := (s.bench b).msgs.length

/-- A message that now holds every packet of its range. -/
def OpenMsg.complete (m : OpenMsg) : Bool :=
  !m.entering && (match m.range with | some (_, n) => decide (m.pkts.length = n) | none => false)

/-- Complete messages enter the receive queue. -/
def State.enterMsgs (s : State) (b : Nat) : State :=
  let done := (s.bench b).msgs.filter (·.complete)
  done.foldl (fun s m => s.enterRecv b (orderedPkts m))
    (s.modBench b (fun x => { x with msgs := x.msgs.map (fun m => if m.complete then { m with entering := true } else m) }))

/-- Forget the packets of abandoned messages that wait to enter the receive queue; a message still being
gathered holds all of its packets, a complete one those that have not entered. -/
def State.abandonVc5 (s : State) (b : Nat) (ms : List OpenMsg) : State :=
  let gone := fun (p : Inbound) => ms.any (fun m => m.entering && m.owns p)
  let ps := ms.flatMap (fun m => if m.entering then (s.bench b).recvWait.flatten.filter m.owns else m.pkts)
  (s.modBench b (fun x => { x with
    recvWait := (x.recvWait.map (·.filter (fun p => !gone p))).filter (fun g => !g.isEmpty) })).discardAll b ps

/-- Put a packet with the messages of its channel. -/
def placeVc5 (ms : List OpenMsg) (p : Inbound) (q now : Nat) (mine : OpenMsg → Bool) (fresh : OpenMsg) : List OpenMsg :=
  let put := fun (m : OpenMsg) => { m with pkts := m.pkts ++ [p], lastAt := now }
  let placed := fun (m : OpenMsg) => mine m && m.range.any (inSeqRange q)
  let loose := fun (m : OpenMsg) => mine m && m.range.isNone
  if ms.any placed then modFirst placed put ms
  else if ms.any loose then modFirst loose put ms
  else ms ++ [fresh]

/-- Take a VC5 packet for a bench unit (R100, R101); none: 64 messages are open and it would open
one more (R103). -/
def State.acceptVc5 (s : State) (b : Nat) (p : Inbound) : Option State :=
  let h := p.pkt.h
  let chan := BitVec.ofNat 12 (hChan h)
  let q := hSeq h
  let ms := (s.bench b).msgs
  let drop := fun (s : State) => some (s.discardAll b [p])
  let mine := fun (m : OpenMsg) => decide (m.src = h.src ∧ m.chan = chan)
  let holds := fun (m : OpenMsg) (k : Nat) => m.pkts.any (fun x => decide (hSeq x.pkt.h = k))
  let full := decide (64 ≤ s.openMsgs b)
  if hLast h && (!hCnt h || p.pkt.count.toNat = 0 || decide (65536 ≤ p.pkt.count.toNat)) then drop (s.bump Reg.lastcntBad)
  else if ms.any (fun m => mine m && holds m q) then drop (s.bump Reg.dupDrop)
  else if hLast h then
    let n := p.pkt.count.toNat
    let r : BitVec 16 × Nat := (BitVec.ofNat 16 (q + 65536 + 1 - n), n)
    let unplaced := ms.filter (fun m => mine m && m.range.isNone)
    let loose := unplaced.flatMap (·.pkts)
    let taken := loose.filter (fun x => inSeqRange (hSeq x.pkt.h) r)
    let rest := loose.filter (fun x => !inSeqRange (hSeq x.pkt.h) r)
    let clash := ms.filter (fun m => mine m && m.range.isSome && m.pkts.any (fun x => inSeqRange (hSeq x.pkt.h) r))
    let others := ms.filter (fun m => !(mine m && m.range.isNone) && !clash.contains m)
    let keep := others ++ (match unplaced.head? with
      | some m => if rest.isEmpty then [] else [{ m with pkts := rest }]
      | none => [])
    if !clash.isEmpty then
      -- every message the range overlaps is abandoned, with one count (log entry 15)
      let s := (s.bump Reg.lastcntBad).modBench b (fun x => { x with msgs := keep })
      some (((s.abandonVc5 b clash).discardAll b (taken ++ [p])).releaseOwed b)
    else if full && (taken.isEmpty || !rest.isEmpty) then none
    else
      some ((s.modBench b (fun x => { x with
        msgs := keep ++ [{ src := h.src, chan := chan, range := some r, pkts := taken ++ [p], lastAt := s.now }] })).enterMsgs b)
  else if full && !ms.any (fun m => mine m && (m.range.isNone || m.range.any (inSeqRange q))) then none
  else
    some ((s.modBench b (fun x => { x with
      msgs := placeVc5 x.msgs p q s.now mine
        { src := h.src, chan := chan, range := none, pkts := [p], lastAt := s.now } })).enterMsgs b)

/-- Waiting VC5 packets are taken in order while the first can be; `k` bounds the takes. -/
def retryVc5 (b : Nat) : Nat → State → State
  | 0, s => s
  | k + 1, s =>
    match (s.bench b).vc5Wait with
    | [] => s
    | p :: ps =>
      match s.acceptVc5 b p with
      | none => s
      | some t => retryVc5 b k (t.modBench b (fun x => { x with vc5Wait := ps }))

/-- Retry every waiting VC5 packet. -/
def State.retryVc5All (s : State) (b : Nat) : State := retryVc5 b (s.bench b).vc5Wait.length s

/-- A VC5 packet arrives at a bench unit; a message that it completes may leave credits to return (R103). -/
def State.takeVc5 (s : State) (b : Nat) (p : Inbound) : State :=
  ((s.modBench b (fun x => { x with vc5Wait := x.vc5Wait ++ [p] })).retryVc5All b).releaseOwed b

/-- A VC4 or VC7 packet for a bench unit: on VC4 the successor rule of R99 and the count rule of R103; a VC7
packet enters on arrival (R250). -/
def State.takeOrdered (s : State) (b vc : Nat) (p : Inbound) : State :=
  let h := p.pkt.h
  let chan := BitVec.ofNat 12 (hChan h)
  let mine := fun (c : ChanState) => decide (c.vc = vc ∧ c.src = h.src ∧ c.chan = chan)
  let st := ((s.bench b).chans.find? mine).getD
    { vc := vc, src := h.src, chan := chan, lastSeq := none, count := 0 }
  let seqOk := match st.lastSeq with
    | some q => decide (hSeq h = (q.toNat + 1) % 65536)
    | none => true
  if vc ≠ 4 then s.enterRecv b [p]
  else if !seqOk then (s.bump Reg.seqDrop).discardAll b [p]
  else if hLast h && hCnt h && p.pkt.count.toNat ≠ st.count + 1 then
    (s.bump Reg.lastcntBad).discardAll b [p]
  else
    let st' : ChanState := { st with
      lastSeq := some (BitVec.ofNat 16 (hSeq h)), count := if hLast h then 0 else st.count + 1 }
    (s.modBench b (fun x => { x with chans := x.chans.filter (fun c => !mine c) ++ [st'] })).enterRecv b [p]

/-! ### Own units -/

/-- Rank of a bench path among accesses of one cycle: by bench, then core; a bench's send queue stands behind its cores
(R305). -/
def benchRank (b c : Nat) : Nat := 1024 + 16 * b + c
/-- Rank of a VC6 request: by port, or by its bench path (R305). -/
def reqRank (i : Inbound) : Nat := match i.lp, i.core with
  | some l, _ => 1 + l
  | none, some (b, c) => benchRank b c
  | none, none => benchRank 0 0

/-- The context of a bench unit that receives: OPEN or CLOSING, never bench 99's (R40). -/
def State.receivingCtx (s : State) (b : Nat) : Option Nat := if b = 99 then none else s.ownerOf b

/-- Deliver a complete packet to own unit `u` (R25, R40, R48, R51). The second component is a code to
answer the source with, for a VC2 or VC6 packet the unit refuses. `g` is its link credit in
granules; `stored` names the buffered packet of which this is the local copy (R92). -/
def State.deliver (s : State) (p : Packet) (u : Nat) (lp : Option Nat) (core : Option (Nat × Nat)) (g : Nat)
    (stored : Option Nat := none) : State × Option Nat :=
  let vc := hVc p.h
  let inb : Inbound := { pkt := p, lp := lp, core := core, units := g, arrivedAt := s.clk.ftime, stored := stored }
  let drop := fun (s : State) => (s.readCopy stored).takeCredit lp vc g
  match checkCrc p with
  | .stomped => (drop (s.bumpAt lp Reg.crcStomped Reg.intCrcBad), none)
  | .bad => (drop (s.bumpAt lp Reg.crcE2eBad Reg.intCrcBad), none)
  | .good =>
    if !unitAccepts u vc then
      (drop (s.bumpAt lp Reg.unitBad Reg.intUnitBad), if vc = 2 ∨ vc = 6 then some 0x0B else none)
    else
      let s' := if hPoison p.h then s.bumpAt lp Reg.poisonRx Reg.intPoisonRx else s
      match benchOfUnit u with
      | some b =>
        match s.receivingCtx b with
        | none => (drop (s.bumpAt lp Reg.unitBad Reg.intUnitBad), none)
        | some c =>
          if (s.ctx c).fenced || s.fault.oos then (drop (s.bump Reg.fenceDrop), none)
          else if (sget {} s.rpl c).st = .replaying then (drop (s.bump (Reg.liveDrop c)), none)
          else if vc = 5 then ((s'.wakeBench b).takeVc5 b inb, none)
          else ((s'.wakeBench b).takeOrdered b vc inb, none)
      | none =>
        if u = unitCtl then
          (if hPoison p.h then drop s' else s'.modSw (fun w => { w with ctlIn := w.ctlIn ++ [inb] }), none)
        else if u = unitColl then
          ({ s' with coll := { s'.coll with inq := s'.coll.inq ++ [inb] } }, none)
        else
          let s' := s'.bump Reg.reqRx
          let r : Reach := { at' := s'.now, rank := reqRank inb, seq := s'.pool.nextSeq }
          ({ s' with pool := { s'.pool with inq := s'.pool.inq ++ [{ inb with reach := r }], nextSeq := s'.pool.nextSeq + 1 } }, none)

/-! ### Writing packets from inside the device (R27, R69, R92, R523) -/

/-- Who holds a write: each result stage, the pool's answers and each bench's sends are writers of their own,
and each keeps its order (R27). STATUS, refusal and time answers are no writer that R27 names: they share the queue of
the pool's responses, so a held one of these holds them back too (DESIGN CHOICE, log entry 17). -/
def sameWriter : Writer → Writer → Bool
  | .bench a, .bench b => a == b
  | .answer, .answer => true
  | .result _ _ a, .result _ _ b => a == b
  | _, _ => false

/-- Enter a routed packet into the buffer if there is room (R69); none when its writer is held. -/
def State.takeIn (s : State) (p : Packet) (lps : List Nat) (cells : Bool) (own : Bool := false) : Option State :=
  let g := itemGranules (.packet p)
  match s.internalCharge g lps (hVc p.h) with
  | none => none
  | some c =>
    let x : Stored := { id := 0, item := .packet p, granules := g, charge := c, cellsOnly := cells, fwd := false }
    some (s.store x lps (hVc p.h) own)

/-- The core mark of a packet that a bench wrote. -/
def Writer.core (w : Writer) : Option (Nat × Nat) := match w with | .bench b => some (b, 8) | _ => none

/-- Hand an own unit the copy of a packet stored as `id` by the device itself, read from the buffer (R65, R92): what the
read meets is a free value (log entry 17). -/
def State.deliverCopy (s : State) (w : Writer) (p : Packet) (u id : Nat) : State × Option Nat :=
  let r := s.free
  match r.2.readLocal (pickObs r.1 [.clean, .dataCe, .dataUe (r.1.toNat / 4)]) id with
  | (t, none) => (t, none)
  | (t, some bad) => t.deliver (if bad then { p with h := poisonHdr p.h } else p) u none w.core 0 (some id)

/-- Admit a routed packet to the buffer and hand its local copy over; none: it must wait. -/
def State.admitInternal (s : State) (w : Writer) (p : Packet) (lps : List Nat) (loc : Option Nat) (cells : Bool) :
    Option (State × Option Nat) :=
  (s.takeIn p lps cells loc.isSome).map (fun t =>
    let t' := t.countEv 241 0xC3 (if hMc p.h then lps.length else 0)
    match loc with
    | some u => t'.deliverCopy w p u s.sw.nextId
    | none => (t', none))

/-- TERM_ROOM of a VC in units (R85). -/
def termRoom (vc : Nat) : Nat := [16896, 4096, 32768, 16896, 16896, 16896, 16896, 16896].getD vc 0

/-- The ingress queue of own unit `u` can take the packet: a bench's receive queue holds 256 units and 64 open
VC5 messages, and the pool unit's TERM_ROOM_VC6 (R85, R103, R249, R250, R297). -/
def State.ownRoom (s : State) (p : Packet) (u : Nat) : Bool :=
  match benchOfUnit u with
  | none => decide (u ≠ unitPool) || !unitAccepts u (hVc p.h) ||
      decide ((s.pool.inq.map (fun i => pktUnits i.pkt)).sum + pktUnits p ≤ termRoom 6)
  | some b =>
    let x := s.bench b
    if (s.receivingCtx b).isNone || !unitAccepts u (hVc p.h) then true
    else if hVc p.h = 5 then x.vc5Wait.isEmpty && (s.acceptVc5 b { pkt := p, lp := none }).isSome
    else x.recvWait.isEmpty && decide (x.recvUnits + pktUnits p ≤ 256)

/-- Try to send a packet made inside the device: to an own unit without the buffer, or routed and
admitted. `none`: the writer is held. The code answers its source. -/
def State.tryInternal (s : State) (w : Writer) (p : Packet) : Option (State × Option Nat) :=
  if !hMc p.h && s.isOwn p.h.dest then
    (if s.ownRoom p (coordUnit p.h.dest) then some (s.deliver p (coordUnit p.h.dest) none w.core 0) else none)
  else
    let r := s.routePkt (routeReqOf p.h) none
    match r.1 with
    | .drop code => some (r.2, code)
    | .go lps loc cells => r.2.admitInternal w p lps loc cells

/-- The copies of one result to several destinations: every packet is routed, and all of them leave from one
stored copy with one charge (R136, PLACE 3). none: the writer is held. -/
def State.tryCopies (s : State) (w : Writer) (ps : List Packet) : Option State :=
  let plan := ps.foldl (fun (a : State × List (Packet × List Nat × Option Nat × Bool)) p =>
    if !hMc p.h && a.1.isOwn p.h.dest then (a.1, a.2 ++ [(p, [], some (coordUnit p.h.dest), false)])
    else
      let r := a.1.routePkt (routeReqOf p.h) none
      match r.1 with
      | .drop _ => (r.2, a.2)
      | .go lps loc cells => (r.2, a.2 ++ [(p, lps, loc, cells)])) (s, [])
  let s := plan.1
  let out := plan.2.filter (fun x => !x.2.1.isEmpty)
  let g := out.foldl (fun a x => max a (itemGranules (.packet x.1))) 0
  match s.internalCharge g (out.flatMap (·.2.1)) ((out.map (fun x => hVc x.1.h)).headD 0) with
  | none => none
  | some c =>
    let gid := s.sw.nextId
    some (plan.2.foldl (fun s x =>
      let own := x.2.2.1
      let s' := if x.2.1.isEmpty then s
        else s.store { id := 0, item := .packet x.1, granules := g, charge := c, cellsOnly := x.2.2.2, fwd := false, share := some gid }
          x.2.1 (hVc x.1.h) own.isSome
      match own with
      | some u => if x.2.1.isEmpty then (s'.deliver x.1 u none w.core 0).1 else (s'.deliverCopy w x.1 u s.sw.nextId).1
      | none => s') s)

/-- Try to write one packet, or the packets of one copy. -/
def State.tryGroup (s : State) (w : Writer) (p : Packet) (more : List Packet) : Option (State × Option Nat) :=
  if more.isEmpty then s.tryInternal w p else (s.tryCopies w (p :: more)).map (fun t => (t, none))

/-- Send or hold a packet of an internal writer. A refused VC2 or VC6 request's answer is returned
as the code. -/
def State.writeOrHold (s : State) (w : Writer) (p : Packet) (more : List Packet := []) : State × Option Nat :=
  let hold := fun (s : State) => s.modSw (fun x => { x with held := x.held ++ [{ writer := w, pkt := p, more := more }] })
  if s.sw.held.any (fun h => sameWriter h.writer w) then (hold s, none)
  else match s.tryGroup w p more with
    | some r => r
    | none => (hold s, none)

/-- Answer the source of a refused request (R40, R90): on VC3 or VC7, so no answer follows it. -/
def State.answerRefusal (s : State) (p : Packet) (code : Option Nat) : State :=
  match code with
  | none => s
  | some c =>
    match s.refusalAnswer p c with
    | some a => (s.writeOrHold .answer a).1
    | none => s

/-- Send an answer, result, status, response or PARTIAL; a PARTIAL that is refused is answered (R523). -/
def State.send (s : State) (w : Writer) (p : Packet) : State :=
  let r := s.writeOrHold w p
  r.1.answerRefusal p r.2

/-- Send the packets of one copy (R136). -/
def State.sendCopies (s : State) (w : Writer) (ps : List Packet) : State :=
  match ps with
  | [] => s
  | [p] => s.send w p
  | p :: more => (s.writeOrHold w p more).1

/-- Deliver an arriving packet and answer its source when the unit refuses it. -/
def State.deliverAnswer (s : State) (p : Packet) (lp : Option Nat) (g : Nat) : State :=
  let (s, code) := s.deliver p (coordUnit p.h.dest) lp none g
  s.answerRefusal p code

/-- Send a request made inside the device (a bench's SEND), answering a refusal (R249, R523). -/
def State.sendRequest (s : State) (w : Writer) (p : Packet) : Option State :=
  match s.tryInternal w p with
  | none => none
  | some (s, code) => some (s.answerRefusal p code)

end Sys2Proof.Machine
end

