-- ==== Sys2Proof/Machine/Link.lean ====
section
/-! DEFINITION. The tagged stream and link-level retry on the sending side (R353-R359). -/

namespace Sys2Proof.Machine

/-- Item kinds of R354. -/
def kindPacket : Nat := 0
def kindCell : Nat := 1
def kindControl : Nat := 2
def kindFill : Nat := 3

/-- A tag (R354). -/
def mkTag (kind vc : Nat) (term : Bool) (len lseq : Nat) : W32 :=
  w32 (pack [(0, kind), (2, vc), (5, b2n term), (6, len), (20, lseq)])

/-- Tag, item and padding to a 4-byte boundary. -/
def tagged (tag : W32) (bs : List Byte) : List Byte :=
  leBytes 4 tag.toNat ++ bs ++ List.replicate ((4 - bs.length % 4) % 4) 0

/-- The logical port's share of the 320 KiB replay buffer (R357). -/
def State.replayRoom (s : State) (lp : Nat) : Nat := 327680 / s.lportsOf (lp / 4)

def replayBytes (r : List Replayable) : Nat := r.foldl (fun a x => a + x.bytes.length) 0

/-- A new VC0-3 item of `n` bytes may be sent: it fits, and fewer than 2,048 are outstanding. -/
def State.retryRoom (s : State) (lp n : Nat) : Bool :=
  let r := (s.port lp).replay
  decide (r.length < 2048) && decide (replayBytes r + 4 + (n + 3) / 4 * 4 ≤ s.replayRoom lp)

/-- Put one packet or cell on the tagged stream of a port (R354, R357). -/
def State.sendItem (s : State) (lp kind vc : Nat) (term : Bool) (bs : List Byte) : State :=
  if vc ≤ 3 then
    s.modPort lp (fun p =>
      let b := tagged (mkTag kind vc term bs.length p.txLseq.toNat) bs
      { p with
        txLseq := p.txLseq + 1, replay := p.replay ++ [{ lseq := p.txLseq, bytes := b }],
        ackAt := if p.replay.isEmpty then s.now else p.ackAt,
        txQ := p.txQ ++ [(some p.txLseq, b)], lastSendAt := s.now, idleSince := s.now })
  else
    s.modPort lp (fun p => { p with
      txQ := p.txQ ++ [(none, tagged (mkTag kind vc term bs.length 0) bs)],
      lastSendAt := s.now, idleSince := s.now })

/-- Put a control item on the stream: it carries no LSEQ (R356), and ends an idle time (R375). -/
def State.sendControl (s : State) (lp : Nat) (ws : List W32) : State :=
  let bs := ws.flatMap (fun w => leBytes 4 w.toNat)
  (s.modPort lp (fun p => { p with
    txQ := p.txQ ++ [(none, tagged (mkTag kindControl 0 false bs.length 0) bs)], idleSince := s.now })).emit (.control lp ws)

/-- Resend every outstanding item in LSEQ order, ahead of new items (R359). -/
def State.resend (s : State) (lp : Nat) : State :=
  s.modPort lp (fun p => { p with
    txQ := p.replay.map (fun r => (some r.lseq, r.bytes)) ++ p.txQ.filter (·.1.isNone), idleSince := s.now })

/-- Fill the stream from waiting items up to a block body (R353); `k` bounds the items moved. -/
def fillStream : Nat → Port → Port
  | 0, p => p
  | k + 1, p =>
    if 256 ≤ p.txStream.length then p
    else match p.txQ with
      | [] => p
      | (_, b) :: q => fillStream k { p with
          txTags := p.txTags ++ [p.txStream.length], txStream := p.txStream ++ b, txQ := q }

/-- Complete a short body with a fill item (R354). -/
def padStream (p : Port) : Port :=
  let n := 256 - p.txStream.length
  if p.txStream.length < 256 then
    { p with
      txTags := p.txTags ++ [p.txStream.length],
      txStream := p.txStream ++ leBytes 4 (mkTag kindFill 0 false (n - 4) 0).toNat ++
        List.replicate (n - 4) 0 }
  else p

/-- A 264-byte link block (R352). -/
def linkBlock (first : Option Nat) (bseq : Nat) (idle : Bool) (body : List Byte) : List Byte :=
  let hd : List Byte := [byte (pack [(0, first.getD 0), (6, b2n first.isNone), (7, b2n idle)]), 0] ++
    leBytes 2 bseq
  let b := hd ++ body
  b ++ leBytes 4 (crc32c b).toNat

/-- An idle block: the body is all 0 and BSEQ is 0. -/
def idleBlock : List Byte := linkBlock none 0 true (List.replicate 256 0)

/-- Cut the next block from the stream, when anything is ready to send. -/
def cutBlock (p : Port) : Port :=
  let p := fillStream 64 p
  if p.txStream.isEmpty then p
  else
    let p := padStream p
    let first := (p.txTags.filter (· < 256)).head?
    { p with
      txBlocks := p.txBlocks ++
        [(p.txBlk, linkBlock (first.map (· / 4)) (p.txBlk % 65536) false (p.txStream.take 256))],
      txBlk := p.txBlk + 1, txStream := p.txStream.drop 256,
      txTags := (p.txTags.filter (256 ≤ ·)).map (· - 256) }

/-- The transmit direction can carry items now: the port has its clocks, is ACTIVE, not retraining, and awake (R516). -/
def State.canSend (s : State) (lp : Nat) : Bool :=
  s.clocked && s.portActive lp && !(s.port lp).retraining && decide ((s.port lp).tx = .active)

/-- CREDIT words of every account whose VALUE moved, or of every granted account (R362). -/
def State.creditWords (s : State) (lp : Nat) (all : Bool) : List W32 :=
  (List.range 16).filterMap (fun i =>
    let vc := i % 8
    let term := decide (8 ≤ i)
    let a := s.rxAcct lp vc term
    if a.granted && (all || a.sent ≠ a.returned)
    then some (w32 (pack [(0, vc), (3, b2n term), (16, a.returned % 65536)])) else none)

/-- Record every VALUE as sent. -/
def State.creditsSent (s : State) (lp : Nat) : State :=
  (List.range 16).foldl (fun s i =>
    s.modRx lp (i % 8) (decide (8 ≤ i)) (fun a => { a with sent := a.returned })) s

end Sys2Proof.Machine
end

