-- ==== Sys2Proof/Machine/Egress.lean ====
section
/-! DEFINITION. Egress: VC arbitration, sending the head of a queue, segmentation, discards at egress
and buffer faults (R47, R50, R59, R65, R71, R77-R84), and the commands of this family. -/

namespace Sys2Proof.Machine

/-! ### Heads and eligibility -/

/-- The item at the front of an egress queue. -/
def State.frontOf (s : State) (lp vc : Nat) : Option Stored :=
  match s.queue lp vc with
  | [] => none
  | id :: _ => s.stored? id

/-- Stored longer than SC_LIFETIME (R81). -/
def State.isStale (s : State) (x : Stored) : Bool :=
  decide (x.storedAt + s.regN Reg.scLifetime * ms < s.now)

/-- The packet leaves this port as cells (R59). -/
def State.segments (s : State) (lp : Nat) (x : Stored) : Bool :=
  match x.item with
  | .cell _ => false
  | .packet p => decide (hVc p.h = 1) || (s.port lp).fadami || (s.port lp).partnerCellsOnly || x.cellsOnly

/-! ### Cells of one message are not interleaved (R60) -/

def itemSrc : Item → W32
  | .packet p => p.h.src
  | .cell c => c.src

/-- What tells apart the messages of one SRC and VC that leave a port as cells: a message in transit its
ingress port, a packet segmented here its identifier; none: the item leaves as a packet. -/
def State.cellMsg (s : State) (lp : Nat) (x : Stored) : Option Nat :=
  match x.item with
  | .cell _ => some (x.inLp.getD 512)
  | .packet _ => if s.segments lp x then some (1024 + x.id) else none

/-- A message of the item's SRC and VC whose cells are part-way out of the port is (`same`) its own, or another's. -/
def State.cellsOpen (s : State) (lp vc : Nat) (x : Stored) (same : Bool) : Bool :=
  (s.cellMsg lp x).any (fun m => s.sw.cellOpen.any (fun o =>
    decide (o.lp = lp ∧ o.vc = vc ∧ o.src = itemSrc x.item) && decide (o.msg = m) == same))

/-- The first item that may leave: cells wait while another message of their SRC and VC is part-way out, and
what follows them of that SRC (`held`) waits behind them, except the cells of the open message (R60, R98). -/
def State.headFrom (s : State) (lp vc : Nat) : List W32 → List Nat → Option Stored
  | _, [] => none
  | held, id :: q =>
    match s.stored? id with
    | none => s.headFrom lp vc held q
    | some x =>
      if s.cellsOpen lp vc x false then s.headFrom lp vc (itemSrc x.item :: held) q
      else if held.contains (itemSrc x.item) && !s.cellsOpen lp vc x true then s.headFrom lp vc held q
      else some x

/-- The item an egress queue would send next; a stopped queue sends nothing (R77). -/
def State.headOf (s : State) (lp vc : Nat) : Option Stored :=
  if s.sw.stopped.contains (qkey lp vc) then none else s.headFrom lp vc [] (s.queue lp vc)

/-- Cells of an item have left the port, its last or not (R60); a discarded item leaves no message open. -/
def State.noteCells (s : State) (lp vc : Nat) (x : Stored) (last : Bool) : State :=
  match s.cellMsg lp x with
  | none => s
  | some m =>
    let o : CellOpen := { lp := lp, vc := vc, src := itemSrc x.item, msg := m }
    let rest := s.sw.cellOpen.filter (fun y => !decide (y = o))
    s.modSw (fun w => { w with cellOpen := if last then rest else rest ++ [o] })

/-- The account an item uses on a port (R70). -/
def State.itemAcct (s : State) (lp : Nat) (i : Item) : Bool :=
  s.acctFor lp (itemDest i).1 (itemDest i).2

/-- Cells that the replay buffer of a port still holds, each with its tag (R357). -/
def State.retryCells (s : State) (lp : Nat) : Nat :=
  let r := (s.port lp).replay
  min (2048 - r.length) ((s.replayRoom lp - replayBytes r) / 68)

/-- Cells of a segmented head that its account, and on VC0-3 the replay buffer, let leave now (R71, R357). -/
def State.cellsNow (s : State) (lp vc : Nat) (x : Stored) : Nat :=
  match x.item with
  | .cell _ => 1
  | .packet p =>
    let n := min (cellCount (hLen p.h) (hCnt p.h) - sget 0 x.cellsSent lp)
      (txAvail (s.txAcct lp vc (s.itemAcct lp x.item)))
    if vc ≤ 3 then min n (s.retryCells lp) else n

/-- Bytes the head would put on the link. -/
def State.headBytes (s : State) (lp vc : Nat) (x : Stored) : Nat :=
  if s.segments lp x then 64 * s.cellsNow lp vc x else itemSize x.item

/-- The head can start now: whole, not stale, credits held and retry room found (R71, R82, R357). -/
def State.headReady (s : State) (lp vc : Nat) (x : Stored) : Bool :=
  !x.arriving && !s.isStale x &&
  s.txHolds lp vc (s.itemAcct lp x.item) (if s.segments lp x then 1 else x.granules) &&
  (decide (3 < vc) || s.retryRoom lp (if s.segments lp x then 64 else itemSize x.item))

def State.eligible (s : State) (lp vc : Nat) : Bool :=
  match s.headOf lp vc with
  | some x => s.headReady lp vc x
  | none => false

/-! ### Cap balances of VC0 and VC1 (R83), in 1/1000 byte -/

/-- Payload rate in bytes per ns: 50 a lane, 25 in Fadami mode. -/
def State.payloadRate (s : State) (lp : Nat) : Nat :=
  s.laneCount lp * (if (s.port lp).fadami then 25 else 50)

def State.capReg (s : State) (lp v : Nat) : W64 :=
  s.reg (if v = 0 then Reg.capVc0 (lp / 4) (lp % 4) else Reg.capVc1 (lp / 4) (lp % 4))

/-- DEPTH × 256 bytes. -/
def State.capDepth (s : State) (lp v : Nat) : Int := (fld (s.capReg lp v) 16 10 * 256 * 1000 : Nat)

/-- The balance now: credited at CAP × 0.1 % of the payload rate, up to its depth. -/
def State.capNow (s : State) (lp v : Nat) : Int :=
  let gain := fld (s.capReg lp v) 0 10 * s.payloadRate lp * (s.now - sget 0 s.sw.capAt (lp * 2 + v))
  min (s.capDepth lp v) (sget 0 s.sw.capBal (lp * 2 + v) + (gain : Nat))

/-- Record a balance. -/
def State.setCap (s : State) (lp v : Nat) (x : Int) : State :=
  s.modSw (fun w => { w with
    capBal := sset 0 w.capBal (lp * 2 + v) x, capAt := sset 0 w.capAt (lp * 2 + v) s.now })

/-- Debit what a VC0 or VC1 item takes; the balance never falls below −DEPTH. -/
def State.debitCap (s : State) (lp v bytes : Nat) : State :=
  s.setCap lp v (max (-(s.capDepth lp v)) (s.capNow lp v - (bytes * 1000 : Nat)))

/-! ### Weighted deficit round robin over VC2 to VC7 (R84) -/

/-- The weight of a VC (R87). -/
def State.weight (s : State) (lp vc : Nat) : Nat :=
  if vc < 6 then fld (s.reg (Reg.vcWeightA (lp / 4) (lp % 4))) ((vc - 2) * 8) 8
  else fld (s.reg (Reg.vcWeightB (lp / 4) (lp % 4))) ((vc - 6) * 8) 8

def State.deficit (s : State) (lp vc : Nat) : Int := sget 0 s.sw.deficit (qkey lp vc)
def State.setDeficit (s : State) (lp vc : Nat) (d : Int) : State :=
  s.modSw (fun w => { w with deficit := sset 0 w.deficit (qkey lp vc) d })

/-- The round-robin position of a port: the VC visited, and whether it is in service. -/
def State.rrPos (s : State) (lp : Nat) : Nat × Bool :=
  let r := sget 0 s.sw.rr lp
  (if r % 8 < 2 then 2 else r % 8, decide (8 ≤ r))
def State.setRr (s : State) (lp v : Nat) (inServ : Bool) : State :=
  s.modSw (fun w => { w with rr := sset 0 w.rr lp (v + 8 * b2n inServ) })

def nextVc (v : Nat) : Nat := if v = 7 then 2 else v + 1

/-- Visit VCs until one's head fits its deficit (R84); `k` bounds the visits. A queue of which every item is kept back by
another message's cells (R60) has no head, and its deficit becomes 0 as an empty queue's does (DESIGN CHOICE, log entry
55). -/
def drrPick (lp : Nat) : Nat → State → Option Nat × State
  | 0, s => (none, s)
  | k + 1, s =>
    let (v, inServ) := s.rrPos lp
    match s.headOf lp v with
    | none => drrPick lp k ((s.setDeficit lp v 0).setRr lp (nextVc v) false)
    | some x =>
      if !s.headReady lp v x || s.weight lp v = 0 then drrPick lp k (s.setRr lp (nextVc v) false)
      else
        let s := if inServ then s
          else (s.setDeficit lp v (s.deficit lp v + (s.weight lp v * 256 : Nat))).setRr lp v true
        if (s.headBytes lp v x : Int) ≤ s.deficit lp v
        then (some v, s.setDeficit lp v (s.deficit lp v - (s.headBytes lp v x : Nat)))
        else drrPick lp k (s.setRr lp (nextVc v) false)

/-- The weight-0 VC served next, round robin (key 512 + lp). -/
def State.pickZero (s : State) (lp : Nat) : Option Nat × State :=
  let last := sget 0 s.sw.rr (512 + lp)
  let order := (List.range 6).map (fun i => 2 + (last + i) % 6)
  match order.find? (fun v => s.eligible lp v && s.weight lp v == 0) with
  | some v => (some v, s.modSw (fun w => { w with rr := sset 0 w.rr (512 + lp) (v - 1) }))
  | none => (none, s)

/-- The VC a port serves at a packet boundary (R82-R84). -/
def State.arbitrate (s : State) (lp : Nat) : Option Nat × State :=
  let e := s.eligible lp
  if e 0 && 0 ≤ s.capNow lp 0 then (some 0, s)
  else if e 1 && 0 ≤ s.capNow lp 1 then (some 1, s)
  else if [2, 3, 4, 5, 6, 7].any (fun v => e v && s.weight lp v != 0) then drrPick lp 512 s
  else
    match s.pickZero lp with
    | (some v, s) => (some v, s)
    | (none, s) => if e 0 then (some 0, s) else if e 1 then (some 1, s) else (none, s)

/-! ### Sending -/

/-- Telemetry of what a port sends (R112, R486, R491). -/
def State.countTx (s : State) (lp vc n bytes : Nat) : State :=
  let p := lp / 4
  let k := lp % 4 * 8 + vc
  let s := (s.bump64 (Reg.txPkts p k) n).bump64 (Reg.txBytes p k) bytes
  let s := (s.countEv p 0x03 n (some vc) (some (lp % 4))).countEv p 0x04 bytes (some vc) (some (lp % 4))
  let s := s.countEv 241 0xC1 bytes
  { s with perf := { s.perf with tx := smod 0 s.perf.tx lp (· + bytes) } }

/-- Send an item on a port's stream with its credits taken (R71). -/
def State.sendOn (s : State) (lp vc : Nat) (term : Bool) (kind gran : Nat) (bs : List Byte) (e : Emit) : State :=
  ((s.txCharge lp vc term gran).sendItem lp kind vc term bs).emit e

/-- The form in which a stored packet leaves: HOP one lower when it is forwarded (R47). -/
def outPacket (x : Stored) (p : Packet) : Packet :=
  if x.fwd then { p with h := hopHdr p.h (hHop p.h - 1) } else p

/-- The copy of a stored packet that leaves port `lp`: poisoned where a payload fault was found before its header left,
and stomped where one was found after it (R48, R50, R65). -/
def copyOf (x : Stored) (lp : Nat) (p : Packet) : Packet :=
  let q := outPacket x p
  if x.stomped.contains lp then
    let q := if x.poisoned.contains lp then { q with h := poisonHdr q.h } else q
    { q with crc := stompedCrc q }
  else if x.bad.isEmpty then q
  else { q with h := poisonHdr q.h }

/-- The form in which a stored cell leaves. A cell has no trailer of its own to stomp: it is poisoned (R58, R65). -/
def cellCopy (x : Stored) (c : GrainCell) : GrainCell :=
  let c := if x.bad.isEmpty then c else poisonCell c
  if x.fwd then hopCell c (cHop c - 1) else c

/-- Remove an item from a queue and drop its reference. -/
def State.dequeue (s : State) (lp vc id : Nat) : State :=
  (s.setQueue lp vc (dropFirst (· == id) (s.queue lp vc))).deref id

/-- A time packet that this device's control unit made. -/
def State.ownTime (s : State) (x : Stored) (p : Packet) : Bool :=
  !x.fwd && decide (hVc p.h = 0 ∧ hLen p.h = 48 ∧ p.h.src = s.ownUnit unitCtl)

/-- A time packet with fabric time `t` in T1, of a request, or in T3, of a response (R281). -/
def stampTime (t : W64) (p : Packet) : Packet :=
  let i := if u8 p.payload 0 = 1 then 8 else 24
  let p := { p with payload := p.payload.take i ++ leBytes 8 t.toNat ++ p.payload.drop (i + 8) }
  { p with crc := packetCrc p }

/-- A time packet's own stamp is taken as its first byte leaves (R281). -/
def State.stampOut (s : State) (lp : Nat) (x : Stored) : Stored × State :=
  match x.item with
  | .cell _ => (x, s)
  | .packet p =>
    if !s.ownTime x p || sget 0 x.cellsSent lp ≠ 0 then (x, s)
    else
      let y := { x with item := .packet (stampTime s.clk.ftime p) }
      let s := s.modStored x.id (fun _ => y)
      (y, if u8 p.payload 0 = 1 then { s with clk := { s.clk with
          reqOut := s.clk.reqOut.map (fun r => if r.1.toNat = u16 p.payload 2 then (r.1, s.clk.ftime, s.now) else r) } }
        else s)

/-- Send the item a queue sends next (R47, R50, R59, R71). -/
def State.sendHead (s : State) (lp vc : Nat) (x : Stored) : State :=
  let (x, s) := s.stampOut lp x
  let term := s.itemAcct lp x.item
  match x.item with
  | .cell c =>
    let k := cellCopy x c
    let s := (s.sendOn lp vc term kindCell 1 (cellBytes k) (.cell lp k)).countTx lp vc 1 64
    (s.noteCells lp vc x (cLast c)).dequeue lp vc x.id
  | .packet p =>
    let q := copyOf x lp p
    if s.segments lp x then
      let sent := sget 0 x.cellsSent lp
      let n := s.cellsNow lp vc x
      let last := decide (sent + n = cellCount (hLen p.h) (hCnt p.h))
      let cs := ((segment q).drop sent).take n
      let s := (s.noteCells lp vc x last)
      let s := cs.foldl (fun s c => (s.txCharge lp vc term 1).sendItem lp kindCell vc term (cellBytes c)) s
      let s := (s.emit (.cells lp cs)).countTx lp vc cs.length (64 * cs.length)
      let s := if sent = 0 then s.bump (Reg.segOut (lp / 4)) else s
      if last then s.dequeue lp vc x.id
      else s.modStored x.id (fun y => { y with cellsSent := sset 0 y.cellsSent lp (sent + n) })
    else
      ((s.sendOn lp vc term kindPacket x.granules (packetBytes q)
        (if x.stomped.contains lp then .ended lp q else .packet lp q)).countTx lp vc 1 (packetSize q)).dequeue lp vc x.id

/-- A packet leaves open on this port by cut-through (R75). -/
def State.ctOpenOn (s : State) (lp : Nat) : Option Stored :=
  s.sw.stored.find? (fun x => x.arriving && x.headOut.contains lp)

/-! ### Commands -/

/-- EGRESS_SELECT (R82). -/
def execEgressSelect (lp : Fin 512) (obs : BufObs) (s : State) : Host.Outcome State Fault Refusal :=
  if !s.canSend lp || (s.ctOpenOn lp).isSome then .next s
  else
    match s.arbitrate lp with
    | (none, _) => .next s
    | (some v, s1) =>
      match s1.headOf lp v with
      | none => .next s1
      | some x =>
        let s1 := if v ≤ 1 then s1.debitCap lp v (s1.headBytes lp v x) else s1
        if obs = .ptrUe then .next (s1.ptrFault lp v)
        else
          match s1.readObs obs x [lp] with
          | (s2, true) => .next s2
          | (s2, false) =>
            match s2.stored? x.id with
            | some y => .next (s2.sendHead lp v y)
            | none => .next s2

/-- STALE_DROP (R81): the head of a queue past its lifetime is discarded and counted. -/
def execStaleDrop (lp : Fin 512) (vc : Fin 8) (s : State) : Host.Outcome State Fault Refusal :=
  if !s.powered then .next s else
  match s.frontOf lp vc with
  | none => .next s
  | some x =>
    if !x.arriving && s.isStale x then
      .next ((((s.bump Reg.staleDrop).noteCells lp vc x true).discardCopy lp vc x.id).modPort lp (fun p => { p with lastSendAt := s.now }))
    else .next s

/-- A cut-through packet ends as `p` (R54, R75): on its egress, stomped when it is short or a word of it was found
in error; a copy whose port has left the active state was discarded before (R80). -/
def State.ctFinish (s : State) (x : Stored) (short : Bool) (p : Packet) : State :=
  match x.headOut with
  | lp :: _ =>
    let vc := hVc p.h
    let stomp := short || x.stomped.contains lp
    let q := outPacket x p
    let q := if stomp then { q with crc := stompedCrc q } else q
    let s := (s.sendItem lp kindPacket vc (s.itemAcct lp (.packet p)) (packetBytes q)).emit
      (if stomp then .ended lp q else .packet lp q)
    let s := s.countTx lp vc 1 (packetSize q)
    let s := s.modStored x.id (fun y => { y with arriving := false, item := .packet p })
    s.dequeue lp vc x.id
  | [] => s.freeStored x.id

/-- Complete a cut-through packet that cannot go on, of which `got` had arrived after the header: padded, stomped, and
counted as one whose length differs (R54, R75). -/
def State.ctCut (s : State) (lp : Nat) (a : Arrival) (x : Stored) (got : List Byte) : State :=
  ((s.bump Reg.ctAbort).bump (Reg.lenMismatch (lp / 4))).ctFinish x true (packetOf a.h got)

/-- The stored packet that an arrival is cut through as, while it is still incomplete. -/
def State.ctOf (s : State) (a : Arrival) : Option Stored := a.ct.bind (fun id => s.stored? id)

/-- CT_ABORT (R75): a cut-through packet still incomplete after 10 µs is completed with padding and a
stomped trailer; `got` holds the bytes after the header that had arrived. The 10 µs are counted from the
moment the header was complete (DESIGN CHOICE, log entry 56). -/
def execCtAbort (lp : Fin 512) (got : List Byte) (s : State) : Host.Outcome State Fault Refusal :=
  if !s.powered then .next s else
  match (s.sw.arrivals.find? (fun e => e.1 == lp.val)).map (·.2) with
  | none => .next s
  | some a =>
    match s.ctOf a with
    | none => .next s
    | some x =>
      if s.now < a.beganAt + 10 * us then .next s
      -- the arrival keeps the freed identifier, so what still arrives of it is discarded
      else .next (s.ctCut lp a x got)

/-- BUFFER_AUDIT (R78): units found in no set or in more than one are quarantined. -/
def execBufferAudit (bad : Nat) (s : State) : Host.Outcome State Fault Refusal :=
  if !s.powered then .next s else
  if !bit (s.reg Reg.scCtrl) 4 || bad = 0 then .next s
  else
    let s := (s.bumpBy Reg.auditMismatch bad).bufFault 0x06
    .next (s.quarantine bad)

/-- Send a held write if it now fits. -/
def State.retryHeld (s : State) (h : HeldWrite) : Option State :=
  (s.tryGroup h.writer h.pkt h.more).map (fun r => r.1.answerRefusal h.pkt r.2)

/-- INTERNAL_WRITER_RESUME (R27, R69): the first held writer whose packet fits writes it; it then
goes behind the others (round robin). -/
def execInternalWriterResume (s : State) : Host.Outcome State Fault Refusal :=
  if !s.powered then .next s else
  let firsts := s.sw.held.filter (fun h =>
    match s.sw.held.find? (fun g => sameWriter g.writer h.writer) with
    | some g => decide (g = h)
    | none => false)
  match firsts.find? (fun h => (s.retryHeld h).isSome) with
  | none => .next s
  | some h =>
    let rest := dropFirst (fun g => decide (g = h)) s.sw.held
    let s := s.modSw (fun w => { w with
      held := rest.filter (fun g => !sameWriter g.writer h.writer) ++
        rest.filter (fun g => sameWriter g.writer h.writer) })
    .next ((s.retryHeld h).getD s)

end Sys2Proof.Machine
end

