-- ==== Sys2Proof/Machine/Ingress.lean ====
section
/-! DEFINITION. Ingress: header checks, cut-through, the packet end, grain cells and reassembly
(R52-R54, R60-R62, R67, R74, R101), and the commands of this family. -/

namespace Sys2Proof.Machine

/-! ### Checks (R52) -/

/-- The header facts the ingress checks use. -/
structure CheckReq where
  isCell : Bool
  dest : W32
  src : W32
  vc : Nat
  mc : Bool
  len : Nat
  cnt : Bool
  last : Bool
  hop : Nat

def checkReqOf (h : Hdr) : CheckReq :=
  { isCell := false, dest := h.dest, src := h.src, vc := hVc h, mc := hMc h, len := hLen h,
    cnt := hCnt h, last := hLast h, hop := hHop h }

def checkReqOfCell (c : GrainCell) : CheckReq :=
  { isCell := true, dest := c.dest, src := c.src, vc := cVc c, mc := cMc c, len := 1,
    cnt := false, last := true, hop := cHop c }

/-- The counter of the first check of R52 that fails, none when all pass. -/
def State.ingressCheck (s : State) (lp : Nat) (r : CheckReq) : Option Nat :=
  let p := lp / 4
  let port := s.port lp
  if !r.isCell && r.vc = 1 then some (Reg.vc1NotCell p)
  else if !r.isCell && (r.len = 0 || 8192 < r.len) then some (Reg.lenBad p)
  else if !port.partnerFabric && r.src.toNat / 256 ≠ port.partnerCoord.toNat / 256 then some (Reg.srcMismatch p)
  else if r.vc = 0 && coordNode r.src < 240 then some (Reg.vc0FromEndpoint p)
  else if r.mc && (r.vc = 2 || r.vc = 6 || fld r.dest 12 20 ≠ 0) then some (Reg.mcBad p)
  else if !r.isCell && r.cnt && !r.last then some (Reg.flagBad p)
  else if !r.mc && coordPlane r.dest ≠ s.ownPlane then some (Reg.planeBad p)
  else if !r.mc && !s.isOwn r.dest && r.hop = 0 then some (Reg.hopExpired p)
  else none

/-- The account an arriving item used: terminating for a unicast to an own unit (R70). -/
def State.rxTerm (s : State) (dest : W32) (mc : Bool) : Bool := !mc && s.isOwn dest

/-- Telemetry of what a port receives (R112, R486, R491). -/
def State.countRx (s : State) (lp vc n bytes : Nat) : State :=
  let p := lp / 4
  let k := lp % 4 * 8 + vc
  let s := (s.bump64 (Reg.rxPkts p k) n).bump64 (Reg.rxBytes p k) bytes
  let s := (s.countEv p 0x01 n (some vc) (some (lp % 4))).countEv p 0x02 bytes (some vc) (some (lp % 4))
  { s with perf := { s.perf with rx := smod 0 s.perf.rx lp (· + bytes) } }

/-! ### The header (R52, R53, R74, R89) -/

/-- Whether the parsed link stream, when it holds items, has this packet next; a port whose link layer
is not driven bit by bit accepts any. -/
def nextIsPacket (p : Port) (h : Hdr) : Bool :=
  match p.rxItems with
  | [] => true
  | (tag, bs) :: _ => decide (fld tag 0 2 = kindPacket) && decide (hdrOfBytes bs = h)

def State.arrivalOn (s : State) (lp : Nat) : Option Arrival :=
  (s.sw.arrivals.find? (fun e => e.1 == lp)).map (·.2)

def State.setArrival (s : State) (lp : Nat) (a : Arrival) : State :=
  s.modSw (fun w => { w with
    arrivals := w.arrivals.filter (fun e => e.1 < lp) ++ (lp, a) :: w.arrivals.filter (fun e => lp < e.1) })

def State.dropArrival (s : State) (lp : Nat) : State :=
  s.modSw (fun w => { w with arrivals := w.arrivals.filter (fun e => e.1 != lp) })

/-- The port runs in independent-reference mode: its own setting or its partner's (R364, R74). -/
def State.indepRef (s : State) (lp : Nat) : Bool :=
  bit (s.reg (Reg.portCfg (lp / 4))) 2 || (s.port lp).partnerIndep

/-- Start a packet by cut-through when every condition of R74 holds; none: it is stored. While the egress still sends
another cut-through packet its next arbitration point is not now, and the packet is stored (DESIGN CHOICE, log entry 56). -/
def State.tryCutThrough (s : State) (inLp outLp : Nat) (h : Hdr) (cells : Bool) : Option (State × Nat) :=
  let vc := hVc h
  let p : Packet := { h := h, payload := [] }
  let x : Stored :=
    { id := 0, item := .packet p, granules := hdrGranules h, charge := .headroom inLp vc,
      credit := some (inLp, vc), inLp := some inLp, cellsOnly := cells }
  if !bit (s.reg Reg.scCtrl) 0 || s.sw.stopped.contains (qkey outLp vc) || hMc h || !(s.queue outLp vc).isEmpty || s.segments outLp x ||
     s.payloadRate inLp < s.payloadRate outLp || s.indepRef inLp || s.indepRef outLp ||
     !s.canSend outLp || (s.ctOpenOn outLp).isSome then none
  else
    let id := s.sw.nextId
    let s1 := s.store x [outLp] vc
    match s1.arbitrate outLp with
    | (some v, s2) =>
      if v = vc then
        let s2 := if v ≤ 1 then s2.debitCap outLp v (hdrSize h) else s2
        let s2 := s2.txCharge outLp vc (s.acctFor outLp h.dest false) x.granules
        let s2 := s2.modStored id (fun y => { y with arriving := true, headOut := [outLp] })
        let s2 := (s2.bump Reg.ctPackets).countEv (outLp / 4) 0x07 1 (some vc) (some (outLp % 4))
        some (s2, id)
      else none
    | (none, _) => none

/-- What the device decides when a header is complete (R52, R53, R89). -/
def State.decideHeader (s : State) (lp : Nat) (h : Hdr) : Arrival × State :=
  let a : Arrival := { h := h, decision := .discard, beganAt := s.now }
  match s.ingressCheck lp (checkReqOf h) with
  | some c => (a, s.bump c)
  | none =>
    let s := if hSpare h then s.bump (Reg.spareSet (lp / 4)) else s
    let s := if hAok h && hVc h ≠ 5 then s.bump (Reg.aokIgnored (lp / 4)) else s
    if !hMc h && s.isOwn h.dest then ({ a with decision := .own (coordUnit h.dest) }, s)
    else
      match s.routePkt (routeReqOf h) (some lp) with
      | (.drop none, s) => (a, s)
      | (.drop (some c), s) => ({ a with decision := .refuse c }, s)
      | (.go lps loc cells, s) =>
        let a := { a with decision := .forward lps loc cells }
        match lps, loc with
        | [out], none =>
          match s.tryCutThrough lp out h cells with
          | some (s, id) => ({ a with ct := some id }, s)
          | none => (a, s)
        | _, _ => (a, s)

/-- HEADER_COMPLETE (R52): checks, lookup and the cut-through decision. -/
def execHeaderComplete (lp : Fin 512) (h : Hdr) (s : State) : Host.Outcome State Fault Refusal :=
  if !s.clocked then .next s else
  if !s.portActive lp || (s.arrivalOn lp).isSome || !nextIsPacket (s.port lp) h then .next s
  else
    let (a, s) := s.decideHeader lp h
    .next (s.setArrival lp a)

/-! ### The packet end (R54, R67) -/

/-- Store a complete item for the egress queues whose port is still active, and for an own unit's copy (`own`), and
try the move to the shared pool (R67, R76, R80). -/
def State.storeForward (s : State) (lp : Nat) (item : Item) (vc : Nat) (lps : List Nat) (cells own : Bool) : State :=
  let g := itemGranules item
  let live := lps.filter s.portActive
  let s := s.bumpBy Reg.portDownDrop (lps.length - live.length)
  if live.isEmpty && !own then s.returnCredit lp vc false g
  else
    let id := s.sw.nextId
    let x : Stored :=
      { id := id, item := item, granules := g, charge := .headroom lp vc, credit := some (lp, vc), inLp := some lp,
        cellsOnly := cells }
    let s := s.store x live vc own
    let s := if (itemDest item).2 then s.countEv 241 0xC3 live.length else s
    s.tryMove id live vc

/-- Forward a complete packet, and deliver a multicast packet's local copy, read from the buffer (R67, R92). -/
def State.forwardPacket (s : State) (lp : Nat) (p : Packet) (lps : List Nat) (loc : Option Nat) (cells : Bool)
    (obs : BufObs) : State :=
  let id := s.sw.nextId
  let t := s.storeForward lp (.packet p) (hVc p.h) lps cells loc.isSome
  match loc with
  | none => t
  | some u =>
    match t.readLocal obs id with
    | (t, none) => t
    | (t, some bad) => (t.deliver (if bad then { p with h := poisonHdr p.h } else p) u (some lp) none 0 (some id)).1

/-- Return the credit of an item that ends at ingress: the terminating account's is withheld while reassembly is full
(R62, R72). -/
def State.dropCredit (s : State) (lp vc : Nat) (term : Bool) (g : Nat) : State :=
  if term then s.takeCredit (some lp) vc g else s.returnCredit lp vc false g

/-- Complete an arrival of which `body` was delimited after the header. A packet that a check or the routing discarded
still counts its length's mismatch, and a refused request that arrives short is not answered (DESIGN CHOICE, log
entry 57). -/
def State.endPacket (s : State) (lp : Nat) (a : Arrival) (body : List Byte) (obs : BufObs) : State :=
  let h := a.h
  let vc := hVc h
  let need := hdrSize h - 16
  let short := decide (body.length < need)
  -- one that CT_ABORT completed has been counted
  let cut := a.ct.isSome && (s.ctOf a).isNone
  let s := if body.length ≠ need && !cut then s.bump (Reg.lenMismatch (lp / 4)) else s
  let s := s.countRx lp vc 1 (hdrSize h)
  let term := s.rxTerm h.dest (hMc h)
  let g := hdrGranules h
  let p := packetOf h body
  match a.ct with
  | some _ =>
    match s.ctOf a with
    | some x =>
      match s.readObs obs x x.headOut with
      | (t, true) => t
      | (t, false) =>
        match t.stored? x.id with
        | some y => t.ctFinish y short p
        | none => t
    | none => s
  | none =>
    match a.decision with
    | .discard => s.dropCredit lp vc term g
    | .refuse c =>
      let s := s.dropCredit lp vc term g
      if short then s else s.answerRefusal p (some c)
    | .own _ => if short then s.dropCredit lp vc term g else s.deliverAnswer p (some lp) g
    | .forward lps loc cells =>
      if short then s.dropCredit lp vc term g else s.forwardPacket lp p lps loc cells obs

/-- The parsed item that completes an open arrival: its header's, and the items left. A VC4-7 packet that was parsed while a
VC0-3 packet waits for its replayed copy stays behind (R360). -/
def takeItem (h : Hdr) : List (W32 × List Byte) → Option (List Byte × List (W32 × List Byte))
  | [] => none
  | (tag, bs) :: rest =>
    if fld tag 0 2 = kindPacket && hdrOfBytes bs = h then some (bs, rest)
    else (takeItem h rest).map (fun r => (r.1, (tag, bs) :: r.2))

/-- PACKET_END (R54): the delimited end of the arriving packet. -/
def execPacketEnd (lp : Fin 512) (body : Arrived (List Byte)) (s : State) : Host.Outcome State Fault Refusal :=
  if !s.clocked then .next s else
  match s.arrivalOn lp with
  | none => .next s
  | some a =>
    if (s.port lp).rxItems.isEmpty then .next ((s.dropArrival lp).endPacket lp a body.item body.obs)
    else match takeItem a.h (s.port lp).rxItems with
    | none => .next s
    | some (bs, rest) =>
      if bs.drop 16 = body.item then
        .next (((s.modPort lp (fun p => { p with rxItems := rest })).dropArrival lp).endPacket lp a body.item body.obs)
      else .next s

/-! ### Cells (R60-R62) -/

/-- Return a cell's terminating granule (R72): withheld while reassembly is full (R62), and while a bench's ingress
queue has no room. -/
def State.cellCredit (s : State) (lp vc unit : Nat) : State :=
  if vc = 2 then s
  else
    match benchOfUnit unit with
    | some b => s.benchCredit b (some lp) vc 1
    | none => s.takeCredit (some lp) vc 1

def sameMsg (src : W32) (vc unit : Nat) (m : Reasm) : Bool := decide (m.src = src ∧ m.vc = vc ∧ m.unit = unit)

/-- Abandon an open message: counted, and a VC2 message's credits returned. -/
def State.abandon (s : State) (m : Reasm) (counter : Nat) : State :=
  let s := (s.bump counter).modSw (fun w => { w with
    reasm := dropFirst (sameMsg m.src m.vc m.unit) w.reasm })
  let s := if m.held = 0 then s else s.returnCredit m.lp 2 true m.held
  s.releaseHeld

/-- What is wrong with a cell of an open message, as the counter of R61. Of a cell that meets several rows the first of
these is counted: one with a wrong last INDEX and a bad LEN is CELL_BAD (DESIGN CHOICE, log entry 57). -/
def reasmFault (lp : Nat) (m : Reasm) (c : GrainCell) (stream : List Byte) : Option Nat :=
  let w2 := w32 (u32 stream 0)
  let len := fld w2 0 14
  let cnt := bit w2 20
  if cIndex c ≠ m.next then some (Reg.cellBad (lp / 4))
  else if fld w2 14 3 ≠ cVc c || fld w2 23 8 ≠ cPart c || bit w2 19 ≠ cMc c then some (Reg.cellBad (lp / 4))
  else if cLast c && cIndex c + 1 ≠ cellCount len cnt then some (Reg.cellBad (lp / 4))
  else if len = 0 || 8192 < len || (cnt && !bit w2 17) then some (Reg.lenBad (lp / 4))
  else none

/-- Add a cell to the open message of its key, and deliver the message when it is complete (R61). -/
def State.reasmStep (s : State) (lp unit : Nat) (m : Reasm) (c : GrainCell) (term : Bool) : State :=
  let stream := m.stream ++ (if cLast c then c.payload.take 48 else c.payload)
  let m' : Reasm := { m with
    next := m.next + 1, poison := m.poison || cPoison c, hop := cHop c, stream := stream, lastAt := s.now,
    held := if term && cVc c = 2 then m.held + 1 else m.held }
  let credit := fun (s : State) => if term then s.cellCredit lp (cVc c) unit else s
  match reasmFault lp m c stream with
  | some counter => credit (s.abandon m' counter)
  | none =>
    if cLast c then
      let s := s.modSw (fun w => { w with reasm := dropFirst (sameMsg m.src m.vc m.unit) w.reasm })
      let p := packetOfStream m.dest m.src stream (w32 (u32 c.payload 48)) m'.poison m'.hop
      let (s, code) := s.deliver p unit (some lp) none m'.held
      (credit s).releaseHeld.answerRefusal p code
    else
      credit (s.modSw (fun w => { w with reasm := modFirst (sameMsg m.src m.vc m.unit) (fun _ => m') w.reasm }))

/-- A cell for own unit `unit` (R61). `term`: it used the terminating account. -/
def State.takeCell (s : State) (lp unit : Nat) (c : GrainCell) (term : Bool) : State :=
  let vc := cVc c
  let old := s.sw.reasm.find? (sameMsg c.src vc unit)
  if cFirst c then
    let s := match old with | some m => s.abandon m (Reg.cellBad (lp / 4)) | none => s
    let m : Reasm :=
      { src := c.src, vc := vc, unit := unit, lp := lp, dest := c.dest, part := cPart c, mc := cMc c,
        next := 0, poison := false, hop := 0, stream := [], lastAt := s.now }
    (s.modSw (fun w => { w with reasm := w.reasm ++ [m] })).reasmStep lp unit m c term
  else
    match old with
    | some m => s.reasmStep lp unit m c term
    | none =>
      let s := s.bump (Reg.cellBad (lp / 4))
      if term then (if vc = 2 then s.returnCredit lp 2 true 1 else s.cellCredit lp vc unit) else s

/-- A cell would open one message more than reassembly holds (R62). -/
def State.cellWaits (s : State) (unit : Nat) (c : GrainCell) : Bool :=
  cFirst c && cVc c != 1 && cVc c != 2 && decide (1024 ≤ s.reasmOpen) && !s.sw.reasm.any (sameMsg c.src (cVc c) unit)

/-- Waiting cells are taken in order while the first can be; `k` bounds the takes. -/
def retryCellsN : Nat → State → State
  | 0, s => s
  | k + 1, s =>
    match s.sw.reasmWait with
    | [] => s
    | w :: ws =>
      if s.cellWaits w.unit w.cell then s
      else retryCellsN k (((s.modSw (fun x => { x with reasmWait := ws })).takeCell w.lp w.unit w.cell w.term).readCopy w.stored)

/-- Take the cells that waited for a reassembly entry (R62). -/
def State.settleReasm (s : State) : State := retryCellsN s.sw.reasmWait.length s

/-- A cell reaches own unit `unit`: it waits where it would open a message too many, and behind a waiting cell of
its message; it is never discarded for want of room (R62). -/
def State.reasmCell (s : State) (lp unit : Nat) (c : GrainCell) (term : Bool) (stored : Option Nat) : State :=
  let behind := s.sw.reasmWait.any (fun w => decide (w.unit = unit ∧ w.cell.src = c.src ∧ cVc w.cell = cVc c))
  if behind || s.cellWaits unit c then
    s.modSw (fun w => { w with
      reasmWait := w.reasmWait ++ [{ lp := lp, unit := unit, cell := c, term := term, stored := stored }] })
  else ((s.takeCell lp unit c term).readCopy stored).settleReasm

def State.routeOfCell (s : State) (lp : Nat) (c : GrainCell) : Option CellRoute :=
  s.sw.cellRoute.find? (fun r => decide (r.lp = lp ∧ r.src = c.src ∧ r.vc = cVc c))

/-- Remember (or forget, after the last cell) where the later cells of a message go (R60); the egresses of a message
that have left the active state stay lost to it (R99). -/
def State.setCellRoute (s : State) (lp : Nat) (c : GrainCell) (egress : Option (List Nat × Option Nat)) :
    State :=
  let mine := fun (r : CellRoute) => decide (r.lp = lp ∧ r.src = c.src ∧ r.vc = cVc c)
  let rest := s.sw.cellRoute.filter (fun r => !mine r)
  let gone := if cFirst c then [] else ((s.sw.cellRoute.find? mine).map (·.gone)).getD []
  s.modSw (fun w => { w with
    cellRoute := if cLast c then rest
      else rest ++ [{ lp := lp, src := c.src, vc := cVc c, egress := egress, gone := gone }] })

/-- The packet of which a first cell carries the head: its source is answered from it (R90). -/
def packetOfFirst (c : GrainCell) : Packet :=
  let p := packetOfStream c.dest c.src c.payload 0 (cPoison c) (cHop c)
  { p with payload := (c.payload.drop 8).take (hLen p.h) }

/-- Send a transit cell on, but for the egresses its message has lost (`gone`), where it is discarded (R60, R80, R99);
and hand its copy to an own unit. -/
def State.forwardCell (s : State) (lp : Nat) (c : GrainCell) (lps gone : List Nat) (loc : Option Nat) (obs : BufObs) :
    State :=
  let id := s.sw.nextId
  let keep := lps.filter (fun l => !gone.contains l)
  let s := s.bumpBy Reg.portDownDrop (lps.length - keep.length)
  let t := s.storeForward lp (.cell c) (cVc c) keep false loc.isSome
  match loc with
  | none => t
  | some u =>
    match t.readLocal obs id with
    | (t, none) => t
    | (t, some bad) => t.reasmCell lp u (if bad then poisonCell c else c) false (some id)

/-- CELL_ARRIVAL (R60, R61). Of word 2 in a first cell's stream, AOK is counted in AOK_IGNORED, but the spare bits are not
counted in SPARE_SET, which counts a cell's own reserved control bits (DESIGN CHOICE, log entry 57). -/
def State.cellArrive (s : State) (lp : Nat) (c : GrainCell) (obs : BufObs) : State :=
  let vc := cVc c
  let own := !cMc c && s.isOwn c.dest
  let s := s.countRx lp vc 1 64
  let ret := fun (s : State) => s.dropCredit lp vc own 1
  let later := s.routeOfCell lp c
  if !own && !cFirst c && (later.any (·.egress.isNone)) then
    -- the first cell's discard has been counted
    (ret s).setCellRoute lp c none
  else
    match s.ingressCheck lp (checkReqOfCell c) with
    | some k =>
      let s := ret (s.bump k)
      if own then s else if cFirst c then s.setCellRoute lp c none else s
    | none =>
      let s := if cReserved c ≠ 0 then s.bump (Reg.spareSet (lp / 4)) else s
      let w2 := w32 (u32 c.payload 0)
      let s := if cFirst c && bit w2 18 && vc ≠ 5 then s.bump (Reg.aokIgnored (lp / 4)) else s
      if own then s.reasmCell lp (coordUnit c.dest) c true none
      else if cFirst c then
        match s.routePkt (routeReqOfCell c) (some lp) with
        | (.drop code, s) =>
          ((ret s).setCellRoute lp c none).answerRefusal (packetOfFirst c) code
        | (.go lps loc _, s) => (s.setCellRoute lp c (some (lps, loc))).forwardCell lp c lps [] loc obs
      else
        match later with
        | none => ret (s.bump (Reg.cellBad (lp / 4)))
        | some r =>
          let (perr, s) := if vc = 0 then (false, s) else s.lookupErr s.route.activeBank 3 (cPart c)
          if !s.partOk perr (cPart c) vc lp then
            (ret (s.bump Reg.partInDeny)).setCellRoute lp c r.egress
          else
            match r.egress with
            | none => (ret s).setCellRoute lp c none
            | some (lps, loc) => (s.setCellRoute lp c r.egress).forwardCell lp c lps r.gone loc obs

/-- CELL_ARRIVAL (R60): a grain cell arrives on a port. -/
def execCellArrival (lp : Fin 512) (x : Arrived GrainCell) (s : State) : Host.Outcome State Fault Refusal :=
  if !s.clocked then .next s else
  if !s.portActive lp then .next s
  else
    match (s.port lp).rxItems with
    | [] => .next (s.cellArrive lp x.item x.obs)
    | (tag, bs) :: rest =>
      if fld tag 0 2 = kindCell && cellOfBytes bs = x.item then
        .next ((s.modPort lp (fun p => { p with rxItems := rest })).cellArrive lp x.item x.obs)
      else .next s

/-- REASM_TIMEOUT (R61): no cell for 100 µs. -/
def execReasmTimeout (src : W32) (vc : Fin 8) (unit : Byte) (s : State) : Host.Outcome State Fault Refusal :=
  if !s.powered then .next s else
  match s.sw.reasm.find? (sameMsg src vc unit.toNat) with
  | none => .next s
  | some m =>
    if s.now < m.lastAt + 100 * us then .next s
    else .next (s.abandon m (Reg.reasmTimeout (m.lp / 4))).settleReasm

/-- VC5_MSG_TIMEOUT (R101): the `k`-th open message of a channel at bench `b`. A complete message whose packets wait to
enter the receive queue misses none of them, and is not abandoned (DESIGN CHOICE, log entry 15). -/
def execVc5MsgTimeout (b : Fin 100) (src : W32) (chan : BitVec 12) (k : Nat) (s : State) :
    Host.Outcome State Fault Refusal :=
  if !s.powered then .next s else
  match ((s.bench b).msgs.filter (fun m => decide (m.src = src ∧ m.chan = chan) && !m.entering))[k]? with
  | none => .next s
  | some m =>
    if s.now < m.lastAt + s.regN Reg.vc5MsgTimeout * ms then .next s
    else
      let s := s.modBench b (fun x => { x with msgs := dropFirst (fun y => decide (y = m)) x.msgs })
      .next (((s.bump Reg.msgTimeoutDrop).discardAll b m.pkts).retryVc5All b |>.releaseOwed b)

end Sys2Proof.Machine
end

