-- ==== Sys2Proof/Machine/RegAccess.lean ====
section
/-! DEFINITION. The rules of every register write: existence, reset windows, locks, reserved bits,
held low words and read latches (R7-R11, R493-R500). A family gives a register's own effect as a
handler, which answers none when the write is ignored and counted. -/

namespace Sys2Proof.Machine

/-- The effect of an accepted write on the rest of the state; none: ignored and counted (R10). -/
abbrev WriteFn := State → W64 → Option State

/-- The plain effect of RW: the value is set. -/
def plainWrite (off : Nat) : WriteFn := fun s v => some (s.setReg off v)

/-- A register of an instance that does not exist on the part (R499). -/
def State.absentReg (s : State) (off : Nat) : Bool :=
  if 0x1000000 ≤ off && off < 0x1800000 then
    let p := (off - 0x1000000) / 0x10000
    let r := off % 0x10000
    let l := if 0x40 ≤ r && r < 0xC0 then some ((r - 0x40) / 0x20)
      else if 0x9000 ≤ r && r < 0x9400 then some ((r - 0x9000) / 0x100)
      else if 0xA000 ≤ r && r < 0xA800 then some ((r - 0xA000) / 0x200)
      else none
    l.any (fun i => decide (s.lportsOf p ≤ i))
  else if 0x2640000 ≤ off && off < 0x2680000 then off % 0x10000 ≠ 0
  else if 0x3F00000 ≤ off && off < 0x3FF2000 then
    let n := (off - 0x3F00000) / 0x1000
    let r := off % 0x1000
    if 0x100 ≤ r && r < 0x110 then decide (128 ≤ n)
    else if 0x110 ≤ r && r < 0x150 then decide (128 ≤ n) || decide (s.lportsOf n ≤ (r - 0x110) / 0x10)
    else false
  else false

/-- Writes are ignored here while a reset runs (R497). -/
def State.resetBlocks (s : State) (off : Nat) : Bool :=
  match s.fault.reset with
  | none => false
  | some r =>
    if r.level = 1 then decide (0x2000000 ≤ off ∧ off < 0x3000000)
    else decide (2 ≤ r.step ∧ r.step ≤ 6) && !decide (off < 0x100000) && !decide (0x3800000 ≤ off ∧ off < 0x3F00000)

/-- The LOCK bit is set (R500). -/
def State.lockBit (s : State) (l : LockReg) : Bool :=
  bit (s.reg (match l with | .sc => Reg.scLock | .rt => Reg.rtLock | .global => Reg.globalLock)) 0

/-- Every access of a requester to another register voids its read latch, and discards and counts its
held low word (R7, R494). `start` is the accessed register's first offset. -/
def State.touch (s : State) (r : Requester) (start : Nat) : State :=
  let s := { s with latches := s.latches.filter (fun l => !decide (l.1 = r) || decide (l.2.1 = start)) }
  match s.heldLow.find? (fun h => decide (h.1 = r)) with
  | some h =>
    if h.2.1 = start then s
    else ({ s with heldLow := s.heldLow.filter (fun g => !decide (g.1 = r)) }).ignored r h.2.1 false
  | none => s

/-- A write of `v` to the register that starts at `start`, of row `w`, under the common rules. A
`raw` handler sees the reserved bits too; `acc` is the offset of the access, which IGNORED_OFFSET names (R505). -/
def State.writeRow (s : State) (r : Requester) (w : RegRow) (start : Nat) (v : W64) (f : WriteFn)
    (raw : Bool := false) (acc : Nat := start) : State :=
  let ign := s.ignored r acc false
  if s.resetBlocks start || s.absentReg start then ign
  else if w.acc = .ro || w.acc = .rc then ign
  else if w.lock.any s.lockBit then ign
  else
    let m := w64 (v.toNat &&& w.mask)
    match f s (if raw then v else m) with
    | none => ign
    | some s' => if m ≠ v then s'.ignored r acc false else s'

/-- A whole write to the register at `start` (R8). -/
def State.writeVia (s : State) (r : Requester) (start : Nat) (v : W64) (f : WriteFn)
    (raw : Bool := false) (acc : Nat := start) : State :=
  if !s.reaches r true then s
  else
    let s := s.touch r start
    match findReg start with
    | none => s.ignored r acc false
    | some w => s.writeRow r w start v f raw acc

/-- A command that writes one register. -/
def writeCmd (s : State) (r : Requester) (start : Nat) (v : W64) (f : WriteFn) (raw : Bool := false) :
    Host.Outcome State Fault Refusal := .next (s.writeVia r start v f raw)

/-- A range check on a field, else the plain effect. -/
def rangeWrite (off lo hi : Nat) : WriteFn := fun s v =>
  if lo ≤ v.toNat ∧ v.toNat ≤ hi then some (s.setReg off v) else none

end Sys2Proof.Machine
end

