-- ==== Sys2Proof/Machine/Tables.lean ====
section
/-! DEFINITION. Route-table maintenance and bank swaps (R97, R98, R105-R110), credit-limit writes
(R73), and the commands of this family. -/

namespace Sys2Proof.Machine

/-! ### Bank swaps (R105, R106) -/

/-- The inactive bank holds an entry with a detected uncorrectable error. -/
def State.inactiveBad (s : State) : Bool :=
  s.route.errs.any (fun e => e.detected && e.ref.bank != s.route.activeBank)

/-- ARM (R106): refused with the lowest applicable reason. -/
def wrSwapArm : WriteFn := fun s _ =>
  if s.route.swap = 1 then none
  else
    let late := s.clk.timeValid && decide ((s.reg Reg.swapAt).toNat ≤ s.clk.ftime.toNat)
    let reason : Nat := if late then 1 else if s.inactiveBad then 2
      else if s.route.copyUntil.isSome then 3 else 0
    if reason = 0 then some (s.modRoute (fun r => { r with swap := 1, reason := 0 }))
    else some ((s.modRoute (fun r => { r with swap := 3, reason := BitVec.ofNat 2 reason })).bump Reg.swapRefused)

/-- CANCEL (R106). -/
def wrSwapCancel : WriteFn := fun s _ =>
  if s.route.swap = 1 then some (s.modRoute (fun r => { r with swap := 0, reason := 0 })) else none

/-- An address lies in the table window of a bank (R108). -/
def inBank (bank : Bool) (a : Nat) : Bool :=
  if bank then decide (0x800000 ≤ a ∧ a < 0xC00000) else decide (0x400000 ≤ a ∧ a < 0x800000)

/-- The active bank copied over the inactive one, errors included (R106). -/
def State.copyBank (s : State) : State :=
  let act := s.route.activeBank
  let words := s.route.tbl.filter (fun e => inBank act e.1)
  let moved := words.map (fun e => (if act then e.1 - 0x400000 else e.1 + 0x400000, e.2))
  let errs := s.route.errs.filter (fun e => e.ref.bank == act)
  let ces := s.route.ces.filter (fun e => e.bank == act)
  s.modRoute (fun r => { r with
    tbl := if act then moved ++ words else words ++ moved,
    errs := errs ++ errs.map (fun e => { e with ref := { e.ref with bank := !act } }),
    ces := ces ++ ces.map (fun e => { e with bank := !act }),
    copyUntil := some (s.now + 50 * us) })

/-- COPY (R106): refused while armed or while a copy runs. -/
def wrSwapCopy : WriteFn := fun s _ =>
  if s.route.swap = 1 || s.route.copyUntil.isSome then none else some s.copyBank

/-- A write to SWAP_CMD: more than one bit set is ignored and counted; no bit set does nothing. -/
def wrSwapCmd : WriteFn := fun s v =>
  if v = 1 then wrSwapArm s v
  else if v = 2 then wrSwapCancel s v
  else if v = 4 then wrSwapCopy s v
  else if v = 0 then some s
  else none

/-- SWAP_AT is not written while ARMED (R106). -/
def wrSwapAt : WriteFn := fun s v => if s.route.swap = 1 then none else some (s.setReg Reg.swapAt v)

/-- SWAP_ARM (R106). -/
def execSwapArm (r : Requester) (s : State) : Host.Outcome State Fault Refusal :=
  writeCmd s r Reg.swapCmd 1 wrSwapCmd

/-- SWAP_CANCEL (R106). -/
def execSwapCancel (r : Requester) (s : State) : Host.Outcome State Fault Refusal :=
  writeCmd s r Reg.swapCmd 2 wrSwapCmd

/-- SWAP_COPY (R106). -/
def execSwapCopy (r : Requester) (s : State) : Host.Outcome State Fault Refusal :=
  writeCmd s r Reg.swapCmd 4 wrSwapCmd

/-- COPY_COMPLETE (R106): COPY_BUSY returns to 0. -/
def execCopyComplete (s : State) : Host.Outcome State Fault Refusal :=
  if !s.powered then .next s else
  .next (s.modRoute (fun r => { r with copyUntil := none }))

/-- TABLE_BANK_SWAP (R105): all four tables change bank together. -/
def execTableBankSwap (s : State) : Host.Outcome State Fault Refusal :=
  if !s.powered then .next s else
  if s.route.swap = 1 && s.clk.timeValid && decide ((s.reg Reg.swapAt).toNat ≤ s.clk.ftime.toNat) then
    .next ((s.modRoute (fun r => { r with activeBank := !r.activeBank, swap := 2, reason := 0 })).bump Reg.orderEvents)
  else .next s

/-! ### Commit and sweep (R109, R110) -/

/-- Bits of entry word `w` that are not reserved (R107). -/
def entryMask (t w : Nat) : W32 :=
  if t = 3 then 0xFFFFFFFF
  else if w < 4 then 0xFFFFFFFF
  else if w = 4 then (if t = 2 then 0x01FFFF17 else 0x0000001F)
  else 0

/-- COMMIT (R109): the staging words are copied in one step, reserved fields as 0. -/
def wrCommit : WriteFn := fun s v =>
  let t := fld v 0 2
  let bank := bit v 4
  let i := fld v 8 12
  let inactive := bank != s.route.activeBank
  if tableEntries t ≤ i || (inactive && s.route.copyUntil.isSome) then none
  else
    let n := tableStride t / 4
    let s1 := (List.range n).foldl (fun s w =>
      let x := w32 (s.regN (Reg.stage w)) &&& entryMask t w
      s.modRoute (fun r => { r with tbl := sset 0 r.tbl (entryAddr bank t i + 4 * w) x })) s
    let s1 := s1.modRoute (fun r => { r with
      errs := r.errs.filter (fun e => !decide (e.ref = entryRef bank t i)),
      ces := r.ces.filter (fun e => !decide (e = entryRef bank t i)) })
    some (if inactive then s1 else s1.bump Reg.orderEvents)

/-- A 1 written to a reserved entry field, which COMMIT counts (R109). -/
def State.stageReserved (s : State) (v : W64) : Bool :=
  let t := fld v 0 2
  (List.range (tableStride t / 4)).any (fun w =>
    decide (w32 (s.regN (Reg.stage w)) &&& ~~~ (entryMask t w) ≠ 0))

/-- A write to COMMIT with its count of reserved entry bits; one access counts once (R10). -/
def State.writeCommit (s : State) (r : Requester) (v : W64) : State :=
  let s' := s.writeVia r Reg.commit v wrCommit
  let counted := decide (s'.regN Reg.ignoredWrites ≠ (s.touch r Reg.commit).regN Reg.ignoredWrites)
  if s.reaches r true && s.stageReserved v && !counted then s'.ignored r Reg.commit false else s'

/-- TABLE_COMMIT (R109). -/
def execTableCommit (r : Requester) (v : W32) (s : State) : Host.Outcome State Fault Refusal :=
  .next (s.writeCommit r (w64 v.toNat))

/-- TABLE_SWEEP (R110): `bad` are the entries that the sweep finds uncorrectable, `ce` the errors it corrects, beside
the errors that no lookup has met. -/
def execTableSweep (bad : List EntryRef) (ce : Nat) (s : State) : Host.Outcome State Fault Refusal :=
  if !s.powered then .next s
  else
    let s := s.route.ces.foldl State.correctEntry (s.bumpBy Reg.tableCe ce)
    let known := (s.route.errs.filter (fun e => !e.detected)).map (·.ref)
    .next ((known ++ bad).foldl (fun s e =>
      if s.route.errs.any (fun x => decide (x.ref = e) && x.detected) || tableEntries e.table.val ≤ e.index.val
      then s else s.detectErr e) s)

/-- REJOIN_HOLD_END (R97, R98). -/
def execRejoinHoldEnd (lp : Fin 512) (s : State) : Host.Outcome State Fault Refusal :=
  if !s.powered then .next s else
  match s.route.rejoin.find? (fun e => e.1 == lp.val) with
  | none => .next s
  | some e =>
    if s.now < e.2 + s.regN Reg.rejoinHold * ms then .next s
    else .next ((s.modRoute (fun r => { r with rejoin := r.rejoin.filter (fun x => x.1 != lp.val) })).orderEvent lp)

/-! ### Credit limits (R66, R73) -/

/-- The transit limits of a logical port with one replaced. -/
def State.transitSum (s : State) (lp vc v : Nat) : Nat :=
  (List.range 8).foldl (fun a x => a + (if x = vc then v else s.credLimit lp x false)) 0

/-- The terminating limits of one VC over all logical ports with one replaced. -/
def State.termSum (s : State) (lp vc v : Nat) : Nat :=
  s.lports.foldl (fun a x => a + (if x = lp then v else s.credLimit x vc true)) 0

/-- A write to an XCRED or TCRED limit (R73). -/
def wrCreditLimit (lp : Nat) (term : Bool) (vc : Nat) : WriteFn := fun s v =>
  let n := v.toNat
  if vc ≠ 1 && 1 ≤ n && n ≤ 32 then none
  else if !term && 4096 / s.lportsOf (lp / 4) < s.transitSum lp vc n then none
  else if term && termRoom vc < s.termSum lp vc n then none
  else
    let s := s.setReg (if term then tcredOff lp vc else xcredOff lp vc) v
    -- an account that link-up found closed opens on an active port with the raised limit returned (log entry 59)
    let opens := s.portActive lp && !(s.rxAcct lp vc term).granted && n ≠ 0
    some ((if opens then s.modRx lp vc term (fun a => { a with granted := true, base := 0 }) else s).settle lp vc term)

/-- CREDIT_LIMIT_WRITE (R73). -/
def execCreditLimitWrite (r : Requester) (lp : Fin 512) (term : Bool) (vc : Fin 8) (v : W32) (s : State) :
    Host.Outcome State Fault Refusal :=
  writeCmd s r (if term then tcredOff lp vc else xcredOff lp vc) (w64 v.toNat) (wrCreditLimit lp term vc)

/-- CAP_VC0 and CAP_VC1 ranges (R87). -/
def wrCap (off lp v : Nat) : WriteFn := fun s x =>
  if 1 ≤ fld x 0 10 && fld x 0 10 ≤ 1000 && 33 ≤ fld x 16 10 then
    -- the balance earned under the old rate stands; it stays within the new depth (R83)
    let bal := s.capNow lp v
    let s := s.setReg off x
    some (s.setCap lp v (max (-(s.capDepth lp v)) (min (s.capDepth lp v) bal)))
  else none

end Sys2Proof.Machine
end

