-- ==== Sys2Proof/Machine/Pool.lean ====
section
/-! DEFINITION. The pool: addresses, windows, reads and writes with poison, the Loam cache, requests
on VC6 and the atomic result table (R290-R320), and the commands of this family. -/

namespace Sys2Proof.Machine

/-! ### Addresses and controllers (R290, R291) -/

def loamEnd : Nat := 0x006C00000000
def subsoilBase : Nat := 0x008000000000
def subsoilEnd : Nat := 0x010000000000
def mib2 : Nat := 2097152
def gib : Nat := 1073741824

/-- [a, a + n) lies wholly in a tier (0 Loam, 1 Subsoil). -/
def inTier (tier : Bool) (a n : Nat) : Bool :=
  if tier then decide (subsoilBase ≤ a ∧ a + n ≤ subsoilEnd) else decide (a + n ≤ loamEnd)

/-- The pool address exists (R290). -/
def inPool (a n : Nat) : Bool := inTier false a n || inTier true a n

/-- Half-open ranges overlap. -/
def overlaps (a n b m : Nat) : Bool := decide (0 < n ∧ 0 < m ∧ a < b + m ∧ b < a + n)

/-- The controller of an address: Loam 0-11, Subsoil 12-27 (R291). -/
def memOf (a : Nat) : Nat := if a < loamEnd then a / 256 % 12 else 12 + a / 256 % 16

/-- A register of controller `m` at offset `off` of its block (R320). -/
def memReg (m off : Nat) : Nat := if m < 12 then 0x3000000 + m * 0x10000 + off else 0x3100000 + (m - 12) * 0x800 + off

/-- The controllers that hold bytes of [a, a + n). -/
def memsOf (a n : Nat) : List Nat :=
  (List.range (min 28 ((a + n - 1) / 256 - a / 256 + 1))).foldl (fun l i => insertNat (memOf (a + 256 * i)) l) []

def State.modPool (s : State) (f : Pool → Pool) : State := { s with pool := f s.pool }
def State.memCtl (s : State) (m : Nat) : MemCtl := sget {} s.pool.ctl m
def State.modMem (s : State) (m : Nat) (f : MemCtl → MemCtl) : State :=
  s.modPool (fun p => { p with ctl := smod {} p.ctl m f })

/-! ### Windows (R292, R293) -/

/-- A window entry in bytes. -/
structure Win where
  valid : Bool
  tier : Bool
  cached : Bool
  wr : Bool
  base : Nat
  size : Nat
  csize : Nat
  cbase : Nat
  deriving DecidableEq, Repr

def winOf (ws : List W32) : Win :=
  { valid := bit (ws.getD 0 0) 0, tier := bit (ws.getD 0 0) 1, cached := bit (ws.getD 0 0) 2,
    wr := bit (ws.getD 0 0) 3, base := fld (ws.getD 1 0) 0 27 * mib2, size := fld (ws.getD 2 0) 0 19 * mib2,
    csize := fld (ws.getD 3 0) 0 19 * mib2, cbase := fld (ws.getD 4 0) 0 27 * mib2 }

def winKey (c w k : Nat) : Nat := (c * 16 + w) * 8 + k
def State.winWords (s : State) (c w : Nat) : List W32 := (List.range 8).map (fun k => sget 0 s.pool.windows (winKey c w k))
def State.win (s : State) (c w : Nat) : Win := winOf (s.winWords c w)
def State.setWin (s : State) (c w : Nat) (ws : List W32) : State :=
  s.modPool (fun p => { p with
    windows := (List.range 8).foldl (fun m k => sset 0 m (winKey c w k) (ws.getD k 0)) p.windows })

/-- The valid windows of a context, by number. -/
def State.wins (s : State) (c : Nat) : List (Nat × Win) :=
  ((List.range 16).map (fun w => (w, s.win c w))).filter (fun x => x.2.valid)

/-- The contexts that hold any window. -/
def State.winCtxs (s : State) : List Nat :=
  (s.pool.windows.map (fun e => e.1 / 128)).foldl (fun l c => insertNat c l) []

/-- The window of context `c` that holds [a, a + n) wholly. -/
def State.findWin (s : State) (c a n : Nat) : Option Win :=
  ((s.wins c).find? (fun x => decide (x.2.base ≤ a ∧ a + n ≤ x.2.base + x.2.size))).map (·.2)

/-- Outcome of the window and permission check of a context's own access (R296). -/
inductive PoolChk where
  | ok | addr | perm
  deriving DecidableEq, Repr

/-- Check an access against a context's windows and PERMS. -/
def State.poolCheck (s : State) (c a n : Nat) (wr atomic : Bool) : PoolChk :=
  if 2 ^ 48 ≤ a then .addr
  else match s.findWin c a n with
    | none => .addr
    | some w =>
      if ((wr || atomic) && !w.wr) || (atomic && !bit (s.ctx c).perms 1) then .perm else .ok

/-- The spill area in use: base and size (R157). -/
def State.spillArea (s : State) : Nat × Nat := (s.regN Reg.spillBase, fld (s.reg Reg.spillSize) 0 7 * gib)
/-- The launch table: base and size (R270). -/
def State.ltSize (s : State) : Nat := 2 ^ (fld (s.reg Reg.ltCtrl) 1 4 + 8)
def State.ltArea (s : State) : Nat × Nat := (s.regN Reg.ltBase, 64 * s.ltSize)
def State.dumpArea (s : State) : Nat × Nat := (s.regN Reg.dumpBase, gib)
/-- A context's collective and lag table region: 320 KiB (R266). -/
def State.collArea (s : State) (c : Nat) : Nat × Nat := ((s.ctx c).collBase, 0x50000)
/-- OPEN or CLOSING contexts. -/
def State.liveCtxs (s : State) : List Nat :=
  (s.ctxs.filter (fun e => e.2.st = .opened ∨ e.2.st = .closing)).map (·.1)

/-- [a, n) overlaps a backing, or a backing or range still being written back (R293). -/
def State.hitsBacking (s : State) (a n : Nat) (exc : Option (Nat × Nat)) : Bool :=
  s.winCtxs.any (fun c => (s.wins c).any (fun x =>
    x.2.cached && !decide (exc = some (c, x.1)) && overlaps a n x.2.cbase x.2.csize)) ||
  s.pool.flushing.any (fun f => let w := winOf f.ws
    overlaps a n w.cbase w.csize || overlaps a n w.base w.size)

/-- [a, n) overlaps a valid window of any context, or a backing, or a write-back in progress. -/
def State.hitsWindow (s : State) (a n : Nat) : Bool :=
  s.hitsBacking a n none || s.winCtxs.any (fun c => (s.wins c).any (fun x => overlaps a n x.2.base x.2.size))

/-! ### The order of accesses to one line (R305) -/

/-- Fields of a DMA descriptor (R200). -/
def dWord (d : DmaDesc) (i : Nat) : W32 := d.ws.getD i 0
def dOp (d : DmaDesc) : Nat := fld (dWord d 0) 0 4
def dTally (d : DmaDesc) : Nat := fld (dWord d 0) 4 6
def dPeer (d : DmaDesc) : Nat := fld (dWord d 0) 10 3
def dLen (d : DmaDesc) : Nat := fld (dWord d 1) 0 19
def dSrc (d : DmaDesc) : Nat := (dWord d 2).toNat + (dWord d 3).toNat * 2 ^ 32
def dDst (d : DmaDesc) : Nat := (dWord d 4).toNat + (dWord d 5).toNat * 2 ^ 32

/-- The range of a descriptor that lies in the pool, if any (R200). -/
def dPool (d : DmaDesc) : Option (Nat × Nat) :=
  if dOp d = 1 ∨ dOp d = 3 ∨ dOp d = 5 then some (dSrc d, dLen d)
  else if dOp d = 0 ∨ dOp d = 4 then some (dDst d, dLen d)
  else none

/-- Bytes an operation reaches. -/
def opSpan (o : PoolOp) : Nat :=
  if o.pop = 2 ∨ o.pop = 4 ∨ 10 ≤ o.pop then 8 else if o.pop = 3 then 4 else o.len

/-- `x` reached the pool unit before `y`: earlier, or in the same cycle and first in the order of R305. Two accesses
of one nanosecond count as of one cycle (log entry 61). -/
def Reach.before (x y : Reach) : Bool :=
  decide (x.at' < y.at' ∨ (x.at' = y.at' ∧ (x.rank < y.rank ∨ (x.rank = y.rank ∧ x.seq < y.seq))))

/-- An access reaches the pool unit now. -/
def State.reach (s : State) (rank : Nat) : Reach × State :=
  ({ at' := s.now, rank := rank, seq := s.pool.nextSeq }, s.modPool (fun p => { p with nextSeq := p.nextSeq + 1 }))

/-- A request parsed from its payload (R298). -/
def poolOpOf (p : Packet) (lp : Option Nat) : PoolOp :=
  { h := p.h, pop := u8 p.payload 0 % 16, ctx := u8 p.payload 1, addr := u64 p.payload 8 % 2 ^ 48,
    len := u32 p.payload 4 % 2 ^ 14, data := p.payload.drop 16, group := u32 p.payload 4 / 2 ^ 14 % 4096, lp := lp }

/-- A VC6 request that waits in the pool unit's ingress queue: the lines it names, from its arrival on (R305). -/
def reqAcc (i : Inbound) : Option (Nat × Nat × Reach) :=
  if i.pkt.payload.length < 16 then none
  else let o := poolOpOf i.pkt i.lp; some (o.addr, opSpan o, i.reach)

/-- Accesses that have reached the pool unit and are not performed: address, bytes and place in the order. -/
def State.pendingAccs (s : State) : List (Nat × Nat × Reach) :=
  s.pool.inq.filterMap reqAcc ++
  s.pool.inflight.map (fun o => (o.addr, opSpan o, o.reach)) ++
  s.cores.flatMap (fun e => e.2.outs.map (fun o => (o.addr, o.size, o.reach))) ++
  s.benches.flatMap (fun e => e.2.dmaActive.filterMap (fun d => (dPool d.2.1).map (fun r => (r.1, r.2, d.2.2))))

/-- Two ranges share a 64-byte line. -/
def sameLine (a n b m : Nat) : Bool := decide (a / 64 ≤ (b + m - 1) / 64 ∧ b / 64 ≤ (a + n - 1) / 64)

/-- An access that touches one of these lines came before (R305). -/
def State.poolAhead (s : State) (a n : Nat) (r : Reach) : Bool :=
  s.pendingAccs.any (fun p => p.2.2.before r && sameLine p.1 p.2.1 a n)

/-! ### Bytes, lines and poison (R303, R313, R314) -/

def State.memRead (s : State) (a n : Nat) : List Byte := mread s.pool.mem a n

/-- The lines of a range that are poisoned. -/
def State.badLines (s : State) (a n : Nat) : List Nat :=
  s.pool.poisoned.filter (fun l => overlaps a n (64 * l) 64)

/-- The line is wholly inside the range. -/
def covers (a n l : Nat) : Bool := decide (a ≤ 64 * l ∧ 64 * l + 64 ≤ a + n)

/-- The cached window whose Subsoil range holds `a`: context, window number, entry. -/
def State.cachedAt (s : State) (a : Nat) : Option (Nat × Nat × Win) :=
  s.winCtxs.findSome? (fun c => ((s.wins c).find? (fun x => x.2.cached &&
    decide (x.2.base ≤ a ∧ a < x.2.base + x.2.size))).map (fun x => (c, x.1, x.2)))

/-- The cached window whose Loam backing holds `a`. -/
def State.backedAt (s : State) (a : Nat) : Option (Nat × Nat × Win) :=
  s.winCtxs.findSome? (fun c => ((s.wins c).find? (fun x => x.2.cached &&
    decide (x.2.cbase ≤ a ∧ a < x.2.cbase + x.2.csize))).map (fun x => (c, x.1, x.2)))

def State.cacheWin (s : State) (c w : Nat) : CacheWin :=
  (s.pool.cache.find? (fun x => x.ctx == c && x.win == w)).getD { ctx := c, win := w }

def State.setCache (s : State) (x : CacheWin) : State :=
  s.modPool (fun p => { p with cache := p.cache.filter (fun y => !(y.ctx == x.ctx && y.win == x.win)) ++ [x] })

/-- Sets of a backing: 16 ways of 4 KiB. -/
def cacheSets (w : Win) : Nat := max 1 (w.csize / 65536)

/-- Where a block stands in its window's Loam backing: the ways of a set lie side by side (log entry 61). -/
def blockHome (w : Win) (b : CacheBlock) : Nat := w.cbase + (b.blk % cacheSets w * 16 + b.way) * 4096

/-- The block that a cached window holds for `a`, with its window. -/
def State.blockAt (s : State) (a : Nat) : Option (Win × CacheBlock) :=
  match s.cachedAt a with
  | none => none
  | some (c, n, w) => ((s.cacheWin c n).blocks.find? (fun b => b.blk == a / 4096)).map (fun b => (w, b))

/-- The physical line that an access to line `l` reads: the backing's while its block is there (R309). -/
def State.homeLine (s : State) (l : Nat) : Nat :=
  match s.blockAt (64 * l) with
  | some (w, b) => (blockHome w b + 64 * l % 4096) / 64
  | none => l

/-- The line whose accesses read physical line `l`: none while a backing holds its data or keeps it unused. -/
def State.viewLine (s : State) (l : Nat) : Option Nat :=
  match s.backedAt (64 * l) with
  | some (c, n, w) => ((s.cacheWin c n).blocks.find? (fun b => blockHome w b / 4096 == 64 * l / 4096)).map
      (fun b => (b.blk * 4096 + 64 * l % 4096) / 64)
  | none => if (s.blockAt (64 * l)).isSome then none else some l

/-- The physical address that an access to `a` reaches. -/
def State.homeAddr (s : State) (a : Nat) : Nat := 64 * s.homeLine (a / 64) + a % 64

/-- The 4 KiB blocks of a range. -/
def blocksOf (a n : Nat) : List Nat := (List.range ((a + n - 1) / 4096 - a / 4096 + 1)).map (a / 4096 + ·)

/-- The controllers of the fill of block `blk` of a cached window: its Subsoil block's, and its backing's. -/
def Win.fillMems (w : Win) (blk : Nat) : List Nat := memsOf (blk * 4096) 4096 ++ memsOf w.cbase 4096

/-- The controllers that a miss on block `blk` needs for its fill: none where the block is no miss (R309). -/
def State.missMems (s : State) (blk : Nat) : List Nat :=
  match s.cachedAt (blk * 4096) with
  | some (_, _, w) => if (s.blockAt (blk * 4096)).isSome then [] else w.fillMems blk
  | none => []

/-- The controllers that serve [a, a + n), those of the fills it needs among them. -/
def State.memsFor (s : State) (a n : Nat) : List Nat :=
  (blocksOf a n).foldl (fun l b =>
    let lo := max a (4096 * b)
    (memsOf (s.homeAddr lo) (min (a + n) (4096 * b + 4096) - lo) ++ s.missMems b).foldl (fun l m => insertNat m l) l) []

/-- A demand on controllers: each in self-refresh starts waking (R30, R317). -/
def State.demandMems (s : State) (ms : List Nat) : State :=
  ms.foldl (fun s m => s.modMem m (fun c => { c with
    st := if c.st = .selfRefresh then .waking else c.st, lastAccess := s.now,
    hangFrom := if c.lastAccess ≤ c.lastDone then s.now else c.hangFrom })) s

/-- A demand on the controllers of a range. -/
def State.memDemand (s : State) (a n : Nat) : State := s.demandMems (s.memsFor a n)

/-- Every controller of a range is active. -/
def State.memAwake (s : State) (a n : Nat) : Bool := (s.memsFor a n).all (fun m => decide ((s.memCtl m).st = .active))

/-- Controllers completed an access. -/
def State.doneMems (s : State) (ms : List Nat) : State :=
  ms.foldl (fun s m => s.modMem m (fun c => { c with lastDone := s.now, lastAccess := s.now, hangFrom := s.now })) s

/-- The controllers of a range completed an access. -/
def State.memDone (s : State) (a n : Nat) : State := s.doneMems (s.memsFor a n)

/-- Every one of these controllers is active. -/
def State.awakeMems (s : State) (ms : List Nat) : Bool := ms.all (fun m => decide ((s.memCtl m).st = .active))

/-- An access of the device's own that no record holds while its controllers wake: it waits within its command, since
a wake adds to its latency and changes nothing else (R30, log entry 61). -/
def State.memServe (s : State) (a n : Nat) : State :=
  (s.memsFor a n).foldl (fun s m => s.modMem m (fun c => { c with
    st := if c.st = .training then c.st else .active, lastAccess := s.now, lastDone := s.now, hangFrom := s.now })) s

/-- The counter block of a controller (R483). -/
def memBlk (m : Nat) : Nat := if m < 12 then 228 + m else 240

/-- Count the bytes that an access moves at each controller: READ_BYTES or WRITE_BYTES (R486). -/
def State.memBytes (s : State) (a n : Nat) (wr : Bool) : State :=
  (List.range ((a + n - 1) / 256 - a / 256 + 1)).foldl (fun t i =>
    let lo := max a (256 * (a / 256 + i))
    let hi := min (a + n) (256 * (a / 256 + i) + 256)
    t.countEv (memBlk (memOf (s.homeAddr lo))) (if wr then 0x81 else 0x80) (hi - lo)) s

/-- Count the bytes of a long transfer that lies in no cached window (R486). -/
def State.memBulk (s : State) (a n : Nat) (wr : Bool) : State :=
  let code := if wr then 0x81 else 0x80
  if n = 0 then s
  else if a < loamEnd then
    let g := fun (x m : Nat) => (x / 256 + 11 - m) / 12
    (List.range 12).foldl (fun s m => s.countEv (memBlk m) code (256 * (g (a + n) m - g a m))) s
  else s.countEv 240 code n

/-- The block that holds `a` is in its window's backing and clean. -/
def State.cleanInBacking (s : State) (a : Nat) : Bool := (s.blockAt a).any (fun x => !x.2.dirty)

/-- The blocks of a written range that stand in a backing are dirty (R309). -/
def State.dirtied (s : State) (a n : Nat) : State :=
  if n = 0 then s
  else (blocksOf a n).foldl (fun s b => match s.cachedAt (b * 4096) with
    | none => s
    | some (c, wn, _) => s.modPool (fun p => { p with
        cache := p.cache.map (fun x =>
          if x.ctx == c && x.win == wn then
            { x with blocks := x.blocks.map (fun y => if y.blk == b then { y with dirty := true } else y) }
          else x) })) s

/-- Write bytes; lines wholly written lose their poison and any error (R314). -/
def State.memWrite (s : State) (a : Nat) (bs : List Byte) : State :=
  (s.modPool (fun p => { p with
    mem := mwrite p.mem a bs,
    poisoned := p.poisoned.filter (fun l => !covers a bs.length l),
    latent := p.latent.filter (fun e => !(s.viewLine e.1).any (covers a bs.length)) })).dirtied a bs.length

/-- Write the given bytes of a range. -/
def State.memWriteSome (s : State) (a : Nat) (bs : List (Option Byte)) : State :=
  (s.modPool (fun p => { p with mem := mwriteSome p.mem a bs })).dirtied a bs.length

/-- The log entry of a fault of class `cls` in physical line `home`. -/
def lineFault (home cls act code : Nat) (ctx : Option Nat) : FaultInfo :=
  let m := memOf (64 * home)
  { cls := cls, sev := 1, act := act, code := code, block := if m < 12 then 6 else 7,
    index := if m < 12 then m else m - 12, detail := w64 (64 * home), ctx := ctx }

/-- Step 1 of R314: count, locate and log physical line `home`. -/
def State.ueCount (s : State) (home cls code : Nat) (ctx : Option Nat) : State :=
  let m := memOf (64 * home)
  ((s.bump (memReg m 8)).modMem m (fun c => { c with ueAddr := 64 * home })).logFault (lineFault home cls 2 code ctx)

/-- Steps 1 and 2 of R314: physical line `home` is counted, and line `line` marked poisoned. -/
def State.ueMark (s : State) (home line cls code : Nat) (ctx : Option Nat) : State :=
  if s.pool.poisoned.contains line then s
  else (s.modPool (fun p => { p with poisoned := insertNat line p.poisoned })).ueCount home cls code ctx

/-- Scrub finds a line uncorrectable that no access reads now: it is counted, and marked for what reads it later. -/
def State.ueHidden (s : State) (home : Nat) : State :=
  if s.pool.hidden.contains home then s
  else (s.modPool (fun p => { p with hidden := insertNat home p.hidden })).ueCount home 0x0F 0 none

/-- Marked physical lines that accesses read again are poisoned for them (R314, R315). -/
def State.unhide (s : State) : State :=
  s.modPool (fun p => { p with
    hidden := p.hidden.filter (fun l => (s.viewLine l).isNone),
    poisoned := (p.hidden.filterMap s.viewLine).foldl (fun l v => insertNat v l) p.poisoned })

/-- The physical lines of [a, a + n) are written whole: they hold no error and no mark. -/
def State.freshLines (s : State) (a n : Nat) : State :=
  s.modPool (fun p => { p with
    latent := p.latent.filter (fun e => !covers a n e.1), hidden := p.hidden.filter (fun l => !covers a n l) })

/-- A line read directly is found uncorrectable. -/
def State.ueFound (s : State) (line cls code : Nat) (ctx : Option Nat) : State := s.ueMark line line cls code ctx

/-- A corrected line read (R313): counted, and written back at a later slot. -/
def State.ceFound (s : State) (line : Nat) : State :=
  let m := memOf (64 * line)
  (s.bump (memReg m 4)).modMem m (fun c => { c with writebackOwed := insertNat line c.writebackOwed })

/-- A read of `line` finds its physical line uncorrectable: a clean backing block is refetched, masked and counted
in MEM_CE at the controller that met it (R314). -/
def State.ueMet (s : State) (line cls code : Nat) (ctx : Option Nat) : State :=
  let home := s.homeLine line
  let s := s.modPool (fun p => { p with latent := p.latent.filter (fun e => e.1 != home) })
  if s.cleanInBacking (64 * line) then s.bump (memReg (memOf (64 * home)) 4) else s.ueMark home line cls code ctx

/-- An access to [a, a + n) meets the errors that its lines hold: every line of a read, and of a write those it
covers in part. -/
def State.meet (s : State) (a n : Nat) (rd : Bool) (cls : Nat) (ctx : Option Nat) : State :=
  s.pool.latent.foldl (fun s e => match s.viewLine e.1 with
    | none => s
    | some v =>
      if !overlaps a n (64 * v) 64 || (!rd && covers a n v) then s
      else if e.2 then s.ceFound e.1
      else s.ueMet v cls Code.internal ctx) s

/-- Lines of a range that read as uncorrectable: poisoned, or with an error that no read has met and no clean backing
block masks. -/
def State.ueLines (s : State) (a n : Nat) : List Nat :=
  s.badLines a n ++ s.pool.latent.filterMap (fun e => match s.viewLine e.1 with
    | some v => if !e.2 && overlaps a n (64 * v) 64 && !s.cleanInBacking (64 * v) then some v else none
    | none => none)

/-- What the controller reports for an access to [a, a + n), beside the errors its lines hold. -/
def State.observe (s : State) (a n : Nat) (rd : Bool) (obs : MemObs) (ctx : Option Nat) : State :=
  let s := s.meet a n rd 0x0E ctx
  match obs with
  | .clean => s
  | .corrected l => if overlaps a n (64 * l) 64 then s.ceFound (s.homeLine l) else s
  | .uncorrectable l => if overlaps a n (64 * l) 64 then s.ueMet l 0x0E Code.internal ctx else s

/-- A corrected line is written back when its controller has a slot (R313): it reads clean from then on. -/
def State.writeBack (s : State) : State :=
  s.pool.ctl.foldl (fun s e => match e.2.writebackOwed with
    | [] => s
    | l :: ls =>
      if e.2.st = .active then
        ((s.modMem e.1 (fun c => { c with writebackOwed := ls })).modPool (fun p => { p with
          latent := p.latent.filter (fun x => !(x.1 == l && x.2)) })).countEv (memBlk e.1) 0x81 64
      else s) s

/-- Write bytes as the device's own transfer: what would cover part of a poisoned line is not written (R314). -/
def State.memPut (s : State) (a : Nat) (bs : List Byte) : State :=
  let s := s.meet a bs.length false 0x0E none
  let bad := (s.badLines a bs.length).filter (fun l => !covers a bs.length l)
  if bad.isEmpty then s.memWrite a bs
  else
    let t := s.memWrite a bs
    t.modPool (fun p => { p with
      mem := mwriteSome s.pool.mem a (bs.zipIdx.map (fun x => if bad.contains ((a + x.2) / 64) then none else some x.1)) })

/-- A read, atomic or partial-line write meets a poisoned line (R314). -/
def State.meetsUe (s : State) (a n : Nat) (wholeLines : Bool) : Bool :=
  (s.badLines a n).any (fun l => !(wholeLines && covers a n l))

/-! ### Atomics (R304) -/

/-- FP32 addition of R304. -/
def fp32Add (x y : Nat) : Nat := (fp32.conv false .rne ((fp32.decode x).add (fp32.decode y))).bits

/-- The atomics: code of POP, operands, old value to new value and width in bytes. -/
def atomicNew (pop : Nat) (old x y : Nat) : Nat :=
  if pop = 2 then (old + x) % 2 ^ 64
  else if pop = 3 then fp32Add old (x % 2 ^ 32)
  else if old = x then y else old

def atomicWidth (pop : Nat) : Nat := if pop = 3 then 4 else 8

/-- Perform an atomic on memory: the old value and the state after. -/
def State.atomic (s : State) (pop a x y : Nat) : Nat × State :=
  let w := atomicWidth pop
  let old := ofLe (s.memRead a w)
  (old, s.memWrite a (leBytes w (atomicNew pop old x y)))

/-! ### Loam as a cache (R309-R312) -/

/-- Put a block in, least recently used first; a 17th of its set evicts the set's oldest (R309).
The second component counts dirty evictions. -/
def cacheInsert (w : Win) (bs : List CacheBlock) (b : CacheBlock) : List CacheBlock × Nat :=
  let set := fun (x : CacheBlock) => x.blk % cacheSets w == b.blk % cacheSets w
  let bs := bs.filter (fun x => x.blk != b.blk)
  let mine := bs.filter set
  if 16 ≤ mine.length then
    match mine.head? with
    | some v => (bs.filter (fun x => x.blk != v.blk) ++ [{ b with way := v.way }], b2n v.dirty)
    | none => (bs ++ [b], 0)
  else (bs ++ [{ b with way := ((List.range 16).find? (fun k => !mine.any (·.way == k))).getD 0 }], 0)

/-- The block that putting `blk` in evicts. -/
def cacheVictim (w : Win) (bs : List CacheBlock) (blk : Nat) : Option CacheBlock :=
  let mine := bs.filter (fun x => x.blk != blk && x.blk % cacheSets w == blk % cacheSets w)
  if 16 ≤ mine.length then mine.head? else none

/-- Follow a demand miss in the window's streams (R310); the second component says it is confirmed. -/
def streamMiss (ss : List Stream) (blk : Nat) : List Stream × Bool :=
  if ss.any (fun x => x.last + 1 == blk) then
    ((ss.filter (fun x => x.last + 1 != blk)) ++ [{ last := blk }], true)
  else
    let ss := if 16 ≤ ss.length then ss.drop 1 else ss
    (ss ++ [{ last := blk }], false)

/-- A demand access to one block: a hit, or the start of its fill. True: it can be served. -/
def State.cacheDemand (s : State) (blk : Nat) : Bool × State :=
  match s.cachedAt (blk * 4096) with
  | none => (true, s)
  | some (c, wn, w) =>
    let x := s.cacheWin c wn
    match x.blocks.find? (fun b => b.blk == blk) with
    | some b =>
      let s := if b.fresh then s else s.bump Reg.cacheHits
      let s := if b.prefetched then s.bump Reg.pfUsed else s
      let b' := { b with prefetched := false, fresh := false }
      (true, s.setCache { x with blocks := x.blocks.filter (fun y => y.blk != blk) ++ [b'] })
    | none =>
      if x.filling.contains blk then (false, s)
      else
        let s := s.bump Reg.cacheMisses
        let s := if x.prefetching.contains blk then s.bump Reg.pfDrops else s
        let (ss, conf) := streamMiss x.streams blk
        let ahead := if conf then
            ((List.range (s.regN Reg.pfDepth)).map (fun i => blk + 1 + i)).filter (fun n =>
              decide (n * 4096 < w.base + w.size) && !x.prefetching.contains n &&
              !x.filling.contains n && !x.blocks.any (fun y => y.blk == n))
          else []
        (false, (s.setCache { x with
          filling := x.filling ++ [blk], streams := ss,
          prefetching := x.prefetching.filter (· != blk) ++ ahead }).demandMems (w.fillMems blk))

/-- Every block of a range that lies in a cached window is in its backing. -/
def State.resident (s : State) (a n : Nat) : Bool :=
  (blocksOf a n).all (fun b => match s.cachedAt (b * 4096) with
    | none => true
    | some (c, w, _) => (s.cacheWin c w).blocks.any (fun y => y.blk == b))

/-- A demand access to a range: served now, or its fills are started and it waits (R309). -/
def State.cacheAccess (s : State) (a n : Nat) : Bool × State :=
  if s.resident a n then (true, (blocksOf a n).foldl (fun s b => (s.cacheDemand b).2) s)
  else (false, (blocksOf a n).foldl (fun s b => if s.resident (b * 4096) 1 then s else (s.cacheDemand b).2) s)

/-- Complete the fill of one block: the block is read from Subsoil, a dirty block it evicts is read from Loam and
written back with the poison it carries, and its lines in Loam are written afresh (R309, R314). -/
def State.fillBlock (s : State) (c wn blk : Nat) (prefetch : Bool) : State :=
  let w := s.win c wn
  let out := (cacheVictim w (s.cacheWin c wn).blocks blk).filter (·.dirty)
  let s := match out with
    | some v => (s.meet (v.blk * 4096) 4096 true 0x0E (some c)).memBytes (v.blk * 4096) 4096 false
    | none => s
  let s := (s.meet (blk * 4096) 4096 true 0x0E (some c)).memBytes (blk * 4096) 4096 false
  let x := s.cacheWin c wn
  let b : CacheBlock := { blk := blk, prefetched := prefetch, fresh := !prefetch }
  let (bs, dirty) := cacheInsert w x.blocks b
  let s := s.setCache { x with
    blocks := bs, filling := x.filling.filter (· != blk), prefetching := x.prefetching.filter (· != blk) }
  let s := match out with
    | some v => (s.freshLines (v.blk * 4096) 4096).memBytes (v.blk * 4096) 4096 true
    | none => s
  let s := (s.freshLines (s.homeAddr (blk * 4096)) 4096).memBytes (blk * 4096) 4096 true
  (s.unhide.doneMems (w.fillMems blk)).bumpBy Reg.writebacks dirty

/-- An access that completes in the command that makes it (DMA, the device itself): a miss is filled at once, since a
fill changes timing only (R309). -/
def State.cacheNow (s : State) (a n : Nat) : State :=
  let (ok, s) := s.cacheAccess a n
  if ok then s
  else
    let s := (blocksOf a n).foldl (fun s b => match s.cachedAt (b * 4096) with
      | some (c, w, _) => if (s.cacheWin c w).filling.contains b then s.fillBlock c w b false else s
      | none => s) s
    (s.cacheAccess a n).2

/-- Write bytes through the cache (R296). -/
def State.memStore (s : State) (a : Nat) (bs : List Byte) : State :=
  ((s.cacheNow a bs.length).memPut a bs).memBytes a bs.length true

/-! ### Windows written, removed and flushed (R293, R294, R312) -/

/-- Begin the write-back of a cached window that leaves (R312); its prefetches are discarded. -/
def State.startFlush (s : State) (c w : Nat) : State :=
  let e := s.win c w
  if !(e.valid && e.cached) then s
  else
    let x := s.cacheWin c w
    let s := s.bumpBy Reg.pfDrops x.prefetching.length
    let dirty := x.blocks.filter (·.dirty)
    let s := dirty.foldl (fun s b => s.meet (b.blk * 4096) 4096 true 0x0E (some c)) s
    s.modPool (fun p => { p with
      cache := p.cache.filter (fun y => !(y.ctx == c && y.win == w)),
      flushing := p.flushing ++ [{ ctx := c, win := w, ws := s.winWords c w, blks := dirty, startedAt := s.now }] })

/-- A write-back ends: its dirty blocks are read from the backing and written to Subsoil, and counted (R312, R486). -/
def State.endFlush (s : State) (f : Flush) : State :=
  let w := winOf f.ws
  let s := f.blks.foldl (fun s b =>
    ((s.memBytes (blockHome w b) 4096 false).freshLines (b.blk * 4096) 4096).memBytes (b.blk * 4096) 4096 true) s
  (s.doneMems (f.blks.flatMap (fun b => w.fillMems b.blk))).bumpBy Reg.writebacks f.blks.length

/-- Clear every window of a context (R294). -/
def State.clearWindows (s : State) (c : Nat) : State :=
  ((List.range 16).foldl (fun s w => (s.startFlush c w).setWin c w []) s).unhide

/-- A reserved bit of a staged window entry is 1. -/
def winReserved (ws : List W32) : Bool :=
  (List.range 8).any (fun k => decide ((ws.getD k 0).toNat &&& stagedRes (Reg.winStage k) ≠ 0))

/-- The first failing check of a window write (R293); 0 when none. -/
def State.winCode (s : State) (c w : Nat) (ws : List W32) : Nat :=
  let e := winOf ws
  let cx := s.ctx c
  if cx.st = .closing then Code.closed
  else if cx.st ≠ .opened then Code.perm
  else if !e.valid then Code.ok
  else if winReserved ws || e.size = 0 || 262144 * mib2 < e.size || (e.cached && !e.tier) ||
      (e.cached && (e.csize = 0 || e.size < e.csize)) || (!e.cached && (e.csize ≠ 0 || e.cbase ≠ 0)) then Code.lenErr
  else if !inTier e.tier e.base e.size then Code.addr
  else if e.cached && !inTier false e.cbase e.csize then Code.addr
  else
    let old := s.win c w
    let bad := fun (a n : Nat) =>
      (let sp := s.spillArea; overlaps a n sp.1 sp.2) ||
      (let d := s.dumpArea; overlaps a n d.1 d.2) ||
      s.hitsBacking a n (some (c, w)) ||
      (old.valid && old.cached && (overlaps a n old.cbase old.csize || overlaps a n old.base old.size)) ||
      (s.wins c).any (fun x => x.1 != w && overlaps a n x.2.base x.2.size) ||
      (s.liveCtxs.any (fun d => d != c && (s.wins d).any (fun x =>
        overlaps a n x.2.base x.2.size && (e.wr || x.2.wr))))
    if bad e.base e.size || (e.cached && bad e.cbase e.csize) then Code.addr
    else
      let others := (s.wins c).filter (fun x => x.1 != w)
      let loam := others.foldl (fun a x => a + (if x.2.tier then 0 else x.2.size) + x.2.csize) 0 +
        (if e.tier then 0 else e.size) + e.csize
      let sub := others.foldl (fun a x => a + (if x.2.tier then x.2.size else 0)) 0 + (if e.tier then e.size else 0)
      if cx.loamQuota * 1048576 < loam || cx.subsoilQuota * 1048576 < sub then Code.capacity else Code.ok

/-- The log of a recording context lies in window [base, size) of the entry. -/
def logIn (lb ls : Nat) (w : Win) : Bool := decide (w.base ≤ lb ∧ lb + ls ≤ w.base + w.size)

/-! ### The atomic result table (R307, R409) -/

def resultKey (h : Hdr) (e : ResultEntry) : Bool :=
  decide (e.src = h.src ∧ e.chan.toNat = hChan h ∧ e.seq.toNat = hSeq h)

def State.holdNs (s : State) : Nat := s.regN Reg.resultHold * ms

/-- Entries still within RESULT_HOLD, its last nanosecond included (R4). -/
def State.protected (s : State) : List ResultEntry :=
  s.pool.results.filter (fun e => decide (s.now ≤ e.madeAt + s.holdNs))

/-- The atomics being performed that will make an entry: of those with one key, one. -/
def State.newEntries (s : State) : Nat :=
  (((s.pool.inflight.filter (fun o => decide (2 ≤ o.pop ∧ o.pop ≤ 4) && !s.pool.results.any (resultKey o.h))).map
    (fun o => (o.h.src, hChan o.h, hSeq o.h))).eraseDups).length

/-- No entry is free or reusable for a new atomic. -/
def State.resultsFull (s : State) : Bool := 65536 ≤ s.protected.length + s.newEntries

/-- Enter an atomic: a free entry, else the oldest past RESULT_HOLD. -/
def State.enterResult (s : State) (e : ResultEntry) : State :=
  s.modPool (fun p =>
    let rs := if p.results.length < 65536 then p.results
      else dropFirst (fun x => decide (x.madeAt + s.holdNs < s.now)) p.results
    { p with results := rs ++ [e] })

/-! ### Answers and checks of VC6 requests (R300-R302) -/

/-- Send an answer to a request; a code other than OK is counted. -/
def State.answerPool (s : State) (h : Hdr) (pop code len : Nat) (data : List Byte) : State :=
  let s := if code ≠ 0 then s.bump Reg.reqRefused else s
  let s := if code = Code.addr then s.bump Reg.addrRefused else if code = Code.perm then s.bump Reg.permRefused else s
  s.send .answer (s.poolAnswer h code pop len data)

/-- Order 6 of R300: the request's own form. -/
def poolLenBad (p : Packet) (o : PoolOp) : Bool :=
  let w0 := u32 p.payload 0
  let w1 := u32 p.payload 4
  let w3 := u32 p.payload 12
  let n := p.payload.length
  decide (5 < o.pop) || w0 / 16 % 16 != 0 || w0 / 2 ^ 24 != 0 || w1 / 2 ^ 26 != 0 || w3 / 65536 != 0 ||
  (o.pop != 5 && o.group != 0) ||
  (if o.pop = 0 ∨ o.pop = 1 ∨ o.pop = 5 then o.len == 0 || decide (8176 < o.len) else o.len != 0) ||
  n != (if o.pop = 0 then 16 else if o.pop = 1 then 16 + o.len else if o.pop = 4 then 32 else 24) ||
  (o.pop == 3 && u32 p.payload 20 != 0) ||
  !hLast p.h || hCnt p.h || hMc p.h ||
  (if o.pop = 2 ∨ o.pop = 4 then o.addr % 8 != 0 else o.pop == 3 && o.addr % 4 != 0)

/-- The first failing check of R300, orders 1 to 9; 0 when none. -/
def State.poolCode (s : State) (p : Packet) (o : PoolOp) : Nat × State :=
  let cx := s.ctx o.ctx
  let (gerr, s) := if o.pop = 5 then s.lookupErr s.route.activeBank 2 o.group else (false, s)
  let w4 := s.tblWord s.route.activeBank 2 o.group 4
  let atWin := (s.wins o.ctx).find? (fun x => decide (x.2.base ≤ o.addr ∧ o.addr < x.2.base + x.2.size))
  let writes := decide (1 ≤ o.pop ∧ o.pop ≤ 4)
  let code :=
    if gerr then Code.internal
    else if cx.fenced then Code.fenced
    else if !s.poolEn || cx.st ≠ .opened then Code.closed
    else if u8 p.payload 2 ≠ cx.gen.toNat then Code.genStale
    else if hPart p.h ≠ cx.part.toNat || (writes && atWin.any (fun x => !x.2.wr)) ||
        (decide (2 ≤ o.pop ∧ o.pop ≤ 4) && !bit cx.perms 1) then Code.perm
    else if poolLenBad p o then Code.lenErr
    else if (s.findWin o.ctx o.addr (opSpan o)).isNone then Code.addr
    else if o.pop = 5 && (!bit w4 2 || fld w4 8 8 ≠ cx.part.toNat) then Code.noRoute
    else if hPoison p.h then Code.poison
    else Code.ok
  (code, s)

/-- The old value of an atomic as answered: 8 bytes, AADDF32 zero-extended (R301). -/
def oldBytes (old : Nat) : List Byte := leBytes 8 old

/-- An access that reached the pool unit at `r` is being performed. -/
def State.enterAt (s : State) (r : Reach) (o : PoolOp) : State :=
  (s.modPool (fun q => { q with inflight := q.inflight ++ [{ o with reach := r }] })).memDemand o.addr (opSpan o)

/-- An access reaches the pool unit and is being performed. -/
def State.enterOp (s : State) (rank : Nat) (o : PoolOp) : State :=
  let r := s.reach rank
  r.2.enterAt r.1 o

/-- Take the head request of the pool unit (R297, R300, R307). -/
def State.takePoolReq (s : State) (inb : Inbound) : State :=
  let s := (s.modPool (fun p => { p with inq := p.inq.drop 1 })).tookIn inb
  let p := inb.pkt
  if p.payload.length < 16 then s.answerPool p.h 0 Code.lenErr 0 []
  else
    let o := poolOpOf p inb.lp
    let (code, s) := s.poolCode p o
    if code ≠ 0 then s.answerPool p.h o.pop code 0 []
    else
      let go := fun (s : State) => s.enterAt inb.reach o
      let clash := fun (s : State) => (s.bump Reg.resultConflict).answerPool p.h o.pop Code.contract 0 []
      if o.pop = 2 ∨ o.pop = 3 ∨ o.pop = 4 then
        match s.pool.results.find? (resultKey p.h) with
        | some e =>
          if e.poisoned then s.answerPool p.h o.pop Code.internal 0 []
          else if e.pop = o.pop ∧ e.addr = o.addr then
            (s.bump Reg.resultHits).answerPool p.h o.pop e.code.toNat (if e.code = 0 then 8 else 0)
              (if e.code = 0 then oldBytes e.old.toNat else [])
          else clash s
        | none =>
          -- an atomic with this key is being performed: the same one waits behind it, another one conflicts
          match s.pool.inflight.find? (fun q => decide (2 ≤ q.pop ∧ q.pop ≤ 4) && q.h.src == p.h.src &&
              hChan q.h == hChan p.h && hSeq q.h == hSeq p.h) with
          | some q => if q.pop = o.pop ∧ q.addr = o.addr then go s else clash s
          | none => if s.resultsFull then (s.bump Reg.resultFull).answerPool p.h o.pop Code.capacity 0 []
          else go s
      else go s

/-- VC6 requests being performed: INFLIGHT (R318). -/
def State.poolBusy (s : State) : Nat := (s.pool.inflight.filter (fun o => decide (o.pop < 8))).length

/-- A command that takes the head request when its POP is the row's (R300). POP 0 also stands for a
request whose POP is reserved or cannot be read, which the device answers LEN_ERR. -/
def poolTake (pop : Nat) (s : State) : Host.Outcome State Fault Refusal :=
  if !s.powered then .next s
  else match s.pool.inq with
    | [] => .next s
    | inb :: _ =>
      let q := if inb.pkt.payload.length < 16 then 0 else u8 inb.pkt.payload 0 % 16
      let row := if 5 < q then 0 else q
      if row = pop && decide (s.poolBusy < 4096) then .next (s.takePoolReq inb) else .next s

/-- POOL_READ (R300). -/
def execPoolRead (s : State) : Host.Outcome State Fault Refusal := poolTake 0 s
/-- POOL_WRITE (R300). -/
def execPoolWrite (s : State) : Host.Outcome State Fault Refusal := poolTake 1 s
/-- POOL_AADD64 (R304). -/
def execPoolAadd64 (s : State) : Host.Outcome State Fault Refusal := poolTake 2 s
/-- POOL_AADDF32 (R304). -/
def execPoolAaddf32 (s : State) : Host.Outcome State Fault Refusal := poolTake 3 s
/-- POOL_CAS64 (R304). -/
def execPoolCas64 (s : State) : Host.Outcome State Fault Refusal := poolTake 4 s
/-- POOL_MCREAD (R306). -/
def execPoolMcread (s : State) : Host.Outcome State Fault Refusal := poolTake 5 s

/-! ### Host accesses (R389, R390) -/

/-- The MetaField of an S2M response; a PCIe completion has none. -/
def State.metaField (s : State) : Option MetaField := if s.host.cxlMode then some .noOp else none

/-- Answer a host access, while the link is up. -/
def State.hostAnswer (s : State) (e : Emit) : State := if s.host.linkUp then s.emit e else s

/-- A read answered with Poison or EP set; its bytes are not stated. -/
def State.hostPoison (s : State) (addr n : Nat) : State :=
  let r := ((s.bump Reg.hostPoisonRd).bump Reg.ueAnswers).freeBytes n
  r.2.hostAnswer (.hostData addr r.1 true s.metaField)

/-- The General Media Event record of a dropped partial write (R390). -/
def State.ptlDrop (s : State) (line : Nat) : State :=
  let m := memOf (64 * s.homeLine line)
  (s.bump Reg.hostPtlDrop).logEvent
    { ftime := s.ftimeOr0, seq := s.fault.next, cls := 0x0E, severity := 1, action := 0, code := 0,
      block := if m < 12 then 6 else 7, index := BitVec.ofNat 16 (if m < 12 then m else m - 12),
      detail := w64 (64 * line), ctx := none }

/-- The answer to a CXL.mem write; a PCIe write is posted (R389). -/
def State.hostWrote (s : State) (o : PoolOp) : State :=
  match s.metaField with
  | some m => if o.lastPiece then s.hostAnswer (.hostDone o.hostAt m) else s
  | none => s

/-- One piece of a write within a 64-byte line, performed whole: a partial write to a poisoned line is dropped. -/
def State.hostPiece (s : State) (o : PoolOp) : State :=
  let whole := o.bytes.length == 64 && o.bytes.all (·.isSome)
  if whole then ((s.memWrite o.addr (o.bytes.map (·.getD 0))).memBytes o.addr 64 true).hostWrote o
  else if s.meetsUe o.addr o.len false then ((s.ptlDrop (o.addr / 64)).bump Reg.ueAnswers).hostWrote o
  else ((s.memWriteSome o.addr o.bytes).memBytes o.addr o.len true).hostWrote o

/-- Refused reads answer with all ones and Poison or EP, while the pool is unavailable (R391). -/
def State.hostOnes (s : State) (addr n : Nat) : State :=
  ((s.bump Reg.hostMemRefused).bump Reg.hostPoisonRd).hostAnswer (.hostData addr (List.replicate n 0xFF) true s.metaField)

/-- A host access while the pool is unavailable: a write is dropped, and completed over CXL.mem (R391, log entry 65). -/
def State.hostUnavailable (s : State) (o : PoolOp) : State :=
  if o.pop = 9 then (s.bump Reg.hostMemRefused).hostWrote o else s.hostOnes o.hostAt (opSpan o)

/-- Perform a host access (R389, R390). -/
def State.hostPerform (s : State) (o : PoolOp) : State :=
  if o.pop = 8 then
    if s.meetsUe o.addr o.len false then s.hostPoison o.hostAt o.len
    else (s.memBytes o.addr o.len false).hostAnswer (.hostData o.hostAt (s.memRead o.addr o.len) false s.metaField)
  else if o.pop = 9 then s.hostPiece o
  else if s.meetsUe o.addr 8 false then s.hostPoison o.hostAt 8
  else
    let r := ((s.memBytes o.addr 8 false).memBytes o.addr 8 true).atomic (if o.pop = 11 then 4 else 2) o.addr
      (u64 o.data 0) (u64 o.data 8)
    r.2.hostAnswer (.hostData o.hostAt (leBytes 8 r.1) false s.metaField)

/-- An uncorrectable answer (R314). -/
def State.answerUe (s : State) (o : PoolOp) : State := (s.bump Reg.ueAnswers).answerPool o.h o.pop Code.internal 0 []

/-- Perform an operation at its controller and answer it (R301-R307, R314). -/
def State.performOp (s : State) (o : PoolOp) (obs : MemObs) : State :=
  let n := opSpan o
  let wholeWrite := o.pop == 1 || (o.pop == 9 && o.bytes.length == 64 && o.bytes.all (·.isSome))
  let s := (s.observe o.addr n (!wholeWrite) obs (if o.pop < 8 then some o.ctx else none)).memDone o.addr n
  if 8 ≤ o.pop then s.hostPerform o
  else if o.pop = 0 then
    if s.meetsUe o.addr n false then s.answerUe o
    else (s.memBytes o.addr n false).answerPool o.h 0 0 o.len (s.memRead o.addr o.len)
  else if o.pop = 1 then
    if s.meetsUe o.addr n true then s.answerUe o
    else ((s.memWrite o.addr (o.data.take o.len)).memBytes o.addr n true).answerPool o.h 1 0 0 []
  else if o.pop = 5 then
    if s.meetsUe o.addr n false then s.answerUe o
    else
      let f : HdrFields :=
        { dest := w32 o.group, src := s.ownUnit unitPool, len := 0, vc := 7, mc := true, part := hPart o.h,
          chan := hChan o.h, seq := hSeq o.h, hop := s.regN Reg.poolHop }
      let data := leBytes 4 (pack [(8, 5), (16, o.len)]) ++ leBytes 4 0 ++ slice o.data 0 8 ++ s.memRead o.addr o.len
      ((s.memBytes o.addr n false).send .answer (mkPacket f data)).answerPool o.h 5 0 0 []
  else
    let entry := fun (code : Nat) (old : Nat) (s : State) => s.enterResult
      { src := o.h.src, chan := BitVec.ofNat 12 (hChan o.h), seq := BitVec.ofNat 16 (hSeq o.h), ctx := o.ctx,
        pop := o.pop, addr := o.addr, code := byte code, old := w64 old, madeAt := s.now }
    match s.pool.results.find? (resultKey o.h) with
    | some e =>
      if e.poisoned then s.answerPool o.h o.pop Code.internal 0 []
      else if e.pop = o.pop ∧ e.addr = o.addr then
        (s.bump Reg.resultHits).answerPool o.h o.pop e.code.toNat (if e.code = 0 then 8 else 0)
          (if e.code = 0 then oldBytes e.old.toNat else [])
      else (s.bump Reg.resultConflict).answerPool o.h o.pop Code.contract 0 []
    | none =>
      if s.meetsUe o.addr n false then (entry Code.internal 0 s).answerUe o
      else
        let (old, s) := ((s.memBytes o.addr n false).memBytes o.addr n true).atomic o.pop o.addr (u64 o.data 0) (u64 o.data 8)
        (entry 0 old s).answerPool o.h o.pop 0 8 (oldBytes old)

/-- Perform the `k`-th operation in flight, when its line order, controllers and cache let it. -/
def State.tryPerform (s : State) (k : Nat) (obs : MemObs) : State :=
  match s.pool.inflight[k]? with
  | none => s
  | some o =>
    if s.poolAhead o.addr (opSpan o) o.reach then s
    else if !s.memAwake o.addr (opSpan o) then s.memDemand o.addr (opSpan o)
    else
      let (ok, s) := s.cacheAccess o.addr (opSpan o)
      if !ok then s
      else (s.modPool (fun p => { p with inflight := p.inflight.eraseIdx k })).performOp o obs

/-- POOL_ACCESS_PERFORMED (R303). -/
def execPoolAccessPerformed (k : Nat) (obs : MemObs) (s : State) : Host.Outcome State Fault Refusal :=
  if s.powered then .next (s.tryPerform k obs) else .next s

/-! ### Cache commands -/

/-- CACHE_FILL_COMPLETE (R309): the block is filled, and an access that waited for it is performed. -/
def execCacheFillComplete (id : Fin 256) (w : Fin 16) (blk : Nat) (obs : MemObs) (s : State) :
    Host.Outcome State Fault Refusal :=
  if !s.powered then .next s else
  if !(s.cacheWin id w).filling.contains blk then .next s
  else
    let ms := (s.win id w).fillMems blk
    if !s.awakeMems ms then .next (s.demandMems ms)
    else
    let s := s.observe (blk * 4096) 4096 true obs (some id.val)
    let s := s.fillBlock id w blk false
    let k := s.pool.inflight.findIdx (fun o => (blocksOf o.addr (opSpan o)).contains blk &&
      s.resident o.addr (opSpan o))
    .next (s.tryPerform k .clean)

/-- PREFETCH_FILL_COMPLETE (R310, R311). -/
def execPrefetchFillComplete (id : Fin 256) (w : Fin 16) (blk : Nat) (obs : MemObs) (s : State) :
    Host.Outcome State Fault Refusal :=
  if !s.powered then .next s else
  let x := s.cacheWin id w
  let ms := (s.win id w).fillMems blk
  if !x.prefetching.contains blk then .next s
  else if !s.awakeMems ms then .next (s.demandMems ms)
  else
    -- an error found now stays with its line, for the demand access that later reads it
    let s := match obs with
      | .uncorrectable l => if l / 64 = blk then s.modPool (fun p => { p with latent := p.latent ++ [(l, false)] }) else s
      | .corrected l => s.ceFound l
      | .clean => s
    let ues := (s.pool.latent.filter (fun e => !e.2)).map (·.1) ++ s.pool.poisoned
    match ues.find? (fun l => l / 64 == blk) with
    | some l =>
      let s := (s.bump Reg.pfUe).setCache { x with prefetching := x.prefetching.filter (· != blk) }
      let m := memOf (64 * l)
      .next (s.logFault
        { cls := 0x0F, sev := 1, act := 2, block := if m < 12 then 6 else 7,
          index := if m < 12 then m else m - 12, detail := w64 (64 * l), ctx := some id.val })
    | none => .next (done s)
where
  /-- The block is in the backing, and the fill is counted. -/
  done (s : State) : State :=
    let s := (s.fillBlock id w blk true).bump Reg.pfFills
    (s.countEv 240 0x85 1).countEv (memBlk (memOf (s.win id w).cbase)) 0x85 1

/-- CACHE_WRITEBACK_COMPLETE (R312): the oldest write-back of the window ends; a fence pauses it, and controllers that
sleep are woken for it first (R30). -/
def execCacheWritebackComplete (id : Fin 256) (w : Fin 16) (s : State) : Host.Outcome State Fault Refusal :=
  if !s.powered then .next s else
  let mine := fun (f : Flush) => f.ctx == id.val && f.win == w.val
  match s.pool.flushing.find? mine with
  | none => .next s
  | some f =>
    let ms := f.blks.flatMap (fun b => (winOf f.ws).fillMems b.blk)
    if s.fenceActive then .next s
    else if !s.awakeMems ms then .next (s.demandMems ms)
    else .next ((s.modPool (fun p => { p with flushing := dropFirst mine p.flushing })).endFlush f)

/-! ### Scrub and self-refresh (R315, R317) -/

/-- The first line of a controller, and the line after one, with whether a sweep ended. -/
def firstLine (m : Nat) : Nat := if m < 12 then 256 * m else subsoilBase + 256 * (m - 12)
def nextLine (m a : Nat) : Nat × Bool :=
  let b := if a % 256 < 192 then a + 64 else a - 192 + 256 * (if m < 12 then 12 else 16)
  if (if m < 12 then loamEnd else subsoilEnd) ≤ b then (firstLine m, true) else (b, false)

/-- Scrub finds a physical line uncorrectable: it is marked, a clean block's line is refetched, and a line that no access
reads now stays marked for what reads it later (R314-R316). -/
def State.scrubUe (s : State) (l : Nat) : State :=
  match s.viewLine l with
  | some v => if v ≠ l && s.cleanInBacking (64 * v) then s.bump (memReg (memOf (64 * l)) 4) else s.ueMark l v 0x0F 0 none
  | none => s.ueHidden l

/-- Scrub corrects a line: counted, and one LATENT entry (R313, R405, R406). -/
def State.scrubCe (s : State) (m l : Nat) : State :=
  ((s.bump (memReg m 4)).bump (memReg m 0x28)).logFault (lineFault l 0x0F 1 0 none)

/-- PATROL_SCRUB (R315): the controller reads and corrects its next line. -/
def execPatrolScrub (m : Fin 28) (obs : MemObs) (s : State) : Host.Outcome State Fault Refusal :=
  if !s.powered then .next s else
  let c := s.memCtl m
  if !bit (s.reg Reg.poolCtrl) 1 || c.st ≠ .active then .next s
  else
    let a := if memOf c.scrubPos = m.val ∧ inPool c.scrubPos 64 then c.scrubPos else firstLine m
    let held := (s.pool.latent.find? (fun e => e.1 == a / 64)).map (·.2)
    let s := s.modPool (fun p => { p with latent := p.latent.filter (fun e => e.1 != a / 64) })
    let s := match obs, held with
      | .uncorrectable _, _ => s.scrubUe (a / 64)
      | _, some false => s.scrubUe (a / 64)
      | .corrected _, _ => s.scrubCe m (a / 64)
      | _, some true => s.scrubCe m (a / 64)
      | .clean, none => s
    let (b, wrap) := nextLine m a
    -- the line's read takes part of a cycle at the least
    let s := ((s.countEv (memBlk m) 0x84 1).countEv (memBlk m) 0x80 64).countEv (memBlk m) 0x82 1
    .next (s.modMem m (fun c => { c with
      scrubPos := b, passes := if wrap then min (c.passes + 1) 0xFFFFFFFF else c.passes }))

/-- The controller holds a pending access: of the pool unit, of a core or of a DMA engine, or a fill, a prefetch or a
write-back of a cached window. -/
def State.memPending (s : State) (m : Nat) : Bool :=
  s.pendingAccs.any (fun p => (s.memsFor p.1 p.2.1).contains m) ||
  s.pool.cache.any (fun x => (x.filling ++ x.prefetching).any (fun b => ((s.win x.ctx x.win).fillMems b).contains m)) ||
  s.pool.flushing.any (fun f => f.blks.any (fun b => ((winOf f.ws).fillMems b.blk).contains m))

/-- SELF_REFRESH_ENTRY (R317). -/
def execSelfRefreshEntry (m : Fin 28) (s : State) : Host.Outcome State Fault Refusal :=
  if !s.powered then .next s else
  let c := s.memCtl m
  if c.st = .active ∧ !s.memPending m ∧ c.lastAccess + s.regN Reg.memIdle * us ≤ s.now then
    .next (s.modMem m (fun c => { c with st := .selfRefresh }))
  else .next s

/-- SELF_REFRESH_SCRUB_WAKE (R315): the controller wakes for the lines that have fallen due. -/
def execSelfRefreshScrubWake (m : Fin 28) (s : State) : Host.Outcome State Fault Refusal :=
  if !s.powered then .next s else
  if (s.memCtl m).st = .selfRefresh ∧ bit (s.reg Reg.poolCtrl) 1 then
    .next (s.modMem m (fun c => { c with st := .waking }))
  else .next s

end Sys2Proof.Machine
end

