-- ==== Sys2Proof/Machine/Replay.lean ====
section
/-! DEFINITION. Recording and replaying a context (R328-R341): making records, stopping a recording,
reading a log back, and the record queue. -/

namespace Sys2Proof.Machine

def State.rplOf (s : State) (c : Nat) : Rpl := sget {} s.rpl c
def State.modRpl (s : State) (c : Nat) (f : Rpl → Rpl) : State := { s with rpl := smod {} s.rpl c f }
def State.recording (s : State) (c : Nat) : Bool := decide ((s.rplOf c).st = .recording)
def State.replaying (s : State) (c : Nat) : Bool := decide ((s.rplOf c).st = .replaying)
def State.logBase (s : State) (c : Nat) : Nat := s.regN (Reg.logBase c)
def State.logBytes (s : State) (c : Nat) : Nat := 4096 * s.regN (Reg.logSize c)

/-- Contexts recording or replaying: RPL_ACTIVE (R341). -/
def State.rplActive (s : State) : Nat :=
  (s.rpl.filter (fun e => e.2.st = .recording ∨ e.2.st = .replaying)).length

/-! ### Making records (R329-R333) -/

/-- Who makes a record (R330). -/
structure RecSrc where
  bench : Nat
  core : Nat := 0
  engine : Bool := false
  deriving DecidableEq, Repr

/-- The collective unit or frit path unit (R330). -/
def recColl : RecSrc := { bench := 0x7F, engine := true }

/-- Bytes a record of `n` body bytes takes. -/
def recSize (n : Nat) : Nat := 32 + 32 * cdiv n 32

/-- The bytes of a record (R330). -/
def recBytes (ft : W64) (rtype : Nat) (src : RecSrc) (rseq aux : Nat) (body : List Byte) : List Byte :=
  let h := leBytes 8 ft.toNat ++ [byte rtype, byte src.bench, byte (src.core + 8 * b2n src.engine), 0] ++
    leBytes 4 body.length ++ leBytes 4 rseq ++ leBytes 4 aux ++ leBytes 4 0
  h ++ leBytes 4 (crc32c (h ++ body)).toNat ++ body ++ List.replicate (32 * cdiv body.length 32 - body.length) 0

/-- Bytes in the record queue: RECQ_DEPTH (R341). -/
def State.recqDepth (s : State) : Nat := s.recq.foldl (fun a r => a + r.2.2.length) 0

/-- Bytes of context `c` that wait in the record queue. -/
def State.recqOf (s : State) (c : Nat) : Nat := s.recq.foldl (fun a r => if r.1 = c then a + r.2.2.length else a) 0

/-- LOG_USED: bytes written, or in replay consumed; what waits in the record queue is not written yet (R329). -/
def State.logUsed (s : State) (c : Nat) : Nat := (s.rplOf c).used - s.recqOf c

/-- The record queue has room for a record of `n` body bytes of context `c`, or `c` makes none (R333). -/
def State.recRoom (s : State) (c n : Nat) : Bool :=
  !s.recording c || decide (s.recqDepth + recSize n ≤ 4194304)

/-- Write the records queued to Subsoil; one whose channels sleep waits for them to wake (R30, R333). -/
def State.drainRecq (s : State) : State :=
  let r := s.recq.foldl (fun (t : State × List (Nat × Nat × List Byte)) r =>
    if t.1.memAwake r.2.1 r.2.2.length then (t.1.memStore r.2.1 r.2.2, t.2)
    else (t.1.memDemand r.2.1 r.2.2.length, t.2 ++ [r])) (s, [])
  { r.1 with recq := r.2 }

/-- Write every queued record, waiting for channels that sleep. -/
def State.flushRecq (s : State) : State :=
  { s.recq.foldl (fun s r => (s.memServe r.2.1 r.2.2.length).memStore r.2.1 r.2.2) s with recq := [] }

/-- Queue a record at the log's end and number it. A record point that no stall precedes (START, STOP, and the OUT
record of a packet already made) waits for the queue to drain when it is full, so 4 MiB is never passed. -/
def State.pushRec (s : State) (c rtype : Nat) (src : RecSrc) (aux : Nat) (body : List Byte) : State :=
  let s := if 4194304 < s.recqDepth + recSize body.length then s.flushRecq else s
  let r := s.rplOf c
  let bs := recBytes s.ftimeOr0 rtype src r.rseq aux body
  { s with recq := s.recq ++ [(c, s.logBase c + r.used, bs)] }.modRpl c (fun r => { r with
    used := r.used + bs.length, rseq := r.rseq + 1 })

/-- Stop a recording with a STOP record and its reason (R334). -/
def State.recStop (s : State) (c reason : Nat) : State :=
  if s.recording c then
    (s.pushRec c 0x08 recColl reason []).modRpl c (fun r => { r with
      st := .stopped, reason := BitVec.ofNat 3 reason, code := 0, overflow := reason == 1 })
  else s

/-- A record point of context `c` (R331): a record that does not fit before the final 32 bytes stops
the recording with OVERFLOW (R334). -/
def State.record (s : State) (c rtype : Nat) (src : RecSrc) (aux : Nat) (body : List Byte) : State :=
  if s.recording c then
    if s.logBytes c < (s.rplOf c).used + recSize body.length + 32 then s.recStop c 1
    else s.pushRec c rtype src aux body
  else s

/-- A packet of context `c` on its way toward the fabric (R331, R337). True: it is sent. `out`: its kind makes an
OUT record; OFFSETS makes none. -/
def State.ctxOut (s : State) (c : Nat) (src : RecSrc) (p : Packet) (out : Bool := true) : Bool × State :=
  let r := s.rplOf c
  match r.st with
  | .recording => (true, if r.outEn && out then s.record c 0x07 src 0 (packetBytes p) else s)
  | .replaying =>
    let n := recSize (packetBytes p).length
    if r.outEn && out && decide (r.outPos + n ≤ s.logBytes c) then
      let bs := recBytes s.ftimeOr0 0x07 src r.outSeq 0 (packetBytes p)
      (false, ((s.memServe (s.logBase c + r.outPos) n).memStore (s.logBase c + r.outPos) bs).modRpl c (fun r => { r with
        outPos := r.outPos + n, outSeq := r.outSeq + 1 }))
    else (false, s)
  | _ => (true, s)

/-! ### Reading a log (R336, R338) -/

structure Rec where
  ft : W64
  rtype : Nat
  src : RecSrc
  rseq : Nat
  aux : Nat
  body : List Byte
  deriving DecidableEq, Repr

/-- An AUX bit that R331 has at 0 for the record type is 1. -/
def auxBad (t aux : Nat) : Bool :=
  if t = 1 ∨ t = 6 ∨ t = 7 then aux != 0
  else if t = 3 ∨ t = 8 then decide (8 ≤ aux)
  else if t = 4 then decide (4 ≤ aux)
  else if t = 5 then decide (8192 ≤ aux)
  else false

/-- Parse the record at `a`, expected to be number `n`: the record and its size, or the code of R338. A log line that
cannot be read counts as a record that fails its CRC (log entry 64). -/
def State.parseRec (s : State) (a n : Nat) : Rec × Nat ⊕ Nat :=
  let h := s.memRead a 32
  let t := u8 h 8
  let len := u32 h 12
  if s.meetsUe a 32 false then .inr Code.poison else
  if t = 0 ∨ 8 < t ∨ 128 ≤ u8 h 9 ∨ 16 ≤ u8 h 10 ∨ u8 h 11 ≠ 0 ∨ u32 h 24 ≠ 0 ∨ u32 h 16 ≠ n ∨ 8220 < len ∨
      auxBad t (u32 h 20) then
    .inr Code.lenErr
  else
    let body := s.memRead (a + 32) len
    if s.meetsUe (a + 32) len false || decide ((crc32c (h.take 28 ++ body)).toNat ≠ u32 h 28) then .inr Code.poison
    else
      let src : RecSrc := { bench := u8 h 9, core := u8 h 10 % 8, engine := decide (8 ≤ u8 h 10) }
      .inl ({ ft := w64 (u64 h 0), rtype := t, src := src, rseq := n, aux := u32 h 20, body := body },
        recSize len)

/-- What a consumer meets: its next record, or the code it diverges with. -/
inductive RplNext where
  | entry (r : Rec)
  | fail (code rseq : Nat)
  deriving DecidableEq, Repr

/-- The next unconsumed record from log offset `off`, number `n`, that `p` names (R336). -/
def State.scanLog (s : State) (c : Nat) (p : Rec → Bool) (skip : List Nat) : Nat → Nat → Nat → RplNext
  | 0, _, n => .fail Code.incomplete n
  | f + 1, off, n =>
    match s.parseRec (s.logBase c + off) n with
    | .inr code => .fail code n
    | .inl (r, k) =>
      if r.rtype = 0x08 then .fail Code.incomplete n
      else if p r && !skip.contains n then .entry r
      else s.scanLog c p skip f (off + k) (n + 1)

/-- The next record for a consumer. -/
def State.rplNext (s : State) (c : Nat) (p : Rec → Bool) : RplNext :=
  s.scanLog c p (s.rplOf c).consumed (s.logBytes c / 32) 0 0

/-- Offset of the end of the STOP record and its number. -/
def State.logEnd (s : State) (c : Nat) : Nat → Nat → Nat → Nat × Nat
  | 0, off, n => (off, n)
  | f + 1, off, n =>
    match s.parseRec (s.logBase c + off) n with
    | .inr _ => (off, n)
    | .inl (r, k) => if r.rtype = 0x08 then (off + k, n + 1) else s.logEnd c f (off + k) (n + 1)

/-- Every record up to STOP but the OUT records is consumed. -/
def State.allConsumed (s : State) (c : Nat) : Bool :=
  match s.rplNext c (fun r => r.rtype != 0x07) with
  | .entry _ => false
  | .fail code _ => code == Code.incomplete

/-- Every record with a lower number than `n` but OUT is consumed. -/
def State.lowerConsumed (s : State) (c n : Nat) : Bool :=
  match s.rplNext c (fun r => r.rtype != 0x07) with
  | .entry r => decide (n ≤ r.rseq)
  | .fail _ m => decide (n ≤ m)

/-- The device reads `n` bytes of the log at `a`: the controllers that sleep wake for it (R30). -/
def State.logRead (s : State) (a n : Nat) : State := (s.memServe a n).memBytes a n false

/-- Consume a record: it is read from the log, where `RPL.used` counts the bytes consumed. -/
def State.consume (s : State) (c : Nat) (r : Rec) : State :=
  (s.logRead (s.logBase c + (s.rplOf c).used) (recSize r.body.length)).modRpl c (fun x => { x with
    consumed := insertNat r.rseq x.consumed, used := x.used + recSize r.body.length, rseq := x.rseq + 1 })

/-- The records that name a core (R336). -/
def recOfCore (b k : Nat) (r : Rec) : Bool :=
  !r.src.engine && r.src.bench == b && r.src.core == k && (r.rtype == 3 || r.rtype == 5 || r.rtype == 6)

/-- The records that name a bench's adder engine (bench 0x7F: the frit path unit). -/
def recOfEngine (b : Nat) (r : Rec) : Bool := r.rtype == 4 && r.src.bench == b && r.aux / 2 % 2 == 0

/-- The upper-tier records of the collective unit. -/
def recUpper (r : Rec) : Bool := r.rtype == 4 && r.aux / 2 % 2 == 1

/-- No launch of the context runs; one taken that still waits for its benches does not run. -/
def State.noRuns (s : State) (c : Nat) : Bool := !s.launch.runs.any (fun r => r.ctx == c && r.started)

/-- Replay ends DONE when every record is consumed and no launch runs (R338). -/
def State.checkRplDone (s : State) (c : Nat) : State :=
  if s.replaying c && s.allConsumed c && s.noRuns c then s.modRpl c (fun r => { r with st := .done, code := 0 })
  else s

/-- End a replay for MODE 0, teardown or fence (R338). -/
def State.rplStopped (s : State) (c code : Nat) : State :=
  if s.replaying c then s.modRpl c (fun r => { r with st := .stopped, code := byte code }) else s

/-! ### Starting and stopping (R328, R332) -/

/-- The window that holds the whole log: Subsoil, writable, of the context. -/
def State.logWindowOk (s : State) (c : Nat) : Bool :=
  match s.findWin c (s.logBase c) (s.logBytes c) with
  | some w => w.tier && w.wr
  | none => false

/-- Which benches' launches and instances make a start not CLEAN. -/
def State.rplClean (s : State) (c : Nat) : Bool :=
  s.noRuns c && !s.coll.insts.any (fun i => fld i.key.handle 12 8 == c &&
    (i.st = .running || i.st = .counting))

/-- The START body (R332). -/
def State.startBody (s : State) (c : Nat) (outEn : Bool) : List Byte :=
  let x := s.ctx c
  [byte c, x.gen, byte (b2n (s.rplClean c) + 2 * b2n outEn), x.part] ++ leBytes 4 (s.regN Reg.fwVersion % 2 ^ 24) ++
  leBytes 8 x.jobSeed.toNat ++ leBytes 16 x.benchSet.toNat ++ leBytes 16 disabledMap.toNat ++
  leBytes 8 s.ftimeOr0.toNat ++ leBytes 8 0

/-- DBA_EN and the context's STEAL_OK bit (R213). -/
def State.stealing (s : State) (c : Nat) : Bool :=
  bit (s.reg Reg.benchCommonCtrl) 0 && bit (s.reg (Reg.stealOk (c / 32))) (c % 32)

/-- The first failing condition of R328 for MODE 1 or 2; OK when none. -/
def State.rplCode (s : State) (c : Nat) (v : W64) : Nat :=
  let x := s.ctx c
  let size := s.regN (Reg.logSize c)
  if x.fenced then Code.fenced
  else if x.st ≠ .opened then Code.closed
  else if !bit x.perms 2 || s.stealing c then Code.perm
  else if 8 ≤ v.toNat || size < 16 || 1048576 < size then Code.lenErr
  else if s.logBase c % 4096 ≠ 0 || !s.logWindowOk c then Code.addr
  else
    let startOk := match s.parseRec (s.logBase c) 0 with
      | .inl (r, _) => r.rtype == 1 && r.body.length == 64 && u64 r.body 8 == x.jobSeed.toNat &&
          ofLe (slice r.body 16 16) == x.benchSet.toNat
      | .inr _ => false
    if fld v 0 2 = 2 && !startOk then Code.contract
    else if 8 ≤ s.rplActive then Code.capacity
    else Code.ok

/-- A write to RPL_CTRL (R328); the handler sees the reserved bits. -/
def wrRplCtrl (c : Nat) : WriteFn := fun s v =>
  let mode := fld v 0 2
  let outEn := bit v 2
  let s' := s.setReg (Reg.rplCtrl c) (w64 (fld v 0 3))
  let busy := s.recording c || s.replaying c
  if mode = 3 || (busy && mode ≠ 0) then none
  else if mode = 0 then some ((s'.recStop c 0).rplStopped c Code.ok)
  else
    let code := s.rplCode c v
    if code ≠ 0 then some (s'.modRpl c (fun r => { r with st := .refused, code := byte code }))
    else if mode = 1 then
      let new : Rpl := { st := .recording, clean := s.rplClean c, fwMatch := true, mapMatch := true, outEn := outEn, mode := 1 }
      some ((s'.modRpl c (fun _ => new)).record c 0x01 recColl 0 (s.startBody c outEn))
    else
      let body := s.memRead (s.logBase c + 32) 64
      let e := s.logEnd c (s.logBytes c / 32) 0 0
      let new : Rpl :=
        { st := .replaying, clean := u8 body 2 % 2 == 1, outEn := outEn, mode := 2,
          fwMatch := u32 body 4 == s.regN Reg.fwVersion % 2 ^ 24,
          mapMatch := ofLe (slice body 32 16) == disabledMap.toNat,
          used := 96, rseq := 1, consumed := [0], outPos := e.1, outSeq := e.2 }
      some (((s'.logRead (s.logBase c) e.1).modRpl c (fun _ => new)).checkRplDone c)

/-- A command that writes RPL_CTRL. -/
def rplWrite (r : Requester) (c mode : Nat) (outEn : Bool) (s : State) : Host.Outcome State Fault Refusal :=
  writeCmd s r (Reg.rplCtrl c) (w64 (mode + 4 * b2n outEn)) (wrRplCtrl c) true

/-- RPL_RECORD_START (R328). -/
def execRplRecordStart (r : Requester) (id : Fin 256) (outEn : Bool) (s : State) :
    Host.Outcome State Fault Refusal := rplWrite r id 1 outEn s

/-- RPL_REPLAY_START (R328). -/
def execRplReplayStart (r : Requester) (id : Fin 256) (outEn : Bool) (s : State) :
    Host.Outcome State Fault Refusal := rplWrite r id 2 outEn s

/-- RPL_STOP (R334): MODE 0. -/
def execRplStop (r : Requester) (id : Fin 256) (outEn : Bool) (s : State) :
    Host.Outcome State Fault Refusal := rplWrite r id 0 outEn s

/-- LOG_BASE and LOG_SIZE are not written while the context records or replays (R340). -/
def wrLogReg (off c : Nat) : WriteFn := fun s v =>
  if s.recording c || s.replaying c then none else some (s.setReg off v)

/-- RECQ_STALL_RELEASE (R333): the record queue drains to Subsoil, and stalled record points proceed. -/
def execRecqStallRelease (s : State) : Host.Outcome State Fault Refusal :=
  if !s.powered then .next s
  else
    let s := s.drainRecq
    .next ((skeys s.cores).foldl (fun s k => match (s.core k).wait with
      | some w => if w.kind = .record then s.modCore k (fun c => { c with run := .running, wait := none }) else s
      | none => s) s)

/-! ### Window writes (R293, R294, R334) -/

/-- A window change stops the recording whose log lay in the replaced window (R334, reason 4). -/
def State.windowChanged (s : State) (c w : Nat) : State :=
  if (s.win c w).valid && logIn (s.logBase c) (s.logBytes c) (s.win c w) then s.recStop c 4 else s

/-- A write to WIN_CMD (R293). -/
def wrWinCmd : WriteFn := fun s v =>
  if s.now < s.pool.winBusyUntil then none
  else
    let c := fld v 0 8
    let w := fld v 8 4
    let ws := (List.range 8).map (fun k => w32 (s.regN (Reg.winStage k)))
    let code := s.winCode c w ws
    let s1 := if code ≠ 0 then s
      else (((s.windowChanged c w).startFlush c w).setWin c w (if (winOf ws).valid then ws else [])).unhide
    some (s1.modPool (fun p => { p with
      winResult := w32 (pack [(0, code), (16, c), (24, w)]), winBusyUntil := s.now + us }))

/-- WINDOW_WRITE (R293). -/
def execWindowWrite (r : Requester) (v : W32) (s : State) : Host.Outcome State Fault Refusal :=
  writeCmd s r Reg.winCmd (w64 v.toNat) wrWinCmd

end Sys2Proof.Machine
end

