-- ==== Sys2Proof/Machine/Coll.lean ====
section
/-! DEFINITION. Collectives: entries, admission, the instance lifecycle, statuses, results and twin
pour (R113-R157), shared by the arrivals, the adder engines, the frit path and the fused
instructions. -/

namespace Sys2Proof.Machine

/-! ### Entries (R114-R118) -/

/-- A collective table entry (R114). -/
structure Entry where
  valid : Bool
  op : Nat
  etype : Nat
  rtype : Nat
  mode : Nat
  round : Nat
  place : Nat
  twin : Bool
  frit : Bool
  varsize : Bool
  program : Bool
  upperEn : Bool
  members : Nat
  e : Nat
  window : Nat
  total : Nat
  group : Nat
  timeout : Nat
  upperCoord : W32
  upperHandle : Nat
  upperGen : Nat
  upperMember : Nat
  progEntry : Nat
  mtab : Nat
  mtabEn : Bool
  deriving DecidableEq, Repr

def entryOf (ws : List W32) : Entry :=
  let w := fun (i : Nat) => ws.getD i 0
  { valid := bit (w 0) 0, op := fld (w 0) 1 4, etype := fld (w 0) 5 4, rtype := fld (w 0) 9 4,
    mode := fld (w 0) 13 2, round := fld (w 0) 15 2, place := fld (w 0) 17 2, twin := bit (w 0) 19,
    frit := bit (w 0) 20, varsize := bit (w 0) 21, program := bit (w 0) 22, upperEn := bit (w 0) 23,
    members := fld (w 1) 0 13, e := fld (w 2) 0 16, window := fld (w 2) 16 13,
    total := (w 3).toNat + fld (w 4) 0 8 * 2 ^ 32, group := fld (w 5) 0 12, timeout := fld (w 5) 12 14,
    upperCoord := w 6, upperHandle := fld (w 7) 0 20, upperGen := fld (w 7) 20 8,
    upperMember := fld (w 8) 0 12, progEntry := fld (w 9) 0 16,
    mtab := fld (w 10) 6 26 * 64 + fld (w 11) 0 16 * 2 ^ 32, mtabEn := bit (w 11) 16 }

/-- Chunks of `total` elements (R116). -/
def nchunks (total e : Nat) : Nat := if e = 0 then 0 else cdiv total e

/-- Elements of chunk `c`. -/
def chunkElems (total e c : Nat) : Nat := min e (total - c * e)

/-- Invalid under R116 or R181; `n` is the size of the owner list. -/
def entryInvalid (x : Entry) (n : Nat) : Bool :=
  x.op == 15 || decide (13 ≤ x.etype) || decide (13 ≤ x.rtype) || x.mode == 3 || x.round == 3 ||
  decide (x.members < 2 ∨ 4096 < x.members) || x.e == 0 || decide (8168 < elemBytes x.etype x.e) ||
  x.window == 0 || decide (4096 < x.window) || decide (10000 < x.timeout) ||
  (!x.varsize && (x.total == 0 || decide (16777215 < nchunks x.total x.e))) ||
  ((isMx x.etype || isMx x.rtype) && (x.e % 32 != 0 || (!x.varsize && x.total % 32 != 0))) ||
  (x.op != 0 && !x.program) || (x.op == 4 && !x.varsize) || (x.varsize && x.op != 0 && x.op != 4) ||
  (x.place != 0 && !x.mtabEn) || (x.twin && (decide (n < 2) || x.frit)) ||
  (x.frit && (x.op != 0 || x.program || x.mode != 2 || x.varsize || decide (512 < x.members) ||
    decide (256 < elemBytes x.etype x.total))) ||
  (x.upperEn && decide (8168 < x.e * partMax x.mode x.etype))

/-- The contract digest (R118). -/
def digest (x : Entry) (total : Nat) (step : W32) : W32 :=
  crc32c ([byte x.op, byte x.etype, byte x.mode, byte x.rtype] ++ leBytes 2 x.members ++ [0, 0] ++
    leBytes 8 total ++ leBytes 4 step.toNat ++ [0, 0, 0, 0])

def handleCtx (h : BitVec 20) : Nat := fld h 12 8

/-- Where the handle's entry lies (R113). -/
def State.entryAddr (s : State) (h : BitVec 20) : Nat := (s.ctx (handleCtx h)).collBase + 64 * fld h 0 12

def State.readWords (s : State) (a n : Nat) : List W32 :=
  (List.range n).map (fun i => w32 (ofLe (s.memRead (a + 4 * i) 4)))

/-- The owner list: the context's bench set without bench 99, ascending (R127). -/
def State.ownersOf (s : State) (c : Nat) : List Nat := (bitsOf 99 (s.ctx c).benchSet.toNat)

/-! ### Instances -/

def State.modColl (s : State) (f : Coll → Coll) : State := { s with coll := f s.coll }
def State.inst? (s : State) (k : InstKey) : Option Inst := s.coll.insts.find? (fun i => decide (i.key = k))
def State.modInst (s : State) (k : InstKey) (f : Inst → Inst) : State :=
  s.modColl (fun c => { c with insts := modFirst (fun i => decide (i.key = k)) f c.insts })

def Inst.ent (i : Inst) : Entry := entryOf i.entry
def Inst.live (i : Inst) : Bool := decide (i.st = .counting ∨ i.st = .running)
def Inst.chunks' (i : Inst) : Nat := nchunks i.total i.ent.e
/-- W′ of R127. -/
def Inst.slots (i : Inst) : Nat := max 1 (min i.ent.window i.chunks')
def Inst.chunk (i : Inst) (c : Nat) : Chunk := (i.chunks.find? (·.idx == c)).getD { idx := c }
def Inst.setChunk (i : Inst) (x : Chunk) : Inst := { i with chunks := i.chunks.filter (·.idx != x.idx) ++ [x] }
def Inst.ctx (i : Inst) : Nat := handleCtx i.key.handle
/-- The digest the instance's traffic carries (R118). -/
def Inst.digest (i : Inst) : W32 := Sys2Proof.Machine.digest i.ent (if i.st = .counting then 0 else i.total) i.key.step
/-- The bench of a slot: the primary, or the twin (R127). -/
def Inst.bench (i : Inst) (c : Nat) (twin : Bool) : Nat :=
  i.owners.getD ((c % i.slots + b2n twin) % max 1 i.owners.length) 0
def Chunk.side (x : Chunk) (twin : Bool) : Side := if twin then x.twin else x.main
def Chunk.setSide (x : Chunk) (twin : Bool) (y : Side) : Chunk := if twin then { x with twin := y } else { x with main := y }

/-- Lines of a parison (R126). -/
def parisonLines (x : Entry) : Nat :=
  let a := if x.mode = 2 && !isClassA x.etype && !isInt x.etype then 40 else 8
  let t := if x.mode = 2 && !isInt x.etype then cdiv x.e 2 else 0
  let st := if x.mode = 1 && !isInt x.etype then (x.members - 1) * elemBytes x.etype x.e else 0
  cdiv (64 + 64 * cdiv x.members 512 + x.e * a + t + st) 256

/-- Parisons that an instance of `w` slots places on owner index `j` of `n`. -/
def placed (w n j : Nat) (twin : Bool) : Nat :=
  ((List.range w).filter (fun i => i % n == j)).length +
  (if twin then ((List.range w).filter (fun i => (i + 1) % n == j)).length else 0)

/-- Crucible lines an instance holds on bench `b`. -/
def Inst.linesOn (i : Inst) (b : Nat) : Nat :=
  if i.st = .running && !i.spilled && !i.frit then
    (i.owners.zipIdx.filter (fun o => o.1 == b)).foldl (fun a o =>
      a + placed i.slots i.owners.length o.2 i.ent.twin * parisonLines i.ent) 0
  else 0

/-- Spill lines an instance holds. -/
def Inst.spillLines (i : Inst) : Nat := if i.st = .running && i.spilled then i.slots * parisonLines i.ent else 0

/-- SPILL_FREE (R156). -/
def State.spillFree (s : State) : Nat :=
  fld (s.reg Reg.spillSize) 0 7 * 4194304 - s.coll.insts.foldl (fun a i => a + i.spillLines) 0

/-- Frit slots in use: live frit instances and count phases (R149). -/
def State.fritUsed (s : State) : Nat :=
  (s.coll.insts.filter (fun i => i.st = .counting || (i.frit && i.st = .running))).length

/-- Crucible lines the context's open instances hold. -/
def State.ctxLines (s : State) (c : Nat) : Nat :=
  s.coll.insts.foldl (fun a i => if i.ctx = c then a + i.owners.foldl (fun b o => b + i.linesOn o) 0 else a) 0

/-! ### Statuses (R121, R122, R125, R258) -/

/-- Header fields of a packet of the collective unit (R122). -/
def State.collHdr (s : State) (k : InstKey) (dest : W32) (mc : Bool) (vc chunk : Nat) : HdrFields :=
  { dest := dest, src := s.ownUnit unitColl, len := 0, vc := vc, mc := mc,
    part := (s.ctx (handleCtx k.handle)).part.toNat, chan := fld k.handle 0 12, seq := chunk % 65536,
    hop := s.regN Reg.resultHop }

/-- A subheader (R119). -/
def subOf (k : InstKey) (stype chunk member ecount : Nat) (dg aux : W32) : List Byte :=
  leBytes 4 (pack [(0, k.handle.toNat), (20, k.gen.toNat), (28, stype)]) ++ leBytes 4 k.step.toNat ++
  leBytes 4 (chunk % 2 ^ 24) ++ leBytes 4 (pack [(0, member % 4096), (12, ecount % 65536)]) ++
  leBytes 4 dg.toNat ++ leBytes 4 aux.toNat

/-- Send the packets of an instance that leave from one copy, unless its context replays (R331, R337). -/
def State.collSendAll (s : State) (k : InstKey) (w : Writer) (src : RecSrc) (ps : List Packet) (out : Bool := true) : State :=
  let r := ps.foldl (fun (a : Bool × State) p => a.2.ctxOut (handleCtx k.handle) src p out) (true, s)
  if r.1 then r.2.sendCopies w ps else r.2

/-- Send a packet of an instance. -/
def State.collSend (s : State) (k : InstKey) (w : Writer) (src : RecSrc) (p : Packet) (out : Bool := true) : State :=
  s.collSendAll k w src [p] out

/-- Write a status into the issuing core's record (R258): [31:0] AUX, [51:32] HANDLE, [52] VALID. -/
def State.coreStatusRec (s : State) (core : Nat) (h : BitVec 20) (aux : W32) : State :=
  s.modCore core (fun c => { c with statusRec := w64 (pack [(0, aux.toNat), (32, h.toNat), (52, 1)]) })

/-- A unicast STATUS to a member: a packet to its SRC, or the record of its core. `direct`: it answers live traffic of
a replaying context (R335), so it is sent and is no output of the replay. -/
def State.statusTo (s : State) (k : InstKey) (src : W32) (core : Option (Nat × Nat)) (chunk member : Nat) (dg aux : W32)
    (direct : Bool := false) : State :=
  match core with
  | some (b, c) => s.coreStatusRec (b * 8 + c) k.handle aux
  | none =>
    let p := mkPacket (s.collHdr k src false 3 chunk) (subOf k stStatus chunk member 0 dg aux)
    if direct then s.send .answer p else s.collSend k .answer recColl p

/-- At most one STATUS per member, instance and code (R125), kept with the instance's record: an arrival refused while
there is none is answered each time (DESIGN CHOICE, log entry 62). -/
def State.statusOnce (s : State) (k : InstKey) (src : W32) (core : Option (Nat × Nat)) (chunk member code : Nat)
    (dg aux : W32) (direct : Bool := false) : State :=
  match s.inst? k with
  | none => s.statusTo k src core chunk member dg aux direct
  | some i =>
    if i.sent.contains (member, byte code) then s.bump Reg.statusSuppressed
    else (s.modInst k (fun i => { i with sent := i.sent ++ [(member, byte code)] })).statusTo k src core chunk member dg aux
      direct

/-- The instance-wide STATUS (R125): CHUNK 0xFF_FFFF, multicast to RESULT_GROUP. -/
def State.statusAll (s : State) (i : Inst) (aux : W32) : State :=
  s.collSend i.key .answer recColl (mkPacket (s.collHdr i.key (w32 i.ent.group) true 3 0xFFFFFF)
    (subOf i.key stStatus 0xFFFFFF 0 0 i.digest aux))

/-! ### Items (R202, R259) -/

/-- Items that waited enter a bench's queue of 256, numbered in posting order (R202). -/
def State.feedItems (s : State) (b : Nat) : State :=
  s.modBench b (fun x =>
    let k := 256 - x.items.length
    { x with
      items := x.items ++ (x.itemWait.take k).zipIdx.map (fun w => { w.1 with num := x.itemNum + w.2 }),
      itemNum := x.itemNum + min k x.itemWait.length, itemWait := x.itemWait.drop k })

/-- Put an item at the end of a bench's queue; the device's own waits while 256 are there (R202, R259). -/
def State.postItem (s : State) (b : Nat) (w : WorkItem) : State :=
  (s.modBench b (fun x => { x with itemWait := x.itemWait ++ [w] })).feedItems b

/-! ### Ending an instance (R125, R131-R133, R206) -/

/-- The counter of instances poisoned with a code (R156); an invalid entry counts in ENTRY_BAD instead. -/
def poisonCounter (code : Nat) (entryBad : Bool) : Option Nat :=
  if code = Code.contract then some (if entryBad then Reg.entryBad else Reg.contractEv)
  else if code = Code.lenErr then some Reg.lenErrEv
  else if code = Code.addr then some Reg.addrEv
  else if code = Code.poison then some Reg.poisonEv
  else none

/-- Count an instance that is poisoned (R156). -/
def State.countPoison (s : State) (code : Nat) (ef : Bool) : State :=
  match poisonCounter code ef with
  | some c => s.bump c
  | none => s

/-- Contributions of an instance, or of one side of it, leave a bench's queue. A chunk program's item stays, and waits
for its launch (R259). -/
def State.purgeQueue (s : State) (k : InstKey) (b : Nat) (twinOnly : Option Bool) : State :=
  let hit := fun (c : Contribution) => decide (c.key = k) && (match twinOnly with | some u => c.twin == u | none => true)
  if (s.bench b).adderQ.any hit then
    s.modBench b (fun x => { x with adderQ := x.adderQ.filter (fun c => !hit c), idleSince := s.now })
  else s

/-- Free what an instance holds: its queued contributions and its chunks, or its frit slot. -/
def State.freeHeld (s : State) (i : Inst) : State :=
  let s := i.owners.foldl (fun s b => s.purgeQueue i.key b none) s
  s.modInst i.key (fun i => { i with chunks := [] })

/-- A live instance becomes a tombstone with a code (R132). -/
def State.tombstone (s : State) (k : InstKey) (st : InstState) (code : Nat) (blame : Option Nat) (ef : Bool) : State :=
  s.modInst k (fun i => { i with
    st := st, code := byte code, tombAt := s.now, blame := blame, entryFault := ef })

/-- AUX of an instance's own status. -/
def auxFor (code : Nat) (blame : Option Nat) (ef : Bool) : W32 := statusAux code (if ef then none else blame) ef

/-- Poison a live instance (R125, R132): one instance-wide STATUS, everything it holds freed. -/
def State.poison (s : State) (k : InstKey) (code : Nat) (blame : Option Nat) (ef : Bool) : State :=
  match s.inst? k with
  | none => s
  | some i =>
    if !i.live then s
    else
      let s := ((s.countPoison code ef).freeHeld i).tombstone k .poisoned code blame ef
      s.statusAll i (auxFor code blame ef)

/-- Remove a record (R132: fence, teardown, TOMB_HOLD). -/
def State.dropInst (s : State) (k : InstKey) : State :=
  s.modColl (fun c => { c with insts := c.insts.filter (fun i => !decide (i.key = k)) })

/-- Room for one more record (R131): a free one, or the oldest tombstone's. none: there is none. -/
def State.recordRoom (s : State) : Option State :=
  if s.coll.insts.length < 16384 then some s
  else
    let tombs := s.coll.insts.filter (fun i => !i.live)
    match tombs.foldl (fun (a : Option Inst) i => match a with
      | some j => if i.tombAt < j.tombAt then some i else some j
      | none => some i) none with
    | some i => some (s.dropInst i.key)
    | none => none

/-- Make a record that is a tombstone from the start (R116, R128, R132). -/
def State.makeTomb (s : State) (k : InstKey) (ws : List W32) (st : InstState) (code : Nat) (blame : Option Nat) (ef : Bool) :
    State :=
  let s := if st = .poisoned then s.countPoison code ef else s
  match s.recordRoom with
  | none => s
  | some s =>
    let x := entryOf ws
    let i : Inst :=
    { key := k, st := st, code := byte code, entry := ws, openedAt := s.now, openFt := s.ftimeOr0,
      members := if x.mtabEn then s.readWords x.mtab x.members else [], owners := s.ownersOf (handleCtx k.handle),
      tombAt := s.now, blame := blame, entryFault := ef, total := x.total,
      part := (s.ctx (handleCtx k.handle)).part }
    (s.modColl (fun c => { c with insts := c.insts ++ [i] })).statusAll i (auxFor code blame ef)

/-! ### Admission (R127, R128) -/

/-- Try to make room for a new instance: in the crucible, else spilled; false when there is no room. -/
def State.place (s : State) (x : Entry) (total : Nat) (owners : List Nat) (c : Nat) : Option Bool :=
  let w := max 1 (min x.window (nchunks total x.e))
  let p := parisonLines x
  let n := max 1 owners.length
  let used := fun (b : Nat) => s.coll.insts.foldl (fun a i => a + i.linesOn b) 0
  let need := owners.zipIdx.map (fun o => (o.1, placed w n o.2 x.twin * p))
  let all := need.foldl (fun a o => a + o.2) 0
  if !owners.isEmpty && need.all (fun o => decide (used o.1 + o.2 ≤ 31744)) &&
      decide (s.ctxLines c + all ≤ (s.ctx c).crucibleQuota) then some false
  else if !x.twin && decide (w * p ≤ s.spillFree) && !owners.isEmpty then some true
  else none

/-- Open an instance with `total` elements (R128, R132). `counting`: its count-phase record. -/
def State.openInst (s : State) (k : InstKey) (ws members : List W32) (total : Nat) (old : Option Inst) (spilled : Bool) :
    State :=
  let x := entryOf ws
  let c := handleCtx k.handle
  let base : Inst := old.getD { key := k, st := .running, openedAt := s.now, openFt := s.ftimeOr0 }
  let i : Inst := { base with
    st := .running, spilled := spilled, frit := x.frit, entry := ws, members := members, total := total,
    part := (s.ctx c).part, owners := s.ownersOf c, twinClaim := if x.twin then 0x40 else 0 }
  let s := (s.dropInst k).modColl (fun c => { c with insts := c.insts ++ [i] })
  let s := (s.bump Reg.opens).countEv 241 0xC4 1
  if spilled then s.bump Reg.spillOpens else s

/-! ### Results (R135-R137, R140, R152) -/

/-- The member a unicast result of chunk `c` goes to, by the member table. -/
def Inst.memberAddr (i : Inst) (m : Nat) : W32 := i.members.getD m 0

/-- The result packets of a chunk (R136): `vc` 1 for a frit instance, else 3. -/
def State.resultPackets (s : State) (i : Inst) (c : Nat) (elems : List Byte) : List Packet :=
  let x := i.ent
  let vc := if i.frit then 1 else 3
  let n := chunkElems i.total x.e c
  let sub := subOf i.key stResult c 0 n i.digest 0
  let mk := fun (dest : W32) (mc : Bool) => mkPacket (s.collHdr i.key dest mc vc c) (sub ++ elems)
  match x.place with
  | 0 => [mk (w32 x.group) true]
  | 1 => [mk (i.memberAddr (c * x.members / max 1 i.chunks')) false]
  | 2 => [mk (i.memberAddr 0) false]
  | _ => (List.range x.members).map (fun m => mk (i.memberAddr m) false)

/-- The PARTIAL of a chunk (R137): VC2, or VC1 for frit, to UPPER_COORD. Its DIGEST is the local instance's: the spec
does not say which (DESIGN CHOICE, log entry 62). -/
def State.partialPacket (s : State) (i : Inst) (c : Nat) (elems : List Byte) : Packet :=
  let x := i.ent
  let k : InstKey := { handle := BitVec.ofNat 20 x.upperHandle, gen := byte x.upperGen, step := i.key.step }
  let f : HdrFields := { s.collHdr i.key x.upperCoord false (if i.frit then 1 else 2) c with
    chan := fld k.handle 0 12 }
  mkPacket f (subOf k stPartial c x.upperMember (chunkElems i.total x.e c) i.digest 0 ++ elems)

/-- Lowest chunk not finalised. -/
def Inst.lowWater (i : Inst) : Nat :=
  ((List.range (i.finalised.length + 1)).find? (fun c => !i.finalised.contains c)).getD 0

/-- PROGRESS (R152): for PLACE 1 and 2, when the window moved far enough. -/
def State.progress (s : State) (k : InstKey) : State :=
  match s.inst? k with
  | none => s
  | some i =>
    let w := i.slots
    let n := i.chunks'
    if !((i.ent.place = 1 || i.ent.place = 2) && decide (w < n)) then s
    else
      let kk := i.lowWater
      let far := decide (cdiv w 4 ≤ kk - i.lastProgress) && decide (i.lastProgress < kk)
      let last := !i.progressEnd && decide (n - w ≤ kk)
      if far || last then
        let s := s.modInst k (fun i => { i with lastProgress := kk, progressEnd := i.progressEnd || last })
        s.collSend k .answer recColl (mkPacket (s.collHdr k (w32 i.ent.group) true 3 kk)
          (subOf k stProgress kk 0 0 i.digest 0))
      else s

/-- Who writes a chunk's result, for the OUT record (R330). -/
def Inst.resultSrc (i : Inst) (c : Nat) (twin : Bool) : RecSrc :=
  if i.frit then recColl else { bench := i.bench c twin, engine := true }

/-- Hand a chunk's result or PARTIAL to the buffer (R135, R137). -/
def State.emitResult (s : State) (i : Inst) (c : Nat) (twin : Bool) (elems : List Byte) : State :=
  let s := s.modInst i.key (fun i => i.setChunk { i.chunk c with sent := true })
  let ps := if i.ent.upperEn then [s.partialPacket i c elems] else s.resultPackets i c elems
  s.collSendAll i.key (.result i.key c (if i.frit then 100 else i.bench c twin)) (i.resultSrc c twin) ps

/-- Equal claims above 0: the stream is held and the instance poisoned (R148). -/
def Inst.claimTie (i : Inst) : Bool := i.primClaim == i.twinClaim && i.primClaim != 0

/-- A written chunk's record ends once neither side works on it; a VARSIZE one keeps its counts, which later
contributions are checked against (R144, R146). A later chunk of the instance in the same slot so finds its parison
unwritten, and a chunk program reads 0 there (R130 speaks of an earlier instance's data; DESIGN CHOICE, log entry 62). -/
def State.dropChunk (s : State) (k : InstKey) (c : Nat) : State :=
  s.modInst k (fun i =>
    let ch := i.chunk c
    let busy := i.twinClaim != 0 && (ch.twin.result.isNone || (i.primClaim != 0 && ch.main.result.isNone))
    if !i.written.contains c then i
    else if i.ent.varsize then
      let bare := fun (y : Side) => ({ result := y.result.map (fun r => ([], r.2)) } : Side)
      i.setChunk { ch with main := bare ch.main, twin := if busy then ch.twin else bare ch.twin }
    else if busy then i
    else { i with chunks := i.chunks.filter (·.idx != c) })

/-- A side has its result: it leaves by the higher claim; the other holds or discards it (R146). -/
def State.sideDone (s : State) (k : InstKey) (c : Nat) (twin : Bool) (elems : List Byte) : State :=
  match s.inst? k with
  | none => s
  | some i =>
    if i.claimTie then (s.bump Reg.claimTie).poison k Code.internal none false
    else
      let ch := i.chunk c
      let mine := if twin then i.twinClaim else i.primClaim
      let other := if twin then i.primClaim else i.twinClaim
      let ch' := ch.setSide twin { ch.side twin with result := some (elems, s.now) }
      let s := (s.modInst k (fun i => i.setChunk ch')).countEv (128 + i.bench c twin) 0x43 (b2n !i.frit)
      if ch.sent || i.written.contains c then s.dropChunk k c
      else if mine.toNat < other.toNat then s
      else s.emitResult i c twin elems

/-- The values a chunk finalises to, encoded for its RESULT or PARTIAL (R167, R172-R177). -/
def State.finalBytes (s : State) (i : Inst) (c : Nat) (acc : List Acc) : Encoded :=
  let x := i.ent
  let n := chunkElems i.total x.e c
  let acc := acc ++ List.replicate (n - acc.length) ({} : Acc)
  let mode := if i.frit then 2 else x.mode
  if x.upperEn then { bytes := ((acc.take n).map (Acc.partBytes mode x.etype)).flatten }
  else
    let r : RoundCtx :=
    { round := x.round, seed := (s.ctx i.ctx).jobSeed, step := i.key.step,
      handle := w32 i.key.handle.toNat, first := c * x.e }
    encodeElems x.rtype r ((acc.take n).map (Acc.value mode x.etype))

/-- A chunk is complete on a side (R135). -/
def Inst.sideComplete (i : Inst) (c : Nat) (y : Side) : Bool :=
  if i.ent.varsize then decide (chunkElems i.total i.ent.e c ≤ y.got)
  else decide (i.ent.members ≤ y.applied.length)

/-- Finalise a chunk on a side (R135): counted, then the result leaves or is held. -/
def State.finalise (s : State) (k : InstKey) (c : Nat) (twin : Bool) : State :=
  match s.inst? k with
  | none => s
  | some i =>
    let e := s.finalBytes i c ((i.chunk c).side twin).acc
    let s := s.countConv e
    let s := s.modInst k (fun i => { i with finalised := insertNat c i.finalised })
    (s.sideDone k c twin e.bytes).progress k

/-- A contribution of `m` was applied on a side: the lag's clock (R140), the twin's own until it continues alone. In pinned mode one that is ahead of its turn
counts from its take (log entry 62). -/
def State.markApplied (s : State) (k : InstKey) (twin : Bool) (m : Nat) (src : W32) (core : Option (Nat × Nat)) : State :=
  s.modInst k (fun i =>
    let i := { i with
      memberSrc := sset 0 i.memberSrc m src,
      memberCore := sset 0 i.memberCore m (match core with | some (b, c) => b * 8 + c + 1 | none => 0) }
    if twin && i.primClaim != 0 then { i with
      twinChunks := smod 0 i.twinChunks m (· + 1), twinTime := sset 0 i.twinTime m s.ftimeOr0.toNat, twinLast := some m }
    else { i with
      memberChunks := smod 0 i.memberChunks m (· + 1), memberTime := sset 0 i.memberTime m s.ftimeOr0.toNat,
      lastMember := some m })

/-- Add a contribution's elements to a side's accumulators (R165-R171). -/
def addContribution (x : Entry) (frit : Bool) (c : Contribution) (acc : List Acc) : List Acc :=
  let mode := if frit then 2 else x.mode
  if c.isPartial then addParts x.etype acc c.first ((parsePartial mode x.etype c.ecount c.elems).getD [])
  else addElems mode x.etype acc c.first (decodeElems x.etype c.ecount c.elems)

/-- Pinned mode with a floating type: staged contributions whose turn has come are added in member
order (R171). -/
def drainStaged (x : Entry) : Nat → Side → Side
  | 0, y => y
  | f + 1, y =>
    let next := y.applied.length
    match y.staged.find? (fun c => c.member == next) with
    | none => y
    | some c => drainStaged x f { y with
        staged := y.staged.filter (fun d => d.member != next),
        applied := y.applied ++ [next], acc := addContribution x false c y.acc, got := y.got + c.ecount,
        gotBy := smod 0 y.gotBy next (· + c.ecount) }

/-- A side takes one contribution. -/
def takeInto (x : Entry) (frit : Bool) (c : Contribution) (y : Side) : Side :=
  if !frit && x.mode = 1 && !isInt x.etype && !x.varsize then
    drainStaged x (x.members + 1) { y with staged := y.staged ++ [c] }
  else { y with
    applied := y.applied ++ [c.member], acc := addContribution x frit c y.acc, got := y.got + c.ecount,
    gotBy := smod 0 y.gotBy c.member (· + c.ecount) }

/-- Write a completed instance's lag into its entry and the lag table (R140, R141). Where one member alone contributed
(VARSIZE) there is no other that had finished, and the lag is 0 (DESIGN CHOICE, log entry 62). -/
def State.writeLag (s : State) (i : Inst) : State :=
  let ts := i.memberTime
  match i.lastMember with
  | none => s
  | some m =>
    let t := sget 0 ts m
    let others := ts.filter (fun e => e.1 != m)
    let prev := if others.isEmpty then t else others.foldl (fun a e => max a e.2) 0
    let lag := t - prev
    let a := s.entryAddr i.key.handle + 48
    let s := ((s.memServe a 16).memPut a (leBytes 4 m ++ leBytes 4 i.key.step.toNat ++ leBytes 8 lag)).memBytes a 16 true
    let l := (s.ctx i.ctx).collBase + 0x40000 + 16 * m
    let s := ((s.memServe l 16).meet l 16 true 0x0E (some i.ctx)).memBytes l 16 false
    if s.meetsUe l 16 false then s
    else
      let n := ofLe (s.memRead l 4)
      let sum := ofLe (s.memRead (l + 8) 8)
      ((s.memWrite l (leBytes 4 (min (n + 1) (2 ^ 32 - 1)))).memWrite (l + 8) (leBytes 8 (min (sum + lag) (2 ^ 64 - 1)))).memBytes l 16 true

/-- The instance completes (R132, R140). -/
def State.completeInst (s : State) (k : InstKey) : State :=
  match s.inst? k with
  | none => s
  | some i =>
    let s := (s.freeHeld i).tombstone k .complete 0 none false
    let s := if i.frit then s.countEv 241 0xC5 1 else s
    s.writeLag i

/-- A chunk's write has completed: its slot is freed; the last one completes the instance, unless
results still come from the upper tier (R135, R137, R140). -/
def State.writeDone (s : State) (k : InstKey) (c : Nat) : State :=
  let s := (s.modInst k (fun i => { i with written := insertNat c i.written })).dropChunk k c
  match s.inst? k with
  | none => s
  | some i => if !i.ent.upperEn && decide (i.chunks' ≤ i.written.length) then s.completeInst k else s

/-- No packet of the chunk's write is held (R27, R69). -/
def State.writeHeld (s : State) (k : InstKey) (c : Nat) : Bool :=
  s.sw.held.any (fun h => match h.writer with | .result j d _ => decide (j = k) && d == c | _ => false)

/-! ### Claims (R146-R148) and faults of a bench (R124 order 1, R407) -/

/-- The primary's claim is withdrawn: the twin sends what it holds and continues alone (R147). -/
def State.twinTakeover (s : State) (k : InstKey) : State :=
  match s.inst? k with
  | none => s
  | some i =>
    let s := (s.bump Reg.twinTakeover).modInst k (fun i => { i with
      primClaim := 0, memberChunks := i.twinChunks, memberTime := i.twinTime, lastMember := i.twinLast })
    let s := i.owners.foldl (fun s b => s.purgeQueue k b (some false)) s
    i.chunks.foldl (fun s ch => match ch.sent, ch.twin.result with
      | false, some (bs, _) => s.emitResult { i with primClaim := 0 } ch.idx true bs
      | _, _ => s.dropChunk k ch.idx) s

/-- Twin pour masks a fault on a side: the other side holds its claim (R147). -/
def Inst.masked (i : Inst) (twin : Bool) : Bool := if twin then i.primClaim != 0 else i.twinClaim != 0

/-- A detected fault of bench `b` that affects an instance: masked by twin pour, else the instance is
poisoned with INTERNAL. -/
def State.benchFault (s : State) (k : InstKey) (twin : Bool) : State :=
  match s.inst? k with
  | none => s
  | some i =>
    if twin then
      if i.primClaim = 0 then s.poison k Code.internal none false
      else
        let s := (i.owners.foldl (fun s b => s.purgeQueue k b (some true)) (s.bump Reg.twinLost)).modInst k
          (fun i => { i with twinClaim := 0 })
        i.chunks.foldl (fun s ch => s.dropChunk k ch.idx) s
    else if i.twinClaim = 0 then s.poison k Code.internal none false
    else s.twinTakeover k

/-! ### Arriving at a bench (R146, R199, R259) -/

/-- 256-byte units of the ingress queue that a contribution takes. -/
def contribUnits (c : Contribution) : Nat := cdiv (44 + c.elems.length) 256

/-- ADDER_QDEPTH. -/
def State.adderDepth (s : State) (b : Nat) : Nat := (s.bench b).adderQ.foldl (fun a c => a + contribUnits c) 0

/-- The queue of bench `b` can hold the contribution. -/
def State.adderRoom (s : State) (b n : Nat) : Bool := decide (s.adderDepth b + n ≤ 512)

/-- The chunk operand of R254. -/
def chunkOperand (c n : Nat) : W64 := w64 (c % 2 ^ 24 + n % 65536 * 2 ^ 24)

/-- Enter a contribution into a bench's ingress queue; a chunk's first posts its program's item. -/
def State.enterAdder (s : State) (i : Inst) (b : Nat) (c : Contribution) : State :=
  let s := (s.wakeBench b).modBench b (fun x => { x with adderQ := x.adderQ ++ [c], coreTurn := c.core.isSome })
  let s := s.trackMax (Reg.adderQdepthMax b) (s.adderDepth b)
  let ch := ((s.inst? i.key).getD i).chunk c.chunk
  if i.ent.program && !(ch.side c.twin).posted then
    let ch := ch.setSide c.twin { ch.side c.twin with posted := true }
    let item : WorkItem :=
      { entry := i.ent.progEntry, arg := chunkOperand c.chunk (chunkElems i.total i.ent.e c.chunk),
        chunk := some (i.key, c.chunk), twin := c.twin }
    (s.modInst i.key (fun i => i.setChunk ch)).postItem b item
  else s

/-- Steer an admitted contribution to its owner bench, and to its twin (R127, R146). -/
def State.steer (s : State) (i : Inst) (c : Contribution) : State :=
  let s := s.modInst i.key (fun i =>
    let ch := i.chunk c.chunk
    i.setChunk { ch with
      seen := ch.seen ++ [c.member], recv := smod 0 ch.recv c.member (· + c.ecount) })
  let s := if i.primClaim = 0 then s else s.enterAdder i (i.bench c.chunk false) c
  if i.twinClaim = 0 then s
  else s.enterAdder i (i.bench c.chunk true) { c with twin := true }

end Sys2Proof.Machine
end

