-- ==== Sys2Proof/Machine/Launch.lean ====
section
/-! DEFINITION. The launch table, the sequencer and launches (R270-R278, R285), stopping a launch
(R206, R207) and the end of a diverged replay (R338), and the commands of this family. -/

namespace Sys2Proof.Machine

/-! ### Entries (R272): eight 64-bit words -/

def ltCtx (ws : List W64) : Nat := fld (ws.getD 0 0) 0 8
def ltGen (ws : List W64) : Nat := fld (ws.getD 0 0) 8 8
def ltValid (ws : List W64) : Bool := bit (ws.getD 0 0) 16
def ltIrq (ws : List W64) : Bool := bit (ws.getD 0 0) 17
def ltVector (ws : List W64) : Nat := fld (ws.getD 0 0) 18 6
def ltEntry (ws : List W64) : Nat := fld (ws.getD 0 0) 32 13
def ltMask (ws : List W64) : Nat := (ws.getD 1 0).toNat + (ws.getD 2 0).toNat * 2 ^ 64
def ltBenches (ws : List W64) : List Nat := bitsOf 100 (ltMask ws)
def ltCount (ws : List W64) : Nat := (ws.getD 3 0).toNat
def ltImage (ws : List W64) : Nat × Nat := (fld (ws.getD 6 0) 0 48, fld (ws.getD 6 0) 48 16)
def ltState (ws : List W64) : Nat := fld (ws.getD 7 0) 0 2

def State.ltAddr (s : State) (i : Nat) : Nat := s.regN Reg.ltBase + 64 * i
/-- Entry `i` as it stands in Loam. -/
def State.ltRead (s : State) (i : Nat) : List W64 :=
  (List.range 8).map (fun k => w64 (ofLe (s.memRead (s.ltAddr i + 8 * k) 8)))

def State.modLaunch (s : State) (f : Launch → Launch) : State := { s with launch := f s.launch }

/-- Write an entry's status word; a write to part of a poisoned line is dropped (R273, R278). -/
def State.ltStatus (s : State) (i st code startLo : Nat) : State :=
  let a := s.ltAddr i + 56
  ((s.memServe a 8).memPut a (leBytes 4 (st + 256 * code) ++ leBytes 4 startLo)).memBytes a 8 true

/-! ### Completion (R278) -/

/-- The add at DONE_ADDR (R278). -/
def State.notify (s : State) (c : Nat) : State :=
  let a := (s.ctx c).doneAddr
  if a = 0 then s
  else match s.findWin c a 8 with
    | none => s.bump Reg.notifyFail
    | some w =>
      if !w.wr then s.bump Reg.notifyFail
      else
        let s := (((s.memServe a 8).cacheNow a 8).meet a 8 true 0x0E (some c)).memBytes a 8 false
        if s.meetsUe a 8 false then s.bump Reg.notifyFail else ((s.atomic 2 a 1 0).2).memBytes a 8 true

/-- Report a launch: the status word, the counter, the interrupt, in that order (R278). -/
def State.report (s : State) (idx : Nat) (ws : List W64) (c st code startLo : Nat) : State :=
  let s := (s.ltStatus idx st code startLo).notify c
  if ltIrq ws then s.msix (ltVector ws) else s

/-- A core stops at an instruction boundary: halted, unbound, its loads given up. -/
def haltCore (run : RunState) (c : Core) : Core :=
  { c with
    run := run, wait := none, item := none, bound := none, toSend := [],
    outs := (c.outs.filter (fun o => o.op != 1 && o.op != 2 && o.op != 4)).map (fun o => { o with dest := 0 }) }

/-- Remove a run and free its benches. -/
def State.freeRun (s : State) (n : Nat) : State :=
  match s.launch.runs.find? (·.num == n) with
  | none => s
  | some r =>
    let s := s.modLaunch (fun l => { l with runs := l.runs.filter (·.num != n) })
    r.benches.foldl (fun s b => if (s.bench b).launch = some n
      then s.modBench b (fun x => { x with launch := none, idleSince := s.now }) else s) s

/-- The launch of run `n` completes with a code (R278). -/
def State.completeRun (s : State) (n code : Nat) : State :=
  match s.launch.runs.find? (·.num == n) with
  | none => s
  | some r => ((s.freeRun n).report r.idx r.ws r.ctx 2 code r.startLo.toNat).checkRplDone r.ctx

/-- The instance whose chunk program a core runs, from the item's start to END. -/
def Core.progInst (x : Core) : Option InstKey := (x.bound.orElse (fun _ => x.item.bind (·.chunk))).map (·.1)

/-- The instances whose chunk program runs on a core of the run (R206). -/
def State.boundInsts (s : State) (r : Run) : List InstKey :=
  r.benches.flatMap (fun b => (List.range 8).filterMap (fun c => (s.core (b * 8 + c)).progInst))

/-- Stop a running launch with a code (R206): its cores halt, its chunk programs' instances are
poisoned, and it completes. -/
def State.stopRun (s : State) (n code : Nat) : State :=
  match s.launch.runs.find? (·.num == n) with
  | none => s
  | some r =>
    let keys := s.boundInsts r
    let s := if r.started then
        r.benches.foldl (fun s b => (List.range 8).foldl (fun s c =>
          s.modCore (b * 8 + c) (fun x => haltCore (if x.run = .stopped then .stopped else .halted) x)) s) s
      else s
    let s := keys.foldl (fun s k => s.poison k code none false) s
    s.completeRun n code

/-- A replay of context `c` diverges at record `rseq` (R338). -/
def State.rplDiverge (s : State) (c code rseq : Nat) : State :=
  let s := s.modRpl c (fun r => { r with st := .diverged, code := byte code, divergeRseq := rseq })
  let s := (s.launch.runs.filter (fun r => r.ctx == c && r.started)).foldl (fun s r => s.stopRun r.num code) s
  (s.coll.insts.filter (fun i => i.ctx == c && i.live)).foldl (fun s i => s.poison i.key code none false) s

/-! ### The sweep (R273) -/

/-- The sequencer scans: SEQ_EN is 1 and fabric time is valid. -/
def State.scanning (s : State) : Bool := s.powered && s.seqEn && s.clk.timeValid

/-- Table indices a sweep can act on: listed ones, and those whose line holds a byte or an error. -/
def State.sweepIdx (s : State) : List Nat :=
  let a := s.ltArea
  let ofLine := fun (x : Nat) => if a.1 ≤ x ∧ x < a.1 + a.2 then [(x - a.1) / 64] else []
  let mem := s.pool.mem.flatMap (fun e => ofLine e.1)
  let bad := (s.pool.poisoned ++ s.pool.latent.map (·.1)).flatMap (fun l => ofLine (64 * l))
  (mem ++ bad ++ s.launch.listed.map (·.idx)).foldl (fun l i => insertNat i l) []

/-- A sweep reads entry `i`; an error its line holds is met (R273, R314). -/
def State.sweepEntry (s : State) (i : Nat) : State :=
  let s := s.meet (s.ltAddr i) 64 true 0x0E none
  let drop := fun (s : State) => s.modLaunch (fun l => { l with listed := l.listed.filter (·.idx != i) })
  if !(s.badLines (s.ltAddr i) 64).isEmpty then drop (s.bump Reg.ltEntryUe)
  else
    let ws := s.ltRead i
    let old := s.launch.listed.find? (·.idx == i)
    if !ltValid ws || ltState ws ≠ 0 then drop s
    else match old with
      | some l => if l.ws.take 7 = ws.take 7 then s
        else s.modLaunch (fun x => { x with
          listed := modFirst (·.idx == i) (fun _ => { idx := i, ws := ws }) x.listed })
      | none =>
        if 4096 ≤ s.launch.listed.length then s.bump Reg.pendingFull
        else s.modLaunch (fun x => { x with listed := x.listed ++ [{ idx := i, ws := ws }] })

/-- LT_SWEEP (R273). A controller of the table that sleeps is woken first, and the sweep waits (R30). -/
def execLtSweep (s : State) : Host.Outcome State Fault Refusal :=
  if !s.powered then .next s else
  if !s.scanning then .next s
  else if !s.memAwake s.ltArea.1 s.ltArea.2 then .next (s.memDemand s.ltArea.1 s.ltArea.2)
  else .next (s.sweepIdx.foldl State.sweepEntry (s.memBulk s.ltArea.1 s.ltArea.2 false))

/-! ### Checks at the take (R275) -/

/-- The first failing check of R275 before the image; OK when none. -/
def State.takeCode (s : State) (i : Nat) (ws : List W64) : Nat :=
  let c := ltCtx ws
  let x := s.ctx c
  let img := ltImage ws
  if x.fenced || s.fault.oos then Code.fenced
  else if x.st ≠ .opened then Code.closed
  else if ltGen ws ≠ x.gen.toNat then Code.genStale
  else if s.replaying c then Code.perm
  else if !decide (x.ltFirst ≤ i ∧ i < x.ltFirst + x.ltCount) ||
      (ltBenches ws).any (fun b => !(decide (b < 99) && x.benchSet.getLsbD b)) then Code.perm
  else if fld (ws.getD 0 0) 24 8 ≠ 0 || fld (ws.getD 0 0) 45 19 ≠ 0 || 2 ^ 100 ≤ ltMask ws || ltMask ws = 0 ||
      8192 < img.2 || (img.2 ≠ 0 && (img.2 ≤ ltEntry ws || img.1 % 8 ≠ 0)) then Code.lenErr
  else if img.2 ≠ 0 && (s.findWin c img.1 (8 * img.2)).isNone then Code.addr
  else Code.ok

/-- Load a program image into the instruction stores of the named benches (R276): the code of a
failed read, or OK. -/
def State.loadImage (s : State) (ws : List W64) (benches : List Nat) : Nat × State :=
  let img := ltImage ws
  let n := 8 * img.2
  if (s.findWin (ltCtx ws) img.1 n).isNone then (Code.addr, s)
  else
    let s := ((s.cacheNow img.1 n).meet img.1 n true 0x0E (some (ltCtx ws))).memBytes img.1 n false
    if s.meetsUe img.1 n false then (Code.internal, s)
    else
    let bs := s.memRead img.1 n
    (Code.ok, benches.foldl (fun s b => (List.range 8).foldl (fun s c =>
      let k := b * 8 + c
      { s with
        is := mwrite s.is (k * 65536) bs,
        badWords := s.badWords.filter (fun w => !(w.space == 3 && w.owner == k && decide (w.addr < n))),
        cores := smod {} s.cores k (fun x => { x with loadLimit := max x.loadLimit img.2 }) }) s) s)

/-- The image of an entry lies in a window whose controllers sleep: its load waits for them (R30). -/
def State.imageAsleep (s : State) (ws : List W64) : Bool :=
  let img := ltImage ws
  img.2 != 0 && (s.findWin (ltCtx ws) img.1 (8 * img.2)).isSome && !s.memAwake img.1 (8 * img.2)

/-- The demand that wakes an image's controllers. -/
def State.imageDemand (s : State) (ws : List W64) : State := s.memDemand (ltImage ws).1 (8 * (ltImage ws).2)

/-- A bench is free of launches. -/
def State.benchFree (s : State) (b : Nat) : Bool := (s.bench b).launch.isNone

/-- LAUNCH_WAKE (R276): at COUNT − WAKE_LEAD the benches a listed entry names are woken. -/
def execLaunchWake (idx : Nat) (s : State) : Host.Outcome State Fault Refusal :=
  if !s.powered then .next s else
  match s.launch.listed.find? (·.idx == idx) with
  | none => .next s
  | some l =>
    if !s.scanning || l.woken || s.fault.oos ||
        s.clk.ftime.toNat + s.regN Reg.wakeLead * us < ltCount l.ws then .next s
    else
      let s := (ltBenches l.ws).foldl State.wakeBench s
      .next (s.modLaunch (fun x => { x with
        listed := modFirst (·.idx == idx) (fun l => { l with woken := true }) x.listed }))

/-- Refuse a taken entry (R275): STATE 3, the code, counted, and the completion without a start. -/
def State.refuseLaunch (s : State) (i : Nat) (ws : List W64) (code : Nat) : State :=
  (s.bump Reg.launchRefused).report i ws (ltCtx ws) 3 code 0

/-- A core at the start of a launch or an item: every register 0 but those given (R194, R238). -/
def startCore (pc : Nat) (sregs : List (Nat × W64)) (item : Option WorkItem) (bound : Option (InstKey × Nat)) (c : Core) :
    Core :=
  { c with
    sreg := sregs.foldl (fun m r => sset 0 m r.1 r.2) [], vreg := [], preg := [],
    pc := BitVec.ofNat 13 pc, pastEnd := decide (8192 ≤ pc), run := .running, wait := none, item := item, bound := bound }

/-- The exception record is cleared when a launch starts (R212). -/
def clearExc (c : Core) : Core := { c with cause := 0, excPc := 0, excAddr := 0 }

/-- Start a taken launch whose benches are free and awake and whose image is loaded (R277). -/
def State.startRun (s : State) (r : Run) : State :=
  let c := r.ctx
  let lo := fld s.clk.ftime 0 32
  let s := (s.bump Reg.launches).ltStatus r.idx 1 0 lo
  let s := if ltCount r.ws + us < s.clk.ftime.toNat then s.bump Reg.launchLate else s
  let s := s.modLaunch (fun l => { l with
    runs := modFirst (·.num == r.num) (fun x => { x with
      started := true, startLo := w32 lo, dba := s.stealing c }) l.runs })
  let s := r.benches.foldl (fun s b =>
    let s := s.modBench b (fun x => { x with
      launch := some r.num,
      items := x.items.zipIdx.map (fun p => { p.1 with num := p.2 }), itemNum := x.items.length, progressAt := s.now })
    (List.range 8).foldl (fun s k => s.modCore (b * 8 + k) (fun x =>
      clearExc (startCore (ltEntry r.ws) [(1, r.ws.getD 4 0), (2, r.ws.getD 5 0), (3, w64 r.idx), (4, r.ws.getD 3 0)]
        none none x))) s) s
  s.record c 0x02 { bench := r.benches.headD 0, engine := true } r.idx (r.ws.flatMap (fun w => leBytes 8 w.toNat))

/-- Another launch has the better claim to a bench of the run: one that found its benches free at its
take, or, when both are held, one taken earlier. -/
def State.runBlocked (s : State) (r : Run) : Bool :=
  s.launch.runs.any (fun q => q.num != r.num && !q.started && q.benches.any (r.benches.contains ·) &&
    (!q.held || (r.held && decide (q.num < r.num))))

/-- Every bench of the run is awake and free, its image is in place, and no other launch has the better claim. -/
def State.startReady (s : State) (r : Run) : Bool :=
  r.benches.all (fun b => s.benchFree b && decide ((s.bench b).st = .awake)) && !s.runBlocked r && !r.waitsImage

/-- The run can start: it is ready, and its LAUNCH record has room (R333). -/
def State.canStart (s : State) (r : Run) : Bool := s.startReady r && s.recRoom r.ctx 64

/-- The sequencer stalls at a start, since the record queue is full (R333). -/
def State.seqStalls (s : State) : Bool :=
  s.launch.runs.any (fun r => !r.started && !s.replaying r.ctx && s.startReady r && !s.recRoom r.ctx 64)

/-- Refuse a taken launch whose image cannot be read (R276). -/
def State.failRun (s : State) (r : Run) (code : Nat) : State :=
  (s.modLaunch (fun l => { l with runs := l.runs.filter (·.num != r.num) })).refuseLaunch r.idx r.ws code

/-- IMAGE_LOAD_COMPLETE (R276): the image of a listed entry whose benches are awake and free, or of a
taken launch that waits for it. -/
def execImageLoadComplete (idx : Nat) (s : State) : Host.Outcome State Fault Refusal :=
  if !s.powered then .next s else
  let ready := fun (ws : List W64) => (ltBenches ws).all (fun b => s.benchFree b && decide ((s.bench b).st = .awake))
  match s.launch.runs.find? (fun r => r.idx == idx && r.waitsImage) with
  | some r =>
    if !ready r.ws || s.runBlocked r then .next s
    else if s.imageAsleep r.ws then .next (s.imageDemand r.ws)
    else
      let (code, s) := s.loadImage r.ws r.benches
      if code ≠ 0 then .next (s.failRun r code)
      else .next (s.modLaunch (fun l => { l with
        runs := modFirst (·.num == r.num) (fun x => { x with waitsImage := false }) l.runs }))
  | none =>
    match s.launch.listed.find? (·.idx == idx) with
    | none => .next s
    | some l =>
      if !l.woken || l.loaded || (ltImage l.ws).2 = 0 || !ready l.ws || s.takeCode idx l.ws ≠ 0 ||
          s.launch.runs.any (fun q => !q.started && q.benches.any ((ltBenches l.ws).contains ·)) then .next s
      else if s.imageAsleep l.ws then .next (s.imageDemand l.ws)
      else
        let (code, s) := s.loadImage l.ws (ltBenches l.ws)
        .next (s.modLaunch (fun x => { x with
          listed := modFirst (·.idx == idx) (fun l => { l with loaded := code == 0, loadCode := some (byte code) })
            x.listed }))

/-- The listed entry to take: due, lowest table index (R274). -/
def State.dueEntry (s : State) : Option Listed :=
  (s.launch.listed.filter (fun l => decide (ltCount l.ws ≤ s.clk.ftime.toNat))).foldl (fun a l => match a with
    | some b => if l.idx < b.idx then some l else some b
    | none => some l) none

/-- LAUNCH_TAKE (R274, R275, R277): refused, started at once, or held. -/
def execLaunchTake (s : State) : Host.Outcome State Fault Refusal :=
  if !s.powered then .next s else
  if !s.scanning || s.pwr.capFloor then .next s
  else match s.dueEntry with
    | none => .next s
    | some l =>
      let s := s.modLaunch (fun x => { x with listed := x.listed.filter (·.idx != l.idx) })
      let c := ltCtx l.ws
      let code := s.takeCode l.idx l.ws
      let s := if code = Code.perm && s.replaying c then s.bump (Reg.liveDrop c) else s
      if code ≠ 0 then .next (s.refuseLaunch l.idx l.ws code)
      else match l.loadCode with
        | some k => if k ≠ 0 then .next (s.refuseLaunch l.idx l.ws k.toNat) else .next (go s l c)
        | none => .next (go s l c)
where
  /-- The entry passes: it is a run, and starts at once when its benches are free. -/
  go (s : State) (l : Listed) (c : Nat) : State :=
    let benches := ltBenches l.ws
    let busy := benches.any (fun b => !s.benchFree b || s.launch.runs.any (fun q => !q.started && !q.held && q.benches.contains b))
    let r : Run :=
      { num := s.launch.nextNum, idx := l.idx, ws := l.ws, ctx := c, benches := benches, held := busy,
        startLo := w32 (fld s.clk.ftime 0 32), waitsImage := (ltImage l.ws).2 != 0 && !l.loaded }
    let s := (s.ltStatus l.idx 1 0 r.startLo.toNat).modLaunch (fun x => { x with
      runs := x.runs ++ [r], nextNum := x.nextNum + 1 })
    let s := if busy then s.bump Reg.launchWait else s
    let s := benches.foldl State.wakeBench s
    let r := { r with waitsImage := r.waitsImage || (busy && (ltImage l.ws).2 != 0) }
    let s := s.modLaunch (fun x => { x with runs := modFirst (·.num == r.num) (fun _ => r) x.runs })
    if s.canStart r then s.startRun r else s

/-- LAUNCH_START (R277): the first taken launch that can now start does. One of a replaying context waits: while it
replays, the sequencer starts only what the log names (R336). -/
def execLaunchStart (s : State) : Host.Outcome State Fault Refusal :=
  if !s.powered then .next s
  else match s.launch.runs.find? (fun r => !r.started && !s.replaying r.ctx && s.canStart r) with
    | none => .next s
    | some r => .next (s.startRun r)

/-- REPLAY_LAUNCH_START (R336): the sequencer starts the next recorded launch. One that names bench 99, or a bench
outside the context's set, diverges with PERM (R191; log entry 64). -/
def execReplayLaunchStart (id : Fin 256) (s : State) : Host.Outcome State Fault Refusal :=
  let c := id.val
  if !s.powered || !s.replaying c then .next s
  else match s.rplNext c (fun r => r.rtype != 0x07 && r.src.engine && r.rtype == 2) with
    | .fail code n => if code = Code.incomplete then .next (s.checkRplDone c) else .next (s.rplDiverge c code n)
    | .entry r =>
      let ws := (List.range 8).map (fun k => w64 (u64 r.body (8 * k)))
      let benches := ltBenches ws
      if !benches.all (fun b => decide (b < 99) && (s.ctx c).benchSet.getLsbD b) then .next (s.rplDiverge c Code.perm r.rseq)
      else if !s.lowerConsumed c r.rseq || !benches.all s.benchFree then .next s
      else if s.imageAsleep ws then .next (s.imageDemand ws)
      else if !benches.all (fun b => decide ((s.bench b).st = .awake)) then .next (benches.foldl State.wakeBench s)
      else
        let run : Run := { num := s.launch.nextNum, idx := r.aux, ws := ws, ctx := c, benches := benches, replayed := true }
        let s := (s.consume c r).modLaunch (fun x => { x with runs := x.runs ++ [run], nextNum := x.nextNum + 1 })
        let (code, s) := if (ltImage ws).2 = 0 then (Code.ok, s) else s.loadImage ws benches
        if code ≠ 0 then .next (s.failRun run code) else .next (s.startRun run)

/-! ### Enabling the sequencer (R271) -/

/-- A write to LT_BASE. -/
def wrLtBase : WriteFn := fun s v =>
  if s.seqEn || v.toNat % 4194304 ≠ 0 || 2 ^ 48 ≤ v.toNat then none else some (s.setReg Reg.ltBase v)

/-- The launch table could be enabled with these values (R271). -/
def State.ltOk (s : State) (size : Nat) : Bool :=
  let a := s.regN Reg.ltBase
  let n := 64 * size
  inTier false a n &&
  !(s.collEn && fld (s.reg Reg.spillSize) 0 7 != 0 && (let sp := s.spillArea; overlaps a n sp.1 sp.2)) &&
  !s.liveCtxs.any (fun c => let r := s.collArea c; overlaps a n r.1 r.2)

/-- A write to LT_CTRL: SEQ_EN and SIZE (R271, R288). -/
def wrLtCtrl : WriteFn := fun s v =>
  let en := bit v 0
  let size := fld v 1 4
  if 8 < size then none
  else if s.seqEn && size ≠ fld (s.reg Reg.ltCtrl) 1 4 then none
  else if en && !s.seqEn && !s.ltOk (2 ^ (size + 8)) then none
  else
    let s := s.setReg Reg.ltCtrl v
    some (if en then s else s.modLaunch (fun l => { l with listed := [] }))

/-- SEQ_EN_WRITE (R271). -/
def execSeqEnWrite (r : Requester) (v : W32) (s : State) : Host.Outcome State Fault Refusal :=
  writeCmd s r Reg.ltCtrl (w64 v.toNat) wrLtCtrl

/-- LT_BASE_WRITE (R271). -/
def execLtBaseWrite (r : Requester) (v : W64) (s : State) : Host.Outcome State Fault Refusal :=
  writeCmd s r Reg.ltBase v wrLtBase true

end Sys2Proof.Machine
end

