-- ==== Sys2Proof/Machine/CollCmd.lean ====
section
/-! DEFINITION. The commands of the collective unit and the adder engines (R123-R157, R199, R335-R338). -/

namespace Sys2Proof.Machine

/-! ### Arrivals -/

/-- A subheader with what came with it (R119). -/
structure CollMsg where
  key : InstKey
  stype : Nat
  chunk : Nat
  member : Nat
  ecount : Nat
  dg : W32
  aux : W32
  payload : List Byte
  src : W32
  part : Nat
  vc : Nat
  poison : Bool
  lp : Option Nat
  core : Option (Nat × Nat)
  units : Nat
  /-- Taken from a log (R336): SRC, PART and VC are not known. -/
  logged : Bool := false
  deriving DecidableEq, Repr

def collMsg (payload : List Byte) (src : W32) (part vc : Nat) (poison : Bool) (lp : Option Nat)
    (core : Option (Nat × Nat)) (units : Nat) (logged : Bool) : CollMsg :=
  let w0 := w32 (u32 payload 0)
  { key := { handle := BitVec.ofNat 20 (fld w0 0 20), gen := byte (fld w0 20 8), step := w32 (u32 payload 4) },
    stype := fld w0 28 4, chunk := u32 payload 8 % 2 ^ 24, member := u32 payload 12 % 4096,
    ecount := u32 payload 12 / 4096 % 65536, dg := w32 (u32 payload 16), aux := w32 (u32 payload 20),
    payload := payload, src := src, part := part, vc := vc, poison := poison, lp := lp, core := core,
    units := units, logged := logged }

def collMsgOf (i : Inbound) : CollMsg :=
  collMsg i.pkt.payload i.pkt.h.src (hPart i.pkt.h) (hVc i.pkt.h) (hPoison i.pkt.h) i.lp i.core i.units false

/-- The entry that applies to a message: the instance's own, else the table's when its context is open. -/
def State.msgEntry (s : State) (m : CollMsg) : List W32 :=
  match s.inst? m.key with
  | some i => i.entry
  | none => if (s.ctx (handleCtx m.key.handle)).st = .opened then s.readWords (s.entryAddr m.key.handle) 16 else []

/-- The local instance that an upper-tier arrival belongs to: matched by handle, step and chunk (R137). -/
def State.upperMatch (s : State) (m : CollMsg) : Option Inst :=
  s.coll.insts.find? (fun i => i.st = .running && i.ent.upperEn && i.ent.upperHandle == m.key.handle.toNat &&
    decide (i.key.step = m.key.step))

/-- The handle an arrival names is one of a frit instance, as far as its entry can be read: a record's entry, the
table's of an open context, or for an upper RESULT the local instance's; none when there is no such entry. -/
def State.fritHandle (s : State) (m : CollMsg) : Option Bool :=
  if m.stype = stResult then (s.upperMatch m).map (fun i => i.frit)
  else
    let ws := s.msgEntry m
    if ws.isEmpty || !(entryOf ws).valid || ((s.inst? m.key).isNone && s.meetsUe (s.entryAddr m.key.handle) 64 false) then none
    else some (entryOf ws).frit

/-- The STYPE may arrive on this VC (R120): VC1 carries CONTRIB, PARTIAL and RESULT only for frit. Where no entry can
be read, VC1 passes and the checks of R124 decide (log entry 44). -/
def State.stypeOk (s : State) (m : CollMsg) : Bool :=
  let frit := (s.fritHandle m).getD true
  m.core.isSome || m.logged ||
  (if m.stype = stContrib ∨ m.stype = stPartial then m.vc == 2 || (m.vc == 1 && frit)
    else if m.stype = stOpen then m.vc == 2
    else if m.stype = stCount ∨ m.stype = stOffsets then m.vc == 1
    else if m.stype = stResult then m.vc == 3 || (m.vc == 1 && frit)
    else if m.stype = stStatus ∨ m.stype = stProgress then m.vc == 3
    else false)

/-- The row of the table that handles an arrival: 0 CONTRIB and what fails R123, 1 OPEN, 2 COUNT,
3 PARTIAL, 4 RESULT, 5 STATUS; OFFSETS and PROGRESS of another device end in 5 without effect. -/
def State.collRow (s : State) (i : Inbound) : Nat :=
  if i.pkt.payload.length < 24 then 0
  else
    let m := collMsgOf i
    if !s.stypeOk m then 0
    else if m.stype ≤ 5 then m.stype else 5

/-- Return an arrival's terminating credit. -/
def State.collTaken (s : State) (m : CollMsg) : State := s.takeCredit m.lp m.vc m.units

/-- A packet that fails R123: discarded and counted, and answered on VC2. -/
def State.collBad (s : State) (i : Inbound) : State :=
  let s := (s.bump Reg.collBad).tookIn i
  if hVc i.pkt.h = 2 then s.send .answer (s.statusAnswer i.pkt Code.lenErr) else s

/-! ### The checks of R124 -/

/-- How a message fails: its code, what the instance suffers, the counter, and whether the entry is at
fault. -/
structure Failure where
  code : Nat
  poisons : Bool := false
  /-- A refused instance becomes a tombstone (BUSY). -/
  refuses : Bool := false
  counter : Option Nat := none
  entryFault : Bool := false
  /-- The entry could be read, so RESULT_GROUP is known. -/
  entry : Bool := true
  /-- Live traffic of a replaying context (R335). -/
  live : Bool := false
  deriving DecidableEq, Repr

/-- The arrival is live traffic of a replaying context, not of one of its own cores. -/
def State.liveReplay (s : State) (m : CollMsg) : Bool := s.replaying (handleCtx m.key.handle) && !m.logged && m.core.isNone

/-- A record for an instance whose entry cannot be read: a tombstone from the start (R124 order 1). -/
def State.makeBareTomb (s : State) (m : CollMsg) (f : Failure) : State :=
  match s.recordRoom with
  | some s => s.modColl (fun c => { c with
      insts := c.insts ++ [
        { key := m.key, st := .poisoned, code := byte f.code, tombAt := s.now, openedAt := s.now,
          openFt := s.ftimeOr0, blame := some m.member, entryFault := f.entryFault,
          part := (s.ctx (handleCtx m.key.handle)).part }] })
  | none => s

/-- What a failed check does to the instance (R124, R131, R132). -/
def State.failInst (s : State) (m : CollMsg) (f : Failure) : State :=
  let isNew := (s.inst? m.key).isNone
  if f.poisons then
    if !isNew then s.poison m.key f.code (some m.member) f.entryFault
    else if f.entry then s.makeTomb m.key (s.msgEntry m) .poisoned f.code (some m.member) f.entryFault
    else s.makeBareTomb m f
  else if f.refuses && isNew then s.makeTomb m.key (s.msgEntry m) .refused f.code (some m.member) false
  else s

/-- Report a failed check (R124, R125): the effect on the instance, then the STATUS to the source. CONTRACT names the
first member of the instance that failed order 8, or the entry (R138). -/
def State.collFail (s : State) (m : CollMsg) (f : Failure) : State :=
  let old := s.inst? m.key
  let contract := f.code == Code.contract
  let ef := f.entryFault || (contract && old.any (fun i => !i.live && i.code.toNat == Code.contract && i.entryFault))
  let first := if contract && !ef then (old.bind (·.firstBad)).getD m.member else m.member
  let aux := statusAux f.code (if ef then none else some first) ef
  let acts := !(f.poisons || f.refuses) || (s.inst? m.key).isNone || (s.inst? m.key).any Inst.live
  let s := match f.counter with
    | some c => if acts then s.bump c else s
    | none => s
  let s := if f.live then s.bump (Reg.liveDrop (handleCtx m.key.handle)) else s
  let t := s.failInst m f
  let t := if contract && !ef then t.modInst m.key (fun i => { i with firstBad := some first }) else t
  t.statusOnce m.key m.src m.core m.chunk m.member f.code m.dg aux (s.liveReplay m)

/-- A tombstone whose entry or member table could not be read: the checks that need them do not apply. -/
def Inst.unread (i : Inst) : Bool := !i.live && i.entryFault && i.code.toNat == Code.internal

/-- The handle's entry and member table are read for an arrival of an instance without a record, and the errors their
lines hold are met (R117, R314). -/
def State.readEntry (s : State) (m : CollMsg) : State :=
  let c := handleCtx m.key.handle
  if (s.ctx c).st ≠ .opened || (s.inst? m.key).isSome then s
  else
    let s := ((s.memServe (s.entryAddr m.key.handle) 64).meet (s.entryAddr m.key.handle) 64 true 0x0E (some c)).memBytes
      (s.entryAddr m.key.handle) 64 false
    let x := entryOf (s.msgEntry m)
    if x.valid && x.mtabEn && inPool x.mtab (4 * x.members) then
      ((s.memServe x.mtab (4 * x.members)).meet x.mtab (4 * x.members) true 0x0E (some c)).memBytes x.mtab (4 * x.members) false
    else s

/-- Orders 1 to 5 of R124, with the live traffic of a replaying context (R335). `none`: all passed. -/
def State.checkContext (s : State) (m : CollMsg) : Option Failure :=
  let c := handleCtx m.key.handle
  let x := s.ctx c
  let noRec := (s.inst? m.key).isNone
  let ent := entryOf (s.msgEntry m)
  let a := s.entryAddr m.key.handle
  let isOpen := x.st = .opened
  let badEntry := isOpen && noRec && s.meetsUe a 64 false
  let badTab := isOpen && noRec && ent.valid && ent.mtabEn && !entryInvalid ent (s.ownersOf c).length &&
    s.meetsUe ent.mtab (4 * ent.members) false
  if badEntry then some { code := Code.internal, poisons := true, entryFault := true, entry := false }
  else if badTab then some { code := Code.internal, poisons := true, entryFault := true }
  else if x.fenced || s.fault.oos then some { code := Code.fenced }
  else if !s.collEn || !isOpen then some { code := Code.closed, counter := some Reg.closedDrop }
  else if m.key.gen ≠ x.gen then some { code := Code.genStale, counter := some Reg.genStaleDrop }
  else if s.liveReplay m then some { code := Code.perm, counter := some Reg.permDrop, live := true }
  else if (!ent.valid && !(s.inst? m.key).any Inst.unread) || (!m.logged && m.part ≠ x.part.toNat) then some { code := Code.perm, counter := some Reg.permDrop }
  else none

/-- The member's range in a VARSIZE data phase: first global element and count (R143, R144). -/
def Inst.range (i : Inst) (m : Nat) : Nat × Nat := (i.offsets.getD m 0, sget 0 i.counts m)

/-- Overlap of [a, a + n) and [b, b + k). -/
def overlap (a n b k : Nat) : Nat := min (a + n) (b + k) - max a b

/-- Order 6 for a CONTRIB or PARTIAL. -/
def State.lenBad (s : State) (m : CollMsg) (x : Entry) : Bool :=
  let total := match s.inst? m.key with | some i => i.total | none => x.total
  let n := chunkElems total x.e m.chunk
  let body := m.payload.length - 24
  let wrong := if m.logged && m.payload.length = 24 then false
    else if m.stype = stPartial then
      (parsePartial (if x.frit then 2 else x.mode) x.etype m.ecount (m.payload.drop 24)).isNone
    else (isMx x.etype && m.ecount % 32 != 0) || body != elemBytes x.etype m.ecount
  if x.varsize then
    match s.inst? m.key with
    | some i =>
      if i.st = .running then
        let first := fld m.aux 0 16
        let g := m.chunk * x.e + first
        let r := i.range m.member
        decide (x.members ≤ m.member) || decide (i.chunks' ≤ m.chunk) || wrong ||
        decide (n < first + m.ecount) || (isMx x.etype && first % 32 != 0) ||
        !decide (r.1 ≤ g ∧ g + m.ecount ≤ r.1 + r.2) ||
        decide (overlap r.1 r.2 (m.chunk * x.e) n < sget 0 (i.chunk m.chunk).recv m.member + m.ecount)
      else if i.st = .counting then true
      else
        -- a tombstone: the count phase may have assigned ranges, and what was received is forgotten
        let first := fld m.aux 0 16
        let g := m.chunk * x.e + first
        let r := i.range m.member
        decide (x.members ≤ m.member) || wrong ||
        (!i.offsets.isEmpty && (decide (i.chunks' ≤ m.chunk) || decide (n < first + m.ecount) ||
          !decide (r.1 ≤ g ∧ g + m.ecount ≤ r.1 + r.2)))
    | none => true
  else decide (x.members ≤ m.member) || decide (nchunks total x.e ≤ m.chunk) || m.ecount != n || wrong

/-- The member table as read at open, when the entry uses one. -/
def State.memberTable (s : State) (x : Entry) : List W32 := if x.mtabEn then s.readWords x.mtab x.members else []

/-- Order 6 of R124 for each kind of arrival. The rule names fields of a contribution; of an OPEN the model checks MEMBER
and LEN 24, not CHUNK or ECOUNT, and of a COUNT also ECOUNT and CHUNK 0 and, for an MX ETYPE, a multiple of 32, which R142
states without a code (DESIGN CHOICE, log entry 62). -/
def State.formBad (s : State) (m : CollMsg) (x : Entry) : Bool :=
  if m.stype = stOpen then decide (x.members ≤ m.member) || m.payload.length != 24
  else if m.stype = stCount then decide (x.members ≤ m.member) || m.payload.length != 24 || m.ecount != 0 || m.chunk != 0 ||
    (isMx x.etype && m.aux.toNat % 32 != 0)
  else s.lenBad m x

/-- The total that the digest of an arrival covers (R118): 0 in a count phase; none for a VARSIZE tombstone that no
total was exchanged for. -/
def Inst.digestTotal (old : Option Inst) (m : CollMsg) (x : Entry) : Option Nat :=
  if !x.varsize then some x.total
  else if m.stype = stCount then some 0
  else match old with
    | none => some 0
    | some i => if i.st = .counting then some 0 else if !i.live && i.offsets.isEmpty then none else some i.total

/-- Orders 6 to 9 of R124. The checks of order 6 do not apply to an invalid entry, whose CONTRACT comes at order 8,
behind ADDR; a tombstone that answers for its entry keeps its own code. -/
def State.checkEntry (s : State) (m : CollMsg) : Option Failure :=
  let c := handleCtx m.key.handle
  let x := entryOf (s.msgEntry m)
  let old := s.inst? m.key
  let invalid := old.isNone && entryInvalid x (s.ownersOf c).length
  let tab := match old with | some i => i.members | none => s.memberTable x
  let keeps := fun (i : Inst) => !i.live && i.entryFault
  if old.any (fun i => i.unread || (keeps i && i.code.toNat != Code.addr)) then none
  else if !invalid && s.formBad m x then some { code := Code.lenErr, poisons := true }
  else if old.any keeps then none
  else if old.isNone && x.mtabEn && (s.findWin c x.mtab (4 * x.members)).isNone then
    some { code := Code.addr, poisons := true, entryFault := true }
  else if invalid then some { code := Code.contract, poisons := true, entryFault := true }
  else if (m.stype = stCount && !x.varsize) || (Inst.digestTotal old m x).any (fun t => m.dg != digest x t m.key.step) ||
      (x.mtabEn && !m.logged && tab.getD m.member 0 ≠ m.src) then
    some { code := Code.contract, poisons := true }
  else if m.poison then some { code := Code.poison, poisons := true }
  else none

/-- A tombstone answers with its code (R124 order 12, R138); COMPLETE sends nothing. -/
def State.tombAnswer (s : State) (m : CollMsg) (i : Inst) : State :=
  if i.st = .complete then s.bump Reg.dupContrib
  else s.statusOnce m.key m.src m.core m.chunk m.member i.code.toNat m.dg
    (statusAux i.code.toNat (if i.entryFault then none
      else if i.code.toNat = Code.contract then i.blame else some m.member) i.entryFault)

/-- Orders 10 and 11: open the instance if it has no record. none: it failed and was reported. -/
def State.openFor (s : State) (m : CollMsg) : Option State × State :=
  match s.inst? m.key with
  | some _ => (some s, s)
  | none =>
    let ws := s.msgEntry m
    let x := entryOf ws
    match s.recordRoom with
    | none =>
      let s := s.collFail m { code := Code.capacity, counter := some Reg.capacityRefused }
      (none, s)
    | some s1 =>
      if x.frit then
        if 64 ≤ s1.fritUsed then
          (none, (s1.bump Reg.fritBusy).collFail m { code := Code.busy, refuses := true })
        else (some (s1.openInst m.key ws (s.memberTable x) x.total none false), s)
      else match s1.place x x.total (s.ownersOf (handleCtx m.key.handle)) (handleCtx m.key.handle) with
        | none => (none, s1.collFail m { code := Code.busy, refuses := true, counter := some Reg.refusedBusy })
        | some sp => (some (s1.openInst m.key ws (s.memberTable x) x.total none sp), s)

/-- The chunk's slot holds an older chunk (R124 order 10, R151, R256). -/
def Inst.overrun (i : Inst) (c : Nat) : Bool := decide (i.slots ≤ c) && !i.written.contains (c - i.slots)

/-- The contribution that a message carries. -/
def contribOf (m : CollMsg) (x : Entry) : Contribution :=
  { key := m.key, chunk := m.chunk, member := m.member, ecount := m.ecount,
    first := if x.varsize then fld m.aux 0 16 else 0, isPartial := m.stype == stPartial,
    elems := m.payload.drop 24, sub := m.payload.take 24, src := m.src, core := m.core, twin := false }

/-- A COLL record of a take (R331): only the subheader when a core of the context issued it. -/
def State.recordTake (s : State) (c : Contribution) (src : RecSrc) : State :=
  s.record (handleCtx c.key.handle) 0x04 src (b2n c.core.isSome)
    (if c.core.isSome then c.sub else c.sub ++ c.elems)

/-- Reduce a frit contribution at once (R149, R408). -/
def State.fritTake (s : State) (i : Inst) (c : Contribution) (obs : AdderObs) (logged : Bool) : State :=
  let s := if logged then s else s.recordTake c recColl
  let s := s.modInst i.key (fun i =>
    let ch := i.chunk c.chunk
    i.setChunk { ch with
      seen := ch.seen ++ [c.member], main := takeInto i.ent true c ch.main })
  let s := s.markApplied i.key false c.member c.src c.core
  let bad := (obs = .residue || obs = .tally) && bit (s.reg Reg.arithCtrl) 0
  if bad then
    let s := s.bump (if obs = .tally then Reg.tallyFault else Reg.residueFault)
    ((s.logFault
      { cls := 0x0C, sev := 1, act := 2, code := Code.internal, block := 11,
        detail := w64 (i.key.handle.toNat + i.key.step.toNat * 2 ^ 32),
        ctx := some i.ctx }).poison i.key Code.internal none false).statusOnce i.key c.src c.core c.chunk
          c.member Code.internal i.digest (statusAux Code.internal (some c.member) false)
  else match s.inst? i.key with
    | none => s
    | some j => if j.sideComplete c.chunk (j.chunk c.chunk).main then s.finalise i.key c.chunk false else s

/-- A CONTRIB or PARTIAL under R123 and R124. Its terminating credit returns as it leaves the terminating room, for a
bench's queue that has room or for the frit path unit (R26, R72, R199). -/
def State.collContrib (s : State) (m : CollMsg) (obs : AdderObs) : State :=
  let s := (s.readEntry m).collTaken m
  match s.checkContext m with
  | some f => s.collFail m f
  | none => match s.checkEntry m with
    | some f => s.collFail m f
    | none =>
      match s.inst? m.key with
      | some i =>
        if !i.live then s.tombAnswer m i
        else if i.written.contains m.chunk || (!i.ent.varsize && (i.chunk m.chunk).seen.contains m.member) then
          s.bump Reg.dupContrib
        else if i.overrun m.chunk then
          s.collFail m { code := Code.capacity, poisons := true, counter := some Reg.windowOverrun }
        else apply s i
      | none => match s.openFor m with
        | (none, t) => t
        | (some t, _) => match t.inst? m.key with
          | none => t
          | some i =>
            if i.overrun m.chunk then
              t.collFail m { code := Code.capacity, poisons := true, counter := some Reg.windowOverrun }
            else apply t i
where
  /-- Every check passed: reduced on the frit path, or steered to its owner bench. -/
  apply (s : State) (i : Inst) : State :=
    if i.frit then s.fritTake i (contribOf m i.ent) obs m.logged else s.steer i (contribOf m i.ent)

/-- An OPEN (R132, R145). -/
def State.collOpen (s : State) (m : CollMsg) : State :=
  let ok := fun (s : State) => s.statusTo m.key m.src m.core m.chunk m.member m.dg (statusAux Code.ok (some m.member) false)
  let s := (s.readEntry m).collTaken m
  match s.checkContext m with
  | some f => s.collFail m f
  | none => match s.checkEntry m with
    | some f => s.collFail m f
    | none => match s.inst? m.key with
      | some i => if i.live then ok s else s.tombAnswer m i
      | none =>
        if (entryOf (s.msgEntry m)).varsize then ok s
        else match s.openFor m with
          | (none, t) => t
          | (some t, _) => ok t

/-- The last count, `m`, is in (R143): offsets, admission, and an OFFSETS to each member. Refused, its source gets BUSY
and the instance is a tombstone (R128). -/
def State.countsDone (s : State) (i : Inst) (m : CollMsg) : State :=
  let x := i.ent
  let cs := (List.range x.members).map (sget 0 i.counts)
  let total := cs.foldl (· + ·) 0
  if total = 0 || 2 ^ 40 - 1 < total || 16777215 < nchunks total x.e then
    s.poison i.key Code.lenErr none false
  else
    let offs := (List.range x.members).map (fun m => (cs.take m).foldl (· + ·) 0)
    match s.place x total (s.ownersOf i.ctx) i.ctx with
    | none =>
      let s := (s.bump Reg.refusedBusy).tombstone i.key .refused Code.busy none false
      let s := s.statusOnce i.key m.src m.core m.chunk m.member Code.busy m.dg (statusAux Code.busy (some m.member) false)
      s.statusAll i (auxFor Code.busy none false)
    | some sp =>
      let s := s.openInst i.key i.entry i.members total (some { i with offsets := offs }) sp
      match s.inst? i.key with
      | none => s
      | some j => (List.range x.members).foldl (fun s m =>
          s.collSend i.key .answer recColl (mkPacket (s.collHdr i.key (sget 0 i.memberSrc m) false 1 0)
            (subOf i.key stOffsets 0 m 0 j.digest 0 ++ leBytes 8 (offs.getD m 0) ++ leBytes 8 total)) false) s

/-- A COUNT (R142, R143, R145). -/
def State.collCount (s : State) (m : CollMsg) : State :=
  let s := (s.readEntry m).collTaken m
  let hold := fun (s : State) (i : Inst) =>
    let s := if m.logged then s else s.record (handleCtx m.key.handle) 0x04 recColl 0 m.payload
    let s := s.modInst i.key (fun i => { i with
      counts := sset 0 i.counts m.member m.aux.toNat, memberSrc := sset 0 i.memberSrc m.member m.src,
      memberChunks := smod 0 i.memberChunks m.member (· + 1) })
    match s.inst? i.key with
    | none => s
    | some j => if j.ent.members ≤ j.memberChunks.length then
        (s.modInst i.key (fun i => { i with memberChunks := [] })).countsDone { j with memberChunks := [] } m else s
  match s.checkContext m with
  | some f => s.collFail m f
  | none => match s.checkEntry m with
    | some f => s.collFail m f
    | none => match s.inst? m.key with
      | some i =>
        if !i.live then s.tombAnswer m i
        else if i.st = .running || 0 < sget 0 i.memberChunks m.member then
          if sget 0 i.counts m.member = m.aux.toNat then s.bump Reg.dupContrib
          else s.collFail m { code := Code.contract, poisons := true }
        else hold s i
      | none =>
        let ws := s.msgEntry m
        match s.recordRoom with
        | none => s.collFail m { code := Code.capacity, counter := some Reg.capacityRefused }
        | some s =>
          if 64 ≤ s.fritUsed then (s.bump Reg.fritBusy).collFail m { code := Code.busy, refuses := true }
          else
            let i : Inst :=
              { key := m.key, st := .counting, entry := ws, members := s.memberTable (entryOf ws), openedAt := s.now,
                openFt := s.ftimeOr0, part := (s.ctx (handleCtx m.key.handle)).part }
            hold (s.modColl (fun c => { c with insts := c.insts ++ [i] })) i

/-! ### Upper tier (R137) -/

/-- An upper RESULT: sent on under PLACE with the local subheader; the last completes the instance. One that arrives
poisoned poisons the instance (R48); both are recorded at the take (R331). One for a chunk that is sent on already
matches nothing that the instance awaits, and counts in UPPER_ORPHAN (DESIGN CHOICE, log entry 62). While the context
replays nothing is taken live (R336, log entry 64). -/
def State.collUpperResult (s : State) (m : CollMsg) : State :=
  let s := s.collTaken m
  match s.upperMatch m with
  | none => s.bump Reg.upperOrphan
  | some i =>
    if s.replaying i.ctx && !m.logged then s
    else if i.chunks' ≤ m.chunk || i.upperDone.contains m.chunk then s.bump Reg.upperOrphan
    else
      let s := if m.logged then s else s.record i.ctx 0x04 recColl 2 m.payload
      if m.poison then s.poison i.key Code.poison none false
      else
        let s := s.collSendAll i.key (.result i.key m.chunk 100) recColl (s.resultPackets i m.chunk (m.payload.drop 24))
        let s := s.modInst i.key (fun i => { i with upperDone := insertNat m.chunk i.upperDone })
        match s.inst? i.key with
        | none => s
        | some j => if j.chunks' ≤ j.upperDone.length then s.completeInst j.key else s

/-- A received status code: reserved codes are INTERNAL and counted (R13). -/
def State.rxCode (s : State) (c : Nat) : Nat × State :=
  if c ≤ 0x0C || c = 0x0F then (c, s) else (Code.internal, s.bump Reg.reservedStatus)

/-- An upper STATUS poisons the instance with its code, whatever it is (R137); one that arrives poisoned, whose AUX is not
used, with POISON (R48). Its CHUNK names a chunk of the instance, or all of it. -/
def State.collUpperStatus (s : State) (m : CollMsg) : State :=
  let s := s.collTaken m
  if m.stype ≠ stStatus then s
  else match s.upperMatch m with
    | none => s.bump Reg.upperOrphan
    | some i =>
      if s.replaying i.ctx && !m.logged then s
      else if i.chunks' ≤ m.chunk && m.chunk != 0xFFFFFF then s.bump Reg.upperOrphan
      else
        let s := if m.logged then s else s.record i.ctx 0x04 recColl 2 m.payload
        if m.poison then s.poison i.key Code.poison none false
        else
          let (code, s) := s.rxCode (fld m.aux 0 8)
          s.poison i.key code none false

/-! ### Taking an arrival -/

/-- The owner benches of a contribution's chunk: the primary's, and the twin's (R127); none on the frit path or when no
instance takes it. -/
def State.targetBenches (s : State) (m : CollMsg) : List Nat :=
  let x := entryOf (s.msgEntry m)
  let own := match s.inst? m.key with | some j => j.owners | none => s.ownersOf (handleCtx m.key.handle)
  let w := match s.inst? m.key with
    | some j => j.slots | none => max 1 (min x.window (nchunks x.total x.e))
  let at' := fun (k : Nat) => own.getD ((m.chunk % w + k) % max 1 own.length) 0
  if (m.stype ≠ stContrib ∧ m.stype ≠ stPartial) || x.frit || own.isEmpty || !((s.inst? m.key).map Inst.live).getD true then []
  else if x.twin then [at' 0, at' 1] else [at' 0]

/-- Units of an ingress queue that a message's contribution takes. -/
def msgUnits (m : CollMsg) : Nat := cdiv (20 + m.payload.length) 256

/-- A contribution's owner benches lack room in their ingress queues: it stays in the terminating room (R199). -/
def State.noRoom (s : State) (m : CollMsg) : Bool := (s.targetBenches m).any (fun b => !s.adderRoom b (msgUnits m))

/-- A contribution from the network waits to enter bench `b`, which has room for it. -/
def State.netWants (s : State) (b : Nat) : Bool :=
  s.coll.inq.any (fun i => i.core.isNone && decide (24 ≤ i.pkt.payload.length) &&
    (s.targetBenches (collMsgOf i)).contains b && !s.noRoom (collMsgOf i))

/-- A core of bench `b` waits with a contribution for the bench's own queue. -/
def State.coreWaits (s : State) (b : Nat) : Bool :=
  (List.range 8).any (fun c => (s.core (b * 8 + c)).wait.any (fun w => decide (w.kind = .contrib)) &&
    decide ((s.core (b * 8 + c)).run = .waiting))

/-- The bench's queue serves its cores next: the two sources take turns while both wait (R199). -/
def State.coresTurn (s : State) (b : Nat) : Bool := s.coreWaits b && !(s.bench b).coreTurn

/-- A take makes a COLL record, and the record queue of its recording context has no room (R331, R333). -/
def State.recordStalls (s : State) (m : CollMsg) : Bool :=
  if m.stype = stResult ∨ m.stype = stStatus then
    (s.upperMatch m).any (fun i => !s.recRoom i.ctx m.payload.length)
  else
    let x := entryOf (s.msgEntry m)
    (m.stype = stCount || ((m.stype = stContrib ∨ m.stype = stPartial) && x.frit)) &&
      !s.recRoom (handleCtx m.key.handle) m.payload.length

/-- The handle's entry must be read and its controller sleeps: the arrival waits for it (R30). -/
def State.entryAsleep (s : State) (m : CollMsg) : Bool :=
  decide (m.stype ≤ 3) && (s.ctx (handleCtx m.key.handle)).st = .opened && (s.inst? m.key).isNone &&
  !s.memAwake (s.entryAddr m.key.handle) 64

/-- An arrival that is held up: by a full ingress queue, by the turn of a bench's cores, by a sleeping controller, or at
its record point. A replaying context's own frit contribution waits for its record (R336). -/
def State.collBlocked (s : State) (i : Inbound) : Bool :=
  let m := collMsgOf i
  decide (24 ≤ i.pkt.payload.length) && s.stypeOk m &&
  (s.noRoom m || (i.core.isNone && (s.targetBenches m).any (fun b => s.coresTurn b)) || s.entryAsleep m || s.recordStalls m ||
    (i.core.isSome && decide (m.stype = stContrib) && s.replaying (handleCtx m.key.handle)))

/-- What an arrival does while it waits: it demands the controller that it waits for, and, unless it waits for a full
ingress queue, a VC2 arrival's credit is not withheld (R26, R30). -/
def State.collWait (s : State) (i : Inbound) : State :=
  let m := collMsgOf i
  if decide (24 ≤ i.pkt.payload.length) && s.stypeOk m then
    let s := if s.entryAsleep m then s.memDemand (s.entryAddr m.key.handle) 64 else s
    if hVc i.pkt.h = 2 && i.units != 0 && !s.noRoom m then
      (s.modColl (fun q => { q with inq := q.inq.map (fun j => if j = i then { j with units := 0 } else j) })).takeCredit i.lp 2 i.units
    else s
  else s

/-- The first arrival of a row that is not held up; one core's stay in their order (R256). `seen`: those before. -/
def State.collFirst (s : State) (row : Nat) : List Inbound → List Inbound → Option Inbound
  | _, [] => none
  | seen, i :: is =>
    if s.collRow i == row && !(i.core.isSome && seen.any (fun j => decide (j.core = i.core))) && !s.collBlocked i then some i
    else State.collFirst s row (seen ++ [i]) is

/-- The contexts in replay. -/
def State.replayCtxs (s : State) : List Nat := (skeys s.rpl).filter s.replaying

/-- The live contribution that a FROM_CORE record names, and whether one of its member and chunk differs (R336, R338):
among `cs`, as subheaders. -/
def fromCore (cs : List (List Byte)) (sub : List Byte) : Option Nat × Bool :=
  let same := fun (c : List Byte) => c.take 8 == sub.take 8 && u32 c 8 % 2 ^ 24 == u32 sub 8 % 2 ^ 24 &&
    u32 c 12 % 4096 == u32 sub 12 % 4096
  match cs.findIdx? (fun c => c == sub) with
  | some k => (some k, false)
  | none => (none, cs.any same)

/-- What the frit path unit or the collective unit does in a replay: a record to apply, a FROM_CORE record with the
core's contribution, or a divergence with its code and record. -/
inductive RplColl where
  | apply (c : Nat) (r : Rec)
  | core (c : Nat) (r : Rec) (i : Inbound)
  | diverge (c code rseq : Nat)
  deriving DecidableEq, Repr

/-- The next step of a replaying context `c` at the frit path unit, or for the upper tier. -/
def State.rplCollOf (s : State) (upper : Bool) (st c : Nat) : Option RplColl :=
  let mine := s.coll.inq.filter (fun i => i.core.isSome && decide (24 ≤ i.pkt.payload.length) &&
    handleCtx (collMsgOf i).key.handle == c && decide ((collMsgOf i).stype = stContrib))
  match s.rplNext c (if upper then recUpper else recOfEngine 0x7F) with
  | .fail code n => if code = Code.incomplete && (upper || mine.isEmpty) then none else some (.diverge c code n)
  | .entry r =>
    if u32 r.body 0 / 2 ^ 28 ≠ st then none
    else if r.aux % 2 = 0 then some (.apply c r)
    else match fromCore (mine.map (fun i => i.pkt.payload.take 24)) (r.body.take 24) with
      | (some k, _) => (mine[k]?).map (fun i => .core c r i)
      | (none, true) => some (.diverge c Code.contract r.rseq)
      | (none, false) => none

/-- The first replaying context with something to do. -/
def State.rplColl (s : State) (upper : Bool) (st : Nat) : Option RplColl := s.replayCtxs.findSome? (s.rplCollOf upper st)

def loggedMsg (r : Rec) : CollMsg := collMsg r.body 0 0 0 false none none 0 true

/-- Orders 10 to 12 of R124 for a logged contribution: the code it is not applied with. A duplicate, and what a
COMPLETE instance discards, have none of their own (log entry 64). -/
def State.admitCode (s : State) (m : CollMsg) : Option Nat :=
  let x := entryOf (s.msgEntry m)
  let w := max 1 (min x.window (nchunks x.total x.e))
  match s.inst? m.key with
  | some i =>
    if !i.live then some (if i.st = .complete then Code.contract else i.code.toNat)
    else if m.stype = stCount then
      (if i.st = .running || decide (0 < sget 0 i.memberChunks m.member) then some Code.contract else none)
    else if i.written.contains m.chunk || (!i.ent.varsize && (i.chunk m.chunk).seen.contains m.member) then some Code.contract
    else if i.overrun m.chunk then some Code.capacity else none
  | none => match s.recordRoom with
    | none => some Code.capacity
    | some s1 =>
      if x.frit || decide (m.stype = stCount) then (if 64 ≤ s1.fritUsed then some Code.busy else none)
      else if (s1.place x x.total (s.ownersOf (handleCtx m.key.handle)) (handleCtx m.key.handle)).isNone then some Code.busy
      else if w ≤ m.chunk then some Code.capacity else none

/-- The code with which a message that a record stands for is not applied (R336, R338). One of the upper tier is handled
under R137 alone, and is not applied when no instance takes it. -/
def State.replayBad (s : State) (m : CollMsg) (upper : Bool) : Option Nat :=
  if upper then
    match s.upperMatch m with
    | none => some Code.contract
    | some i => if decide (m.stype = stResult) && (decide (i.chunks' ≤ m.chunk) || i.upperDone.contains m.chunk) then
        some Code.contract else none
  else match s.checkContext m with
    | some e => some e.code
    | none => match s.checkEntry m with
      | some e => some e.code
      | none => s.admitCode m

/-- A COLL record, with its message `m`, is applied after the checks of R124 and admission, or diverges the replay with
the failing check's code. -/
def State.applyMsg (s : State) (c : Nat) (r : Rec) (m : CollMsg) (f : State → CollMsg → State) : State :=
  let s := (s.consume c r).readEntry m
  match s.replayBad m (r.aux / 2 % 2 == 1) with
  | some code => s.rplDiverge c code r.rseq
  | none => (f s m).checkRplDone c

/-- A record of a contribution from outside, or of the upper tier. -/
def State.applyLogged (s : State) (c : Nat) (r : Rec) (f : State → CollMsg → State) : State := s.applyMsg c r (loggedMsg r) f

/-- Take the first arrival of a row that is not held up, or what a replay has next. -/
def State.collStep (s : State) (row : Nat) (f : State → CollMsg → State) : State :=
  match s.collFirst row [] s.coll.inq with
  | some i =>
    let m := collMsgOf i
    let s' := s.modColl (fun c => { c with inq := dropFirst (fun j => decide (j = i)) c.inq })
    if i.pkt.payload.length < 24 || !s.stypeOk m then s'.collBad i else f (s'.readCopy i.stored) m
  | none =>
    match s.rplColl (decide (row = 4 ∨ row = 5)) row with
    | some (.apply c r) => s.applyLogged c r f
    | some (.core c r i) =>
      (s.modColl (fun q => { q with inq := dropFirst (fun j => decide (j = i)) q.inq })).applyMsg c r (collMsgOf i) f
    | some (.diverge c code n) => s.rplDiverge c code n
    | none => s

/-- A command of the collective unit: one take, and the arrivals that are left wait. -/
def collTake (row : Nat) (f : State → CollMsg → State) (s : State) : Host.Outcome State Fault Refusal :=
  if !s.powered then .next s
  else
    let s := s.collStep row f
    .next (s.coll.inq.foldl State.collWait s)

/-- CONTRIB_ARRIVAL (R124). `obs` is what the frit path's checks find in a frit contribution (R408). -/
def execContribArrival (obs : AdderObs) (s : State) : Host.Outcome State Fault Refusal :=
  collTake 0 (fun s m => s.collContrib m obs) s

/-- OPEN_ARRIVAL (R132). -/
def execOpenArrival (s : State) : Host.Outcome State Fault Refusal := collTake 1 State.collOpen s

/-- COUNT_ARRIVAL (R142). -/
def execCountArrival (s : State) : Host.Outcome State Fault Refusal := collTake 2 State.collCount s

/-- PARTIAL_ARRIVAL (R137). -/
def execPartialArrival (obs : AdderObs) (s : State) : Host.Outcome State Fault Refusal :=
  collTake 3 (fun s m => s.collContrib m obs) s

/-- UPPER_RESULT_ARRIVAL (R137). -/
def execUpperResultArrival (s : State) : Host.Outcome State Fault Refusal := collTake 4 State.collUpperResult s

/-- UPPER_STATUS_ARRIVAL (R137). -/
def execUpperStatusArrival (s : State) : Host.Outcome State Fault Refusal := collTake 5 State.collUpperStatus s

/-! ### Adder engines (R199) -/

/-- The adder engine can take this contribution: chunk programs' are left to CTAKE (R260). -/
def State.adderCan (s : State) (c : Contribution) : Bool :=
  match s.inst? c.key with
  | none => true
  | some i => !i.ent.program

/-- What a bench's engine does next. -/
inductive AdderNext where
  | idle
  | take (c : Contribution)
  /-- A replay: the core's contribution that a record names, a record to apply, or a divergence (R336, R338). -/
  | named (c : Contribution) (x : Nat) (r : Rec)
  | apply (x : Nat) (r : Rec)
  | diverge (x code rseq : Nat)
  deriving DecidableEq, Repr

/-- The contribution's record is made, or in replay consumed, at the other side of its twin instance: a contribution is
recorded once, at the first of its two takes (R331, log entry 64). -/
def State.recorded (s : State) (c : Contribution) : Bool :=
  (s.inst? c.key).any (fun i => (i.chunk c.chunk).recorded.contains c.sub)

/-- The contribution's record is made or consumed. -/
def State.noteRecorded (s : State) (c : Contribution) : State :=
  s.modInst c.key (fun i =>
    if i.ent.twin then
      let ch := i.chunk c.chunk
      i.setChunk { ch with recorded := ch.recorded ++ [c.sub] }
    else i)

/-- The other side may hold the contribution's record. -/
def State.paired (s : State) (c : Contribution) : Bool := (s.inst? c.key).any (fun i => i.ent.twin)

/-- What the engine of bench `b` takes next in a replay of context `c`: freely what the other side's record stands for,
all else as the log orders it (R336). -/
def State.adderReplay (s : State) (b c : Nat) : AdderNext :=
  let q := (s.bench b).adderQ.filter s.adderCan
  match q.find? s.recorded with
  | some y => .take y
  | none =>
    let mine := q.filter (fun y => y.core.isSome)
    match s.rplNext c (recOfEngine b) with
    | .fail code n => if code = Code.incomplete && mine.all s.paired then .idle else .diverge c code n
    | .entry r =>
      if r.aux % 2 = 0 then .apply c r
      else match fromCore (mine.map (·.sub)) (r.body.take 24) with
        | (some k, _) => match mine[k]? with
          | some y => .named y c r
          | none => .idle
        | (none, true) => .diverge c Code.contract r.rseq
        | (none, false) => .idle

/-- What a bench's engine takes next: the oldest contribution, or what the log names. -/
def State.adderNext (s : State) (b : Nat) : AdderNext :=
  match (s.ownerOf b).filter s.replaying with
  | some c => s.adderReplay b c
  | none => match (s.bench b).adderQ.find? s.adderCan with
    | some c => .take c
    | none => .idle

/-- A fault that the engine's enabled checks find in a contribution to instance `i` (R183, R184, R196). -/
def State.adderFault (s : State) (i : Inst) (b : Nat) (obs : AdderObs) : Option (Nat × Nat) :=
  let exact := exactPath i.ent.mode i.ent.etype
  let res := bit (s.reg Reg.arithCtrl) 0
  let dual := bit (s.reg Reg.arithCtrl) 1
  match obs with
  | .residue => if res && exact then some (0x0B, Reg.residueFault) else none
  | .tally => if res && exact then some (0x0B, Reg.tallyFault) else none
  | .dualRail => if dual && !exact then some (0x0B, Reg.dualrailFault) else none
  | .crucibleUe => some (0x0A, Reg.crUe b)
  | _ => none

/-- A second ADDER fault in one bench within 1 s starts a compute reset (R407). -/
def State.adderRepeat (s : State) (b : Nat) : State :=
  let again := (s.bench b).lastAdderFault.any (fun t => decide (s.now ≤ t + sec))
  let s := s.modBench b (fun x => { x with lastAdderFault := some s.now })
  if again then s.oweReset 1 0x0B b else s

/-- SPILL_TRAFFIC (R486): the lines a spilled parison moves at a contribution are the cache's choice, so
their number is free, up to a fill and a write-back of each line of it; so are which of them are fills and the controller
they lie at. The spill area's controllers wake for them (R30). -/
def State.spillMoves (s : State) (i : Inst) (b : Nat) : State :=
  if !i.spilled then s
  else
    let (v, s) := (s.memServe s.spillArea.1 4096).free
    let (u, s) := s.free
    let n := v.toNat % (2 * parisonLines i.ent + 1)
    let fills := u.toNat / 12 % (n + 1)
    let blk := memBlk (u.toNat % 12)
    ((s.countEv (128 + b) 0x48 n).countEv blk 0x80 (256 * fills)).countEv blk 0x81 (256 * (n - fills))

/-- Add a contribution on a bench, finalising its chunk when it is the last (R135, R199). -/
def State.adderApply (s : State) (i : Inst) (b : Nat) (c : Contribution) : State :=
  let s := s.modInst i.key (fun i =>
    let ch := i.chunk c.chunk
    i.setChunk (ch.setSide c.twin (takeInto i.ent false c (ch.side c.twin))))
  let s := s.markApplied i.key c.twin c.member c.src c.core
  let s := ((s.countEv (128 + b) 0x42 c.ecount).countEv (128 + b) 0x47 1).spillMoves i b
  let s := s.modBench b (fun x => { x with progressAt := s.now, idleSince := s.now })
  match s.inst? i.key with
  | none => s
  | some j => if j.sideComplete c.chunk ((j.chunk c.chunk).side c.twin) then s.finalise i.key c.chunk c.twin else s

/-- The engine reads a parison with words in error: those that can be corrected are, and counted (R196). -/
def State.meetCr (s : State) (i : Inst) (b : Nat) (c : Contribution) : State :=
  let n := (((i.chunk c.chunk).side c.twin).bad.filter (·.2)).length
  (s.bumpBy (Reg.crCe b) n).modInst i.key (fun i =>
    let ch := i.chunk c.chunk
    let y := ch.side c.twin
    i.setChunk (ch.setSide c.twin { y with bad := y.bad.filter (fun w => !w.2) }))

/-- The engine takes one contribution from its queue. -/
def State.adderTakeOne (s : State) (b : Nat) (c : Contribution) (obs : AdderObs) (logged : Bool) : State :=
  let s := s.modBench b (fun x => { x with adderQ := dropFirst (fun y => decide (y = c)) x.adderQ, idleSince := s.now })
  match s.inst? c.key with
  | none => s
  | some i =>
    if !i.live then s
    else
      let s := (if logged || s.recorded c then s else s.recordTake c { bench := b, engine := true }).noteRecorded c
      let s := if obs = .crucibleCe then s.bump (Reg.crCe b) else s
      let bad := ((i.chunk c.chunk).side c.twin).bad
      let (s, obs) := if bad.isEmpty then (s, obs) else (s.meetCr i b c, if bad.any (fun w => !w.2) then .crucibleUe else obs)
      match s.adderFault i b obs with
      | none => s.adderApply i b c
      | some (cls, ctr) =>
        let masked := i.masked c.twin
        let s := (s.bump ctr).logFault
          { cls := cls, sev := 1, act := if masked then 1 else 2, code := if masked then Code.ok else Code.internal,
            block := 5, index := b, detail := w64 (i.key.handle.toNat + i.key.step.toNat * 2 ^ 32), ctx := some i.ctx }
        let s := s.benchFault i.key c.twin
        let s := if (s.inst? i.key).any (fun j => !j.live) then
            s.statusOnce i.key c.src c.core c.chunk c.member Code.internal i.digest
              (statusAux Code.internal (some c.member) false)
          else s
        if cls = 0x0B then s.adderRepeat b else s

/-- The engine's take makes a record, and its recording context's has no room (R333). -/
def State.adderStalls (s : State) (c : Contribution) : Bool :=
  !s.recorded c && !s.recRoom (handleCtx c.key.handle) (24 + c.elems.length)

/-- A logged contribution passes R124 and admission again, and is taken at once (R336). -/
def State.adderLogged (s : State) (b x : Nat) (r : Rec) (obs : AdderObs) : State :=
  let t := s.applyLogged x r (fun s m => s.collContrib m .clean)
  match (t.bench b).adderQ.find? (fun y => decide (y.sub = r.body.take 24) && y.core.isNone && t.adderCan y) with
  | some c => if t.replaying x then (t.adderTakeOne b c obs true).checkRplDone x else t
  | none => t

/-- ADDER_TAKE (R199). -/
def execAdderTake (b : Fin 100) (obs : AdderObs) (s : State) : Host.Outcome State Fault Refusal :=
  if !s.powered then .next s else
  if (s.bench b).st ≠ .awake || s.fenceActive then .next s
  else match s.adderNext b with
    | .take c => if s.adderStalls c then .next s else .next (s.adderTakeOne b c obs false)
    | .named c x r => .next (((s.consume x r).adderTakeOne b c obs true).checkRplDone x)
    | .apply x r => .next (s.adderLogged b x r obs)
    | .diverge x code n => .next (s.rplDiverge x code n)
    | .idle => .next s

/-! ### Completion, timeouts and claims -/

/-- RESULT_WRITE_COMPLETE (R135): the chunk's write is done once none of its packets is held. -/
def execResultWriteComplete (k : InstKey) (chunk : Nat) (s : State) : Host.Outcome State Fault Refusal :=
  if !s.powered then .next s else
  match s.inst? k with
  | none => .next s
  | some i =>
    if i.st = .running && (i.chunk chunk).sent && !i.written.contains chunk && !s.writeHeld k chunk
    then .next (s.writeDone k chunk) else .next s

/-- TIMEOUT in ns (R114). -/
def Inst.timeoutNs (i : Inst) : Nat := (if i.ent.timeout = 0 then 100 else i.ent.timeout) * ms

/-- Lowest incomplete chunk and its lowest missing member (R133): in the count phase one without a count; else on the
side that still claims the result, a member neither added nor staged, in VARSIZE one short of its overlap. -/
def Inst.missing (i : Inst) : Nat :=
  let c := i.lowWater
  let ch := i.chunk c
  let y := ch.side (i.primClaim == 0)
  let lacks := fun (m : Nat) =>
    if i.st = .counting then sget 0 i.memberChunks m == 0
    else if i.ent.varsize then
      let r := i.range m
      decide (sget 0 y.gotBy m < overlap r.1 r.2 (c * i.ent.e) (chunkElems i.total i.ent.e c))
    else !(y.applied.contains m || y.staged.any (fun q => q.member == m))
  ((List.range i.ent.members).find? lacks).getD 0

/-- Members whose contribution waits in an ingress queue: member, SRC and core (R133). -/
def State.queuedMembers (s : State) (i : Inst) : List (Nat × W32 × Option (Nat × Nat)) :=
  i.owners.flatMap (fun b => ((s.bench b).adderQ.filter (fun c => decide (c.key = i.key))).map (fun c => (c.member, c.src, c.core)))

/-- Every member that contributed, once: applied, counted, or waiting in an ingress queue (R133). -/
def State.contributors (s : State) (i : Inst) : List (Nat × W32 × Option (Nat × Nat)) :=
  let done := (skeys i.memberSrc).map (fun m =>
    (m, sget 0 i.memberSrc m, match sget 0 i.memberCore m with | 0 => none | n => some ((n - 1) / 8, (n - 1) % 8)))
  (s.queuedMembers i).foldl (fun l x => if l.any (fun y => y.1 == x.1) then l else l ++ [x]) done

/-- INSTANCE_TIMEOUT (R133): abandoned with INCOMPLETE, which each member that contributed receives. -/
def execInstanceTimeout (k : InstKey) (s : State) : Host.Outcome State Fault Refusal :=
  if !s.powered then .next s else
  match s.inst? k with
  | none => .next s
  | some i =>
    if !i.live || s.fenceActive || s.now < i.openedAt + i.timeoutNs then .next s
    else
      let miss := i.missing
      let aux := statusAux Code.incomplete (some miss) false
      let who := s.contributors i
      let s := (s.bump Reg.incompleteEv).freeHeld i
      let s := s.tombstone k .abandoned Code.incomplete (some miss) false
      let s := who.foldl (fun s x => s.statusOnce k x.2.1 x.2.2 0 x.1 Code.incomplete i.digest aux) s
      .next (s.statusAll i aux)

/-- TOMB_HOLD_EXPIRY (R131). -/
def execTombHoldExpiry (k : InstKey) (s : State) : Host.Outcome State Fault Refusal :=
  if !s.powered then .next s else
  match s.inst? k with
  | none => .next s
  | some i =>
    if !i.live && decide (i.tombAt + s.regN Reg.tombHold * ms ≤ s.now) then .next (s.dropInst k) else .next s

/-- TWIN_HOLD_EXPIRY (R147): the twin has held a result for 1.5 µs that the primary has not sent. -/
def execTwinHoldExpiry (k : InstKey) (chunk : Nat) (s : State) : Host.Outcome State Fault Refusal :=
  if !s.powered then .next s else
  match s.inst? k with
  | none => .next s
  | some i =>
    match (i.chunk chunk).twin.result with
    | some (_, t) =>
      if i.st = .running && !s.fenceActive && !(i.chunk chunk).sent && !i.written.contains chunk && i.primClaim != 0 &&
          i.twinClaim != 0 && decide (t + 1500 ≤ s.now)
      then .next (s.twinTakeover k) else .next s
    | none => .next s

/-! ### COLL_EN and SPILL_BASE (R157) -/

/-- The spill area may come into use (R157). -/
def State.spillOk (s : State) : Bool :=
  let sp := s.spillArea
  sp.2 == 0 ||
  (inTier false sp.1 sp.2 &&
   !(s.seqEn && (let t := s.ltArea; overlaps sp.1 sp.2 t.1 t.2)) &&
   !s.liveCtxs.any (fun c => let r := s.collArea c; overlaps sp.1 sp.2 r.1 r.2) &&
   !s.hitsWindow sp.1 sp.2)

/-- A write to COLL_CTRL. -/
def wrCollCtrl : WriteFn := fun s v =>
  if bit v 0 && !s.collEn && !s.spillOk then none else some (s.setReg Reg.collCtrl v)

/-- A write to SPILL_BASE: 1 GiB aligned, no reserved bit. -/
def wrSpillBase : WriteFn := fun s v =>
  if v.toNat % gib ≠ 0 || 2 ^ 48 ≤ v.toNat then none else some (s.setReg Reg.spillBase v)

/-- A write to SPILL_SIZE (R156). -/
def wrSpillSize : WriteFn := fun s v =>
  if 64 < v.toNat || s.collEn then none else some (s.setReg Reg.spillSize v)

/-- COLL_EN_WRITE (R157). -/
def execCollEnWrite (r : Requester) (v : W32) (s : State) : Host.Outcome State Fault Refusal :=
  writeCmd s r Reg.collCtrl (w64 v.toNat) wrCollCtrl

/-- SPILL_BASE_WRITE (R157). -/
def execSpillBaseWrite (r : Requester) (v : W64) (s : State) : Host.Outcome State Fault Refusal :=
  writeCmd s r Reg.spillBase v wrSpillBase true

end Sys2Proof.Machine
end

