-- ==== Sys2Proof/Machine/Operands.lean ====
section
/-! DEFINITION. Operand forms of a Marver instruction: fields, formats and legality (R214-R219), the
registers and guards (R194, R219, R221), the address spaces (R195, R196, R230), issue, retirement and
exceptions (R205-R207, R220, R235). -/

namespace Sys2Proof.Machine

/-! ### Fields (R215, R216) -/

def iFam (w : W64) : Nat := fld w 60 4
def iOp (w : W64) : Nat := fld w 52 8
def iPg (w : W64) : Nat := fld w 49 3
def iD (w : W64) : Nat := fld w 44 5
def iA (w : W64) : Nat := fld w 39 5
def iB (w : W64) : Nat := fld w 34 5
def iC (w : W64) : Nat := fld w 29 5
def iType (w : W64) : Nat := fld w 25 4
def iRnd (w : W64) : Nat := fld w 23 2
def iImm (w : W64) : Nat := fld w 0 32
/-- The immediate sign-extended to 64 bits. -/
def immS (w : W64) : W64 := w64 (tc 64 (sgn 32 (iImm w)))
def iSz (w : W64) : Nat := fld w 32 2
def iSpace (w : W64) : Nat := fld w 30 2
def iOff (w : W64) : Int := sgn 30 (fld w 0 30)
def iTarget (w : W64) : Nat := fld w 0 13

/-! ### Legality (R218, R219, R225, R226, R229, R231, R234, R239, R240, R246, R253, R263) -/

/-- What a register field names; `code`: a code of the instruction's own, no register. -/
inductive Use where
  | no | s | v | p | code
  deriving DecidableEq, Repr

/-- The tail of an opcode: its format and the values it permits. -/
inductive Tail where
  | reg (types rnds : List Nat)
  | imm (limit : Nat)
  | mem (szs spaces : List Nat)
  | tgt
  deriving DecidableEq, Repr

/-- One opcode: uses of D, A, B, C and its tail. -/
structure OpRow where
  d : Use
  a : Use
  b : Use
  c : Use
  tail : Tail
  deriving DecidableEq, Repr

/-- The types of R225. -/
def vecTypes : List Nat := [0, 1, 2, 3, 4, 10, 11, 12]
def intTypes : List Nat := [10, 11, 12]
def any4 : List Nat := [0, 1, 2, 3]

def plain : Tail := .reg [0] [0]

def rowScalar (op : Nat) : Option OpRow :=
  if 0x01 ≤ op ∧ op ≤ 0x16 then some ⟨.s, .s, .s, .no, plain⟩
  else if 0x17 ≤ op ∧ op ≤ 0x19 then some ⟨.s, .s, .no, .no, plain⟩
  else if (0x20 ≤ op ∧ op ≤ 0x23) ∨ op = 0x27 ∨ op = 0x29 then some ⟨.s, .s, .no, .no, .imm (2 ^ 32)⟩
  else if 0x24 ≤ op ∧ op ≤ 0x26 then some ⟨.s, .s, .no, .no, .imm 64⟩
  else if op = 0x28 then some ⟨.s, .no, .no, .no, .imm (2 ^ 32)⟩
  else none

def rowVector (op : Nat) : Option OpRow :=
  match op with
  | 0x01 | 0x02 | 0x03 => some ⟨.v, .v, .v, .no, .reg vecTypes [0, 1]⟩
  | 0x04 => some ⟨.v, .v, .v, .v, .reg vecTypes [0, 1]⟩
  | 0x05 | 0x06 => some ⟨.v, .v, .v, .no, .reg vecTypes [0]⟩
  | 0x07 | 0x08 | 0x09 | 0x0A | 0x0B | 0x16 => some ⟨.v, .v, .v, .no, .reg intTypes [0]⟩
  | 0x0C | 0x0D | 0x0E => some ⟨.v, .v, .s, .no, .reg intTypes [0]⟩
  | 0x0F | 0x10 | 0x18 => some ⟨.v, .v, .no, .no, .reg vecTypes [0]⟩
  | 0x11 => some ⟨.v, .v, .code, .code, .reg vecTypes [0, 1]⟩
  | 0x12 => some ⟨.p, .v, .v, .code, .reg vecTypes [0]⟩
  | 0x13 => some ⟨.v, .s, .no, .no, .reg vecTypes [0]⟩
  | 0x14 => some ⟨.s, .v, .s, .no, .reg vecTypes [0]⟩
  | 0x15 => some ⟨.v, .s, .no, .no, .imm 64⟩
  | 0x17 => some ⟨.s, .v, .no, .no, .reg vecTypes [0, 1]⟩
  | _ => none

def rowPredicate (op : Nat) : Option OpRow :=
  match op with
  | 0x01 | 0x02 | 0x03 | 0x04 => some ⟨.p, .p, .p, .no, plain⟩
  | 0x05 => some ⟨.p, .p, .no, .no, plain⟩
  | 0x06 => some ⟨.p, .s, .no, .no, plain⟩
  | 0x07 | 0x08 | 0x09 => some ⟨.s, .p, .no, .no, plain⟩
  | _ => none

def rowMemory (op : Nat) : Option OpRow :=
  match op with
  | 0x01 | 0x02 => some ⟨.s, .s, .no, .no, .mem any4 any4⟩
  | 0x03 => some ⟨.no, .s, .s, .no, .mem any4 any4⟩
  | 0x04 => some ⟨.v, .s, .no, .no, .mem [0] any4⟩
  | 0x05 => some ⟨.no, .s, .v, .no, .mem [0] any4⟩
  | 0x06 => some ⟨.s, .s, .s, .no, .mem [3] [2]⟩
  | 0x07 => some ⟨.s, .s, .s, .no, .mem [2] [2]⟩
  | 0x08 => some ⟨.s, .s, .s, .s, plain⟩
  | 0x09 => some ⟨.no, .no, .no, .no, plain⟩
  | 0x0A => some ⟨.no, .s, .no, .no, .mem [0] [0]⟩
  | _ => none

def rowComm (op : Nat) : Option OpRow :=
  match op with
  | 0x01 | 0x02 => some ⟨.s, .s, .s, .s, plain⟩
  | 0x03 => some ⟨.s, .s, .no, .s, plain⟩
  | 0x04 => some ⟨.s, .no, .no, .no, plain⟩
  | _ => none

def rowFused (op : Nat) : Option OpRow :=
  match op with
  | 0x01 | 0x03 => some ⟨.s, .s, .s, .s, .reg vecTypes [0, 1, 2]⟩
  | 0x02 => some ⟨.s, .s, .s, .s, .reg [5, 6, 7, 8, 9] [0, 1, 2]⟩
  | 0x04 => some ⟨.s, .s, .no, .no, plain⟩
  | 0x05 => some ⟨.s, .s, .no, .s, plain⟩
  | 0x06 => some ⟨.s, .s, .s, .s, .reg vecTypes [0]⟩
  | 0x07 => some ⟨.s, .s, .s, .s, plain⟩
  | 0x08 => some ⟨.s, .no, .no, .no, .imm 4⟩
  | _ => none

def rowControl (op : Nat) : Option OpRow :=
  match op with
  | 0x01 | 0x07 => some ⟨.no, .no, .no, .no, plain⟩
  | 0x02 => some ⟨.no, .no, .no, .no, .tgt⟩
  | 0x03 => some ⟨.s, .no, .no, .no, .tgt⟩
  | 0x04 => some ⟨.no, .s, .no, .no, plain⟩
  | 0x05 | 0x06 => some ⟨.no, .s, .no, .no, .tgt⟩
  | 0x08 => some ⟨.no, .s, .s, .no, plain⟩
  | 0x10 | 0x11 => some ⟨.no, .s, .no, .no, .imm 64⟩
  | 0x12 => some ⟨.s, .no, .no, .no, .imm 64⟩
  | 0x13 => some ⟨.s, .s, .s, .no, .imm 64⟩
  | _ => none

def rowPriv (op : Nat) : Option OpRow :=
  match op with
  | 0x01 => some ⟨.s, .no, .no, .no, .imm 5⟩
  | 0x02 | 0x10 => some ⟨.s, .s, .no, .no, plain⟩
  | 0x11 => some ⟨.no, .s, .s, .no, plain⟩
  | _ => none

/-- The opcode tables of both instruction-set chapters, by FAM (R217). -/
def opRow (fam op : Nat) : Option OpRow :=
  match fam with
  | 0 => rowScalar op
  | 1 => rowVector op
  | 2 => rowPredicate op
  | 3 => rowMemory op
  | 4 => rowComm op
  | 5 => rowFused op
  | 6 => rowControl op
  | 7 => rowPriv op
  | _ => none

/-- A register field is used, or 0 where the opcode does not use it (R218, R219). -/
def Use.ok (u : Use) (n : Nat) : Bool :=
  match u with
  | .no => n == 0
  | .p => decide (n < 8)
  | _ => true

/-- The TAIL is one its format and opcode permit. -/
def Tail.ok (t : Tail) (w : W64) : Bool :=
  match t with
  | .reg ts rs => fld w 0 23 == 0 && ts.contains (iType w) && rs.contains (iRnd w)
  | .imm n => fld w 32 2 == 0 && decide (iImm w < n)
  | .mem zs ss => zs.contains (iSz w) && ss.contains (iSpace w)
  | .tgt => fld w 13 21 == 0

def Tail.isReg : Tail → Bool
  | .reg _ _ => true
  | _ => false

/-- Lane width in bits of a type of R225. -/
def laneW (t : Nat) : Nat := etypeBits t
/-- Lanes of a type. -/
def lanesOf' (t : Nat) : Nat := 512 / laneW t

/-- Lane width of a VINS word: the spec names no field for it (log entry 30). -/
def vinsW (w : W64) : Nat := match (Config.vinsLane w).toNat with | 0 => 32 | 1 => 16 | _ => 8

/-- Conditions on codes that depend on other fields: VCVT (R228), VCMP (R227), VINS (R226). -/
def codeOk (w : W64) : Bool :=
  if iFam w = 1 then
    if iOp w = 0x11 then
      vecTypes.contains (iC w) && decide (iB w < 4) &&
        decide (iB w < max (laneW (iC w)) (laneW (iType w)) / min (laneW (iC w)) (laneW (iType w)))
    else if iOp w = 0x12 then
      decide (iC w ≤ 8) && (iC w != 6 || !isInt (iType w)) && (decide (iC w < 7) || isInt (iType w))
    else if iOp w = 0x15 then decide (iImm w < 512 / vinsW w)
    else true
  else true

/-- The word is a legal encoding (R218). -/
def legal (w : W64) : Bool :=
  match opRow (iFam w) (iOp w) with
  | none => false
  | some r => r.d.ok (iD w) && r.a.ok (iA w) && r.b.ok (iB w) && (!r.tail.isReg || r.c.ok (iC w)) && r.tail.ok w && codeOk w

/-- The word names scalar register `n`; vector register `n`. -/
def namesReg (u : Use) (n : Nat) (w : W64) : Bool :=
  match opRow (iFam w) (iOp w) with
  | none => false
  | some r => (r.d == u && iD w == n) || (r.a == u && iA w == n) || (r.b == u && iB w == n) ||
      (r.tail.isReg && r.c == u && iC w == n)

/-! ### Registers (R194) -/

def Core.s (c : Core) (n : Nat) : W64 := if n = 0 then 0 else sget 0 c.sreg n
def Core.setS (c : Core) (n : Nat) (v : W64) : Core := if n = 0 then c else { c with sreg := sset 0 c.sreg n v }
def Core.v (c : Core) (n : Nat) : W512 := sget 0 c.vreg n
def Core.setV (c : Core) (n : Nat) (v : W512) : Core := { c with vreg := sset 0 c.vreg n v }
def Core.p (c : Core) (n : Nat) : W64 := if n = 0 then BitVec.allOnes 64 else sget 0 c.preg n
def Core.setP (c : Core) (n : Nat) (v : W64) : Core := if n = 0 then c else { c with preg := sset 0 c.preg n v }

/-- The guard of a scalar instruction: bit 0 of p[PG] (R221). -/
def Core.guard (c : Core) (w : W64) : Bool := bit (c.p (iPg w)) 0

/-- The number of core `c` of bench `b`. -/
def coreNo (b : Fin 100) (c : Fin 8) : Nat := b.val * 8 + c.val

/-- The context a bench's cores run for; bench 99 belongs to none (R191). -/
def State.coreCtx (s : State) (b : Nat) : Option Nat := if b = 99 then none else s.ownerOf b

/-- Core identity (R194). -/
def State.coreId (s : State) (b c : Nat) : W64 :=
  match s.coreCtx b with
  | some x => w64 (pack [(0, c), (3, b), (16, x), (24, (s.ctx x).gen.toNat)])
  | none => w64 (pack [(0, c), (3, b)])

/-! ### Issue (R220, R221, R235) -/

/-- The core fetches: its bench runs and so does it. -/
def State.coreRuns (s : State) (b : Fin 100) (c : Fin 8) : Bool :=
  s.powered && decide ((s.bench b).st = .awake) && !s.benchHeld b && decide ((s.core (coreNo b c)).run = .running)

/-- The fetch is at or above the load limit (R235). -/
def Core.beyond (c : Core) : Bool := c.pastEnd || decide (c.loadLimit ≤ c.pc.toNat)

/-- The word at the program counter. -/
def State.fetchWord (s : State) (b : Fin 100) (c : Fin 8) : W64 :=
  w64 (ofLe (mread s.is (coreNo b c * 65536 + 8 * (s.core (coreNo b c)).pc.toNat) 8))

/-- The words of a store with an error that [a, a + n) overlaps. -/
def State.badIn (s : State) (space k a n : Nat) (ce : Bool) : List BadWord :=
  s.badWords.filter (fun w => w.space == space && w.owner == k && w.ce == ce && overlaps a n w.addr 8)

/-- The fetched word has an uncorrectable error (R196). -/
def State.fetchBad (s : State) (b : Fin 100) (c : Fin 8) : Bool :=
  !(s.badIn 3 (coreNo b c) (8 * (s.core (coreNo b c)).pc.toNat) 8 false).isEmpty

/-- The fetched word has a corrected error: counted, and the word is good (R196). -/
def State.fetched (s : State) (b : Fin 100) (c : Fin 8) : State :=
  let ws := s.badIn 3 (coreNo b c) (8 * (s.core (coreNo b c)).pc.toNat) 8 true
  if ws.isEmpty then s
  else { s.bumpBy (Reg.isCe b) ws.length with badWords := s.badWords.filter (fun w => !ws.contains w) }

/-- A register the word names awaits a load or an atomic (R220). -/
def Core.hazard (c : Core) (w : W64) : Bool :=
  c.outs.any (fun o =>
    if o.op = 4 then namesReg .v o.dest w
    else o.dest != 0 && o.op != 3 && o.op != 5 && namesReg .s o.dest w)

/-- The word that issues on a core now, when it is a legal one of this opcode. -/
def State.issueOf (s : State) (b : Fin 100) (c : Fin 8) (fam op : Nat) : Option W64 :=
  let w := s.fetchWord b c
  if s.coreRuns b c && !(s.core (coreNo b c)).beyond && !s.fetchBad b c && iFam w == fam && iOp w == op &&
      legal w && !(s.core (coreNo b c)).hazard w then some w
  else none

/-- The core after an instruction that falls through. -/
def Core.nextPc (c : Core) : Core := { c with pc := c.pc + 1, pastEnd := decide (c.pc.toNat = 8191) }

/-- Count a retired instruction and the bench's progress (R412, R486). -/
def State.retired (s : State) (b : Fin 100) : State :=
  (s.countEv (128 + b.val) 0x40 1).modBench b (fun x => { x with progressAt := s.now, idleSince := s.now })

/-- Retire: the core becomes `f` of itself and the program counter moves on. -/
def State.retire (s : State) (b : Fin 100) (c : Fin 8) (f : Core → Core) : State :=
  (s.modCore (coreNo b c) (fun x => { (f x).nextPc with run := .running, wait := none })).retired b

/-- Retire with a jump. -/
def State.retireTo (s : State) (b : Fin 100) (c : Fin 8) (f : Core → Core) (pc : Nat) : State :=
  (s.modCore (coreNo b c) (fun x =>
    { f x with pc := BitVec.ofNat 13 pc, pastEnd := false, run := .running, wait := none })).retired b

/-- Execute one instruction of a core: guarded as R221 says of all but lane-wise instructions. -/
def coreExec (b : Fin 100) (c : Fin 8) (fam op : Nat) (f : W64 → State → State) (s : State) :
    Host.Outcome State Fault Refusal :=
  match s.issueOf b c fam op with
  | none => .next s
  | some w => if (s.core (coreNo b c)).guard w then .next (f w (s.fetched b c)) else .next ((s.fetched b c).retire b c id)

/-- Execute one lane-wise instruction: the guard acts on lanes. -/
def laneExec (b : Fin 100) (c : Fin 8) (fam op : Nat) (f : W64 → State → State) (s : State) :
    Host.Outcome State Fault Refusal :=
  match s.issueOf b c fam op with
  | none => .next s
  | some w => .next (f w (s.fetched b c))

/-- A core waits at an instruction (R212). -/
def State.coreWait (s : State) (b : Fin 100) (c : Fin 8) (k : WaitKind) (w : W64) (deadline : Option Nat) : State :=
  s.modCore (coreNo b c) (fun x => { x with run := .waiting, wait := some { kind := k, word := w, deadline := deadline } })

/-! ### Exceptions (R193, R205-R207) -/

abbrev Exc.eccUe : Nat := 0x01
abbrev Exc.illegal : Nat := 0x02
abbrev Exc.priv : Nat := 0x03
abbrev Exc.isRange : Nat := 0x04
abbrev Exc.misalign : Nat := 0x05
abbrev Exc.lsRange : Nat := 0x06
abbrev Exc.crRange : Nat := 0x07
abbrev Exc.poolAddr : Nat := 0x08
abbrev Exc.poolPerm : Nat := 0x09
abbrev Exc.poisonUse : Nat := 0x0A

/-- Launch completion code of a cause (R205). -/
def excCode (cause : Nat) : Nat :=
  match cause with
  | 0x01 => Code.internal
  | 0x02 | 0x03 | 0x09 => Code.perm
  | 0x0A => Code.poison
  | _ => Code.addr

/-- A core raises an exception at the instruction `pc`: its record is written, and its launch is stopped by 2 µs from
its first exception (R206); on bench 99 only bench 99 stops, and the steward is told. -/
def State.raiseAt (s : State) (b : Fin 100) (c : Fin 8) (cause : Nat) (pc : BitVec 13) (addr : W64) : State :=
  let k := coreNo b c
  let s := (s.modCore k (fun x =>
    { haltCore .stopped x with bound := x.bound, item := x.item, cause := byte cause, excPc := pc, excAddr := addr })).bump
    (Reg.excCount b c)
  if b.val = 99 then
    let s := (List.range 8).foldl (fun s i => s.modCore (99 * 8 + i) (fun x =>
      haltCore (if x.run = .stopped then .stopped else .halted) x)) s
    let s := s.logFault { cls := 0x21, sev := 1, act := 3, block := 5, index := 99 }
    { s with fault := { s.fault with wardenOwed := true } }
  else match (s.bench b).launch with
    | some n => s.modLaunch (fun l => { l with
        runs := modFirst (·.num == n) (fun r => { r with stopAt := some (r.stopAt.getD (s.now + 2 * us)) }) l.runs })
    | none => s

/-- The core whose exception a launch reports: of those that raised, the lowest bench's lowest (R207). -/
def State.raisedCore (s : State) (r : Run) : Option Nat :=
  (r.benches.flatMap (fun b => (List.range 8).map (fun c => b * 8 + c))).find? (fun k => decide ((s.core k).run = .stopped))

/-- Launches whose 2 µs have passed are stopped, with the code of the exception they report (R206, R207; the device
stops them at the bound: log entry 63). -/
def State.stopRaised (s : State) : State :=
  (s.launch.runs.filter (fun r => r.stopAt.any (fun t => decide (t ≤ s.now)))).foldl (fun s r =>
    s.stopRun r.num (excCode (((s.raisedCore r).map (fun k => (s.core k).cause.toNat)).getD 0))) s

/-- Raise at the current instruction. -/
def State.raise (s : State) (b : Fin 100) (c : Fin 8) (cause : Nat) (addr : W64) : State :=
  s.raiseAt b c cause (s.core (coreNo b c)).pc addr

/-! ### Address spaces (R195, R196, R230) -/

/-- The instance, chunk and side of the parison bound to a core; none when nothing is bound or the
instance no longer runs (R132, R195). -/
def State.boundOf (s : State) (b : Fin 100) (c : Fin 8) : Option (Inst × Nat × Bool) :=
  match (s.core (coreNo b c)).bound with
  | none => none
  | some (key, ch) => match s.inst? key with
    | some i => if i.live then some (i, ch, i.bench ch false != b.val) else none
    | none => none

/-- The instance whose parison a core sees as space 1. -/
def State.spaceInst (s : State) (b : Fin 100) (c : Fin 8) (space : Nat) : Option InstKey :=
  if space = 1 then (s.boundOf b c).map (fun x => x.1.key) else none

/-- The check of one access: a cause of R205, or 0. -/
def State.spaceCheck (s : State) (b : Fin 100) (c : Fin 8) (space : Nat) (a : W64) (n : Nat) (wr atomic : Bool) : Nat :=
  let x := a.toNat
  if space = 3 ∧ b.val ≠ 99 then Exc.priv
  else if x % n ≠ 0 then Exc.misalign
  else match space with
    | 0 => if x + n ≤ 0x40000 then 0 else Exc.lsRange
    | 1 => match s.boundOf b c with
      | some (i, _, _) => if x + n ≤ parisonLines i.ent * 256 then 0 else Exc.crRange
      | none => Exc.crRange
    | 2 => match s.coreCtx b with
      | none => Exc.poolAddr
      | some ctx => match s.poolCheck ctx x n wr atomic with
        | .ok => 0
        | .addr => Exc.poolAddr
        | .perm => Exc.poolPerm
    | _ => if x + n ≤ 0x10000 then 0 else Exc.lsRange

/-- Counters of a store's corrected and uncorrectable errors. -/
def spaceCe (space b : Nat) : Nat := match space with | 0 => Reg.lsCe b | 1 => Reg.crCe b | _ => Reg.isCe b
def spaceUe (space b : Nat) : Nat := match space with | 0 => Reg.lsUe b | 1 => Reg.crUe b | _ => Reg.isUe b

/-- Words of the bound parison with an error. -/
def State.badCr (s : State) (b : Fin 100) (c : Fin 8) (a n : Nat) (ce : Bool) : List (Nat × Bool) :=
  match s.boundOf b c with
  | some (i, ch, tw) => ((i.chunk ch).side tw).bad.filter (fun w => w.2 == ce && overlaps a n w.1 8)
  | none => []

/-- Change the parison bound to a core. -/
def State.modSide (s : State) (b : Fin 100) (c : Fin 8) (f : Side → Side) : State :=
  match s.boundOf b c with
  | some (i, ch, tw) => s.modInst i.key (fun i => let x := i.chunk ch; i.setChunk (x.setSide tw (f (x.side tw))))
  | none => s

/-- How many words of [a, a + n) hold an error of a kind. -/
def State.badCount (s : State) (b : Fin 100) (c : Fin 8) (space a n : Nat) (ce : Bool) : Nat :=
  if space = 1 then (s.badCr b c a n ce).length else (s.badIn space (coreNo b c) a n ce).length

/-- Forget the errors of the words that [a, a + n) overlaps and `p` holds of. -/
def State.clearBad (s : State) (b : Fin 100) (c : Fin 8) (space a n : Nat) (p : Nat → Bool → Bool) : State :=
  if space = 1 then s.modSide b c (fun y => { y with bad := y.bad.filter (fun w => !(overlaps a n w.1 8 && p w.1 w.2)) })
  else { s with
    badWords := s.badWords.filter (fun w =>
    !(w.space == space && w.owner == coreNo b c && overlaps a n w.addr 8 && p w.addr w.ce)) }

/-- An uncorrectable word met by a reader: counted and logged (R196); a crucible word's entry names its instance, and
says `masked` where twin pour masks the fault (R411). -/
def State.storeUe (s : State) (b space : Nat) (bound : Option InstKey := none) (masked : Bool := false) : State :=
  (s.bump (spaceUe space b)).logFault
    { cls := if space = 1 then 0x0A else 0x0D, sev := 1, act := if masked then 1 else if space = 1 then 2 else 3,
      code := Code.internal, block := 5, index := b, ctx := s.coreCtx b,
      detail := match bound with | some k => w64 (pack [(0, k.handle.toNat), (32, k.step.toNat)]) | none => 0 }

/-- The bytes of a store space. -/
def State.spaceBytes (s : State) (b : Fin 100) (c : Fin 8) (space a n : Nat) : List Byte :=
  match space with
  | 0 => mread s.ls (coreNo b c * 262144 + a) n
  | 1 => match s.boundOf b c with
    | some (i, ch, tw) => mread ((i.chunk ch).side tw).scratch a n
    | none => List.replicate n 0
  | 2 => s.memRead a n
  | _ => mread s.is (coreNo b c * 65536 + a) n

/-- A core's access to its local store is its most recent (R430). -/
def State.noteLs (s : State) (b : Fin 100) (c : Fin 8) (space a : Nat) : State :=
  if space = 0 then s.modCore (coreNo b c) (fun x => { x with lsQuarter := a / 65536 % 4 }) else s

/-- Read a core's store: none when a word is uncorrectable (counted and logged). -/
def State.readStore (s : State) (b : Fin 100) (c : Fin 8) (space a n : Nat) : Option (List Byte) × State :=
  if 0 < s.badCount b c space a n false then (none, s.storeUe b space (s.spaceInst b c space))
  else
    let k := s.badCount b c space a n true
    let s := (s.bumpBy (spaceCe space b) k).clearBad b c space a n (fun _ ce => ce)
    (some (s.spaceBytes b c space a n), s.noteLs b c space a)

/-- The bytes given at [w, w + 8) of a write from `a`. -/
def wholeWord (a : Nat) (bs : List (Option Byte)) (w : Nat) : Bool :=
  (List.range 8).all (fun i => decide (a ≤ w + i) && (bs.getD (w + i - a) none).isSome)

/-- Write bytes to a core's store; false when a partly written word is uncorrectable (R196): then
nothing is written. Writing the instruction store raises the load limit (R235). -/
def State.writeStore (s : State) (b : Fin 100) (c : Fin 8) (space a : Nat) (bs : List (Option Byte)) : Bool × State :=
  let n := bs.length
  let touched := fun (w : Nat) => (List.range 8).any (fun i => decide (a ≤ w + i) && (bs.getD (w + i - a) none).isSome)
  let ue := if space = 1 then (s.badCr b c a n false).map (·.1) else (s.badIn space (coreNo b c) a n false).map (·.addr)
  if ue.any (fun w => touched w && !wholeWord a bs w) then (false, s.storeUe b space (s.spaceInst b c space))
  else
    let s := (s.clearBad b c space a n (fun w _ => touched w)).noteLs b c space a
    let s := match space with
      | 0 => { s with ls := mwriteSome s.ls (coreNo b c * 262144 + a) bs }
      | 1 => s.modSide b c (fun y => { y with scratch := mwriteSome y.scratch a bs })
      | _ =>
        { s with is := mwriteSome s.is (coreNo b c * 65536 + a) bs }.modCore (coreNo b c) (fun x =>
          { x with loadLimit := bs.zipIdx.foldl (fun m (y : Option Byte × Nat) => if y.1.isSome then max m ((a + y.2) / 8 + 1) else m) x.loadLimit })
    (true, s)

/-- Local-store operand check (R244): a cause, or 0. -/
def lsCheck (a : W64) (n : Nat) : Nat :=
  if a.toNat % 8 ≠ 0 then Exc.misalign else if a.toNat + n ≤ 0x40000 then 0 else Exc.lsRange

/-! ### Time-visible values (R331, R336) -/

/-- What a recorded or replayed instruction does (R331, R336): `live` computes its value and the state
it leaves, before it retires with the value in s[D]. -/
def State.retireValue (s : State) (b : Fin 100) (c : Fin 8) (d : Nat) (live : State → W64 × State) : State :=
  let k := coreNo b c
  let pc := (s.core k).pc
  match s.coreCtx b with
  | none =>
    let (v, s) := live s
    s.retire b c (fun x => x.setS d v)
  | some x =>
    if s.replaying x then
      match s.rplNext x (recOfCore b c) with
      | .fail code n => s.rplDiverge x code n
      | .entry r =>
        if r.rtype ≠ 5 ∨ r.aux ≠ pc.toNat then s.rplDiverge x Code.contract r.rseq
        else ((s.consume x r).retire b c (fun y => y.setS d (w64 (u64 r.body 0)))).checkRplDone x
    else if !s.recRoom x 8 then s.coreWait b c .record 0 none
    else
      let (v, s) := live s
      (s.record x 5 { bench := b, core := c } pc.toNat (leBytes 8 v.toNat)).retire b c (fun y => y.setS d v)

end Sys2Proof.Machine
end

