-- ==== Sys2Proof/Machine/Flags.lean ====
section
/-! DEFINITION. Comparisons, lane values and predicate lanes (R194, R225-R228). A Marver core has no
condition flags: what its comparisons compute goes into scalar and predicate registers. -/

namespace Sys2Proof.Machine

/-! ### Scalar results of comparisons (R223) -/

def ofBool (b : Bool) : W64 := if b then 1 else 0

/-! ### Lanes (R194, R225) -/

/-- Lane `i` of width `w`. -/
def vLane (w : Nat) (v : W512) (i : Nat) : Nat := fld v (w * i) w

/-- A vector from its lanes of width `w`. -/
def ofLanes (w : Nat) (xs : List Nat) : W512 :=
  BitVec.ofNat 512 (pack ((xs.zipIdx).map (fun p => (w * p.2, p.1 % 2 ^ w))))

/-- Lane `i` is active under a predicate: bit i × w ÷ 8 (R194). -/
def laneOn (w : Nat) (p : W64) (i : Nat) : Bool := bit p (i * w / 8)

/-- The active lanes under a predicate. -/
def activeLanes (w : Nat) (p : W64) : Nat := ((List.range (512 / w)).filter (laneOn w p)).length

/-- Destination lanes: an inactive lane keeps its old value (R221). -/
def maskLanes (w : Nat) (p : W64) (old : W512) (f : Nat → Nat) : W512 :=
  ofLanes w ((List.range (512 / w)).map (fun i => if laneOn w p i then f i else vLane w old i))

/-- The predicate that lane results spell: a true lane sets every bit of its group (R227). -/
def predLanes (w : Nat) (p : W64) (f : Nat → Bool) : W64 :=
  w64 (pack ((List.range (512 / w)).map (fun i =>
    (i * w / 8, if laneOn w p i && f i then 2 ^ (w / 8) - 1 else 0))))

/-! ### Lane values -/

/-- A lane of a type as an exact value. -/
def laneVal (t n : Nat) : Val :=
  match etypeFmt t with
  | some f => f.decode n
  | none => valOfInt (sgn (laneW t) n) 0

/-- RND of R225. -/
def rndOf (n : Nat) : Rnd := if n = 1 then .zero else .rne

/-- A value rounded once to a type (R172, R173). -/
def laneOf (t rnd : Nat) (v : Val) : Nat := (convTo t (rndOf rnd) v).bits

/-- Order with −0 below +0 (R227); neither is NaN. -/
def Val.ltZ (x y : Val) : Bool := x.lt y || (!(y.lt x) && x.neg && !y.neg)

/-! ### Comparison conditions (R227) -/

/-- VCMP condition `c` on two lanes of type `t`. -/
def cmpLane (c t a b : Nat) : Bool :=
  let w := laneW t
  let x := laneVal t a
  let y := laneVal t b
  let un := x == .nan || y == .nan
  match c with
  | 0 => x.eqv y
  | 1 => !(x.eqv y)
  | 2 => x.lt y
  | 3 => !un && !(y.lt x)
  | 4 => y.lt x
  | 5 => !un && !(x.lt y)
  | 6 => un
  | 7 => decide (a % 2 ^ w < b % 2 ^ w)
  | _ => decide (b % 2 ^ w ≤ a % 2 ^ w)

end Sys2Proof.Machine
end

