-- ==== Sys2Proof/Machine/Memory.lean ====
section
/-! DEFINITION. The memory family (R230-R233): loads, stores, atomics, FENCE and DMAQ, and the return
of outstanding pool accesses. -/

namespace Sys2Proof.Machine

/-- The address of a memory instruction: s[A] + OFF as a 64-bit sum (R230). -/
def memAddr (x : Core) (w : W64) : W64 := x.s (iA w) + w64 (tc 64 (iOff w))

/-- Bytes of a scalar access. -/
def szBytes (w : W64) : Nat := 2 ^ iSz w

/-- The access is a store or an atomic: it counts against their limit of 32 (R233). -/
def isStoreOp (op : Nat) : Bool := op == 3 || decide (5 ≤ op)

/-- An outstanding access of this kind has room (R233). -/
def Core.outRoom (x : Core) (op : Nat) : Bool :=
  decide ((x.outs.filter (fun o => isStoreOp o.op == isStoreOp op)).length < 32)

/-- Issue a pool access: it becomes outstanding, or the core stalls (R233). -/
def State.poolIssue (s : State) (b : Fin 100) (c : Fin 8) (w : W64) (o : OutAccess) : State :=
  if !(s.core (coreNo b c)).outRoom o.op then s.coreWait b c .stall w none
  else
    let r := (s.memDemand o.addr o.size).reach (benchRank b c)
    r.2.retire b c (fun x => { x with outs := x.outs ++ [{ o with pc := x.pc, reach := r.1 }] })

/-- A loaded scalar value (LD zero-extends, LDS sign-extends). -/
def loadVal (signed : Bool) (bs : List Byte) : W64 :=
  if signed then w64 (tc 64 (sgn (8 * bs.length) (ofLe bs))) else w64 (ofLe bs)

/-- LD and LDS. -/
def memLoad (b : Fin 100) (c : Fin 8) (signed : Bool) (w : W64) (s : State) : State :=
  let a := memAddr (s.core (coreNo b c)) w
  let n := szBytes w
  let bad := s.spaceCheck b c (iSpace w) a n false false
  if bad ≠ 0 then s.raise b c bad a
  else if iSpace w = 2 then
    s.poolIssue b c w { op := if signed then 2 else 1, addr := a.toNat, size := n, dest := iD w, x := 0, y := 0, data := [], mask := [] }
  else match s.readStore b c (iSpace w) a.toNat n with
    | (none, s) => s.raise b c Exc.eccUe a
    | (some bs, s) => s.retire b c (fun x => x.setS (iD w) (loadVal signed bs))

/-- Store bytes: ST and VST. -/
def memStore (b : Fin 100) (c : Fin 8) (op : Nat) (w : W64) (n : Nat) (data : List (Option Byte)) (s : State) : State :=
  let a := memAddr (s.core (coreNo b c)) w
  let bad := s.spaceCheck b c (iSpace w) a n true false
  if bad ≠ 0 then s.raise b c bad a
  else if iSpace w = 2 then
    s.poolIssue b c w { op := op, addr := a.toNat, size := n, dest := 0, x := 0, y := 0, data := data, mask := [] }
  else match s.writeStore b c (iSpace w) a.toNat data with
    | (false, s) => s.raise b c Exc.eccUe a
    | (true, s) => s.retire b c id

/-- ST. -/
def memSt (b : Fin 100) (c : Fin 8) (w : W64) (s : State) : State :=
  memStore b c 3 w (szBytes w) ((leBytes (szBytes w) ((s.core (coreNo b c)).s (iB w)).toNat).map some) s

/-- The byte lanes that a guard makes active (VLD and VST name no TYPE: 8-bit lanes). -/
def byteMask (x : Core) (w : W64) : List Bool := (List.range 64).map (fun i => bit (x.p (iPg w)) i)

/-- A vector register with the bytes of a load in its active lanes. -/
def loadVec (old : W512) (mask : List Bool) (bs : List Byte) : W512 :=
  ofLanes 8 ((List.range 64).map (fun i => if mask.getD i false then u8 bs i else vLane 8 old i))

/-- VLD: no active lane makes no access (R231). -/
def memVld (b : Fin 100) (c : Fin 8) (w : W64) (s : State) : State :=
  let x := s.core (coreNo b c)
  let mask := byteMask x w
  let a := memAddr x w
  if !mask.any id then s.retire b c id
  else
    let bad := s.spaceCheck b c (iSpace w) a 64 false false
    if bad ≠ 0 then s.raise b c bad a
    else if iSpace w = 2 then
      s.poolIssue b c w { op := 4, addr := a.toNat, size := 64, dest := iD w, x := 0, y := 0, data := [], mask := mask }
    else match s.readStore b c (iSpace w) a.toNat 64 with
      | (none, s) => s.raise b c Exc.eccUe a
      | (some bs, s) => s.retire b c (fun x => x.setV (iD w) (loadVec (x.v (iD w)) mask bs))

/-- VST. -/
def memVst (b : Fin 100) (c : Fin 8) (w : W64) (s : State) : State :=
  let x := s.core (coreNo b c)
  let mask := byteMask x w
  if !mask.any id then s.retire b c id
  else memStore b c 5 w 64 ((List.range 64).map (fun i =>
    if mask.getD i false then some (byte (vLane 8 (x.v (iB w)) i)) else none)) s

/-- AADD, AADDF and ACAS: the pool performs them (R304). -/
def memAtomic (b : Fin 100) (c : Fin 8) (op : Nat) (w : W64) (s : State) : State :=
  let x := s.core (coreNo b c)
  let a := if op = 8 then x.s (iA w) else memAddr x w
  let n := if op = 7 then 4 else 8
  let bad := s.spaceCheck b c 2 a n true true
  if bad ≠ 0 then s.raise b c bad a
  else s.poolIssue b c w
    { op := op, addr := a.toNat, size := n, dest := iD w, x := x.s (iB w), y := if op = 8 then x.s (iC w) else 0,
      data := [], mask := [] }

/-- DMAQ: the descriptor is read from the local store and queued; a full queue stalls (R231). -/
def memDmaq (b : Fin 100) (c : Fin 8) (w : W64) (s : State) : State :=
  let x := s.core (coreNo b c)
  let a := memAddr x w
  let bad := lsCheck a 32
  if bad ≠ 0 then s.raise b c bad a
  else if 16 ≤ x.dmaQ.length then s.coreWait b c .stall w none
  else match s.readStore b c 0 a.toNat 32 with
    | (none, s) => s.raise b c Exc.eccUe a
    | (some bs, s) =>
      s.retire b c (fun x => { x with dmaQ := x.dmaQ ++ [{ ws := (List.range 8).map (fun i => w32 (u32 bs (4 * i))) }] })

/-- LD (R231). -/
def execLd (b : Fin 100) (c : Fin 8) (s : State) : Host.Outcome State Fault Refusal := coreExec b c 3 1 (memLoad b c false) s
/-- LDS (R231). -/
def execLds (b : Fin 100) (c : Fin 8) (s : State) : Host.Outcome State Fault Refusal := coreExec b c 3 2 (memLoad b c true) s
/-- ST (R231). -/
def execSt (b : Fin 100) (c : Fin 8) (s : State) : Host.Outcome State Fault Refusal := coreExec b c 3 3 (memSt b c) s
/-- VLD (R231). -/
def execVld (b : Fin 100) (c : Fin 8) (s : State) : Host.Outcome State Fault Refusal := laneExec b c 3 4 (memVld b c) s
/-- VST (R231). -/
def execVst (b : Fin 100) (c : Fin 8) (s : State) : Host.Outcome State Fault Refusal := laneExec b c 3 5 (memVst b c) s
/-- AADD (R231). -/
def execAadd (b : Fin 100) (c : Fin 8) (s : State) : Host.Outcome State Fault Refusal := coreExec b c 3 6 (memAtomic b c 6) s
/-- AADDF (R231). -/
def execAaddf (b : Fin 100) (c : Fin 8) (s : State) : Host.Outcome State Fault Refusal := coreExec b c 3 7 (memAtomic b c 7) s
/-- ACAS (R231). -/
def execAcas (b : Fin 100) (c : Fin 8) (s : State) : Host.Outcome State Fault Refusal := coreExec b c 3 8 (memAtomic b c 8) s

/-- FENCE (R232): retires when no pool access of the core is outstanding, else waits. -/
def execFence (b : Fin 100) (c : Fin 8) (s : State) : Host.Outcome State Fault Refusal :=
  coreExec b c 3 9 (fun w s =>
    if (s.core (coreNo b c)).outs.isEmpty then s.retire b c id else s.coreWait b c .fence w none) s

/-- DMAQ (R231). -/
def execDmaq (b : Fin 100) (c : Fin 8) (s : State) : Host.Outcome State Fault Refusal := coreExec b c 3 0x0A (memDmaq b c) s

/-- The instruction a core waits at, when it waits for this. -/
def State.waitsFor (s : State) (b : Fin 100) (c : Fin 8) (k : WaitKind) : Option Waiting :=
  let x := s.core (coreNo b c)
  if s.powered && decide ((s.bench b).st = .awake) && decide (x.run = .waiting) then
    x.wait.filter (fun w => decide (w.kind = k))
  else none

/-- FENCE_COMPLETE (R232): every earlier access has been performed, so FENCE retires. -/
def execFenceComplete (b : Fin 100) (c : Fin 8) (s : State) : Host.Outcome State Fault Refusal :=
  match s.waitsFor b c .fence with
  | some _ => if (s.core (coreNo b c)).outs.isEmpty then .next (s.retire b c id) else .next s
  | none => .next s

/-! ### Outstanding pool accesses (R232, R233, R314) -/

/-- Write the bytes given of a store; what covers part of a poisoned line is dropped (R314). -/
def State.poolStore (s : State) (a : Nat) (data : List (Option Byte)) : State :=
  if data.all Option.isSome then
    if s.meetsUe a data.length true then s else s.memWrite a (data.map (fun d => d.getD 0))
  else if s.meetsUe a data.length false then s
  else s.memWriteSome a data

/-- Perform an outstanding access and give its core the data, or ECC_UE. -/
def State.poolReturn (s : State) (b : Fin 100) (c : Fin 8) (o : OutAccess) (obs : MemObs) : State :=
  let k := coreNo b c
  let whole := (o.op == 3 || o.op == 5) && o.data.all Option.isSome
  let s := (s.observe o.addr o.size (!whole) obs (s.coreCtx b)).memDone o.addr o.size
  let live := decide ((s.core k).run = .running ∨ (s.core k).run = .waiting)
  if o.op = 3 ∨ o.op = 5 then (s.memBytes o.addr (o.data.filter Option.isSome).length true).poolStore o.addr o.data
  else if s.meetsUe o.addr o.size false then
    let s := s.bump Reg.ueAnswers
    if live then s.raiseAt b c Exc.eccUe o.pc (w64 o.addr) else s
  else if o.op ≤ 2 then
    (s.memBytes o.addr o.size false).modCore k (fun x =>
      x.setS o.dest (loadVal (o.op == 2) (s.memRead o.addr o.size)))
  else if o.op = 4 then
    (s.memBytes o.addr o.size false).modCore k (fun x =>
      x.setV o.dest (loadVec (x.v o.dest) o.mask (s.memRead o.addr 64)))
  else
    let s := (s.memBytes o.addr o.size false).memBytes o.addr o.size true
    let (old, s) := s.atomic (if o.op = 6 then 2 else if o.op = 7 then 3 else 4) o.addr o.x.toNat o.y.toNat
    s.modCore k (fun x => x.setS o.dest (w64 old))

/-- POOL_ACCESS_RETURN (R233): the `k`-th outstanding access of a core is performed, once no earlier one
of the core touches its bytes (R232), no access that reached its lines before waits (R305), and its controllers and cache
can serve it. -/
def execPoolAccessReturn (b : Fin 100) (c : Fin 8) (k : Nat) (obs : MemObs) (s : State) :
    Host.Outcome State Fault Refusal :=
  let x := s.core (coreNo b c)
  match x.outs[k]? with
  | none => .next s
  | some o =>
    if !s.powered || (x.outs.take k).any (fun p => overlaps p.addr p.size o.addr o.size) ||
        s.poolAhead o.addr o.size o.reach then .next s
    else if !s.memAwake o.addr o.size then .next (s.memDemand o.addr o.size)
    else
      let (ok, s) := s.cacheAccess o.addr o.size
      if !ok then .next s
      else .next ((s.modCore (coreNo b c) (fun x => { x with outs := x.outs.eraseIdx k })).poolReturn b c o obs)

end Sys2Proof.Machine
end

