-- ==== Sys2Proof/Machine/Control.lean ====
section
/-! DEFINITION. The control and tally family (R234-R238), posting and starting items (R202, R203, R259),
RDSR (R240), and fetches that raise (R218, R235). -/

namespace Sys2Proof.Machine

/-! ### Launches and items -/

/-- The run that holds a bench. -/
def State.runOn (s : State) (b : Nat) : Option Run :=
  match (s.bench b).launch with
  | none => none
  | some n => s.launch.runs.find? (fun r => r.num == n && r.started)

/-- Complete a launch whose cores have all ended with no item left (R278). -/
def State.checkRunDone (s : State) (b : Nat) : State :=
  match s.runOn b with
  | none => s
  | some r =>
    if r.benches.all (fun b => (s.bench b).items.isEmpty && (s.bench b).itemWait.isEmpty &&
        (List.range 8).all (fun c => decide ((s.core (b * 8 + c)).run = .halted)))
    then s.completeRun r.num Code.ok else s

/-- NOP (R234). -/
def execNop (b : Fin 100) (c : Fin 8) (s : State) : Host.Outcome State Fault Refusal :=
  coreExec b c 6 1 (fun _ s => s.retire b c id) s

/-- JMP (R234). -/
def execJmp (b : Fin 100) (c : Fin 8) (s : State) : Host.Outcome State Fault Refusal :=
  coreExec b c 6 2 (fun w s => s.retireTo b c id (iTarget w)) s

/-- JAL (R234). -/
def execJal (b : Fin 100) (c : Fin 8) (s : State) : Host.Outcome State Fault Refusal :=
  coreExec b c 6 3 (fun w s =>
    s.retireTo b c (fun x => x.setS (iD w) (w64 (x.pc.toNat + 1))) (iTarget w)) s

/-- JR (R234). -/
def execJr (b : Fin 100) (c : Fin 8) (s : State) : Host.Outcome State Fault Refusal :=
  coreExec b c 6 4 (fun w s =>
    let a := (s.core (coreNo b c)).s (iA w)
    if 8192 ≤ a.toNat then s.raise b c Exc.isRange 0 else s.retireTo b c id a.toNat) s

/-- A branch on whether s[A] is 0. -/
def branch (b : Fin 100) (c : Fin 8) (op : Nat) (onZero : Bool) (s : State) : Host.Outcome State Fault Refusal :=
  coreExec b c 6 op (fun w s =>
    if decide ((s.core (coreNo b c)).s (iA w) = 0) == onZero then s.retireTo b c id (iTarget w) else s.retire b c id) s

/-- BEQZ (R234). -/
def execBeqz (b : Fin 100) (c : Fin 8) (s : State) : Host.Outcome State Fault Refusal := branch b c 5 true s
/-- BNEZ (R234). -/
def execBnez (b : Fin 100) (c : Fin 8) (s : State) : Host.Outcome State Fault Refusal := branch b c 6 false s

/-- A core becomes idle: its bench counts it, so that the first to become idle is known (R202). -/
def State.becomeIdle (s : State) (b : Fin 100) (c : Fin 8) : State :=
  let n := (s.bench b).idleCount
  (s.modBench b (fun x => { x with idleCount := n + 1 })).modCore (coreNo b c)
    (fun x => { haltCore .halted x with idleSeq := n })

/-- END (R238): the core halts until its next item, and its parison is unbound; the last one of a
launch with no item left completes it (R278). -/
def execEndProg (b : Fin 100) (c : Fin 8) (s : State) : Host.Outcome State Fault Refusal :=
  coreExec b c 6 7 (fun _ s => ((s.becomeIdle b c).retired b).checkRunDone b) s

/-- POST: the item goes to the bench's queue, or the core stalls while 256 items wait (R202). -/
def ctlPost (b : Fin 100) (c : Fin 8) (w : W64) (s : State) : State :=
  let x := s.core (coreNo b c)
  let e := (x.s (iA w)).toNat
  if 8192 ≤ e then s.raise b c Exc.isRange 0
  else if 256 ≤ (s.bench b).items.length || !(s.bench b).itemWait.isEmpty then s.coreWait b c .stall w none
  else (s.postItem b { entry := e, arg := x.s (iB w) }).retire b c id

/-- POST (R202). -/
def execPost (b : Fin 100) (c : Fin 8) (s : State) : Host.Outcome State Fault Refusal := coreExec b c 6 8 (ctlPost b c) s

/-- CORE_STALL_RELEASE (R233, R231, R202): the stalled instruction has room and issues. -/
def execCoreStallRelease (b : Fin 100) (c : Fin 8) (s : State) : Host.Outcome State Fault Refusal :=
  match s.waitsFor b c .stall with
  | none => .next s
  | some q =>
    let w := q.word
    let s := s.modCore (coreNo b c) (fun x => { x with run := .running, wait := none })
    if iFam w = 6 then .next (ctlPost b c w s)
    else if iOp w = 0x0A then .next (memDmaq b c w s)
    else if iOp w = 1 then .next (memLoad b c false w s)
    else if iOp w = 2 then .next (memLoad b c true w s)
    else if iOp w = 3 then .next (memSt b c w s)
    else if iOp w = 4 then .next (memVld b c w s)
    else if iOp w = 5 then .next (memVst b c w s)
    else .next (memAtomic b c (iOp w) w s)

/-! ### Tallies (R236, R237) -/

/-- The tally an instruction names: IMM [5:0]. -/
def tallyNo (w : W64) : Nat := iImm w % 64

def State.tally (s : State) (b t : Nat) : W32 := sget 0 (s.bench b).tallies t
def State.setTally (s : State) (b t : Nat) (v : W32) : State :=
  s.modBench b (fun x => { x with tallies := sset 0 x.tallies t v })

/-- Serial order: the tally has reached the target (R236). -/
def reached (t x : W32) : Bool := decide ((t - x).toNat < 2 ^ 31)

/-- TINC (R236). -/
def execTinc (b : Fin 100) (c : Fin 8) (s : State) : Host.Outcome State Fault Refusal :=
  coreExec b c 6 0x10 (fun w s =>
    (s.setTally b (tallyNo w) (s.tally b (tallyNo w) + w32 (fld ((s.core (coreNo b c)).s (iA w)) 0 32))).retire b c id) s

/-- TSET (R236). -/
def execTset (b : Fin 100) (c : Fin 8) (s : State) : Host.Outcome State Fault Refusal :=
  coreExec b c 6 0x11 (fun w s =>
    (s.setTally b (tallyNo w) (w32 (fld ((s.core (coreNo b c)).s (iA w)) 0 32))).retire b c id) s

/-- TRD (R236). -/
def execTrd (b : Fin 100) (c : Fin 8) (s : State) : Host.Outcome State Fault Refusal :=
  coreExec b c 6 0x12 (fun w s =>
    s.retireValue b c (iD w) (fun s => (w64 (s.tally b (tallyNo w)).toNat, s))) s

/-- TWAIT's target has been reached. -/
def State.twaitMet (s : State) (b : Fin 100) (c : Fin 8) (w : W64) : Bool :=
  reached (s.tally b (tallyNo w)) (w32 (fld ((s.core (coreNo b c)).s (iA w)) 0 32))

/-- What a replaying core's TWAIT finds in the log: the recorded outcome, when it is its own record. -/
def State.twaitLogged (s : State) (b : Fin 100) (c : Fin 8) (x : Nat) : Option Nat :=
  match s.rplNext x (recOfCore b c) with
  | .entry r => if r.rtype = 5 ∧ r.aux = (s.core (coreNo b c)).pc.toNat then some (u64 r.body 0) else none
  | .fail _ _ => none

/-- The replaying context of a core. -/
def State.logCtx (s : State) (b : Nat) : Option Nat := (s.coreCtx b).filter s.replaying

/-- TWAIT (R237): at once, or the core waits. In replay a recorded 1 returns at once, and a recorded 0
waits for its tally without a timeout (R336). -/
def execTwait (b : Fin 100) (c : Fin 8) (s : State) : Host.Outcome State Fault Refusal :=
  coreExec b c 6 0x13 (fun w s =>
    let x := s.core (coreNo b c)
    let t := (x.s (iB w)).toNat
    let dl := if t = 0 then none else some (s.clk.ftime.toNat + t)
    let now := fun (s : State) => s.retireValue b c (iD w) (fun s => (0, s))
    match s.logCtx b with
    | some ctx =>
      if s.twaitLogged b c ctx = some 0 && !s.twaitMet b c w then s.coreWait b c .tally w none else now s
    | none => if s.twaitMet b c w then now s else s.coreWait b c .tally w dl) s

/-- A record made at the end of a wait has room in the record queue (R333). -/
def State.waitRoom (s : State) (b : Fin 100) (n : Nat) : Bool :=
  match s.coreCtx b with
  | some x => s.recRoom x n
  | none => true

/-- A waiting TWAIT can end: the tally is at its target, or the log has another outcome than a 0 (R237, R336). -/
def State.twaitDone (s : State) (b : Fin 100) (c : Fin 8) (w : W64) : Bool :=
  s.twaitMet b c w || (s.logCtx b).any (fun x => s.twaitLogged b c x != some 0)

/-- TWAIT_REACHED (R237). -/
def execTwaitReached (b : Fin 100) (c : Fin 8) (s : State) : Host.Outcome State Fault Refusal :=
  match s.waitsFor b c .tally with
  | some q =>
    if s.twaitDone b c q.word && s.waitRoom b 8 then
      .next (s.retireValue b c (iD q.word) (fun s => (0, s))) else .next s
  | none => .next s

/-- A deadline in fabric time has passed. -/
def State.late (s : State) (q : Waiting) : Bool := q.deadline.any (fun d => decide (d ≤ s.clk.ftime.toNat))

/-- TWAIT_TIMEOUT (R237): the target wins when both hold. A replay has no timeouts (R336). -/
def execTwaitTimeout (b : Fin 100) (c : Fin 8) (s : State) : Host.Outcome State Fault Refusal :=
  match s.waitsFor b c .tally with
  | some q =>
    if s.late q && (s.logCtx b).isNone && !s.twaitMet b c q.word && s.waitRoom b 8 then
      .next (s.retireValue b c (iD q.word) (fun s => (1, s))) else .next s
  | none => .next s

/-! ### RDSR (R240) -/

/-- DMA_STATUS (R212). -/
def Core.dmaStat (x : Core) : W64 := w64 (pack [(0, x.dmaStatus.toNat), (8, x.dmaQ.length)])

/-- RDSR (R240). CYCLES follows always-on time at 1.6 cycles a ns (log entry 31). -/
def execRdsr (b : Fin 100) (c : Fin 8) (s : State) : Host.Outcome State Fault Refusal :=
  coreExec b c 7 1 (fun w s =>
    let x := s.core (coreNo b c)
    match iImm w with
    | 0 => s.retire b c (fun y => y.setS (iD w) (s.coreId b c))
    | 1 => s.retireValue b c (iD w) (fun s => (s.clk.ftime, s))
    | 2 => s.retireValue b c (iD w) (fun s => (w64 ((s.now - (s.bench b).wokeAt) * 8 / 5), s))
    | 3 => s.retire b c (fun y => y.setS (iD w) (w64 y.loadLimit))
    | _ => s.retireValue b c (iD w) (fun s => (x.dmaStat, s))) s

/-! ### Fetches that raise -/

/-- FETCH_BEYOND_LOAD_LIMIT (R235). -/
def execFetchBeyondLoadLimit (b : Fin 100) (c : Fin 8) (s : State) : Host.Outcome State Fault Refusal :=
  if s.coreRuns b c && (s.core (coreNo b c)).beyond then .next (s.raise b c Exc.isRange 0) else .next s

/-- INSTRUCTION_ILLEGAL (R218): the fetched word is reserved, or cannot be read (R196). -/
def execInstructionIllegal (b : Fin 100) (c : Fin 8) (s : State) : Host.Outcome State Fault Refusal :=
  if !s.coreRuns b c || (s.core (coreNo b c)).beyond then .next s
  else if s.fetchBad b c then
    .next ((s.storeUe b 3).raise b c Exc.eccUe (w64 (8 * (s.core (coreNo b c)).pc.toNat)))
  else if legal (s.fetchWord b c) then .next s
  else .next ((s.fetched b c).raise b c Exc.illegal 0)

/-! ### Items (R202, R203, R259) -/

/-- The core that the placement rule gives the bench's oldest item (R202): the first to become idle where items go to
idle cores, those that a launch has never given work before the others by number; else core i mod 8 of the i-th item. -/
def State.itemCore (s : State) (b : Nat) (w : WorkItem) : Option Nat :=
  if (s.runOn b).any (·.dba) then
    (List.range 8).foldl (fun (a : Option Nat) c =>
      if (s.core (b * 8 + c)).run ≠ .halted then a
      else match a with
        | some d => if (s.core (b * 8 + c)).idleSeq < (s.core (b * 8 + d)).idleSeq then some c else some d
        | none => some c) none
  else some (w.num % 8)

/-- Start an item on a core: every register 0 but s1, its parison bound (R238, R259); one that waited enters the
queue (R202). -/
def State.startItem (s : State) (b : Fin 100) (c : Fin 8) (w : WorkItem) : State :=
  ((s.modBench b (fun x => { x with
    items := dropFirst (fun y => decide (y = w)) x.items, progressAt := s.now, idleSince := s.now })).modCore
    (coreNo b c) (startCore w.entry [(1, w.arg)] (some w) w.chunk)).feedItems b

/-! ### Items in a replay (R336, R338) -/

/-- The chunk program item of instance `i` that an ITEM record of bench `b` names, while the bench has not had it. -/
def Inst.itemFor (i : Inst) (b : Nat) (r : Rec) : Option WorkItem :=
  let a := u64 r.body 8
  let ch := a % 2 ^ 24
  let open' := fun (tw : Bool) => i.bench ch tw == b && !((i.chunk ch).side tw).posted
  if i.live && i.ent.program && i.ent.progEntry == u64 r.body 0 && decide (ch < i.chunks') &&
      a == (chunkOperand ch (chunkElems i.total i.ent.e ch)).toNat then
    if open' false then some { entry := i.ent.progEntry, arg := w64 a, chunk := some (i.key, ch) }
    else if i.ent.twin && open' true then
      some { entry := i.ent.progEntry, arg := w64 a, chunk := some (i.key, ch), twin := true }
    else none
  else none

/-- The item of a live instance of context `x` that an ITEM record of bench `b` names (R259). -/
def State.itemLogged (s : State) (x b : Nat) (r : Rec) : Option WorkItem :=
  (s.coll.insts.filter (fun i => i.ctx == x)).findSome? (fun i => i.itemFor b r)

/-- The device posts it: the bench has had the chunk's item now. -/
def State.postLogged (s : State) (w : WorkItem) : State :=
  match w.chunk with
  | none => s
  | some (k, ch) => s.modInst k (fun i =>
      let x := i.chunk ch
      i.setChunk (x.setSide w.twin { x.side w.twin with posted := true }))

/-- A handle of context `x` whose chunk program an ITEM record can stand for, the lowest of several. -/
def State.itemHandle (s : State) (x : Nat) (r : Rec) : Option Nat :=
  let a := u64 r.body 8
  (List.range 4096).find? (fun h =>
    let e := entryOf (s.readWords ((s.ctx x).collBase + 64 * h) 16)
    e.valid && e.program && !e.varsize && !entryInvalid e (s.ownersOf x).length && e.progEntry == u64 r.body 0 &&
      decide (a % 2 ^ 24 < nchunks e.total e.e) && a == (chunkOperand (a % 2 ^ 24) (chunkElems e.total e.e (a % 2 ^ 24))).toNat)

/-- Open the instance of an ITEM record whose contributions all came from outside, so that nothing in the replay opens
it. The record gives its chunk alone: the handle is the lowest that fits, and the STEP a free value (log entry 64). -/
def State.openLogged (s : State) (x : Nat) (r : Rec) : Option State :=
  (s.itemHandle x r).bind (fun h =>
    let (v, s) := s.free
    let k : InstKey := { handle := BitVec.ofNat 20 (h + 4096 * x), gen := (s.ctx x).gen, step := w32 v.toNat }
    let m := collMsg (subOf k stOpen 0 0 0 0 0) 0 0 0 false none none 0 true
    ((s.readEntry m).openFor m).1)

/-- No core of the context runs, and every earlier record is consumed: nothing of the replay comes before record `n`. -/
def State.itemNext (s : State) (x n : Nat) : Bool :=
  s.lowerConsumed x n && (bitsOf 99 (s.ctx x).benchSet.toNat).all (fun b =>
    (List.range 8).all (fun c => decide ((s.core (b * 8 + c)).run ≠ .running)))

/-- The bench's oldest item is one that core `c` would start, and the log has no ITEM record for it. -/
def State.itemOrphan (s : State) (x : Nat) (b : Fin 100) (c : Fin 8) : Bool :=
  match (s.bench b).items with
  | [] => false
  | w :: _ => s.itemCore b w == some c.val &&
    (match s.rplNext x (fun r => !r.src.engine && r.src.bench == b.val && r.rtype == 6 && u64 r.body 0 == w.entry &&
        u64 r.body 8 == w.arg.toNat) with
      | .entry _ => false
      | .fail _ _ => true)

/-- An idle core of a replaying context: an item starts only from its ITEM record. A chunk program's whose contributions
came from outside is no item of the queue, and starts from the record alone. An item that the log does not start, where
the core would start it, ends the replay (R336, R338). -/
def State.itemReplay (s : State) (x : Nat) (b : Fin 100) (c : Fin 8) : State :=
  let fail := fun (code n : Nat) => if s.itemOrphan x b c then s.rplDiverge x code n else s
  match s.rplNext x (recOfCore b c) with
  | .fail code n => if code = Code.incomplete then fail code n else s.rplDiverge x code n
  | .entry r =>
    let start := fun (s : State) (w : WorkItem) => ((s.consume x r).startItem b c w).checkRplDone x
    if r.rtype ≠ 6 then fail Code.contract r.rseq
    else match (s.bench b).items.find? (fun w => u64 r.body 0 == w.entry && u64 r.body 8 == w.arg.toNat) with
      | some w => start s w
      | none => match s.itemLogged x b r with
        | some w => start (s.postLogged w) w
        | none =>
          if s.itemOrphan x b c then s.rplDiverge x Code.contract r.rseq
          else if !s.itemNext x r.rseq then s
          else match s.openLogged x r with
            | none => s
            | some t => match t.itemLogged x b r with
              | some w => start (t.postLogged w) w
              | none => s

/-- ITEM_START (R202): an idle core takes the bench's oldest item, when the placement rule names it. -/
def execItemStart (b : Fin 100) (c : Fin 8) (s : State) : Host.Outcome State Fault Refusal :=
  let idle := decide ((s.core (coreNo b c)).run = .halted) && decide ((s.bench b).st = .awake) && s.powered && !s.fenceActive && !s.benchHeld b
  if !idle || !((s.runOn b).isSome || b.val == 99) then .next s
  else match s.logCtx b with
    | some x => .next (s.itemReplay x b c)
    | none =>
      match (s.bench b).items with
      | [] => .next s
      | w :: _ =>
        if s.itemCore b w ≠ some c.val || !s.waitRoom b 16 then .next s
        else
          let s := match s.coreCtx b with
            | some x => s.record x 6 { bench := b, core := c } 0 (leBytes 8 w.entry ++ leBytes 8 w.arg.toNat)
            | none => s
          .next (s.startItem b c w)

/-- Items of a bench that may be stolen (R203). -/
def State.loose (s : State) (b : Nat) : List WorkItem := (s.bench b).items.filter (·.chunk.isNone)

/-- The setting under which a bench's items are placed and stolen: the running launch's own, else as it stands
(R203, R213). -/
def State.stealOn (s : State) (c b : Nat) : Bool :=
  match s.runOn b with
  | some r => r.dba
  | none => s.stealing c

/-- The bench of a context with the most unstarted items, the lowest of several (R203). -/
def State.fullest (s : State) (c : Nat) : Option Nat :=
  (bitsOf 99 (s.ctx c).benchSet.toNat).foldl (fun (a : Option Nat) v =>
    let n := fun (b : Nat) => (s.bench b).items.length + (s.bench b).itemWait.length
    match a with
    | some u => if n u < n v then some v else some u
    | none => some v) none

/-- STEAL (R203): a bench with an empty queue and an idle core takes the oldest loose item of the context's fullest
bench. -/
def execSteal (id : Fin 256) (thief : Fin 100) (s : State) : Host.Outcome State Fault Refusal :=
  if !s.powered then .next s else
  let x := s.bench thief
  let mine := (bitsOf 99 (s.ctx id).benchSet.toNat).contains thief.val
  let idle := decide (x.st = .awake) && (List.range 8).any (fun c => decide ((s.core (thief.val * 8 + c)).run = .halted))
  if !mine || (s.ctx id).st ≠ .opened || !(x.items.isEmpty && x.itemWait.isEmpty) || !idle then .next s
  else match s.fullest id with
    | none => .next s
    | some v =>
      if !(s.stealOn id thief && s.stealOn id v) then .next s
      else match (s.loose v).head? with
        | none => .next s
        | some w =>
          let s := (s.modBench v (fun x => { x with
            items := dropFirst (fun y => decide (y = w)) x.items, idleSince := s.now })).feedItems v
          .next (((((s.stirBench thief).postItem thief w).bump (Reg.stealsIn thief)).bump (Reg.stealsOut v)).checkRunDone v)

end Sys2Proof.Machine
end

