-- ==== Sys2Proof/Machine/Comm.lean ====
section
/-! DEFINITION. The communicate family (R242-R252), the bench send queue, and DISPATCH (R262). -/

namespace Sys2Proof.Machine

/-- The first of several codes in the order of R14; OK when there is none. -/
def firstCode (cs : List Nat) : Nat :=
  ([0x0F, 0x01, 0x0C, 0x04, 0x06, 0x05, 0x09, 0x0B, 0x03, 0x07, 0x0A, 0x02, 0x08].find? (cs.contains ·)).getD 0

/-- The codes that apply of conditions with their codes. -/
def codesOf (cs : List (Bool × Nat)) : Nat := firstCode ((cs.filter (·.1)).map (·.2))

/-- The context is fenced; the context is under teardown (R248, R255, R261). -/
def State.ctxFenced (s : State) (b : Nat) : Bool := (s.coreCtx b).any (fun c => (s.ctx c).fenced)
def State.ctxClosing (s : State) (b : Nat) : Bool := (s.coreCtx b).any (fun c => decide ((s.ctx c).st = .closing))

/-! ### The send queue (R249) -/

def State.sendUsed (s : State) (b : Nat) : Nat := (s.bench b).sendQ.foldl (fun a p => a + pktUnits p.1) 0
/-- The queue can hold the packet. -/
def State.sendFits (s : State) (b : Nat) (p : Packet) : Bool := decide (s.sendUsed b + pktUnits p ≤ 128)
/-- Queue a packet of core `c`. -/
def State.sendPush (s : State) (b c : Nat) (p : Packet) : State :=
  s.modBench b (fun x => { x with sendQ := x.sendQ ++ [(p, c)] })

/-- The packet of a template (R247): LEN, PART, SRC and the spare bits are the device's. -/
def State.sendPacket (s : State) (b : Nat) (dest w2 w3 : W32) (count : Nat) (payload : List Byte) : Packet :=
  let part := match s.coreCtx b with | some c => (s.ctx c).part.toNat | none => 0
  let w2 := setFld (setFld (setFld w2 23 8 part) 22 1 0) 31 1 0
  let h : Hdr := { dest := dest, src := s.ownUnit (unitBench b), w2 := setFld w2 0 14 payload.length, w3 := w3 }
  let p : Packet := { h := h, payload := payload, count := if hCnt h then w32 count else 0 }
  { p with crc := packetCrc p }

/-- Retire with a result word in s[D]. -/
def State.retireD (s : State) (b : Fin 100) (c : Fin 8) (w : W64) (v : Nat) : State :=
  s.retire b c (fun x => x.setS (iD w) (w64 v))

/-- SEND's code (R248). -/
def State.sendCode (s : State) (b : Fin 100) (a t : W64) : Nat :=
  let vc := fld t 14 3
  let len := fld t 0 14
  let cnt := bit t 20
  let mc := bit t 19
  codesOf [(s.ctxFenced b, Code.fenced), (s.ctxClosing b, Code.closed),
    (b.val == 99 || decide (vc < 4 ∨ 6 < vc), Code.perm),
    (fld a 48 16 != 0 || len == 0 || decide (8192 < len) || (cnt && !bit t 17) || (cnt && fld a 32 16 == 0) ||
      (mc && vc == 6) || (mc && fld a 12 20 != 0), Code.lenErr)]

/-- SEND: checked, then it waits for room or is queued (R247-R249). -/
def commSend (b : Fin 100) (c : Fin 8) (w : W64) (s : State) : State :=
  let x := s.core (coreNo b c)
  let a := x.s (iA w)
  let t := x.s (iC w)
  let src := x.s (iB w)
  let len := fld t 0 14
  let bad := lsCheck src len
  if bad ≠ 0 then s.raise b c bad src
  else
    let code := s.sendCode b a t
    if code ≠ 0 then s.retireD b c w code
    else
      let mk := fun (s : State) (bs : List Byte) =>
        s.sendPacket b (w32 (fld a 0 32)) (w32 (fld t 0 32)) (w32 (fld t 32 32)) (fld a 32 16) bs
      if !s.sendFits b (mk s (List.replicate len 0)) then s.coreWait b c .sendRoom w none
      else match s.readStore b c 0 src.toNat len with
        | (none, s) => s.raise b c Exc.eccUe src
        | (some bs, s) => (s.sendPush b c (mk s bs)).retireD b c w Code.ok

/-- SEND (R248). -/
def execSend (b : Fin 100) (c : Fin 8) (s : State) : Host.Outcome State Fault Refusal := coreExec b c 4 1 (commSend b c) s

/-! ### DISPATCH (R262) -/

/-- Queue what fits of a DISPATCH's packets; it retires when all are queued. -/
def State.dispatchPush (s : State) (b : Fin 100) (c : Fin 8) (w : W64) : List Packet → State
  | [] => s.retire b c (fun x => { x.setS (iD w) (w64 Code.ok) with toSend := [] })
  | p :: ps =>
    if s.sendFits b p then State.dispatchPush (s.sendPush b c p) b c w ps
    else (s.modCore (coreNo b c) (fun x => { x with toSend := p :: ps })).coreWait b c .sendRoom w none

/-- DISPATCH's code: SEND's checks with the list's and the row's (R262). -/
def State.dispatchCode (s : State) (b : Fin 100) (t : W64) (k : Nat) (listBad : Bool) : Nat :=
  let vc := fld t 14 3
  let len := fld t 0 14
  codesOf [(s.ctxFenced b, Code.fenced), (s.ctxClosing b, Code.closed),
    (b.val == 99 || decide (vc < 4 ∨ 6 < vc), Code.perm),
    (k == 0 || decide (8 < k) || listBad || len == 0 || decide (8184 < len) || bit t 19 || (bit t 20 && !bit t 17),
      Code.lenErr)]

/-- The causes and addresses that DISPATCH's two operands raise with, list before row: an operand's range check, or an
uncorrectable word of it. The list's head gives its length, so a head that cannot be read bounds it (R205, R244, R262). -/
def State.dispatchCauses (s : State) (b : Fin 100) (c : Fin 8) (la ra : W64) (len : Nat) : List (Nat × W64) :=
  let one := fun (a : W64) (n : Nat) =>
    if lsCheck a n ≠ 0 then [(lsCheck a n, a)]
    else if s.badCount b c 0 a.toNat n false ≠ 0 then [(Exc.eccUe, a)]
    else []
  let head := one la 8
  let k := u64 (s.spaceBytes b c 0 la.toNat 8) 0 % 16
  (if head.isEmpty then one la (if k ≤ 8 then 8 + 16 * k else 8) else head) ++ one ra len

/-- The cause that is raised: the lowest number, the list's before the row's (R205). -/
def lowestCause : List (Nat × W64) → Option (Nat × W64)
  | [] => none
  | x :: xs => match lowestCause xs with
    | none => some x
    | some y => some (if x.1 ≤ y.1 then x else y)

/-- DISPATCH: one unicast packet per list entry, each the entry's TAG and the row. -/
def commDispatch (b : Fin 100) (c : Fin 8) (w : W64) (s : State) : State :=
  let x := s.core (coreNo b c)
  let la := x.s (iA w)
  let t := x.s (iB w)
  let ra := x.s (iC w)
  let len := fld t 0 14
  match lowestCause (s.dispatchCauses b c la ra len) with
  | some (e, a) => (if e = Exc.eccUe then s.storeUe b 0 else s).raise b c e a
  | none =>
    let head := u64 (s.spaceBytes b c 0 la.toNat 8) 0
    let k := head % 16
    let n := if k ≤ 8 then 8 + 16 * k else 8
    let (lo, s) := s.readStore b c 0 la.toNat n
    let (ro, s) := s.readStore b c 0 ra.toNat len
    let list := lo.getD []
    let row := ro.getD []
    let ents := (List.range (min k 8)).map (fun i => (u64 list (8 + 16 * i), slice list (16 + 16 * i) 8))
    let code := s.dispatchCode b t k (head / 16 != 0 || ents.any (fun e => decide (2 ^ 60 ≤ e.1)))
    if code ≠ 0 then s.retireD b c w code
    else
      let w2 := setFld (w32 (fld t 0 32)) 17 1 1
      let mk := fun (e : Nat × List Byte) =>
        let w3 := setFld (setFld (w32 (fld t 32 32)) 0 12 (e.1 / 2 ^ 32)) 12 16 (e.1 / 2 ^ 44)
        s.sendPacket b (w32 e.1) w2 w3 1 (e.2 ++ row)
      s.dispatchPush b c w (ents.map mk)

/-- DISPATCH (R262). -/
def execDispatch (b : Fin 100) (c : Fin 8) (s : State) : Host.Outcome State Fault Refusal :=
  coreExec b c 5 7 (commDispatch b c) s

/-- SEND_QUEUE_ROOM (R249): a waiting SEND or DISPATCH proceeds. -/
def execSendQueueRoom (b : Fin 100) (c : Fin 8) (s : State) : Host.Outcome State Fault Refusal :=
  match s.waitsFor b c .sendRoom with
  | none => .next s
  | some q =>
    let ps := (s.core (coreNo b c)).toSend
    let s := s.modCore (coreNo b c) (fun x => { x with run := .running, wait := none })
    .next (if iFam q.word = 4 then commSend b c q.word s else s.dispatchPush b c q.word ps)

/-- The head packet of a recording context's send queue waits at its OUT record (R331, R333). -/
def State.outStalls (s : State) (b : Nat) : Bool :=
  match (s.bench b).sendQ with
  | [] => false
  | (p, _) :: _ => !(!hMc p.h && s.isOwn p.h.dest) &&
    (s.coreCtx b).any (fun x => (s.rplOf x).outEn && !s.recRoom x (packetBytes p).length)

/-- SENDQ_DEPART (R249): the head packet is admitted by the buffer or taken by an own unit. A recorded
context's packet makes its OUT record, a replaying one's is not sent (R331, R337). -/
def execSendqDepart (b : Fin 100) (s : State) : Host.Outcome State Fault Refusal :=
  if !s.powered then .next s
  else match (s.bench b).sendQ with
    | [] => .next s
    | (p, c) :: _ =>
      let pop := fun (s : State) => s.modBench b (fun x => { x with sendQ := x.sendQ.drop 1 })
      let src : RecSrc := { bench := b, core := c }
      let own := !hMc p.h && s.isOwn p.h.dest
      match s.coreCtx b with
      | some x =>
        if own then go (pop s) s p
        else if s.replaying x then .next (pop (s.ctxOut x src p).2)
        else if s.outStalls b then .next s
        else match (pop s).sendRequest (.bench b) p with
          | some t => .next (t.ctxOut x src p).2
          | none => .next s
      | none => go (pop s) s p
where
  /-- Send it; when it cannot leave, the state is as before. -/
  go (t s : State) (p : Packet) : Host.Outcome State Fault Refusal :=
    match t.sendRequest (.bench b) p with
    | some t => .next t
    | none => .next s

/-! ### The receive queue (R250-R252) -/

/-- Bytes RECV writes for a packet. -/
def recvSize (p : Packet) : Nat := 16 + hLen p.h + (if hCnt p.h then 4 else 0)

/-- The bytes RECV writes: header words, payload, count word. -/
def recvBytes (p : Packet) : List Byte :=
  hdrBytes p.h ++ p.payload ++ (if hCnt p.h then leBytes 4 p.count.toNat else [])

/-- The bytes RECVH writes. -/
def recvhBytes (p : Packet) : List Byte := hdrBytes p.h ++ (if hCnt p.h then leBytes 4 p.count.toNat else [])

/-- Remove the head packet of a bench's receive queue, returning its credit; what waits enters (R250). -/
def State.recvPop (s : State) (b : Nat) : State :=
  match (s.bench b).recvQ with
  | [] => s
  | p :: _ =>
    (((((s.modBench b (fun x => { x with recvQ := x.recvQ.drop 1 })).feedRecv b).benchTook b p).retryVc5All b).releaseOwed b)

/-- Retire an instruction that takes something: bytes to the local store, a value to s[D], recorded as
TAKE (R331). `pre` is the removal from the queue. -/
def State.takeRetire (s : State) (b : Fin 100) (c : Fin 8) (w : W64) (kind v : Nat) (a : W64) (bs : List Byte)
    (pre : State → State) : State :=
  match s.writeStore b c 0 a.toNat (bs.map some) with
  | (false, s) => s.raise b c Exc.eccUe a
  | (true, t) =>
    let s := pre (if bs.isEmpty then s else t)
    let s := match s.coreCtx b with
      | some x => s.record x 3 { bench := b, core := c } kind (leBytes 8 v ++ bs)
      | none => s
    s.retireD b c w v

/-- In replay the instruction takes its TAKE record: the value and the bytes (R336). -/
def State.takeLogged (s : State) (b : Fin 100) (c : Fin 8) (x : Nat) (w : W64) (kind : Nat) (a : W64) : State :=
  match s.rplNext x (recOfCore b c) with
  | .fail code n => s.rplDiverge x code n
  | .entry r =>
    if r.rtype ≠ 3 ∨ r.aux % 8 ≠ kind then s.rplDiverge x Code.contract r.rseq
    else
      let s := s.consume x r
      match s.writeStore b c 0 a.toNat ((r.body.drop 8).map some) with
      | (false, s) => s.raise b c Exc.eccUe a
      | (true, s) => (s.retireD b c w (u64 r.body 0)).checkRplDone x

/-- Body bytes of the TAKE record of a RECV (kind 1) or RECVH (kind 2) of a packet (R331). -/
def takeBody (k : Nat) (p : Packet) : Nat := 8 + (if k = 1 then recvSize p else (recvhBytes p).length)

/-- RECV at a queue that holds a packet (R251, R252). -/
def recvNow (b : Fin 100) (c : Fin 8) (w : W64) (p : Inbound) (s : State) : State :=
  let x := s.core (coreNo b c)
  let a := x.s (iA w)
  let n := recvSize p.pkt
  if hPoison p.pkt.h then s.raise b c Exc.poisonUse a
  else if (x.s (iB w)).toNat < n then s.takeRetire b c w 1 (Code.lenErr + 256 * n) a [] id
  else s.takeRetire b c w 1 (Code.ok + 256 * n) a (recvBytes p.pkt) (fun s => s.recvPop b)

/-- RECVH at a queue that holds a packet. -/
def recvhNow (b : Fin 100) (c : Fin 8) (w : W64) (p : Inbound) (s : State) : State :=
  let a := (s.core (coreNo b c)).s (iA w)
  s.takeRetire b c w 2 (Code.ok + 256 * (recvhBytes p.pkt).length) a (recvhBytes p.pkt) id

/-- Wait with the timeout in s[C]; 0 means none. -/
def State.recvWait (s : State) (b : Fin 100) (c : Fin 8) (k : WaitKind) (w : W64) (t : Nat) : State :=
  s.coreWait b c k w (if t = 0 then none else some (s.clk.ftime.toNat + t))

/-- RECV (R251). -/
def execRecv (b : Fin 100) (c : Fin 8) (s : State) : Host.Outcome State Fault Refusal :=
  coreExec b c 4 2 (fun w s =>
    let x := s.core (coreNo b c)
    let a := x.s (iA w)
    let bad := lsCheck a (x.s (iB w)).toNat
    if bad ≠ 0 then s.raise b c bad a
    else match s.logCtx b with
      | some ctx => s.takeLogged b c ctx w 1 a
      | none => match (s.bench b).recvQ with
        | p :: _ => if !s.waitRoom b (takeBody 1 p.pkt) then s.coreWait b c .record 0 none else recvNow b c w p s
        | [] => s.recvWait b c .recv w (x.s (iC w)).toNat) s

/-- RECVH (R251). -/
def execRecvh (b : Fin 100) (c : Fin 8) (s : State) : Host.Outcome State Fault Refusal :=
  coreExec b c 4 3 (fun w s =>
    let x := s.core (coreNo b c)
    let a := x.s (iA w)
    let bad := lsCheck a 20
    if bad ≠ 0 then s.raise b c bad a
    else match s.logCtx b with
      | some ctx => s.takeLogged b c ctx w 2 a
      | none => match (s.bench b).recvQ with
        | p :: _ => if !s.waitRoom b (takeBody 2 p.pkt) then s.coreWait b c .record 0 none else recvhNow b c w p s
        | [] => s.recvWait b c .recvh w (x.s (iC w)).toNat) s

/-- A core that waits in RECV, or in RECVH, with TAKE's kind; none when it waits in neither. -/
def State.recvWaiter (s : State) (b : Fin 100) (c : Fin 8) : Option (Nat × Waiting) :=
  match s.waitsFor b c .recv, s.waitsFor b c .recvh with
  | some q, _ => some (1, q)
  | none, some q => some (2, q)
  | none, none => none

/-- RECV_DELIVER (R251): a packet is at the head for a waiting RECV or RECVH. In replay the core takes its record, and
nothing of the queue (R336). -/
def execRecvDeliver (b : Fin 100) (c : Fin 8) (s : State) : Host.Outcome State Fault Refusal :=
  match s.recvWaiter b c with
  | none => .next s
  | some (k, q) => match s.logCtx b with
    | some x => .next (s.takeLogged b c x q.word k ((s.core (coreNo b c)).s (iA q.word)))
    | none => match (s.bench b).recvQ with
      | [] => .next s
      | p :: _ =>
        if !s.waitRoom b (takeBody k p.pkt) then .next s
        else if k = 1 then .next (recvNow b c q.word p s) else .next (recvhNow b c q.word p s)

/-- RECV_TIMEOUT (R251): the queue stayed empty until the timeout, and s[D] is 0. A replay has no timeouts (R336). -/
def execRecvTimeout (b : Fin 100) (c : Fin 8) (s : State) : Host.Outcome State Fault Refusal :=
  let go := fun (kind : Nat) (q : Waiting) =>
    if s.late q && (s.logCtx b).isNone && (s.bench b).recvQ.isEmpty && s.waitRoom b 8 then
      Host.Outcome.next (φ := Fault) (ρ := Refusal) (s.takeRetire b c q.word kind 0 0 [] id)
    else .next s
  match s.waitsFor b c .recv, s.waitsFor b c .recvh with
  | some q, _ => go 1 q
  | none, some q => go 2 q
  | none, none => .next s

/-- DROP (R246). -/
def execDrop (b : Fin 100) (c : Fin 8) (s : State) : Host.Outcome State Fault Refusal :=
  coreExec b c 4 4 (fun w s =>
    match s.logCtx b with
    | some ctx => s.takeLogged b c ctx w 3 0
    | none =>
      if !s.waitRoom b 8 then s.coreWait b c .record 0 none
      else match (s.bench b).recvQ with
        | [] => s.takeRetire b c w 3 0 0 [] id
        | p :: _ => s.takeRetire b c w 3 (Code.ok + 256 * recvSize p.pkt) 0 [] (fun s => s.recvPop b)) s

end Sys2Proof.Machine
end

