-- ==== Sys2Proof/Machine/Fused.lean ====
section
/-! DEFINITION. The fused family (R253-R263) but DISPATCH: contributions of cores, chunk programs and
CINFO. -/

namespace Sys2Proof.Machine

/-! ### Operands (R254) -/

abbrev coHandle (v : W64) : BitVec 20 := BitVec.ofNat 20 (fld v 0 20)
abbrev coMember (v : W64) : Nat := fld v 20 12
abbrev coStep (v : W64) : W32 := w32 (fld v 32 32)
abbrev chIdx (v : W64) : Nat := fld v 0 24
abbrev chCount (v : W64) : Nat := fld v 24 16

/-- The handle names the core's context (R254). -/
def State.handleMine (s : State) (b : Nat) (h : BitVec 20) : Bool := s.coreCtx b == some (handleCtx h)

/-- The entry words that a fused instruction reads at issue; none of another context's. -/
def State.fusedEntry (s : State) (b : Nat) (h : BitVec 20) : List W32 :=
  if s.handleMine b h then s.readWords (s.entryAddr h) 16 else []

/-- The code of CONTRIB, DQCONTRIB, SCONTRIB and COPEN (R255). `src`: its type and the chunk operand;
none for COPEN. -/
def State.contribCode (s : State) (b : Fin 100) (co : W64) (src : Option (Nat × W64)) (dq : Bool) : Nat :=
  let h := coHandle co
  let mine := s.handleMine b h
  let x := entryOf (s.fusedEntry b h)
  let len := match src with
    | none => false
    | some (t, ch) =>
      let n := chCount ch
      fld ch 40 24 != 0 || n == 0 || decide ((if x.frit then 256 else 8168) < elemBytes x.etype n) ||
      ((isMx x.etype || (dq && isMx t)) && n % 32 != 0)
  codesOf [(mine && s.meetsUe (s.entryAddr h) 64 false, Code.internal),
    (s.ctxFenced b, Code.fenced), (!s.collEn || s.ctxClosing b, Code.closed),
    (b.val == 99 || !mine || !x.valid, Code.perm), (len, Code.lenErr),
    (entryInvalid x (s.ownersOf (handleCtx h)).length || (dq && isMx x.etype), Code.contract)]

/-- The message a core hands to the collective path (R256): an OPEN, or a CONTRIB with its elements. -/
def State.coreMsg (s : State) (b : Fin 100) (c : Fin 8) (co : W64) (stype chunk ecount : Nat) (elems : List Byte) :
    Inbound :=
  let h := coHandle co
  let x := entryOf (s.fusedEntry b h)
  let k : InstKey := { handle := h, gen := (s.ctx (handleCtx h)).gen, step := coStep co }
  let total := if x.varsize then
      (match s.inst? k with | some i => if i.st = .counting then 0 else i.total | none => 0) else x.total
  let f : HdrFields := { s.collHdr k (s.ownUnit unitColl) false (if x.frit then 1 else 2) chunk with
    src := s.ownUnit (unitBench b) }
  { pkt := mkPacket f (subOf k stype chunk (coMember co) ecount (digest x total k.step) 0 ++ elems), lp := none,
    core := some (b.val, c.val), arrivedAt := s.ftimeOr0 }

/-- The entry is read at issue: the errors of its line are met (R255, R314). -/
def State.readAtIssue (s : State) (b : Fin 100) (h : BitVec 20) : State :=
  if s.handleMine b h then ((s.memServe (s.entryAddr h) 64).meet (s.entryAddr h) 64 true 0x0E (s.coreCtx b)).memBytes (s.entryAddr h) 64 false else s

/-- What a contribution waits for at issue, if anything (R256): room in the queues it enters, or, with its own bench
among them, its turn against the collective unit (R199); its slot, while that holds another chunk of the open
instance. A chunk beyond the window of an instance that is not open waits for it to open (log entry 62). A contribution
that a check will refuse is handed on. -/
def State.contribWaits (s : State) (b : Fin 100) (m : CollMsg) : Option WaitKind :=
  let x := entryOf (s.msgEntry m)
  let late : Bool := match s.inst? m.key with
    | some i => decide (i.st = .running) && i.overrun m.chunk
    | none => !x.varsize && decide (max 1 (min x.window (nchunks x.total x.e)) ≤ m.chunk)
  let own := (s.targetBenches m).contains b.val
  if x.frit || (s.checkContext m).isSome || (s.checkEntry m).isSome then none
  else if late then some .window
  else if own && (s.noRoom m || (s.netWants b && (s.bench b).coreTurn)) then some .contrib
  else if s.noRoom m then some .window
  else none

/-- Hand a core's contribution on: to the frit path unit, or into the queues of its chunk's benches (R256). -/
def State.handOn (s : State) (i : Inbound) : State :=
  if (entryOf (s.msgEntry (collMsgOf i))).frit then s.modColl (fun q => { q with inq := q.inq ++ [i] })
  else s.collContrib (collMsgOf i) .clean

/-- The source elements as ETYPE values, converted once (R257). -/
def State.contribElems (s : State) (co ch : W64) (etype e rnd : Nat) (vs : List Val) : Encoded :=
  let h := coHandle co
  encodeElems etype
    { round := rnd, seed := (s.ctx (handleCtx h)).jobSeed,
      step := coStep co ^^^ mix32 (w32 (coMember co + 0x10000)), handle := w32 h.toNat, first := chIdx ch * e } vs

/-- CONTRIB, DQCONTRIB and SCONTRIB: checked, converted and handed on, or waiting at issue. -/
def fusedContrib (b : Fin 100) (c : Fin 8) (w : W64) (s : State) : State :=
  let x := s.core (coreNo b c)
  let co := x.s (iA w)
  let ch := x.s (iB w)
  let a := x.s (iC w)
  let n := chCount ch
  let len := elemBytes (iType w) n
  let bad := lsCheck a len
  if bad ≠ 0 then s.raise b c bad a
  else
    let s := s.readAtIssue b (coHandle co)
    let code := s.contribCode b co (some (iType w, ch)) (iOp w == 2)
    if code ≠ 0 then s.retireD b c w code
    else
      let ent := entryOf (s.fusedEntry b (coHandle co))
      let mk := fun (s : State) (bs : List Byte) => s.coreMsg b c co stContrib (chIdx ch) n bs
      match s.contribWaits b (collMsgOf (mk s (List.replicate (elemBytes ent.etype n) 0))) with
      | some k => s.coreWait b c k w none
      | none => match s.readStore b c 0 a.toNat len with
        | (none, s) => s.raise b c Exc.eccUe a
        | (some bs, s) =>
          let vs := decodeElems (iType w) n bs
          let g := fp32.decode (fld (x.s (iD w)) 0 32)
          let vs := if iOp w = 3 then vs.map (fun v => v.mul g) else vs
          let e := s.contribElems co ch ent.etype ent.e (iRnd w) vs
          let s := s.countConv e
          (s.handOn (mk s e.bytes)).retireD b c w Code.ok

/-- CONTRIB (R255-R257). -/
def execContrib (b : Fin 100) (c : Fin 8) (s : State) : Host.Outcome State Fault Refusal :=
  coreExec b c 5 1 (fusedContrib b c) s

/-- DQCONTRIB (R257): MX blocks are dequantised. -/
def execDqcontrib (b : Fin 100) (c : Fin 8) (s : State) : Host.Outcome State Fault Refusal :=
  coreExec b c 5 2 (fusedContrib b c) s

/-- SCONTRIB (R257): each element times the FP32 weight in s[D]. -/
def execScontrib (b : Fin 100) (c : Fin 8) (s : State) : Host.Outcome State Fault Refusal :=
  coreExec b c 5 3 (fusedContrib b c) s

/-- Hand an OPEN on: behind the core's own contributions that the frit path unit has not taken, so that they enter the
collective path in issue order (R256). -/
def State.openOn (s : State) (i : Inbound) : State :=
  if s.coll.inq.any (fun j => decide (j.core = i.core)) then s.modColl (fun q => { q with inq := q.inq ++ [i] })
  else s.collOpen (collMsgOf i)

/-- COPEN (R255, R256). -/
def execCopen (b : Fin 100) (c : Fin 8) (s : State) : Host.Outcome State Fault Refusal :=
  coreExec b c 5 4 (fun w s =>
    let co := (s.core (coreNo b c)).s (iA w)
    let s := s.readAtIssue b (coHandle co)
    let code := s.contribCode b co none false
    if code ≠ 0 then s.retireD b c w code
    else (s.openOn (s.coreMsg b c co stOpen 0 0 [])).retireD b c w Code.ok) s

/-- CONTRIB_ISSUE_RESUME (R256): the waiting contribution's queue has room and its slot is free. -/
def execContribIssueResume (b : Fin 100) (c : Fin 8) (s : State) : Host.Outcome State Fault Refusal :=
  match (s.waitsFor b c .contrib).orElse (fun _ => s.waitsFor b c .window) with
  | none => .next s
  | some q => .next (fusedContrib b c q.word (s.modCore (coreNo b c) (fun x => { x with run := .running, wait := none })))

/-! ### Chunk programs (R259-R261) -/

/-- The instance and chunk a core is bound to, live or not, while its record is held. -/
def State.boundRec (s : State) (b : Fin 100) (c : Fin 8) : Option (Inst × Nat) :=
  match (s.core (coreNo b c)).bound with
  | none => none
  | some (key, ch) => (s.inst? key).map (fun i => (i, ch))

/-- The bench runs the chunk as its twin. -/
def onTwin (b : Fin 100) (i : Inst) (ch : Nat) : Bool := i.bench ch false != b.val

/-- The oldest contribution of the bound chunk not yet taken. -/
def State.ctakeHead (s : State) (b : Fin 100) (i : Inst) (ch : Nat) : Option Contribution :=
  (s.bench b).adderQ.find? (fun q => decide (q.key = i.key) && q.chunk == ch && q.twin == onTwin b i ch)

/-- A side whose every contribution has been taken is marked: CTAKE says LEN_ERR there, whatever the instance becomes. -/
def State.noteTaken (s : State) (k : InstKey) (ch : Nat) (tw : Bool) : State :=
  s.modInst k (fun i =>
    if i.sideComplete ch ((i.chunk ch).side tw) then { i with allTaken := insertNat (ch * 2 + b2n tw) i.allTaken } else i)

/-- A contribution counts as applied when it is taken (R260). -/
def State.ctakeApply (s : State) (b : Fin 100) (i : Inst) (q : Contribution) : State :=
  let s := s.modBench b (fun x => { x with adderQ := dropFirst (fun y => decide (y = q)) x.adderQ })
  let s := s.modInst i.key (fun i =>
    let x := i.chunk q.chunk
    let y := x.side q.twin
    i.setChunk (x.setSide q.twin { y with
      applied := y.applied ++ [q.member], got := y.got + q.ecount, gotBy := smod 0 y.gotBy q.member (· + q.ecount) }))
  ((s.markApplied i.key q.twin q.member q.src q.core).noteTaken i.key q.chunk q.twin).countEv (128 + b) 0x47 1

/-- CTAKE's word when a contribution was written. -/
def ctakeWord (m : Nat) : Nat := Code.ok + 256 * (m % 4096) + 2 ^ 20

/-- CTAKE's outcome now, or none: it waits (R260). Of the codes that apply, LEN_ERR comes before a dead instance's own
CONTRACT, POISON, CAPACITY or INCOMPLETE, and behind its INTERNAL, FENCED, CLOSED or PERM (R14, R243). -/
def State.ctakeNow (s : State) (b : Fin 100) (c : Fin 8) (w : W64) : Option State :=
  let a := (s.core (coreNo b c)).s (iC w)
  match s.boundRec b c with
  | none => some (s.takeRetire b c w 4 Code.perm 0 [] id)
  | some (i, ch) =>
    if !i.live then some (s.takeRetire b c w 4 (firstCode ((if i.allTaken.contains (ch * 2 + b2n (onTwin b i ch)) then
      [Code.lenErr] else []) ++ [i.code.toNat])) 0 [] id)
    else match s.ctakeHead b i ch with
      | some q =>
        let bad := lsCheck a q.elems.length
        some (if bad ≠ 0 then s.raise b c bad a
          else s.takeRetire b c w 4 (ctakeWord q.member) a q.elems (fun s => s.ctakeApply b i q))
      | none =>
        if i.sideComplete ch ((i.chunk ch).side (onTwin b i ch)) then some (s.takeRetire b c w 4 Code.lenErr 0 [] id)
        else none

/-- Elements of `n` payload bytes. -/
def elemsOf (t n : Nat) : Nat := if isMx t then n / (1 + 4 * etypeBits t) * 32 else n * 8 / etypeBits t

/-- Element bytes of the TAKE record that a replaying core takes next. -/
def State.loggedBytes (s : State) (b : Fin 100) (c : Fin 8) : Nat :=
  (s.logCtx b).elim 0 (fun x => match s.rplNext x (recOfCore b c) with
    | .entry r => r.body.length - 8
    | .fail _ _ => 0)

/-- A replayed CTAKE's member and elements count as applied, and a core's own contribution leaves the queue. -/
def State.ctakeReplayed (s : State) (b : Fin 100) (c : Fin 8) (old : State) (w : W64) : State :=
  let v := (s.core (coreNo b c)).s (iD w)
  if (s.core (coreNo b c)).pc == (old.core (coreNo b c)).pc || !bit v 20 then s
  else match s.boundRec b c with
    | none => s
    | some (i, ch) => match (s.ctakeHead b i ch).filter (fun q => q.member == fld v 8 12) with
      | some q => s.ctakeApply b i q
      | none => s.modInst i.key (fun i =>
          let x := i.chunk ch
          let tw := onTwin b i ch
          let y := x.side tw
          let n := elemsOf i.ent.etype (old.loggedBytes b c)
          let i := i.setChunk (x.setSide tw { y with
            applied := y.applied ++ [fld v 8 12], got := y.got + n, gotBy := smod 0 y.gotBy (fld v 8 12) (· + n) })
          if i.sideComplete ch ((i.chunk ch).side tw) then { i with allTaken := insertNat (ch * 2 + b2n tw) i.allTaken } else i)

/-- Record room for a CTAKE of the bound chunk. -/
def State.ctakeRoom (s : State) (b : Fin 100) (c : Fin 8) : Bool :=
  s.waitRoom b (8 + (match s.boundRec b c with
    | some (i, ch) => ((s.ctakeHead b i ch).map (fun q => q.elems.length)).getD 0
    | none => 0))

/-- Bytes that CTAKE may write: b of the chunk's element count in ETYPE (R244, R260). -/
def State.ctakeBytes (s : State) (b : Fin 100) (c : Fin 8) : Nat :=
  match s.boundOf b c with
  | some (i, ch, _) => elemBytes i.ent.etype (chunkElems i.total i.ent.e ch)
  | none => 0

/-- CTAKE (R260). -/
def execCtake (b : Fin 100) (c : Fin 8) (s : State) : Host.Outcome State Fault Refusal :=
  coreExec b c 5 5 (fun w s =>
    let x := s.core (coreNo b c)
    let a := x.s (iC w)
    let bad := lsCheck a (s.ctakeBytes b c)
    if bad ≠ 0 then s.raise b c bad a
    else match s.logCtx b with
      | some ctx => (s.takeLogged b c ctx w 4 a).ctakeReplayed b c s w
      | none =>
        if !s.ctakeRoom b c then s.coreWait b c .record 0 none
        else match s.ctakeNow b c w with
          | some t => t
          | none => s.recvWait b c .ctake w (x.s (iA w)).toNat) s

/-- CTAKE_DELIVER (R260): a contribution reached the bound chunk, or its instance ended; in replay, the core takes its
record (R336). -/
def execCtakeDeliver (b : Fin 100) (c : Fin 8) (s : State) : Host.Outcome State Fault Refusal :=
  match s.waitsFor b c .ctake with
  | none => .next s
  | some q => match s.logCtx b with
    | some x => .next ((s.takeLogged b c x q.word 4 ((s.core (coreNo b c)).s (iC q.word))).ctakeReplayed b c s q.word)
    | none =>
      if !s.ctakeRoom b c then .next s
      else match s.ctakeNow b c q.word with
        | some t => .next t
        | none => .next s

/-- CTAKE_TIMEOUT (R260): no contribution came, and s[D] is OK with VALID 0. -/
def execCtakeTimeout (b : Fin 100) (c : Fin 8) (s : State) : Host.Outcome State Fault Refusal :=
  match s.waitsFor b c .ctake with
  | none => .next s
  | some q =>
    if s.late q && (s.logCtx b).isNone && (s.ctakeNow b c q.word).isNone && s.waitRoom b 8
    then .next (s.takeRetire b c q.word 4 0 0 [] id) else .next s

/-- The code of FINAL (R261). -/
def State.finalCode (s : State) (b : Fin 100) (c : Fin 8) (w co ch : W64) : Nat :=
  let perm := match s.boundRec b c with
    | none => true
    | some (i, k) => decide (i.key.handle ≠ coHandle co ∨ i.key.step ≠ coStep co) || k != chIdx ch
  let len := fld ch 40 24 != 0 || (match s.boundRec b c with
    | none => false
    | some (i, k) => chCount ch != chunkElems i.total i.ent.e k || (i.ent.upperEn && iType w != i.ent.etype))
  let dead := match s.boundRec b c with
    | some (i, _) => if i.live then 0 else i.code.toNat
    | none => 0
  codesOf [(s.ctxFenced b, Code.fenced), (s.ctxClosing b, Code.closed), (perm, Code.perm), (len, Code.lenErr),
    (dead != 0, dead)]

/-- The bytes FINAL emits: RTYPE under the entry's ROUND, or the form of R177 (R261). -/
def State.finalProgBytes (s : State) (i : Inst) (ch : Nat) (vs : List Val) : Encoded :=
  let x := i.ent
  if x.upperEn then
    { bytes := (vs.map (fun v => (Acc.addVal x.mode x.etype {} v).partBytes x.mode x.etype)).flatten }
  else encodeElems x.rtype
    { round := x.round, seed := (s.ctx i.ctx).jobSeed, step := i.key.step, handle := w32 i.key.handle.toNat,
      first := ch * x.e } vs

/-- FINAL (R261): in every outcome the parison is unbound. -/
def fusedFinal (b : Fin 100) (c : Fin 8) (w : W64) (s : State) : State :=
  let x := s.core (coreNo b c)
  let co := x.s (iA w)
  let ch := x.s (iB w)
  let a := x.s (iC w)
  let n := chCount ch
  let len := elemBytes (iType w) n
  let bad := lsCheck a len
  if bad ≠ 0 then s.raise b c bad a
  else
    let code := s.finalCode b c w co ch
    let unbind := fun (s : State) => s.modCore (coreNo b c) (fun x => { x with bound := none })
    if code ≠ 0 then (unbind s).retireD b c w code
    else match s.readStore b c 0 a.toNat len with
      | (none, s) => s.raise b c Exc.eccUe a
      | (some bs, s) => match s.boundRec b c with
        | none => (unbind s).retireD b c w code
        | some (i, k) =>
          if !i.live then (unbind s).retireD b c w code
          else
            let e := s.finalProgBytes i k (decodeElems (iType w) n bs)
            let s := s.countConv e
            let s := s.modInst i.key (fun i => { i with finalised := insertNat k i.finalised })
            (unbind ((s.sideDone i.key k (onTwin b i k) e.bytes).progress i.key)).retireD b c w Code.ok

/-- FINAL (R261). -/
def execFinalChunk (b : Fin 100) (c : Fin 8) (s : State) : Host.Outcome State Fault Refusal :=
  coreExec b c 5 6 (fusedFinal b c) s

/-- CINFO (R263): values 0 to 2 of the bound chunk, or the status record, which the read clears. -/
def execCinfo (b : Fin 100) (c : Fin 8) (s : State) : Host.Outcome State Fault Refusal :=
  coreExec b c 5 8 (fun w s =>
    let k := coreNo b c
    let n := iImm w % 256
    let clear := fun (s : State) => s.modCore k (fun x => { x with statusRec := 0 })
    if n = 3 then
      let s := if (s.logCtx b).isSome then clear s else s
      s.retireValue b c (iD w) (fun s => ((s.core k).statusRec, clear s))
    else
      let v : W64 := match s.boundRec b c with
        | none => 0
        | some (i, ch) =>
          if n = 0 then w64 (pack [(0, i.key.handle.toNat), (32, i.key.step.toNat)])
          else if n = 1 then chunkOperand ch (chunkElems i.total i.ent.e ch)
          else w64 i.ent.members
      s.retire b c (fun x => x.setS (iD w) v)) s

end Sys2Proof.Machine
end

