-- ==== Sys2Proof/Machine/Bench.lean ====
section
/-! DEFINITION. Benches: the DMA engine (R200, R201), clearing, sleep and wake (R208-R210), HOLD_AWAKE
(R211), and the warden bench (R191, R193, R407). -/

namespace Sys2Proof.Machine

/-! ### DMA descriptors (R200) -/

/-- A space an end of a transfer lies in (R200). -/
inductive DmaSpace where
  | store (core : Nat)
  | istore
  | crucible
  | pool
  deriving DecidableEq, Repr

/-- Source and destination spaces of OP for core `c`. -/
def dSpaces (d : DmaDesc) (c : Nat) : Option (DmaSpace × DmaSpace) :=
  match dOp d with
  | 0 => some (.store c, .pool)
  | 1 => some (.pool, .store c)
  | 2 => some (.store c, .store (dPeer d))
  | 3 => some (.pool, .istore)
  | 4 => some (.crucible, .pool)
  | 5 => some (.pool, .crucible)
  | _ => none

/-- The check of one end of a transfer (R195, R201): OK, ADDR, or PERM. -/
def State.dmaRange (s : State) (b : Fin 100) (c : Fin 8) (sp : DmaSpace) (a n : Nat) (wr : Bool) : Nat :=
  match sp with
  | .store _ => if a + n ≤ 0x40000 then Code.ok else Code.addr
  | .istore => if a + n ≤ 0x10000 then Code.ok else Code.addr
  | .crucible => match s.boundOf b c with
    | some (i, _, _) => if a + n ≤ parisonLines i.ent * 256 then Code.ok else Code.addr
    | none => Code.addr
  | .pool => match s.coreCtx b with
    | none => Code.addr
    | some x => match s.poolCheck x a n wr false with
      | .ok => Code.ok
      | .addr => Code.addr
      | .perm => Code.perm

/-- A reserved field, a length or an alignment that R201 calls LEN_ERR. -/
def dmaLenBad (d : DmaDesc) : Bool :=
  decide (5 < dOp d) || fld (dWord d 0) 13 19 != 0 || fld (dWord d 1) 19 13 != 0 || dWord d 6 != 0 || dWord d 7 != 0 ||
  dLen d == 0 || decide (262144 < dLen d) || dLen d % 8 != 0 || dSrc d % 8 != 0 || dDst d % 8 != 0 ||
  (dOp d != 2 && dPeer d != 0)

/-- The code a descriptor fails with before it moves a byte, in the order of R14 (R201). -/
def State.dmaCode (s : State) (b : Fin 100) (c : Fin 8) (d : DmaDesc) : Nat :=
  let ends := match dSpaces d c with
    | some (x, y) => [s.dmaRange b c x (dSrc d) (dLen d) false, s.dmaRange b c y (dDst d) (dLen d) true]
    | none => []
  let cx := (s.coreCtx b).map s.ctx
  let run := (s.core (coreNo b c)).run
  let pooled := dOp d != 2
  if pooled && cx.any (·.fenced) then Code.fenced
  else if pooled && cx.any (fun x => decide (x.st = .closing)) then Code.closed
  else if ends.contains Code.perm || (dOp d == 3 && decide (run = .running ∨ run = .waiting)) then Code.perm
  else if dmaLenBad d then Code.lenErr
  else if ends.contains Code.addr then Code.addr
  else Code.ok

/-- The descriptor ends: DMA_STATUS, then its tally (R201). -/
def State.dmaDone (s : State) (b : Fin 100) (c : Fin 8) (d : DmaDesc) (code : Nat) : State :=
  let s := (s.modBench b (fun x => { x with dmaActive := x.dmaActive.filter (·.1 != c.val), idleSince := s.now })).modCore
    (coreNo b c) (fun x => { x with dmaStatus := byte code })
  s.setTally b (dTally d) (s.tally b (dTally d) + 1)

/-- DMA_DESCRIPTOR_EXECUTE (R200, R201): the next descriptor round robin is checked, and is in progress
or ends with its code. -/
def execDmaDescriptorExecute (b : Fin 100) (s : State) : Host.Outcome State Fault Refusal :=
  if !s.powered || (s.bench b).st ≠ .awake then .next s
  else
    let turn := (s.bench b).dmaTurn
    let order := (List.range 8).map (fun i => (turn + i) % 8)
    match order.find? (fun c => !(s.core (b.val * 8 + c)).dmaQ.isEmpty && !(s.bench b).dmaActive.any (·.1 == c)) with
    | none => .next s
    | some n =>
      let c : Fin 8 := Fin.ofNat 8 n
      match (s.core (coreNo b c)).dmaQ with
      | [] => .next s
      | d :: _ =>
        let s := (s.modBench b (fun x => { x with dmaTurn := (n + 1) % 8 })).modCore (coreNo b c)
          (fun x => { x with dmaQ := x.dmaQ.drop 1 })
        let code := s.dmaCode b c d
        if code ≠ 0 then .next (s.dmaDone b c d code)
        else
          let r := s.reach (benchRank b c)
          let s := r.2.modBench b (fun x => { x with dmaActive := sset (⟨[]⟩, {}) x.dmaActive c (d, r.1) })
          let s := if dOp d = 0 ∨ dOp d = 4 then s.memDemand (dDst d) (dLen d) else s
          .next (if dOp d = 1 ∨ dOp d = 3 ∨ dOp d = 5 then s.memDemand (dSrc d) (dLen d) else s)

/-- Byte offset of the first source word that cannot be read, if any. -/
def State.dmaSrcBad (s : State) (b : Fin 100) (c : Fin 8) (sp : DmaSpace) (a n : Nat) : Option Nat :=
  let first := fun (xs : List Nat) => xs.foldl (fun (o : Option Nat) x =>
    let y := (max x a - a) / 8 * 8
    some (match o with | some z => min z y | none => y)) none
  match sp with
  | .store k => first ((s.badIn 0 (b.val * 8 + k) a n false).map (·.addr))
  | .istore => none
  | .crucible => first ((s.badCr b c a n false).map (·.1))
  | .pool => first ((s.ueLines a n).map (· * 64))

/-- Byte offset of the first uncorrectable destination line that the transfer covers only in part. -/
def State.dmaDstBad (s : State) (sp : DmaSpace) (a n : Nat) : Option Nat :=
  match sp with
  | .pool => ((s.ueLines a n).filter (fun l => !covers a n l)).foldl (fun (o : Option Nat) l =>
      let y := max (64 * l) a - a
      some (match o with | some z => min z y | none => y)) none
  | _ => none

/-- Source bytes. -/
def State.dmaRead (s : State) (b : Fin 100) (c : Fin 8) (sp : DmaSpace) (a n : Nat) : List Byte :=
  match sp with
  | .store k => mread s.ls ((b.val * 8 + k) * 262144 + a) n
  | .istore => []
  | .crucible => s.spaceBytes b c 1 a n
  | .pool => s.memRead a n

/-- Write the destination; whole words lose their errors (R196). -/
def State.dmaWrite (s : State) (b : Fin 100) (c : Fin 8) (sp : DmaSpace) (a : Nat) (bs : List Byte) : State :=
  match sp with
  | .store k =>
    { s with
      ls := mwrite s.ls ((b.val * 8 + k) * 262144 + a) bs,
      badWords := s.badWords.filter (fun w =>
        !(w.space == 0 && w.owner == b.val * 8 + k && overlaps a bs.length w.addr 8)) }
  | .istore => (s.writeStore b c 3 a (bs.map some)).2
  | .crucible => (s.writeStore b c 1 a (bs.map some)).2
  | .pool => (s.memWrite a bs).memBytes a bs.length true

/-- Count the source words' corrected errors, and its bytes at the pool. -/
def State.dmaCount (s : State) (b : Fin 100) (c : Fin 8) (sp : DmaSpace) (a n : Nat) : State :=
  match sp with
  | .store k =>
    let ces := s.badIn 0 (b.val * 8 + k) a n true
    { s.bumpBy (Reg.lsCe b) ces.length with badWords := s.badWords.filter (fun w => !ces.contains w) }
  | .crucible => (s.bumpBy (Reg.crCe b) (s.badCr b c a n true).length).clearBad b c 1 a n (fun _ ce => ce)
  | .pool => s.memBytes a n false
  | .istore => s

/-- The DMA engine meets an uncorrectable word of the bound parison: a CRUCIBLE fault of its instance (R196, R406). -/
def State.crucibleUe (s : State) (b : Fin 100) (c : Fin 8) : State :=
  match s.boundOf b c with
  | some (i, _, tw) => (s.storeUe b 1 (some i.key) (i.masked tw)).benchFault i.key tw
  | none => s.storeUe b 1

/-- Move the bytes of a descriptor up to the first that cannot be moved, and end it. -/
def State.dmaMove (s : State) (b : Fin 100) (c : Fin 8) (d : DmaDesc) (x y : DmaSpace) : State :=
  let n := dLen d
  let stop := match s.dmaSrcBad b c x (dSrc d) n, s.dmaDstBad y (dDst d) n with
    | some i, some j => some (min i j)
    | some i, none => some i
    | none, o => o
  let k := stop.getD n
  let srcUe := (s.dmaSrcBad b c x (dSrc d) n).any (fun i => i == k)
  -- the errors of the pool's lines are met up to the word that stops the transfer (R313, R314)
  let m := if stop.isSome then k + 8 else k
  let s := match x, y with
    | .pool, _ => s.meet (dSrc d) m true 0x0E (s.coreCtx b)
    | _, .pool => s.meet (dDst d) m false 0x0E (s.coreCtx b)
    | _, _ => s
  let s := if stop.isSome && (if srcUe then decide (x = .pool) else true) then s.bump Reg.ueAnswers else s
  let bs := s.dmaRead b c x (dSrc d) k
  let s := s.dmaCount b c x (dSrc d) k
  let s := if k = 0 then s else s.dmaWrite b c y (dDst d) bs
  let s := s.countEv (128 + b.val) 0x46 k
  let s := if srcUe then (match x with | .store _ => s.storeUe b 0 | .crucible => s.crucibleUe b c | _ => s) else s
  s.dmaDone b c d (if stop.isSome then Code.internal else Code.ok)

/-- DMA_COMPLETE (R201): the bytes are in place, then DMA_STATUS and the tally. A transfer from or to
the pool waits for the accesses that reached its lines before it (R305), and for its controllers. -/
def execDmaComplete (b : Fin 100) (c : Fin 8) (s : State) : Host.Outcome State Fault Refusal :=
  if !s.powered || (s.bench b).st ≠ .awake then .next s
  else match (s.bench b).dmaActive.find? (·.1 == c.val) with
    | none => .next s
    | some (_, d, q) => match dSpaces d c with
      | none => .next (s.dmaDone b c d Code.lenErr)
      | some (x, y) =>
        match if x = .pool then some (dSrc d) else if y = .pool then some (dDst d) else none with
        | some a =>
          if s.poolAhead a (dLen d) q then .next s
          else if !s.memAwake a (dLen d) then .next (s.memDemand a (dLen d))
          else .next (((s.cacheNow a (dLen d)).memDone a (dLen d)).dmaMove b c d x y)
        | none => .next (s.dmaMove b c d x y)

/-- End every descriptor of a bench with a code: those in progress and those queued (R286, R416). -/
def State.dmaEnd (s : State) (b : Fin 100) (code : Nat) : State :=
  (List.finRange 8).foldl (fun s c =>
    let act := (s.bench b).dmaActive.filter (·.1 == c.val)
    let ds := act.map (·.2.1) ++ (s.core (coreNo b c)).dmaQ
    let s := s.modCore (coreNo b c) (fun x => { x with dmaQ := [] })
    ds.foldl (fun s d => s.dmaDone b c d code) s) s

/-! ### Clearing (R268, R286, R419) -/

/-- Zero a core's local store. -/
def State.clearLs (s : State) (k : Nat) : State :=
  { s with
    ls := sdropRange s.ls (k * 262144) (k * 262144 + 262144),
    badWords := s.badWords.filter (fun w => !(w.space == 0 && w.owner == k)) }

/-- Clear a core's instruction store and load limit. -/
def State.clearIs (s : State) (k : Nat) : State :=
  { s with
    is := sdropRange s.is (k * 65536) (k * 65536 + 65536),
    badWords := s.badWords.filter (fun w => !(w.space == 3 && w.owner == k)) }.modCore k (fun x => { x with loadLimit := 0 })

/-- Empty a bench's item, send and receive queues: each packet's copy counts as read, and its credit is returned. -/
def State.emptyQueues (s : State) (b : Nat) : State :=
  let x := s.bench b
  let ps := x.recvQ ++ x.recvWait.flatten ++ x.vc5Wait ++ (x.msgs.filter (fun m => !m.entering)).flatMap (·.pkts)
  let s := s.modBench b (fun x => { x with
    items := [], itemWait := [], sendQ := [], recvQ := [], recvWait := [], vc5Wait := [], msgs := [], chans := [], owed := [],
    idleSince := s.now })
  let s := ps.foldl (fun s p => s.tookIn p) s
  x.owed.foldl (fun s e => s.takeCredit (some (e.1 / 8)) (e.1 % 8) e.2) s

/-- CREATE clears a bench: local stores, tallies and queues (R268); the bench is woken for it. -/
def State.clearBench (s : State) (b : Nat) : State :=
  let dirty := !(s.bench b).tallies.isEmpty || !(s.bench b).items.isEmpty || !(s.bench b).sendQ.isEmpty ||
    !(s.bench b).recvQ.isEmpty || s.ls.any (fun e => decide (b * 8 * 262144 ≤ e.1 ∧ e.1 < (b + 1) * 8 * 262144))
  let s := if dirty then s.wakeBench b else s
  let s := (List.range 8).foldl (fun s c => s.clearLs (b * 8 + c)) s
  (s.emptyQueues b).modBench b (fun x => { x with tallies := [] })

/-! ### The warden bench (R191, R193, R407, R470) -/

/-- The warden bundle of the running image, which the steward holds: the component of TYPE 2 (R464, R473). -/
def State.wardenBundle (s : State) : List Byte :=
  match (List.range 4).find? (fun i => u8 s.boot.header (160 + 16 * i) == 2) with
  | some i => slice s.boot.body (u32 s.boot.header (160 + 16 * i + 4)) (u32 s.boot.header (160 + 16 * i + 8))
  | none => []

/-- Write the bundle into bench 99's instruction stores and start its cores. The spec names neither the
program's entry nor its layout in the bundle: the entry is free (log entry 32). -/
def State.startWarden (s : State) : State :=
  let bs := s.wardenBundle
  let (e, s) := s.free
  -- woken first (R470 step 9): a wake takes at most 2 µs of the step
  let s := (s.wakeBench 99).modBench 99 (fun x => { x with tallies := [], st := .awake, wokeAt := if x.st = .awake then x.wokeAt else s.now, idleSince := s.now, progressAt := s.now })
  (List.range 8).foldl (fun s c =>
    let k := 99 * 8 + c
    let s := (s.clearLs k).clearIs k
    { s with is := mwrite s.is (k * 65536) (bs.take 65536) }.modCore k (fun x =>
      clearExc (startCore (fld e 0 13) [] none none { x with loadLimit := cdiv (min bs.length 65536) 8 }))) s

/-- WARDEN_RESTART (R193, R407): the steward restarts the program, or holds bench 99 after 8 restarts
within 600 s. -/
def execWardenRestart (s : State) : Host.Outcome State Fault Refusal :=
  if !s.powered || !s.fault.wardenOwed || s.fault.wardenHeld || !s.fault.stewardUp || s.fault.reset.isSome then .next s
  else
    let recent := s.fault.wardenRestarts.filter (fun t => decide (s.now ≤ t + 600 * sec))
    if 8 ≤ recent.length then
      let s := { s with fault := { s.fault with wardenHeld := true, wardenOwed := false } }
      let s := (List.range 8).foldl (fun s c => s.modCore (99 * 8 + c) (fun x =>
        haltCore (if x.run = .stopped then .stopped else .halted) x)) s
      .next (s.logFault { cls := 0x21, sev := 2, act := 3, block := 5, index := 99 })
    else
      let s := { s with fault := { s.fault with wardenOwed := false, wardenRestarts := recent ++ [s.now] } }
      .next ((s.bump Reg.wardenRestarts).startWarden)

/-! ### Sleep and wake (R208-R211) -/

def State.holdAwake (s : State) (b : Nat) : Bool := bit (s.reg (Reg.benchCtrl b)) 0

/-- The bench may sleep (R208). -/
def State.benchIdle (s : State) (b : Nat) : Bool :=
  let x := s.bench b
  (List.range 8).all (fun c => let k := s.core (b * 8 + c)
    decide (k.run = .halted ∨ k.run = .stopped) && k.dmaQ.isEmpty) &&
  x.adderQ.isEmpty && x.dmaActive.isEmpty && x.items.isEmpty && !s.holdAwake b &&
  decide (x.idleSince + s.regN (Reg.sleepIdle b) * us ≤ s.now)

/-- The registers of a bench's cores are not retained: they hold free values (R208, log entry 1). -/
def State.loseRegs (s : State) (b : Nat) : State :=
  let n := s.freeCtr
  let s := { s with freeCtr := n + 8 * 512 }
  (List.range 8).foldl (fun s c =>
    let at_ := fun (i : Nat) => Config.freeWord (n + 512 * c + i)
    s.modCore (b * 8 + c) (fun x => { x with
      sreg := (List.range 31).foldl (fun m i => sset 0 m (i + 1) (at_ i)) [],
      preg := (List.range 7).foldl (fun m i => sset 0 m (i + 1) (at_ (31 + i))) [],
      vreg := (List.range 32).foldl (fun m i => sset 0 m i
        (BitVec.ofNat 512 (pack ((List.range 8).map (fun j => (64 * j, (at_ (64 + 8 * i + j)).toNat)))))) [] })) s

/-- BENCH_SLEEP (R208, R209). -/
def execBenchSleep (b : Fin 100) (demand : Bool) (s : State) : Host.Outcome State Fault Refusal :=
  if !s.powered || (s.bench b).st ≠ .awake || !s.benchIdle b then .next s
  else if demand then .next ((s.bump (Reg.wakeRace b)).modBench b (fun x => { x with idleSince := s.now }))
  else .next ((s.modBench b (fun x => { x with st := .asleep })).loseRegs b)

/-- BENCH_WAKE_COMPLETE (R208, R210): more than 4 within 20 µs begin at 0.8 GHz. -/
def execBenchWakeComplete (b : Fin 100) (s : State) : Host.Outcome State Fault Refusal :=
  if !s.powered || (s.bench b).st ≠ .waking then .next s
  else
    let s := s.modBench b (fun x => { x with st := .awake, wokeAt := s.now, idleSince := s.now, progressAt := s.now })
    let near := (List.range 100).filter (fun i => (s.bench i).st = .awake && decide (s.now ≤ (s.bench i).wokeAt + 20 * us))
    .next (if 4 < near.length then near.foldl (fun s i => s.modBench i (fun x => { x with halfRate := true })) s else s)

/-- CLOCK_RAMP_COMPLETE (R210, R31): 20 µs after a bench woke. -/
def execClockRampComplete (b : Fin 100) (s : State) : Host.Outcome State Fault Refusal :=
  if s.powered && (s.bench b).halfRate && decide ((s.bench b).wokeAt + 20 * us ≤ s.now) then
    .next (s.modBench b (fun x => { x with halfRate := false }))
  else .next s

/-- A write to BENCH_CTRL (R211); the blocks of unmapped benches ignore it. -/
def wrBenchCtrl (b : Nat) : WriteFn := fun s v =>
  if 100 ≤ b then none
  else
    let was := s.holdAwake b
    let s := s.setReg (Reg.benchCtrl b) v
    some (if bit v 0 && !s.fault.oos then s.wakeBench b
      else if was && !bit v 0 then s.modBench b (fun x => { x with idleSince := s.now })
      else s)

/-- HOLD_AWAKE_WRITE (R211). -/
def execHoldAwakeWrite (r : Requester) (b : Fin 104) (v : W32) (s : State) : Host.Outcome State Fault Refusal :=
  writeCmd s r (Reg.benchCtrl b) (w64 v.toNat) (wrBenchCtrl b)

end Sys2Proof.Machine
end

