-- ==== Sys2Proof/Machine/Context.lean ====
section
/-! DEFINITION. Contexts: staging, CREATE, TEARDOWN and generations (R265-R269, R286-R289). -/

namespace Sys2Proof.Machine

/-! ### Generations (R269) -/

/-- The context's generation increments, and its state becomes `st`, or RESTING while the value entered
was left less than 2 s ago. -/
def State.nextGen (s : State) (id : Nat) (st : CtxState) : State :=
  s.modCtx id (fun x =>
    let g := (x.gen + 1).toNat
    let left := x.left.filter (fun e => e.1 != x.gen.toNat)
    let rest := x.left.find? (fun e => e.1 == g)
    let x := { x with gen := x.gen + 1, left := left ++ [(x.gen.toNat, s.now)] }
    match rest with
    | some (_, t) => if s.now < t + 2 * sec then { x with st := .resting, restUntil := t + 2 * sec } else { x with st := st }
    | none => { x with st := st })

/-- RESTING_EXPIRY (R269). -/
def execRestingExpiry (id : Fin 256) (s : State) : Host.Outcome State Fault Refusal :=
  let x := s.ctx id
  if x.st = .resting && decide (x.restUntil ≤ s.now) then .next (s.modCtx id (fun x => { x with st := .free })) else .next s

/-! ### Staging (R266, R288, R289) -/

/-- Staging word `k`. -/
def State.stage (s : State) (k : Nat) : W64 := s.reg (Reg.ctxStage + 4 * k)

/-- A write to a staging word: kept whole for the check of reserved bits; a reserved bit set is counted
(R10, R289, R292). -/
def wrStage (r : Requester) (off : Nat) : WriteFn := fun s v =>
  let s := s.setReg off v
  some (if v.toNat &&& stagedRes off ≠ 0 then s.ignored r off false else s)

/-- The record that the staging registers describe (R266). -/
def State.staged (s : State) : Ctx :=
  let w := fun (k : Nat) => s.stage k
  { perms := BitVec.ofNat 4 (fld (w 0) 16 4), part := byte (w 1).toNat,
    benchSet := BitVec.ofNat 128 (pack [(0, (w 2).toNat), (32, (w 3).toNat), (64, (w 4).toNat), (96, (w 5).toNat)]),
    crucibleQuota := (w 6).toNat, loamQuota := fld (w 7) 0 20, subsoilQuota := fld (w 8) 0 20,
    ltFirst := fld (w 9) 0 16, ltCount := fld (w 9) 16 16 + 1,
    collBase := (w 10).toNat + fld (w 11) 0 16 * 2 ^ 32,
    jobSeed := w64 ((w 12).toNat + (w 13).toNat * 2 ^ 32),
    doneAddr := (w 14).toNat + fld (w 15) 0 16 * 2 ^ 32 }

/-- The code of CREATE on `id` (R267). -/
def State.createCode (s : State) (id : Nat) : Nat :=
  let x := s.ctx id
  let n := s.staged
  let others := s.liveCtxs
  let set := n.benchSet.toNat
  if x.st = .closing then Code.closed
  else if x.st = .opened || decide (2 ^ 99 ≤ set) || others.any (fun c => decide (set &&& (s.ctx c).benchSet.toNat ≠ 0)) ||
      others.any (fun c => overlaps n.ltFirst n.ltCount (s.ctx c).ltFirst (s.ctx c).ltCount) then Code.perm
  else if (List.range 16).any (fun k => decide ((s.stage k).toNat &&& stagedRes (Reg.ctxStage + 4 * k) ≠ 0)) || set = 0 ||
      decide (s.ltSize < n.ltFirst + n.ltCount) then Code.lenErr
  else if n.collBase % 4096 ≠ 0 || !inTier false n.collBase 0x50000 ||
      others.any (fun c => let a := s.collArea c; overlaps n.collBase 0x50000 a.1 a.2) ||
      (s.collEn && (let a := s.spillArea; overlaps n.collBase 0x50000 a.1 a.2)) ||
      (s.seqEn && (let a := s.ltArea; overlaps n.collBase 0x50000 a.1 a.2)) || n.doneAddr % 8 ≠ 0 then Code.addr
  else if x.st = .resting then Code.capacity
  else Code.ok

/-- CTX_RESULT's code, ID and generation afterwards (R288). -/
def State.ctxReport (s : State) (id code : Nat) : State :=
  { s with ctxResult := w32 (pack [(0, code), (16, id), (24, (s.ctx id).gen.toNat)]) }

/-- The context's replay block returns to its reset values (R340). -/
def State.resetRplBlock (s : State) (id : Nat) : State :=
  [Reg.rplCtrl id, Reg.logBase id, Reg.logSize id, Reg.liveDrop id].foldl (fun s o => s.setReg o (regReset o))
    (s.modRpl id (fun _ => {}))

/-- CREATE (R267, R268): the record is read, the ID becomes OPEN and its benches are cleared. -/
def State.createCtx (s : State) (id : Nat) : State :=
  let code := s.createCode id
  if code ≠ 0 then s.ctxReport id code
  else
    let n := s.staged
    let old := s.ctx id
    let s := s.modCtx id (fun _ => { n with st := .opened, gen := old.gen, left := old.left })
    let s := (bitsOf 99 n.benchSet.toNat).foldl State.clearBench (s.resetRplBlock id)
    { s with ctxCmd := some { id := id } }

/-! ### Teardown (R286, R287) -/

/-- Steps 1 and 2 of R286: CLOSING, its launches end with CLOSED, its instances are freed with one
STATUS, and its unsent packets are discarded. -/
def State.beginTeardown (s : State) (id : Nat) : State :=
  let s := s.modCtx id (fun x => { x with st := .closing, heldTeardown := false })
  let live := s.coll.insts.filter (fun i => i.ctx == id && i.live)
  let s := live.foldl (fun s i => ((s.freeHeld i).statusAll i (auxFor Code.closed none false)).dropInst i.key) s
  let s := s.modColl (fun c => { c with insts := c.insts.filter (fun i => i.ctx != id) })
  let s := s.rplStopped id Code.closed
  let s := (s.launch.runs.filter (fun r => r.ctx == id)).foldl (fun s r => s.stopRun r.num Code.closed) s
  (bitsOf 99 (s.ctx id).benchSet.toNat).foldl (fun s b =>
    (s.bumpBy Reg.sendqDrop (s.bench b).sendQ.length).modBench b (fun x => { x with sendQ := [] })) s

/-- Answer the outstanding pool operations of a context and end its cores' and DMA engines' accesses
(R286 step 3, R416 step 3). -/
def State.endAccesses (s : State) (id code : Nat) : State :=
  let mine := s.pool.inflight.filter (fun o => o.ctx == id)
  let s := s.modPool (fun p => { p with inflight := p.inflight.filter (fun o => o.ctx != id) })
  let s := mine.foldl (fun s o => s.answerPool o.h o.pop code 0 []) s
  (List.finRange 100).foldl (fun s b =>
    if b.val < 99 && (s.ctx id).benchSet.getLsbD b.val then
      (List.range 8).foldl (fun s c => s.modCore (b.val * 8 + c) (fun x => { x with outs := [] })) (s.dmaEnd b code)
    else s) s

/-- TEARDOWN of `id` (R286, R287). -/
def State.teardownCtx (s : State) (id : Nat) : State :=
  let x := s.ctx id
  if x.st ≠ .opened then s.ctxReport id (if x.st = .closing then Code.closed else Code.perm)
  else
    let s := { s with ctxCmd := some { id := id } }
    if x.fenced then s.modCtx id (fun x => { x with heldTeardown := true }) else s.beginTeardown id

/-- Steps 3 to 5 of R286. -/
def State.finishTeardown (s : State) (id : Nat) : State :=
  let s := s.endAccesses id Code.closed
  let s := s.modPool (fun p => { p with results := p.results.filter (fun e => e.ctx != id) })
  let s := (bitsOf 99 (s.ctx id).benchSet.toNat).foldl State.emptyQueues s
  let s := (s.recStop id 2).clearWindows id
  let s := s.nextGen id .free
  if s.ctxCmd.any (fun c => c.id == id) then ({ s with ctxCmd := none }).ctxReport id Code.ok else s

/-- A write to CTX_CMD (R288). -/
def wrCtxCmd : WriteFn := fun s v =>
  if s.ctxCmd.isSome then none
  else match fld v 8 2 with
    | 1 => some (s.createCtx (fld v 0 8))
    | 2 => some (s.teardownCtx (fld v 0 8))
    | _ => none

/-- CONTEXT_CREATE (R267). -/
def execContextCreate (r : Requester) (id : Fin 256) (s : State) : Host.Outcome State Fault Refusal :=
  writeCmd s r Reg.ctxCmd (w64 (id.val + 256)) wrCtxCmd

/-- CONTEXT_CREATE_COMPLETE (R268): the clearing is done and CTX_RESULT reports OK. -/
def execContextCreateComplete (s : State) : Host.Outcome State Fault Refusal :=
  if !s.powered then .next s else
  match s.ctxCmd with
  | none => .next s
  | some c =>
    if (s.ctx c.id).st = .opened && !(s.ctx c.id).heldTeardown then .next (({ s with ctxCmd := none }).ctxReport c.id Code.ok)
    else .next s

/-- TEARDOWN (R286). -/
def execTeardown (r : Requester) (id : Fin 256) (s : State) : Host.Outcome State Fault Refusal :=
  writeCmd s r Reg.ctxCmd (w64 (id.val + 512)) wrCtxCmd

/-- TEARDOWN_COMPLETE (R286): also within a reset, whose fence then has the context no more (R415). -/
def execTeardownComplete (id : Fin 256) (s : State) : Host.Outcome State Fault Refusal :=
  if !s.powered then .next s else
  if (s.ctx id).st = .closing then
    .next ((s.finishTeardown id).modCtx id (fun x => { x with fenced := false, heldTeardown := false }))
  else .next s

end Sys2Proof.Machine
end

