-- ==== Sys2Proof/Machine/Codec.lean ====
section
/-! DEFINITION. The line coding of one wavelength: RS(544,514), scrambler, stuffing, frames, PRBS and
PAM4 (R344-R350, R365, R372). A line or content bit string is a list, bit 0 first. -/

namespace Sys2Proof.Machine

/-! ### GF(2^10) with x^10 + x^3 + 1 (R345) -/

/-- Times α. -/
def gfX (a : Nat) : Nat := if 512 ≤ a then (2 * a) ^^^ 0x409 else 2 * a

/-- Product: `k` bits of `b`. -/
def gfMulN : Nat → Nat → Nat → Nat
  | 0, _, _ => 0
  | k + 1, a, b => (if b % 2 = 1 then a else 0) ^^^ gfMulN k (gfX a) (b / 2)

def gfMul (a b : Nat) : Nat := gfMulN 10 a b

/-- α^k. -/
def gfPow : Nat → Nat
  | 0 => 1
  | k + 1 => gfX (gfPow k)

/-- a^(2^1 + ... + 2^k), where `sq` is a. -/
def gfInvN : Nat → Nat → Nat
  | 0, _ => 1
  | k + 1, sq => let q := gfMul sq sq
    gfMul q (gfInvN k q)

/-- The inverse: a^1022. -/
def gfInv (a : Nat) : Nat := gfInvN 9 a

/-- Polynomials by rising degree. -/
def polyAdd : List Nat → List Nat → List Nat
  | [], q => q
  | p, [] => p
  | a :: p, b :: q => (a ^^^ b) :: polyAdd p q

def polyScale (c : Nat) (p : List Nat) : List Nat := p.map (gfMul c)
def polyShift (k : Nat) (p : List Nat) : List Nat := List.replicate k 0 ++ p

/-- Value at x. -/
def polyEval (p : List Nat) (x : Nat) : Nat := p.foldr (fun c a => c ^^^ gfMul x a) 0

/-- The generator polynomial, roots α^0 to α^29, by rising degree. -/
def rsGen : List Nat :=
  (List.range 30).foldl (fun g i => polyAdd (polyShift 1 g) (polyScale (gfPow i) g)) [1]

/-- One division step of the systematic encoder; the register holds the highest degree first. -/
def rsStep (g : List Nat) (r : List Nat) (x : Nat) : List Nat :=
  let fb := x ^^^ r.headD 0
  List.zipWith (fun a c => a ^^^ gfMul fb c) (r.drop 1 ++ [0]) g

/-- A codeword: 514 message symbols, then 30 parity symbols. The first symbol is the coefficient of the
highest degree. -/
def rsEncode (m : List Nat) : List Nat := m ++ m.foldl (rsStep (rsGen.take 30).reverse) (List.replicate 30 0)

/-- The 30 syndromes of a codeword. -/
def rsSyndromes (c : List Nat) : List Nat :=
  (List.range 30).map (fun i => let a := gfPow i
    c.foldl (fun v x => gfMul v a ^^^ x) 0)

/-- The state of the search for an error locator. -/
structure Bm where
  c : List Nat := [1]
  b : List Nat := [1]
  l : Nat := 0
  m : Nat := 1
  d : Nat := 1

/-- One step of Berlekamp and Massey's search at syndrome `n`. -/
def bmStep (s : List Nat) (x : Bm) (n : Nat) : Bm :=
  let d := (List.range (x.l + 1)).foldl (fun a i => if i ≤ n then a ^^^ gfMul (x.c.getD i 0) (s.getD (n - i) 0) else a) 0
  if d = 0 then { x with m := x.m + 1 }
  else
    let c := polyAdd x.c (polyShift x.m (polyScale (gfMul d (gfInv x.d)) x.b))
    if 2 * x.l ≤ n then { c := c, b := x.c, l := n + 1 - x.l, m := 1, d := d }
    else { x with c := c, m := x.m + 1 }

/-- Correct a codeword of at most 15 symbol errors: the codeword and how many symbols were corrected;
none when it is uncorrectable (R345). -/
def rsDecode (c : List Nat) : Option (List Nat × Nat) :=
  let s := rsSyndromes c
  if s.all (· == 0) then some (c, 0)
  else
    let x := (List.range 30).foldl (bmStep s) {}
    let om := (((List.range 30).map (fun k =>
      (List.range (k + 1)).foldl (fun a i => a ^^^ gfMul (x.c.getD i 0) (s.getD (k - i) 0)) 0))).take x.l
    let der := (x.c.zipIdx.filter (fun p => p.2 % 2 == 1)).map (fun p => (p.1, p.2 - 1))
    let n := c.length
    let fixed := c.zipIdx.map (fun p =>
      let deg := n - 1 - p.2
      let xi := gfPow ((1023 - deg) % 1023)
      if polyEval x.c xi = 0 then
        let dv := der.foldl (fun a t => a ^^^ gfMul t.1 (t.2.repeat (gfMul xi) 1)) 0
        p.1 ^^^ gfMul (gfPow deg) (gfMul (polyEval om xi) (gfInv dv))
      else p.1)
    let k := ((List.zipWith (fun a b => a != b) c fixed).filter id).length
    if x.l ≤ 15 ∧ k = x.l ∧ (rsSyndromes fixed).all (· == 0) then some (fixed, k) else none

/-! ### Bits, symbols, bytes -/

/-- The low `k` bits of a number, bit 0 first. -/
def bitsLe : Nat → Nat → List Bool
  | 0, _ => []
  | k + 1, n => (n % 2 == 1) :: bitsLe k (n / 2)

/-- The number that bits spell, bit 0 first. -/
def bitsVal : List Bool → Nat
  | [] => 0
  | b :: bs => b2n b + 2 * bitsVal bs

/-- 10-bit symbols, each sent bit 0 first. -/
def symsOf (bs : List Bool) : List Nat := (chunksOf 10 bs.length bs).map bitsVal
def bitsOfSyms (ss : List Nat) : List Bool := ss.flatMap (bitsLe 10)
def bytesOfBits (bs : List Bool) : List Byte := (chunksOf 8 bs.length bs).map (fun x => byte (bitsVal x))
def bitsOfBytes (bs : List Byte) : List Bool := bs.flatMap (fun b => bitsLe 8 b.toNat)

/-! ### Scrambler (R346): bit i of the state is the output bit i + 1 earlier -/

def pushBit {n : Nat} (st : BitVec n) (b : Bool) : BitVec n := BitVec.ofNat n (st.toNat * 2 + b2n b)

def scramble : BitVec 58 → List Bool → List Bool × BitVec 58
  | st, [] => ([], st)
  | st, b :: bs =>
    let o := xor (xor b (st.getLsbD 38)) (st.getLsbD 57)
    let r := scramble (pushBit st o) bs
    (o :: r.1, r.2)

/-- The receiver: its state holds the received bits. -/
def descramble : BitVec 58 → List Bool → List Bool × BitVec 58
  | st, [] => ([], st)
  | st, b :: bs =>
    let r := descramble (pushBit st b) bs
    (xor (xor b (st.getLsbD 38)) (st.getLsbD 57) :: r.1, r.2)

/-! ### Stuffing (R347) -/

/-- The body with stuff bits, and how many. `run` identical bits of value `last` precede. -/
def stuff : Bool → Nat → List Bool → List Bool × Nat
  | _, _, [] => ([], 0)
  | last, run, b :: bs =>
    let run' := if run ≠ 0 && b == last then run + 1 else 1
    if run' = 23 then
      let r := stuff (!b) 1 bs
      (b :: (!b) :: r.1, r.2 + 1)
    else
      let r := stuff b run' bs
      (b :: r.1, r.2)

/-- Undo stuffing over `need` content bits: content, stuff bits, the bits after the body and the last
body bit; none when a stuff bit fails or bits run out. -/
def destuff : List Bool → Bool → Nat → Nat → Option (List Bool × Nat × List Bool × Bool)
  | [], last, run, need => if need = 0 ∧ run ≠ 23 then some ([], 0, [], last) else none
  | b :: bs, last, run, need =>
    if run = 23 then
      if b == last then none
      else (destuff bs b 1 need).map (fun r => (r.1, r.2.1 + 1, r.2.2))
    else if need = 0 then some ([], 0, b :: bs, last)
    else (destuff bs b (if run ≠ 0 && b == last then run + 1 else 1) (need - 1)).map (fun r => (b :: r.1, r.2))

/-- `k` alternating bits that start with the complement of `last`. -/
def alternating : Nat → Bool → List Bool
  | 0, _ => []
  | k + 1, last => (!last) :: alternating k (!last)

/-! ### Frames (R344, R350, R351) -/

def dataComma : List Bool := List.replicate 32 true ++ List.replicate 32 false
def idleComma : List Bool := List.replicate 32 false ++ List.replicate 32 true

/-- Six codewords of 5,140 message bits. -/
def encodeWave (msg : List Bool) : List Bool :=
  (chunksOf 5140 6 msg).flatMap (fun m => bitsOfSyms (rsEncode (symsOf m)))

/-- A data frame over scrambled content; none when it would need more than 64 stuff bits. -/
def dataFrame (content : List Bool) : Option (List Bool) :=
  let r := stuff false 0 content
  if 64 < r.2 then none
  else some (dataComma ++ r.1 ++ alternating (64 - r.2) (r.1.getLast?.getD false))

/-- An idle frame carrying a scrambler seed: seed bit k is line bit 32,652 + 2k, then its complement. -/
def idleFrame (seed : List Bool) : List Bool :=
  idleComma ++ alternating (32652 - 64) true ++ seed.flatMap (fun b => [b, !b])

/-- The scrambler state that a seed loads: seed bits enter as if they had just been sent. -/
def seedState (seed : List Bool) : BitVec 58 := seed.foldl pushBit 0

/-- The seed in a received idle frame. -/
def seedOf (bits : List Bool) : List Bool :=
  (List.range 58).map (fun k => bits.getD (32652 + 2 * k) false)

/-- The content bits of a received data frame; none: it has slipped (R349). -/
def frameContent (bits : List Bool) : Option (List Bool) :=
  match destuff (bits.drop 64) false 0 32640 with
  | some (c, s, rest, last) =>
    if s ≤ 64 ∧ rest = alternating (64 - s) last then some c else none
  | none => none

/-- What a frame's six codewords hold: message bits and whether each is bad; symbols corrected and
codewords lost. -/
structure WaveContent where
  words : List (List Bool × Bool)
  corrected : Nat
  lost : Nat

def decodeWave (content : List Bool) : WaveContent :=
  let ws := (chunksOf 5440 6 content).map (fun c => match rsDecode (symsOf c) with
    | some (d, k) => ((bitsOfSyms (d.take 514), false), k)
    | none => ((c.take 5140, true), 0))
  { words := ws.map (·.1), corrected := ws.foldl (fun a w => a + w.2) 0, lost := (ws.filter (·.1.2)).length }

/-- Six lost codewords. -/
def lostWave : List (List Bool × Bool) := List.replicate 6 (List.replicate 5140 false, true)

/-- Lane content of a lane frame with a bad mark per byte: codewords 0 to 11 alternate between the
wavelengths; a Fadami frame has wavelength 1 only (R351, R365). -/
def laneContent (w1 : List (List Bool × Bool)) (w2 : Option (List (List Bool × Bool))) : List (Byte × Bool) :=
  let cs := match w2 with
    | some w => (List.zipWith (fun a b => [a, b]) w1 w).flatten
    | none => w1
  let bits := cs.flatMap (fun c => c.1.map (fun b => (b, c.2)))
  (chunksOf 8 bits.length bits).map (fun x => (byte (bitsVal (x.map (·.1))), x.any (·.2)))

/-- The message bits of each wavelength of a native lane frame. -/
def splitContent (content : List Byte) : List Bool × List Bool :=
  let cs := chunksOf 5140 12 (bitsOfBytes content)
  ((cs.zipIdx.filter (fun p => p.2 % 2 == 0)).flatMap (·.1), (cs.zipIdx.filter (fun p => p.2 % 2 == 1)).flatMap (·.1))

/-! ### PRBS (R350, R372) -/

/-- The next bit of PRBS-31, and of PRBS-13 in the low 13 bits. -/
def prbsBit (p13 : Bool) (st : BitVec 31) : Bool :=
  if p13 then xor (xor (st.getLsbD 12) (st.getLsbD 11)) (xor (st.getLsbD 1) (st.getLsbD 0))
  else xor (st.getLsbD 30) (st.getLsbD 27)

/-- `k` generated bits. -/
def prbsRun (p13 : Bool) : Nat → BitVec 31 → List Bool × BitVec 31
  | 0, st => ([], st)
  | k + 1, st =>
    let b := prbsBit p13 st
    let r := prbsRun p13 k (pushBit st b)
    (b :: r.1, r.2)

/-! ### PAM4 (R365): a level is sent as two bits here, the high bit first -/

def gray (hi lo : Bool) : Nat := if hi then (if lo then 2 else 3) else b2n lo
def ungray (x : Nat) : List Bool := [decide (2 ≤ x), decide (x = 1 ∨ x = 2)]

/-- Line bits as precoded levels. -/
def pam4 : BitVec 2 → List Bool → List Bool × BitVec 2
  | y, hi :: lo :: bs =>
    let z : BitVec 2 := BitVec.ofNat 2 (gray hi lo) - y
    let r := pam4 z bs
    (z.getLsbD 1 :: z.getLsbD 0 :: r.1, r.2)
  | y, _ => ([], y)

/-- Levels as line bits. -/
def unpam4 : BitVec 2 → List Bool → List Bool × BitVec 2
  | y, hi :: lo :: bs =>
    let z : BitVec 2 := BitVec.ofNat 2 (2 * b2n hi + b2n lo)
    let r := unpam4 z bs
    (ungray (z + y).toNat ++ r.1, r.2)
  | y, _ => ([], y)

end Sys2Proof.Machine
end

