-- ==== Sys2Proof/Machine/Time.lean ====
section
/-! DEFINITION. Fabric time and always-on time (R279-R284, R410): the tick, time transfer, and the
commands of this family. -/

namespace Sys2Proof.Machine

def State.modClk (s : State) (f : Clock → Clock) : State := { s with clk := f s.clk }

/-! ### The tick (R269, R279, R282) -/

/-- 200 ppm of 1 ns, in 1/65,536 ns. -/
def slewMax : Int := 13

/-- 1 ns passes: always-on time, and fabric time with what is left to slew. -/
def Clock.tick (c : Clock) : Clock :=
  let d := clampInt (-slewMax) slewMax c.slew
  let t := (c.ftimeSub.toNat + (65536 + d).toNat)
  { c with
    aonNs := c.aonNs + 1,
    ftime := c.ftime + w64 (t / 65536), ftimeSub := BitVec.ofNat 16 t,
    ftimeB := c.ftimeB + w64 (t / 65536), slew := c.slew - d }

/-! ### Setting and locking (R279, R280, R283) -/

def State.isRoot (s : State) : Bool := bit (s.reg Reg.timeCtrl) 0
def State.isSource (s : State) : Bool := bit (s.reg Reg.timeCtrl) 1
/-- SRC_PORT. -/
def State.srcPort (s : State) : Nat := fld (s.reg Reg.timeCtrl) 2 10
/-- The request period in ns. -/
def State.timePeriod (s : State) : Nat := 2 ^ fld (s.reg Reg.timeCtrl) 12 4 * us

/-- LOCKED as TIME_STATUS shows it (R283). -/
def State.timeLocked (s : State) : Bool := if s.isRoot then s.clk.timeValid else s.clk.locked

/-- TIME_STATUS (R288). -/
def State.timeStatus (s : State) : W32 := w32 (pack [(0, b2n s.clk.timeValid), (1, b2n s.timeLocked)])

/-- Set fabric time to `t` ns. -/
def Clock.setTime (t : Nat) (c : Clock) : Clock :=
  { c with ftime := w64 t, ftimeB := w64 t, ftimeSub := 0, slew := 0 }

/-- Lock is lost (R283): counted when it was held. -/
def State.loseLock (s : State) : State :=
  let t := s.modClk (fun c => { c with locked := false, goodRun := 0 })
  if s.clk.locked then t.bump Reg.timeLoss else t

/-- A write to FTIME_SET (R279, R288). -/
def wrFtimeSet : WriteFn := fun s v =>
  if s.isRoot && !s.clk.timeValid then
    some (s.modClk (fun c => { (c.setTime v.toNat) with timeValid := true }))
  else none

/-- A write to TIME_CTRL (R280, R288). -/
def wrTimeCtrl : WriteFn := fun s v =>
  if bit v 0 && bit v 1 then none
  else if !s.lportExists (fld v 2 10) then none
  else
    let s := s.setReg Reg.timeCtrl v
    -- without SRC_EN time counts on without correction (R280)
    some (if bit v 1 then s else s.modClk (fun c => { c with slew := 0 }))

/-- FTIME_SET (R279). -/
def execFtimeSet (r : Requester) (v : W64) (s : State) : Host.Outcome State Fault Refusal :=
  writeCmd s r Reg.ftimeSet v wrFtimeSet

/-! ### Time transfer (R281-R283) -/

/-- The payload of a time packet. -/
def timePayload (ty seq t1 t2 t3 : Nat) (status : W32) : List Byte :=
  [byte ty, 0] ++ leBytes 2 seq ++ leBytes 4 0 ++ leBytes 8 t1 ++ leBytes 8 t2 ++ leBytes 8 t3 ++
  leBytes 8 status.toNat ++ leBytes 8 0

/-- The header of a time packet: the fields the spec does not give are free (log entry 1). -/
def State.timeHdr (s : State) (dest : W32) : HdrFields × State :=
  let (v, s) := s.free
  ({ dest := dest, src := s.ownUnit unitCtl, len := 48, vc := 0, part := fld v 0 8, chan := fld v 8 12,
     seq := fld v 20 16, hop := fld v 36 4 }, s)

/-- One more request in a row is unanswered: 4 lose lock (R283). -/
def State.timeUnanswered (s : State) : State :=
  let s := s.modClk (fun c => { c with lostRun := c.lostRun + 1 })
  if 4 ≤ s.clk.lostRun then s.loseLock else s

/-- The outstanding request is lost. -/
def State.timeLost (s : State) : State := (s.modClk (fun c => { c with reqOut := none })).timeUnanswered

/-- The outstanding request is superseded: unanswered at once when its 10 µs are over, else when they are (R283). -/
def State.timeSupersede (s : State) : State :=
  match s.clk.reqOut with
  | none => s
  | some (_, _, t) =>
    if t + 10 * us ≤ s.now then s.timeLost
    else s.modClk (fun c => { c with reqOut := none, reqOld := c.reqOld ++ [t] })

/-- TIME_REQUEST_SEND (R281): the period has passed and the source port is active. T1 is stamped again as the
packet's first byte leaves (`State.stampOut`). -/
def execTimeRequestSend (s : State) : Host.Outcome State Fault Refusal :=
  let due := decide (s.clk.lastReqAt = 0 ∨ s.clk.lastReqAt + s.timePeriod ≤ s.now)
  if !(s.powered && s.isSource && s.portActive s.srcPort && due) then .next s
  else
    let u := s.timeSupersede
    let (h, t) := u.timeHdr (w32 ((s.port s.srcPort).partnerCoord.toNat / 256 * 256))
    let seq := s.clk.seqnum
    let p := mkPacket h (timePayload 1 seq.toNat s.clk.ftime.toNat 0 0 0)
    match t.takeIn p [s.srcPort] false with
    | none => .next s
    | some t => .next (t.modClk (fun c => { c with
        seqnum := c.seqnum + 1, reqOut := some (seq, c.ftime, s.now), lastReqAt := s.now }))

/-- Take the head of the control unit's queue, returning its credit. -/
def State.popCtl (s : State) : State :=
  match s.sw.ctlIn with
  | [] => s
  | p :: ps => (s.modSw (fun w => { w with ctlIn := ps })).tookIn p

/-- The packet is a well-formed time packet of a type (R281). -/
def timePacket (ty : Nat) (p : Packet) : Bool := hLen p.h == 48 && u8 p.payload 0 == ty

/-- Discard a packet that is no time packet of R281. -/
def State.timeBad (s : State) : State := s.popCtl.bump Reg.timeBad

/-- TIME_REQUEST_ARRIVAL (R281): the head of the control queue is answered, or discarded when it is
neither a request nor a response. -/
def execTimeRequestArrival (s : State) : Host.Outcome State Fault Refusal :=
  if !s.powered then .next s
  else match s.sw.ctlIn with
    | [] => .next s
    | p :: _ =>
      if timePacket 1 p.pkt then
        let s := s.popCtl
        let (h, s) := s.timeHdr p.pkt.h.src
        let body := timePayload 2 (u16 p.pkt.payload 2) (u64 p.pkt.payload 8) p.arrivedAt.toNat s.clk.ftime.toNat
          s.timeStatus
        .next (s.send .answer (mkPacket h body))
      else if timePacket 2 p.pkt then .next s
      else .next s.timeBad

/-- Apply a measured offset in 1/16 ns (R282, R283). -/
def State.applyOffset (s : State) (off : Int) : State :=
  let s := s.modClk (fun c => { c with lostRun := 0, reqOut := none, reqOld := [], lastOffset := clampInt (-2147483647) 2147483647 off })
  let step := fun (s : State) =>
    let t := (s.clk.ftime.toNat : Int) * 65536 + s.clk.ftimeSub.toNat + off * 4096
    s.modClk (fun c =>
      { (c.setTime (t / 65536).toNat) with ftimeSub := BitVec.ofNat 16 (t % 65536).toNat })
  if !s.clk.timeValid then (step s).modClk (fun c => { c with timeValid := true, goodRun := if off.natAbs ≤ 32 then c.goodRun + 1 else 0 })
  else if 16000 < off.natAbs then
    if s.clk.locked then s.loseLock
    else
      let s := s.modClk (fun c => { c with goodRun := 0 })
      if 16000 < off then (step s).bump Reg.timeStep else s.modClk (fun c => { c with slew := off * 4096 })
  else
    let s := s.modClk (fun c => { c with
      slew := off * 4096, goodRun := if off.natAbs ≤ 32 then c.goodRun + 1 else 0 })
    if 8 ≤ s.clk.goodRun then s.modClk (fun c => { c with locked := true }) else s

/-- The offset a response gives, in 1/16 ns (R282). -/
def timeOffset (t1 t2 t3 t4 : Nat) (asym : Int) : Int :=
  (((t2 : Int) - t1) + ((t3 : Int) - t4)) * 8 + asym

/-- TIME_RESPONSE_ARRIVAL (R281-R283): the head of the control queue. A device that is no source applies no correction
(R280). -/
def execTimeResponseArrival (s : State) : Host.Outcome State Fault Refusal :=
  if !s.powered then .next s
  else match s.sw.ctlIn with
    | [] => .next s
    | p :: _ =>
      let b := p.pkt.payload
      if timePacket 1 p.pkt then .next s
      else if !timePacket 2 p.pkt then .next s.timeBad
      else match s.clk.reqOut with
        | none => .next s.timeBad
        | some (seq, t1, _) =>
          if u16 b 2 ≠ seq.toNat then .next s.timeBad
          else if !s.isSource then .next (s.popCtl.modClk (fun c => { c with reqOut := none }))
          else if !bit (w32 (u32 b 32)) 0 then .next s.popCtl.timeLost
          else
            let asym := sgn 16 (s.regN Reg.timeAsym)
            .next (s.popCtl.applyOffset (timeOffset t1.toNat (u64 b 16) (u64 b 24) p.arrivedAt.toNat asym))

/-- TIME_REQUEST_TIMEOUT (R283): 10 µs pass without a response to the oldest request. -/
def execTimeRequestTimeout (s : State) : Host.Outcome State Fault Refusal :=
  if !s.powered then .next s else
  match s.clk.reqOld, s.clk.reqOut with
  | t :: ts, _ =>
    if t + 10 * us ≤ s.now then .next (s.modClk (fun c => { c with reqOld := ts })).timeUnanswered else .next s
  | [], some (_, _, at_) => if at_ + 10 * us ≤ s.now then .next s.timeLost else .next s
  | [], none => .next s

/-- The source port leaves the active state (R283). -/
def State.srcPortDown (s : State) (lp : Nat) : State :=
  if s.isSource && decide (s.srcPort = lp) then s.loseLock else s

/-- FTIME_COMPARE (R410): the two fabric-time counters disagree. -/
def execFtimeCompare (s : State) : Host.Outcome State Fault Refusal :=
  if !s.powered || s.clk.ftime = s.clk.ftimeB || s.fault.deferred.contains (2, 0x13, 0) then .next s
  else .next ((s.logFault { cls := 0x13, sev := 2, act := 5 }).oweReset 2 0x13 0)

end Sys2Proof.Machine
end

