-- ==== Sys2Proof/Machine/Ports.lean ====
section
/-! DEFINITION. Logical ports: administration, training, retraining, retry and credit control items,
sleep and sparing (R343, R357-R381). -/

namespace Sys2Proof.Machine

/-! ### Lanes and positions (R343, R376, R377) -/

/-- The spare of a lane's port block's engine. -/
def spareOf (n : Nat) : Nat := 512 + n / 32

/-- A spare stands in for lane `n`. -/
def State.replaced (s : State) (n : Nat) : Bool := decide (n < 512) && decide ((s.lane (spareOf n)).serves = some n)

/-- The lane at a position whose own lane is `d`. -/
def State.actualLane (s : State) (d : Nat) : Nat := if s.replaced d then spareOf d else d

/-- The lanes that carry a logical port, by position. -/
def State.portLanes (s : State) (lp : Nat) : List Nat := (s.lanesOf lp).map s.actualLane

/-- The logical port and position a lane carries. -/
def State.laneOwner (s : State) (n : Nat) : Option (Nat × Nat) :=
  if n < 512 then (if s.replaced n then none else some (s.lportOfLane n))
  else (s.lane n).serves.map s.lportOfLane

/-- The port block a spare serves (R376), when it is enabled. -/
def State.spareTarget (s : State) (n : Nat) : Option Nat :=
  let v := s.reg (Reg.spareCfg n)
  if 512 ≤ n ∧ bit v 3 then some (8 * (n - 512) + fld v 0 3) else none

/-- The CRC-32C of a coordinate as the identity word holds it (R369). -/
def coordHash (c : W32) : W32 := crc32c (leBytes 4 (c.toNat / 256 * 256))

/-- Lane `n` reports the hash of the partner of port `lp` (R369, R376). -/
def State.hashOf (s : State) (n lp : Nat) : Bool :=
  decide (fld (s.lane n).partnerId 0 32 = (coordHash (s.port lp).partnerCoord).toNat)

/-- The spare of port `lp`'s block that is STANDBY and free, and ends at the port's partner. -/
def State.standbyFor (s : State) (lp : Nat) : Option Nat :=
  let n := 512 + lp / 32
  if s.spareTarget n = some (lp / 4) && (s.lane n).st = .standby && (s.lane n).serves.isNone && s.hashOf n lp then some n else none

/-! ### Configuration -/

def State.adminUp (s : State) (lp : Nat) : Bool := bit (s.reg (Reg.portCtrl (lp / 4) (lp % 4))) 0
def State.fadamiForce (s : State) (lp : Nat) : Bool := bit (s.reg (Reg.portCfg (lp / 4))) 4
def State.eqLock (s : State) (n : Nat) (w2 : Bool) : Bool := bit (s.reg (if w2 then Reg.txeqW2 n else Reg.txeqW1 n)) 9
def Lane.wave (l : Lane) (w2 : Bool) : Wave := if w2 then l.w2 else l.w1
def Lane.modWave (l : Lane) (w2 : Bool) (f : Wave → Wave) : Lane := if w2 then { l with w2 := f l.w2 } else { l with w1 := f l.w1 }

/-- Both ends run in independent-reference mode when either does (R364). -/
def State.runsIndep (s : State) (lp : Nat) : Bool := bit (s.reg (Reg.portCfg (lp / 4))) 2 || (s.port lp).partnerIndep

/-! ### Leaving a state (R75, R80, R367) -/

/-- Credits of what port `lp` sent before its link went down are not owed to a later link. -/
def State.forgetCredits (s : State) (lp : Nat) : State :=
  let f : List Inbound → List Inbound := fun l => l.map (fun i => if i.lp = some lp then { i with units := 0 } else i)
  let s := s.modSw (fun w => { w with
    stored := w.stored.map (fun x => if x.credit.map (·.1) = some lp then { x with credit := none } else x),
    ctlIn := f w.ctlIn,
    reasm := w.reasm.map (fun m => if m.lp = lp then { m with held := 0 } else m),
    reasmWait := w.reasmWait.map (fun c => if c.lp = lp then { c with term := false } else c),
    rxAcct := w.rxAcct.filter (fun e => e.1 / 16 != lp),
    txAcct := w.txAcct.filter (fun e => e.1 / 16 != lp) })
  let s := { s with pool := { s.pool with inq := f s.pool.inq }, coll := { s.coll with inq := f s.coll.inq } }
  (skeys s.benches).foldl (fun s b => s.modBench b (fun x => { x with
    owed := x.owed.filter (fun e => e.1 / 8 != lp), recvQ := f x.recvQ, recvWait := x.recvWait.map f, vc5Wait := f x.vc5Wait, msgs := x.msgs.map (fun m => { m with pkts := f m.pkts }) })) s

/-- The bytes after its header that the link layer holds of a port's next packet: parsed, or the part of it that came. -/
def Port.gotOf (p : Port) (h : Hdr) : List Byte :=
  match p.rxItems.find? (fun x => fld x.1 0 2 == kindPacket && decide (hdrOfBytes x.2 = h)) with
  | some (_, bs) => bs.drop 16
  | none => if hdrOfBytes (p.rxPart.drop 4) = h then p.rxPart.drop 20 else []

/-- A packet still arriving is dropped; one being cut through is completed, with what arrived of it, and stomped
(R75). -/
def State.endArrival (s : State) (lp : Nat) : State :=
  match s.arrivalOn lp with
  | none => s
  | some a =>
    let s := match s.ctOf a with
      | some x => s.ctCut lp a x ((s.port lp).gotOf a.h)
      | none => s
    s.dropArrival lp

/-- The link state of a port that has none. -/
def Port.unlinked (p : Port) : Port :=
  { p with
    retraining := false, peerUp := false, tx := .active, rx := .active, offHeld := false, ownSwitch := none, txLseq := 0, rxLseq := 0, ackOwed := false,
    nakOut := false, replay := [], replayRun := 0, txQ := [], txStream := [], txTags := [], txBlk := 0,
    txBlocks := [], holdFrom := none, rxNextBlk := 0, rxBlocks := [], rxPart := [], rxSync := true, rxItems := [],
    swap := none, txWakeAt := none }

/-- Set the lanes of a port. -/
def State.setLanes (s : State) (lp : Nat) (f : Lane → Lane) : State := (s.portLanes lp).foldl (fun s n => s.modLane n f) s

/-- A lane whose content starts anew: what one wavelength has brought of a frame before is not part of it. -/
def Lane.anew (l : Lane) : Lane :=
  { l with rxBytes := [], rxHalf := l.rxHalf.map (fun h => { h with words := none }), txBytes := [], idleRun := 0 }

/-- A lane switched off, its shutter closed. -/
def Lane.off (l : Lane) : Lane :=
  { l with
    st := .off, fadami := false, shutter := false, sameIds := 0, ready := false, rxBytes := [], rxHalf := none, txBytes := [],
    frames := [], ownSwitch := none, switchAt := none,
    w1 := { l.w1 with lock := false, commas := 0, tail := [], rxBits := 0, eqDone := false },
    w2 := { l.w2 with lock := false, commas := 0, tail := [], rxBits := 0, eqDone := false } }

/-- A lane that starts training: its shutter opens, it sends Fadami signalling, and no level came before its first
symbol (R365, R367). -/
def Lane.train (l : Lane) (now : Nat) : Lane :=
  { l.off with
    st := .training, shutter := true, fadami := true, miscabled := false, eqRequest := 0x08020802, eqAck := false,
    trainAt := now, w1 := { l.off.w1 with txY := 0, rxY := 0 } }

/-- Nothing leaves port `lp` any more: a packet being cut through to it has no egress left (R80), no message is
part-way out, its stopped queues are empty (log entry 55), and a message in cells has lost it as its egress (R99). -/
def State.closeEgress (s : State) (lp : Nat) : State :=
  s.modSw (fun w => { w with
    stored := w.stored.map (fun x => { x with headOut := x.headOut.filter (· != lp) }),
    cellOpen := w.cellOpen.filter (fun o => o.lp != lp),
    stopped := w.stopped.filter (fun k => k / 8 != lp),
    cellRoute := (w.cellRoute.filter (fun r => r.lp != lp)).map (fun r =>
      if r.egress.any (fun e => e.1.contains lp) then { r with gone := insertNat lp r.gone } else r) })

/-- The port leaves the active state (R80, R98): its queues are discarded, its credits and link state
end, and candidate sets change. -/
def State.leaveActive (s : State) (lp : Nat) : State :=
  let s := (((s.endArrival lp).closeEgress lp).dropPortQueues lp).forgetCredits lp
  let s := s.modRoute (fun r => { r with rejoin := r.rejoin.filter (fun x => x.1 != lp) })
  (s.orderEvent lp).srcPortDown lp

/-- The port goes to `st` from any state, its lanes off. -/
def State.portTo (s : State) (lp : Nat) (st : PortState) (reason : Nat) : State :=
  let s := if (s.port lp).st = .active then s.leaveActive lp else s
  let s := s.setLanes lp Lane.off
  s.modPort lp (fun p => { p.unlinked with st := st, reason := reason, trainStep := 0, fadami := false })

/-- The port becomes FAILED (R367): its shutters close. -/
def State.portFail (s : State) (lp reason : Nat) : State := (s.portTo lp .failed reason).bump (Reg.trainFails (lp / 4))

/-! ### Training (R367-R370) -/

/-- Full training starts: the shutters open, and training frames are sent in Fadami signalling. -/
def State.startTraining (s : State) (lp : Nat) : State :=
  let s := s.modPort lp (fun p => { p.unlinked with
    st := .training, reason := 0, trainStep := 1, trainAt := s.now, switchAt := none, fadami := s.fadamiForce lp })
  s.setLanes lp (·.train s.now)

/-- Both ends advertise NATIVE and neither forces Fadami mode (R366, R367). -/
def State.goesNative (s : State) (lp : Nat) : Bool :=
  !s.fadamiForce lp && (s.portLanes lp).all (fun n => (s.lane n).rxCaps.getLsbD 0)

/-- A lane's equalisation is done or skipped (R370). -/
def State.eqReady (s : State) (n : Nat) : Bool :=
  let l := s.lane n
  (l.w1.eqDone || s.eqLock n false) && (l.fadami || l.w2.eqDone || s.eqLock n true)

/-- The INIT credit words of a port: what each account was granted at link-up (R73, R362). -/
def State.initCredits (s : State) (lp : Nat) : List W32 :=
  (List.range 16).filterMap (fun i =>
    let a := s.rxAcct lp (i % 8) (decide (8 ≤ i))
    if !a.granted || a.base = 0 then none else some (w32 (pack [(0, i % 8), (3, i / 8), (4, 1), (16, a.base)])))

/-- Send LINK_UP and the INIT credits (R367 step 7). -/
def State.sendLinkUp (s : State) (lp : Nat) : State :=
  let s := s.sendControl lp [0x07]
  let ws := s.initCredits lp
  if ws.isEmpty then s else s.sendControl lp (w32 0x01 :: ws)

/-- Every open account is granted its whole limit (R73). -/
def State.grantAll (s : State) (lp : Nat) : State :=
  (List.range 16).foldl (fun s i =>
    let lim := s.credLimit lp (i % 8) (decide (8 ≤ i))
    s.modRx lp (i % 8) (decide (8 ≤ i)) (fun _ => if lim = 0 then {} else { granted := true, base := lim })) s

/-- A frame count has reached a proposed SWITCH_AT, both modulo 65,536. -/
def frameReached (k at' : Nat) : Bool := decide ((k + 65536 - at' % 65536) % 65536 < 32768)

/-- The later of the two proposed SWITCH_AT frames has come on every lane (R367 step 4): this end has sent its own,
and the partner's record counts to its own (DEDUCED, log entry 60). -/
def State.switchDue (s : State) (lp : Nat) : Bool :=
  match (s.port lp).ownSwitch, (s.port lp).switchAt with
  | some a, some b => (s.portLanes lp).all (fun n =>
      frameReached (s.lane n).frameNo.toNat a && frameReached (s.lane n).rxFrameNo.toNat b)
  | _, _ => false

/-- The SWITCH_AT that a port proposes: 64 frames after the latest one any of its lanes has sent (R367 step 4). -/
def State.proposeSwitch (s : State) (lp : Nat) : Nat :=
  ((s.portLanes lp).foldl (fun m n => max m (s.lane n).frameNo.toNat) 0 + 64) % 65536

/-- Move a training port past the steps its lanes have reached (R367). -/
def State.advanceTraining (s : State) (lp : Nat) : State :=
  let ls := (s.portLanes lp).map s.lane
  let p := s.port lp
  let step := p.trainStep
  let step := if step < 3 && ls.all (fun l => decide (8 ≤ l.sameIds)) then 3 else step
  let step := if (step = 4 || (step = 3 && !s.goesNative lp)) && (s.portLanes lp).all s.eqReady then 5 else step
  let up := step = 5 && ls.all (·.ready)
  let own := if step = 3 && p.ownSwitch.isNone then some (s.proposeSwitch lp) else p.ownSwitch
  let s := s.modPort lp (fun p => { p with
    trainStep := step, ownSwitch := own, fadami := p.fadami || (step == 5 && decide (p.trainStep < 4)) })
  if up then
    let s := (s.modPort lp (fun p => { p.unlinked with trainStep := 6 })).grantAll lp
    (s.setLanes lp Lane.anew).sendLinkUp lp
  else s

/-- This device's identity word for a lane. -/
def State.identity (s : State) (n : Nat) : W64 := w64 (pack [(0, (coordHash s.ownCoord).toNat), (32, n)])

/-- The identity words of a port's identified lanes agree (R369): one hash and coordinate, and at position i the partner's
lane 4q + o + i of a port block q of 0-127. -/
def State.consistent (s : State) (lp : Nat) : Bool :=
  let k := s.laneCount lp
  let ids := ((s.portLanes lp).zipIdx.map (fun p => (s.lane p.1, p.2, p.1))).filter (fun x => decide (8 ≤ x.1.sameIds))
  let own := ids.filter (fun x => decide (x.2.2 < 512))
  let pos := own.map (fun x =>
    let m := fld x.1.partnerId 32 10
    (m + 4 - x.2.1, decide (x.2.1 ≤ m ∧ m < 512)))
  (match ids with
   | [] => true
   | a :: _ => ids.all (fun b => fld b.1.partnerId 0 32 == fld a.1.partnerId 0 32 && decide (b.1.rxCoord = a.1.rxCoord))) &&
  (match pos with
   | [] => true
   | a :: _ => pos.all (fun b => b == a) && a.2 && a.1 % 4 % k == 0)

/-- Training records start with STATE; the CRC and the reserved bytes hold (R368). -/
def recordOk (r : List Byte) : Bool :=
  r.length == 64 && decide (1 ≤ u8 r 0 ∧ u8 r 0 ≤ 4) && decide (u8 r 1 < 16) && u8 r 23 == 0 && decide (u8 r 22 < 2) &&
  (slice r 30 30).all (· == 0) && decide ((crc32c (r.take 60)).toNat = u32 r 60) && decide (u64 r 4 < 2 ^ 42)

/-- PRE and POST within R370's limits. -/
def eqOk (pre post : Nat) : Bool := decide (pre ≤ 15 ∧ post ≤ 31 ∧ pre + post ≤ 40)

/-- A requested setting is applied unless EQ_LOCK keeps the written one or it is out of limits (R370). -/
def State.takesEq (s : State) (n : Nat) (w2 : Bool) (pre post : Nat) : Bool := !s.eqLock n w2 && eqOk pre post

/-- Apply a partner's requested setting to a transmit wavelength (R370). -/
def State.applyEq (s : State) (n : Nat) (w2 : Bool) (pre post : Nat) : State :=
  if !s.takesEq n w2 pre post then s
  else s.setReg (if w2 then Reg.txeqW2 n else Reg.txeqW1 n) (w64 (pre + 16 * post))

/-- The expected-partner check of a newly identified lane (R369). -/
def State.expectCheck (s : State) (n : Nat) : Bool × State :=
  let bad := bit (s.reg (Reg.expectEn n)) 0 && decide ((s.lane n).partnerId ≠ s.reg (Reg.expectId n))
  if bad then
    let p := if n < 512 then n / 4 else (s.spareTarget n).getD 0
    (true, ((s.modLane n (fun l => { l with miscabled := true })).bump (Reg.wiringMismatch p)).logFault
      { cls := 0x02, sev := 1, act := 0, block := 4, index := n })
  else (false, s)

/-- Record what a valid training record says of a lane and its partner. EQ_ACK answers a request that was applied on
every wavelength the lane uses (R368). -/
def State.noteRecord (s : State) (n : Nat) (r : List Byte) : State :=
  let id := w64 (u64 r 4)
  let s := s.modLane n (fun l => { l with
    sameIds := if l.sameIds ≠ 0 && l.partnerId = id then l.sameIds + 1 else 1, partnerId := id,
    rxCaps := byte (u8 r 1), rxFrameNo := BitVec.ofNat 16 (u16 r 2),
    rxCoord := w32 (u32 r 12 / 256 * 256), rxAt := s.now })
  if 3 ≤ u8 r 0 then
    let ack := s.takesEq n false (u8 r 18) (u8 r 19) && ((s.lane n).fadami || s.takesEq n true (u8 r 20) (u8 r 21))
    (((s.applyEq n false (u8 r 18) (u8 r 19)).applyEq n true (u8 r 20) (u8 r 21))).modLane n (fun l => { l with eqAck := ack })
  else s

/-- The round trip by a record's ECHO and HOLD (R367 step 6, R368). -/
def State.roundTrip (s : State) (n : Nat) (r : List Byte) : Option Nat :=
  ((s.lane n).frames.find? (fun f => f.1.toNat == u16 r 24)).map (fun f => s.now - f.2 - u32 r 26)

/-- The frequency offset, in 1/16 ppm, is within the mode's bound (R363, R364). -/
def State.clockOk (s : State) (lp : Nat) (freq : W32) : Bool :=
  decide ((sgn 32 freq.toNat).natAbs ≤ (if s.runsIndep lp then 110 else 10) * 16)

/-- Step 6 for one lane: the offset is checked and the round trip measured. -/
def State.measure (s : State) (lp n : Nat) (r : List Byte) (freq : W32) : State :=
  match s.roundTrip n r with
  | none => s
  | some t =>
    let s := s.modPort lp (fun p => { p with rttNs := w32 t, freqOffset := freq })
    if !s.clockOk lp freq then s.portFail lp 5
    else if 20500 < t then s.portFail lp 6
    else s.modLane n (fun l => { l with ready := true })

/-- The ACTIVE logical port of port block `p`. -/
def State.activeOf (s : State) (p : Nat) : Option Nat := ((List.range 4).map (4 * p + ·)).find? s.portActive

/-- A spare that fails training or its checks is not used (R376). -/
def State.spareFail (s : State) (n : Nat) : State := s.modLane n (fun l => { l.off with miscabled := true })

/-- The ACTIVE logical port of block `p` for which spare `n` trains: the one whose partner it reports, else the first. -/
def State.spareFor (s : State) (n p : Nat) : Option Nat :=
  match ((List.range 4).map (4 * p + ·)).find? (fun lp => s.portActive lp && s.hashOf n lp) with
  | some lp => some lp
  | none => s.activeOf p

/-- A spare that is identified and must go native proposes its SWITCH_AT frame and keeps its partner's (R367 step 4). -/
def Lane.spareSwitch (l : Lane) (r : List Byte) : Lane :=
  { l with
    ownSwitch := some (l.ownSwitch.getD ((l.frameNo.toNat + 64) % 65536)),
    switchAt := if u8 r 0 = 2 then some (max (u16 r 16) (l.switchAt.getD 0)) else l.switchAt }

/-- A spare in training for an ACTIVE port (R367, R376): identified, it must report its port partner's hash, and with
AUDIT_STRICT its expected partner (`bad`; the spare alone fails, DESIGN CHOICE, log entry 60); in the port's mode and
equalised, its offset and round trip are checked on a READY record, and it rests as STANDBY. -/
def State.advanceSpare (s : State) (n p : Nat) (bad : Bool) (r : List Byte) (freq : W32) : State :=
  let l := s.lane n
  match s.spareFor n p with
  | none => s
  | some lp =>
    if l.sameIds < 8 then s
    else if (bad && bit (s.reg (Reg.portCfg p)) 6) || !s.hashOf n lp then s.spareFail n
    else if l.fadami && !(s.port lp).fadami then s.modLane n (·.spareSwitch r)
    else if !s.eqReady n || u8 r 0 ≠ 4 then s
    else match s.roundTrip n r with
      | none => s
      | some t =>
        if !s.clockOk lp freq || 20500 < t then s.spareFail n
        else s.modLane n (fun l => { l with st := .standby, ready := true })

/-- Both proposed SWITCH_AT frames of a spare have come, and its partner advertises NATIVE (R366, R367 step 4, R376). -/
def Lane.spareDue (l : Lane) : Bool :=
  l.rxCaps.getLsbD 0 &&
  match l.ownSwitch, l.switchAt with
  | some a, some b => frameReached l.frameNo.toNat a && frameReached l.rxFrameNo.toNat b
  | _, _ => false

/-- A record on a lane of a port in fast retrain: the wiring, the offset and the round trip are checked again (R367
steps 3 and 6, R369). -/
def State.retrainRecord (s : State) (lp n : Nat) (bad fresh : Bool) (r : List Byte) (freq : W32) : State :=
  if (bad && bit (s.reg (Reg.portCfg (lp / 4))) 6) || (fresh && !s.consistent lp) then s.portFail lp 3
  else if 8 ≤ (s.lane n).sameIds && u8 r 0 = 4 then s.measure lp n r freq
  else s

/-- TRAINING_RECORD_RECEIVED (R368): `freq` is the frequency offset the clock recovery measures. -/
def execTrainingRecordReceived (n : Fin 528) (rec : List Byte) (freq : W32) (s : State) : Host.Outcome State Fault Refusal :=
  let l := s.lane n
  if !s.clocked || !(l.st = .training ∨ l.st = .locked) then .next s
  else if !recordOk rec then
    -- it ends the run of consecutive valid records (R367 step 3)
    .next ((s.bump (Reg.recBad n)).modLane n (fun l => { l with sameIds := if l.sameIds < 8 then 0 else l.sameIds }))
  else
    let s := s.noteRecord n rec
    let fresh := decide ((s.lane n).sameIds = 8)
    let (bad, s) := if fresh then s.expectCheck n else (false, s)
    match s.spareTarget n, s.laneOwner n with
    | some p, none => .next (s.advanceSpare n p bad rec freq)
    | _, none => .next s
    | _, some (lp, _) =>
      let p := s.port lp
      if p.st = .active && p.retraining then .next (s.retrainRecord lp n bad fresh rec freq)
      else if p.st ≠ .training then .next s
      else if bad && bit (s.reg (Reg.portCfg (lp / 4))) 6 then .next (s.portFail lp 3)
      else if fresh && !s.consistent lp then .next (s.portFail lp 3)
      else
        let c := (s.lane n).rxCaps
        let s := s.modPort lp (fun p => { p with
          partnerCellsOnly := c.getLsbD 1, partnerIndep := c.getLsbD 2,
          partnerFabric := c.getLsbD 3, partnerCoord := (s.lane n).rxCoord,
          switchAt := if u8 rec 0 = 2 then some (max (u16 rec 16) (p.switchAt.getD 0)) else p.switchAt })
        let s := if p.trainStep = 5 && u8 rec 0 = 4 then s.measure lp n rec freq else s
        if (s.port lp).st = .training then .next (s.advanceTraining lp) else .next s

/-- A lane in native signalling, its lock regained: frames are counted from here on both wavelengths (R351). -/
def Lane.native (l : Lane) : Lane :=
  { l with
    fadami := false, st := .locked, rxHalf := none, w1 := { l.w1 with lock := true, tail := [], rxBits := 0 },
    w2 := { l.w2 with lock := true, tail := [], rxBits := 0 } }

/-- NATIVE_MODE_SWITCH (R367 step 4): `t` is a logical port, or a spare lane 512-527 in training for one. -/
def execNativeModeSwitch (t : Fin 528) (skewUi : Nat) (s : State) : Host.Outcome State Fault Refusal :=
  if !s.clocked then .next s
  else if t.val < 512 then
    let p := s.port t
    if p.st ≠ .training || p.trainStep ≠ 3 || !s.goesNative t || !s.switchDue t then .next s
    else if 4096 < skewUi then .next (s.portFail t 4)
    else
      let s := s.setLanes t Lane.native
      .next ((s.modPort t (fun p => { p with trainStep := 4, fadami := false })).advanceTraining t)
  else
    let l := s.lane t
    match (s.spareTarget t).bind (s.spareFor t) with
    | none => .next s
    | some lp =>
      if !(l.st = .training ∨ l.st = .locked) || l.sameIds < 8 || !l.fadami || (s.port lp).fadami || !l.spareDue then .next s
      else if 4096 < skewUi then .next (s.spareFail t)
      else .next (s.modLane t Lane.native)

/-- The best setting of a search: the largest open eye among those that keep the ratio (R370). -/
def bestEye (eyes : List EqPoint) : Option EqPoint :=
  (eyes.filter (fun e => e.berOk && [0, 2, 4, 6].contains e.pre && decide (e.post % 4 = 0 ∧ e.post ≤ 28))).foldl
    (fun a e => match a with
      | some b => if b.area < e.area then some e else some b
      | none => some e) none

/-- TX_EQ_COMPLETE (R370). -/
def execTxEqComplete (n : Fin 528) (w2 : Bool) (eyes : List EqPoint) (s : State) : Host.Outcome State Fault Refusal :=
  if !s.powered then .next s else
  let l := s.lane n
  let owner := s.laneOwner n
  let inStep := match owner with
    | some (lp, _) => let p := s.port lp
      decide (p.st = .training) && (p.trainStep == 4 || (p.trainStep == 3 && !s.goesNative lp))
    | none => (s.spareTarget n).isSome && decide (8 ≤ l.sameIds) && decide (l.st = .training ∨ l.st = .locked)
  if !inStep || s.eqLock n w2 || (l.wave w2).eqDone || (w2 && l.fadami) then .next s
  else match bestEye eyes with
    | none => match owner with
      | some (lp, _) => .next (s.portFail lp 7)
      | none => .next (s.spareFail n)
    | some e =>
      let s := { s with pwr := { s.pwr with eqStale := s.pwr.eqStale.filter (· != n.val) } }
      let s := s.modLane n (fun l => { l.modWave w2 (fun w => { w with eqDone := true }) with
        eqRequest := setFld (setFld l.eqRequest (if w2 then 16 else 0) 8 e.pre) (if w2 then 24 else 8) 8 e.post })
      match owner with
      | some (lp, _) => .next (s.advanceTraining lp)
      | none => .next s

/-- A spare lane in training for a port, past `ns` since its training started. -/
def State.spareLate (s : State) (n ns : Nat) : Bool :=
  let l := s.lane n
  decide (512 ≤ n) && decide (l.st = .training ∨ l.st = .locked) && decide (l.trainAt + ns ≤ s.now)

/-- NO_LIGHT (R367 step 1): of a logical port, or of a spare lane 512-527 (R376). -/
def execNoLight (t : Fin 528) (s : State) : Host.Outcome State Fault Refusal :=
  if !s.powered then .next s
  else if t.val < 512 then
    let p := s.port t
    if p.st = .training && p.trainStep = 1 && decide (p.trainAt + 100 * us ≤ s.now) then .next (s.portFail t 1) else .next s
  else if s.spareLate t (100 * us) && (s.lane t).sameIds = 0 then .next (s.spareFail t) else .next s

/-- TRAIN_TIMEOUT (R367): of a logical port, or of a spare lane 512-527 by its port's limit (R376). -/
def execTrainTimeout (t : Fin 528) (s : State) : Host.Outcome State Fault Refusal :=
  if !s.powered then .next s
  else if t.val < 512 then
    let p := s.port t
    if p.st = .training && decide (p.trainAt + s.regN (Reg.trainTimeout (t.val / 4)) * ms ≤ s.now)
    then .next (s.portFail t (if p.reason = 0 then 2 else p.reason)) else .next s
  else
    match s.spareTarget t with
    | some p => if s.spareLate t (s.regN (Reg.trainTimeout p) * ms) then .next (s.spareFail t) else .next s
    | none => .next s

/-! ### Control items (R356, R359, R362) -/

/-- Take a control item: the parsed stream, when it holds items, must have it next. -/
def State.ctlItem (s : State) (lp : Nat) (ws : List W32) : Option State :=
  match (s.port lp).rxItems with
  | [] => some s
  | (tag, bs) :: rest =>
    if fld tag 0 2 = kindControl && bs = ws.flatMap (fun w => leBytes 4 w.toNat)
    then some (s.modPort lp (fun p => { p with rxItems := rest })) else none

/-- A control item that an end sends only when it is ACTIVE: neither LINK_UP nor INIT credits. -/
def fromActive (ws : List W32) : Bool :=
  let t := fld (ws.headD 0) 0 8
  t != 7 && !(t == 1 && (ws.drop 1).all (fun w => bit w 4))

/-- Run a control item's effect on a port whose link is up. -/
def ctlRun (lp : Nat) (ws : List W32) (f : State → State) (s : State) : Host.Outcome State Fault Refusal :=
  let p := s.port lp
  if !s.clocked || !s.lportExists lp || !(p.st = .active ∨ (p.st = .training ∧ p.trainStep = 6)) then .next s
  else match s.ctlItem lp ws with
    | none => .next s
    | some s => .next (f (if fromActive ws then s.modPort lp (fun p => { p with peerUp := true }) else s))

/-- One CREDIT word (R362): with INIT the account's limit, which a repeated INIT gives again, else the cumulative count
returned. A count for an account that no INIT granted shows that the partner has opened it (R73, DEDUCED, log entry 59). -/
def State.creditWord (s : State) (lp : Nat) (w : W32) : State :=
  let v := fld w 16 16
  s.modSw (fun x => { x with
    txAcct := smod {} x.txAcct (akey lp (fld w 0 3) (bit w 3)) (fun a =>
      if bit w 4 then { a with advertised := true, limit := v }
      else { a with advertised := true, returned := a.returned + (v + 65536 - a.returned % 65536) % 65536 }) })

/-- CREDIT (R362). `ws` are its account words. -/
def execCredit (lp : Fin 512) (ws : List W32) (s : State) : Host.Outcome State Fault Refusal :=
  ctlRun lp (w32 0x01 :: ws) (fun s => ws.foldl (fun s w => s.creditWord lp w) s) s

/-- LINK_UP (R367 step 7): with the partner's INIT credits, the port becomes ACTIVE. An ACTIVE port answers a LINK_UP with
its own until the partner shows that it is ACTIVE too (R356, DESIGN CHOICE, log entry 60). -/
def execLinkUp (lp : Fin 512) (ws : List W32) (s : State) : Host.Outcome State Fault Refusal :=
  ctlRun lp [0x07] (fun s =>
    if (s.port lp).st ≠ .training then
      (if (s.port lp).peerUp || (s.port lp).retraining then s else s.sendLinkUp lp)
    else
      let s := (ws.filter (fun w => bit w 4)).foldl (fun s w => s.creditWord lp w) s
      let s := s.modPort lp (fun p => { p with
        st := .active, trainStep := 7, idleSince := s.now, lastSendAt := s.now,
        -- a TX_SLEEP_FORCE 3 written before the link was up is still held (R375)
        offHeld := decide (fld (s.reg (Reg.portCtrl (lp / 4) (lp % 4))) 1 2 = 3) })
      -- the cap balances start full (R83)
      let s := (s.setCap lp 0 (s.capDepth lp 0)).setCap lp 1 (s.capDepth lp 1)
      let s := (s.portLanes lp).zipIdx.foldl (fun s x => s.modLane x.1 (fun l => { l with st := .inUse, position := x.2 })) s
      let s := s.modRoute (fun r => { r with rejoin := r.rejoin.filter (fun x => x.1 != lp.val) ++ [(lp.val, s.now)] })
      let n := 512 + lp.val / 32
      -- the block's spare trains for the port anew, unless it carries another's position (R376)
      if s.spareTarget n = some (lp.val / 4) && ((s.lane n).st = .off || (s.lane n).st = .standby) && (s.lane n).serves.isNone
      then s.modLane n (·.train s.now) else s) s

/-- Free the outstanding items before NEXT; true when it advanced. -/
def State.ackTo (s : State) (lp : Nat) (next : BitVec 12) : Bool × State :=
  match (s.port lp).replay with
  | [] => (false, s)
  | r :: _ =>
    let k := (next - r.lseq).toNat
    if k = 0 || (s.port lp).replay.length < k then (false, s)
    else (true, s.modPort lp (fun p => { p with
      replay := p.replay.drop k, ackAt := s.now, replayRun := 0,
      -- a replay is in progress until the count advances (R375)
      idleSince := if p.replayRun = 0 then p.idleSince else s.now }))

/-- A fast retrain starts (R367): the port stays ACTIVE with RETRAINING set. -/
def State.startRetrain (s : State) (lp reason : Nat) : State :=
  let s := (s.modPort lp (fun p => { p with retraining := true, reason := reason, swap := none, holdFrom := none })).bump
    (Reg.retrains (lp / 4))
  s.setLanes lp (fun l => { l with st := .training, sameIds := 0, ready := false })

/-- One more replay without an advance; the 16th starts a fast retrain (R361). -/
def State.replayed (s : State) (lp : Nat) : State :=
  let n := (s.port lp).replayRun + 1
  let s := (s.resend lp).modPort lp (fun p => { p with replayRun := n })
  if 16 ≤ n then
    ((s.bump (Reg.replayFails (lp / 4))).logFault { cls := 0x03, sev := 1, act := 1, block := 3, index := lp / 4 }).startRetrain lp 8
  else s

/-- Nothing is outstanding, queued or owed on the transmit direction (R375). -/
def State.txDemand (s : State) (lp : Nat) : Bool :=
  let p := s.port lp
  !p.txQ.isEmpty || !p.txStream.isEmpty || p.ackOwed || !(s.creditWords lp false).isEmpty ||
  (List.range 8).any (fun v => !(s.queue lp v).isEmpty)

/-- Announce and enter a sleep state (R375): SLEEP leaves in the last blocks, and the idle time goes on. -/
def State.enterSleep (s : State) (lp : Nat) (d : DirState) (code : Nat) : State :=
  let since := (s.port lp).idleSince
  (s.sendControl lp [w32 (0x04 + 256 * code)]).modPort lp (fun p => { cutBlock p with
    tx := d, offHeld := false, txWakeAt := none, idleSince := since })

/-- The held OFF of TX_SLEEP_FORCE 3 is entered once nothing is outstanding (R375). -/
def State.tryOff (s : State) (lp : Nat) : State :=
  let p := s.port lp
  if p.offHeld && p.replay.isEmpty && !s.txDemand lp && p.st = .active && !p.retraining then s.enterSleep lp .off 3 else s

/-- ACK (R358, R359). -/
def execAck (lp : Fin 512) (w : W32) (s : State) : Host.Outcome State Fault Refusal :=
  ctlRun lp [w] (fun s => if fld w 0 8 = 0x02 then (s.ackTo lp (BitVec.ofNat 12 (fld w 8 12))).2.tryOff lp else s) s

/-- NAK (R359): items before NEXT are freed and the rest resent, which is counted though none may be left. -/
def execNak (lp : Fin 512) (w : W32) (s : State) : Host.Outcome State Fault Refusal :=
  ctlRun lp [w] (fun s =>
    if fld w 0 8 ≠ 0x03 then s
    else
      let s := (s.ackTo lp (BitVec.ofNat 12 (fld w 8 12))).2
      ((s.bump (Reg.replays (lp.val / 4))).countEv (lp.val / 4) 0x09 1 none (some (lp.val % 4))).replayed lp) s

/-- REPLAY_TIMEOUT (R359): no ACK has advanced while items are outstanding; the time counts anew from the replay
(DESIGN CHOICE, log entry 60). -/
def execReplayTimeout (lp : Fin 512) (s : State) : Host.Outcome State Fault Refusal :=
  if !s.powered then .next s else
  let p := s.port lp
  if p.st = .active && !p.retraining && !p.replay.isEmpty &&
      decide (p.ackAt + s.regN (Reg.replayTimeout (lp.val / 4)) ≤ s.now)
  then .next (((s.bump (Reg.replayTimeouts (lp.val / 4))).countEv (lp.val / 4) 0x09 1 none (some (lp.val % 4))).replayed lp
    |>.modPort lp (fun p => { p with ackAt := s.now })) else .next s

/-- ACK_SEND (R358). -/
def execAckSend (lp : Fin 512) (s : State) : Host.Outcome State Fault Refusal :=
  let p := s.port lp
  if s.canSend lp && p.ackOwed then
    .next (((s.sendControl lp [w32 (pack [(0, 0x02), (8, p.rxLseq.toNat)])]).modPort lp (fun p => { p with ackOwed := false })).tryOff lp)
  else .next s

/-- CREDIT_SEND (R362): every account whose VALUE moved, else every advertised one. -/
def execCreditSend (lp : Fin 512) (s : State) : Host.Outcome State Fault Refusal :=
  if !s.canSend lp then .next s
  else
    let moved := s.creditWords lp false
    let ws := if moved.isEmpty then s.creditWords lp true else moved
    if ws.isEmpty then .next s else .next (((s.sendControl lp (w32 0x01 :: ws)).creditsSent lp).tryOff lp)

/-! ### Administration and commands (R367, R379, R380) -/

/-- A write to PORT_CTRL: ADMIN_UP and TX_SLEEP_FORCE. ADMIN_UP stays 0 until OWN_COORD has been written (R38, DEDUCED,
log entry 60). A forced doze or nap meets a demand as a sleep race (R375). -/
def wrPortCtrl (lp : Nat) : WriteFn := fun s v =>
  let v := if bit (s.reg Reg.devStatus) 0 then v else v &&& ~~~1
  let old := s.adminUp lp
  let s := s.setReg (Reg.portCtrl (lp / 4) (lp % 4)) v
  let st := (s.port lp).st
  let s := if bit v 0 && !old then (if st = .down then s.startTraining lp else s)
    else if !bit v 0 && old then (if st = .outOfService then s else s.portTo lp .down 0)
    else s
  let p := s.port lp
  let live := p.st = .active && !p.retraining
  let s := s.modPort lp (fun p => { p with offHeld := fld v 1 2 == 3 && decide (p.tx ≠ .off) })
  let race := s.bump (Reg.sleepRace (lp / 4))
  some (match fld v 1 2 with
    | 1 => if live && p.tx = .active then (if s.txDemand lp then race else s.enterSleep lp .doze 1) else s
    | 2 => if live && p.tx ≠ .nap && p.tx ≠ .off then (if s.txDemand lp then race else s.enterSleep lp .nap 2) else s
    | 3 => s.tryOff lp
    | _ => s)

/-- PORT_ADMIN_UP (R367). -/
def execPortAdminUp (r : Requester) (lp : Fin 512) (v : W32) (s : State) : Host.Outcome State Fault Refusal :=
  writeCmd s r (Reg.portCtrl (lp.val / 4) (lp.val % 4)) (w64 v.toNat) (wrPortCtrl lp)

/-- PORT_ADMIN_DOWN (R367). -/
def execPortAdminDown (r : Requester) (lp : Fin 512) (v : W32) (s : State) : Host.Outcome State Fault Refusal :=
  writeCmd s r (Reg.portCtrl (lp.val / 4) (lp.val % 4)) (w64 v.toNat) (wrPortCtrl lp)

/-- TX_SLEEP_FORCE_WRITE (R375). -/
def execTxSleepForceWrite (r : Requester) (lp : Fin 512) (v : W32) (s : State) : Host.Outcome State Fault Refusal :=
  writeCmd s r (Reg.portCtrl (lp.val / 4) (lp.val % 4)) (w64 v.toNat) (wrPortCtrl lp)

/-- The blocks that carry the stream up to now and a control word after it, one copy for each lane: the items that wait
stay behind them. -/
def Port.cutControl (p : Port) (k : Nat) (w : W32) : Port :=
  let m : Option (BitVec 12) × List Byte := (none, tagged (mkTag kindControl 0 false 4 0) (leBytes 4 w.toNat))
  let q := (List.range k).foldl (fun (p : Port) _ => cutBlock (cutBlock { p with txQ := [m] })) p
  { q with txQ := p.txQ }

/-- SPARE_SWAP or SWAP_ECHO of a replacement leaves in the blocks before AT, repeated so that one is carried by a lane that
works; blocks from AT on are held while the spare wakes (R377). -/
def State.swapSend (s : State) (lp : Nat) (x : SpareSwap) (ct : Nat) : State :=
  let k := s.laneCount lp
  let at' := ((s.port lp).cutControl k 0).txBlk
  let w := w32 (pack [(0, ct), (8, x.pos), (11, b2n x.back), (16, at' % 65536)])
  (s.modPort lp (fun p => { p.cutControl k w with
    holdFrom := some at', idleSince := s.now, swap := some { x with sentAt := s.now } })).emit (.control lp [w])

/-- A replacement begins at this end (R377). -/
def State.startSwap (s : State) (lp pos : Nat) (back initiator : Bool) : State :=
  s.swapSend lp { pos := pos, back := back, initiator := initiator } (if initiator then 0x05 else 0x06)

/-- Position `pos` of an ACTIVE port can move to its spare, or back. -/
def State.canSwap (s : State) (lp pos : Nat) (back : Bool) : Bool :=
  let p := s.port lp
  let d := (s.lanesOf lp).getD pos 0
  decide (p.st = .active) && !p.retraining && p.swap.isNone && decide (pos < s.laneCount lp) &&
  (if back then s.replaced d else !s.replaced d && (s.standbyFor lp).isSome)

/-- A write to PORT_CMD: FAST_RETRAIN, SPARE_SWAP with POS and BACK. -/
def wrPortCmd (lp : Nat) : WriteFn := fun s v =>
  let p := s.port lp
  let fr := bit v 0
  let sw := bit v 1
  let pos := fld v 2 2
  let back := bit v 4
  if fr && !(p.st = .active && !p.retraining) then none
  else if sw && !s.canSwap lp pos back then none
  else if fr then some (s.startRetrain lp 2)
  else if sw then some (s.startSwap lp pos back true)
  else some s

/-- FAST_RETRAIN (R367). -/
def execFastRetrain (r : Requester) (lp : Fin 512) (s : State) : Host.Outcome State Fault Refusal :=
  writeCmd s r (Reg.portCmd (lp.val / 4) (lp.val % 4)) 1 (wrPortCmd lp)

/-- PORT_CMD_SPARE_SWAP (R377). -/
def execPortCmdSpareSwap (r : Requester) (lp : Fin 512) (pos : Fin 4) (s : State) : Host.Outcome State Fault Refusal :=
  writeCmd s r (Reg.portCmd (lp.val / 4) (lp.val % 4)) (w64 (2 + 4 * pos.val)) (wrPortCmd lp)

/-- PORT_CMD_SPARE_BACK (R377). -/
def execPortCmdSpareBack (r : Requester) (lp : Fin 512) (pos : Fin 4) (s : State) : Host.Outcome State Fault Refusal :=
  writeCmd s r (Reg.portCmd (lp.val / 4) (lp.val % 4)) (w64 (18 + 4 * pos.val)) (wrPortCmd lp)

/-- A block renumbered after a retrain. -/
def renumber (b : List Byte) (k : Nat) : List Byte :=
  let h := b.take 2 ++ leBytes 2 (k % 65536) ++ slice b 4 256
  h ++ leBytes 4 (crc32c h).toNat

/-- FAST_RETRAIN_COMPLETE (R361, R367): with every lane at step 6, block numbers start at 0 again, LINK_UP and the INIT
credits are sent, and LSEQ, the accounts and the replay buffer survive; a retrain that fails makes the port FAILED. -/
def execFastRetrainComplete (lp : Fin 512) (ok : Bool) (s : State) : Host.Outcome State Fault Refusal :=
  if !s.clocked then .next s else
  let p := s.port lp
  if p.st ≠ .active || !p.retraining then .next s
  else if !ok then .next (s.portFail lp p.reason)
  else if !(s.portLanes lp).all (fun n => (s.lane n).ready) then .next s
  else
    let s := s.modPort lp (fun p => { p with
      retraining := false, reason := 0, tx := .active, rx := .active, txWakeAt := none, replayRun := 0, ackAt := s.now, lastSendAt := s.now,
      txBlocks := p.txBlocks.zipIdx.map (fun x => (x.2, renumber x.1.2 x.2)), txBlk := p.txBlocks.length,
      rxNextBlk := 0, rxBlocks := [], rxPart := [], rxSync := false, nakOut := false, peerUp := false })
    .next ((s.setLanes lp (fun l => { l.anew with
      st := .inUse, w1 := { l.w1 with lock := true, missed := 0 }, w2 := { l.w2 with lock := !l.fadami, missed := 0 } })).sendLinkUp lp)

/-! ### Sleep (R374, R375) -/

/-- SLEEP (R375): the receiver follows the partner's transmitter. -/
def execSleep (lp : Fin 512) (w : W32) (s : State) : Host.Outcome State Fault Refusal :=
  ctlRun lp [w] (fun s =>
    if fld w 0 8 ≠ 0x04 then s
    else match fld w 8 2 with
      | 1 => s.modPort lp (fun p => { p with rx := .doze })
      | 2 => s.modPort lp (fun p => { p with rx := .nap })
      | 3 => s.modPort lp (fun p => { p with rx := .off })
      | _ => s) s

/-- Idle for `n` ns with nothing ready, owed or being replayed. -/
def State.txIdleFor (s : State) (lp n : Nat) : Bool :=
  let p := s.port lp
  decide (p.st = .active) && !p.retraining && p.txWakeAt.isNone && decide (n ≠ 0) && decide (p.idleSince + n ≤ s.now) &&
  !s.txDemand lp && decide (p.replayRun = 0)

/-- TX_DOZE_ENTRY (R375): a demand in the cycle of entry keeps the direction ACTIVE. -/
def execTxDozeEntry (lp : Fin 512) (demand : Bool) (s : State) : Host.Outcome State Fault Refusal :=
  if !s.powered then .next s else
  if (s.port lp).tx = .active && s.txIdleFor lp (s.regN (Reg.dozeIdle (lp.val / 4))) then
    .next (if demand then (s.bump (Reg.sleepRace (lp.val / 4))).modPort lp (fun p => { p with idleSince := s.now })
      else s.enterSleep lp .doze 1)
  else .next s

/-- TX_NAP_ENTRY (R375). -/
def execTxNapEntry (lp : Fin 512) (demand : Bool) (s : State) : Host.Outcome State Fault Refusal :=
  if !s.powered then .next s else
  let t := (s.port lp).tx
  if (t = .active ∨ t = .doze) && s.txIdleFor lp (s.regN (Reg.napIdle (lp.val / 4))) then
    .next (if demand then (s.bump (Reg.sleepRace (lp.val / 4))).modPort lp (fun p => { p with idleSince := s.now })
      else s.enterSleep lp .nap 2)
  else .next s

/-- TX_WAKE (R375): a demand wakes a sleeping direction; from off it is a fast retrain. -/
def execTxWake (lp : Fin 512) (s : State) : Host.Outcome State Fault Refusal :=
  if !s.powered then .next s else
  let p := s.port lp
  if p.st ≠ .active || p.retraining || p.txWakeAt.isSome || !s.txDemand lp then .next s
  else match p.tx with
    | .active => .next s
    | .doze => .next (s.modPort lp (fun p => { p with txWakeAt := some (s.now + 120) }))
    | .nap => .next (s.modPort lp (fun p => { p with txWakeAt := some (s.now + 1500) }))
    | .off => .next (s.startRetrain lp 2)

/-! ### Sparing (R376, R377) -/

/-- A lane of an ACTIVE port failed: its position moves to the STANDBY spare, else the port retrains
(R367, R377, R406 class 0x02). -/
def State.laneFailed (s : State) (lp pos n : Nat) : State :=
  let p := s.port lp
  -- the lane that a swap is replacing has failed already
  if p.st ≠ .active || p.retraining || p.swap.any (fun x => x.pos == pos && !x.back) then s
  else
    let s := s.logFault { cls := 0x02, sev := 1, act := 1, block := 4, index := n }
    if p.swap.isNone && (s.standbyFor lp).isSome && !s.replaced ((s.lanesOf lp).getD pos 0) then s.startSwap lp pos false true
    else s.startRetrain lp 2

/-- The position is where a swap would put it: an earlier one has done it. -/
def State.swapped (s : State) (lp pos : Nat) (back : Bool) : Bool :=
  decide ((s.port lp).st = .active) && !(s.port lp).retraining && decide (pos < s.laneCount lp) &&
  s.replaced ((s.lanesOf lp).getD pos 0) != back

/-- SPARE_SWAP (R377): received from the partner, and answered with SWAP_ECHO, also where this end started the same swap,
or has ended it and its earlier SWAP_ECHO was lost. -/
def execSpareSwap (lp : Fin 512) (w : W32) (s : State) : Host.Outcome State Fault Refusal :=
  ctlRun lp [w] (fun s =>
    let pos := fld w 8 3
    let back := bit w 11
    let took := fun (s : State) => s.modPort lp (fun p => { p with
      swap := p.swap.map (fun x => { x with partnerAt := some (fld w 16 16) }) })
    if fld w 0 8 ≠ 0x05 then s
    else match (s.port lp).swap with
      | some x => if x.pos = pos ∧ x.back = back then took (s.swapSend lp x 0x06) else s
      | none =>
        if s.canSwap lp pos back then took (s.startSwap lp pos back false)
        else if s.swapped lp pos back then
          s.sendControl lp [w32 (pack [(0, 0x06), (8, pos), (11, b2n back), (16, (s.port lp).txBlk % 65536)])]
        else s) s

/-- SWAP_ECHO (R377). -/
def execSwapEcho (lp : Fin 512) (w : W32) (s : State) : Host.Outcome State Fault Refusal :=
  ctlRun lp [w] (fun s =>
    if fld w 0 8 ≠ 0x06 then s
    else s.modPort lp (fun p => { p with
      swap := p.swap.map (fun x => if x.initiator && x.pos == fld w 8 3 && x.back == bit w 11
        then { x with partnerAt := some (fld w 16 16) } else x) })) s

/-- The spare's lane is awake: SPARE_SWAP_COMPLETE (R377) moves the position. -/
def execSpareSwapComplete (lp : Fin 512) (s : State) : Host.Outcome State Fault Refusal :=
  if !s.powered then .next s else
  match (s.port lp).swap with
  | none => .next s
  | some x =>
    if x.partnerAt.isNone || (s.port lp).st ≠ .active then .next s
    else
      let d := (s.lanesOf lp).getD x.pos 0
      let n := spareOf d
      let s := (s.modPort lp (fun p => { p with swap := none, holdFrom := none })).bump (Reg.spareSwaps (lp.val / 4))
      let live := fun (l : Lane) => { l.anew with
        st := .inUse, position := x.pos, shutter := true, fadami := (s.port lp).fadami, w1 := { l.w1 with lock := true, missed := 0 },
        w2 := { l.w2 with lock := !(s.port lp).fadami, missed := 0 } }
      if x.back then
        .next ((s.modLane n (fun l => { l with st := .standby, serves := none })).modLane d live)
      else
        .next ((s.modLane d (fun l => { l.off with st := .faulty })).modLane n (fun l => { live l with serves := some d }))

/-- SPARE_UE_THRESHOLD (R377): more than SPARE_THRESH uncorrectable codewords within 1 ms. -/
def execSpareUeThreshold (n : Fin 528) (s : State) : Host.Outcome State Fault Refusal :=
  if !s.powered then .next s else
  match s.laneOwner n with
  | none => .next s
  | some (lp, pos) =>
    let th := s.regN (Reg.spareThresh (lp / 4))
    let k := ((s.lane n).ueTimes.filter (fun t => decide (s.now ≤ t + ms))).length
    if th ≠ 0 && decide (th < k) && (s.standbyFor lp).isSome && (s.port lp).swap.isNone then .next (s.laneFailed lp pos n)
    else .next s

/-- A write to SPARE_CFG (R376): only spares have one. -/
def wrSpareCfg (n : Nat) : WriteFn := fun s v =>
  if n < 512 then none
  else
    let s := s.setReg (Reg.spareCfg n) v
    match s.spareTarget n with
    | none => some (if (s.lane n).serves.isNone then s.modLane n Lane.off else s)
    | some p =>
      if (s.lane n).serves.isSome then some s
      else if (List.range 4).any (fun i => s.portActive (4 * p + i)) then
        some (s.modLane n (·.train s.now))
      else some (s.modLane n Lane.off)

/-- SPARE_CFG_WRITE (R376). -/
def execSpareCfgWrite (r : Requester) (n : Fin 528) (v : W32) (s : State) : Host.Outcome State Fault Refusal :=
  writeCmd s r (Reg.spareCfg n) (w64 v.toNat) (wrSpareCfg n)

/-! ### PORT_CFG (R88, R379) -/

/-- Load a logical port's limits, and its weights and caps with their reset values (R88). -/
def State.loadLimits (s : State) (lp split : Nat) : State :=
  let s := (List.range 8).foldl (fun s v =>
    (s.setReg (xcredOff lp v) (w64 (xcredDefault split v))).setReg (tcredOff lp v) (w64 (tcredDefault split v))) s
  let l := lp % 4
  [Reg.vcWeightA (lp / 4) l, Reg.vcWeightB (lp / 4) l, Reg.capVc0 (lp / 4) l, Reg.capVc1 (lp / 4) l].foldl
    (fun s o => s.setReg o (regReset o)) s

/-- A write to PORT_CFG: only while every logical port of the block is DOWN. -/
def wrPortCfg (p : Nat) : WriteFn := fun s v =>
  let split := fld v 0 2
  if split = 3 || !(List.range 4).all (fun i => decide ((s.port (4 * p + i)).st = .down)) then none
  else
    let old := s.split p
    let s := s.setReg (Reg.portCfg p) v
    if split = old then some s
    else
      let s := (List.range 4).foldl (fun s i => s.setReg (Reg.portCtrl p i) 0) s
      some ((List.range (s.lportsOf p)).foldl (fun s i => s.loadLimits (4 * p + i) split) s)

/-- PORT_CFG_WRITE (R379). -/
def execPortCfgWrite (r : Requester) (p : Fin 128) (v : W32) (s : State) : Host.Outcome State Fault Refusal :=
  writeCmd s r (Reg.portCfg p) (w64 v.toNat) (wrPortCfg p)

end Sys2Proof.Machine
end

