-- ==== Sys2Proof/Machine/Lanes.lean ====
section
/-! DEFINITION. Lanes: frames received and sent, link blocks, eye scans, PRBS and error injection
(R344-R356, R358, R364-R368, R371-R373, R381). -/

namespace Sys2Proof.Machine

/-! ### Frames received (R348-R351) -/

/-- A lane of a Fadami port receives levels; its line bits, and the lane. -/
def Lane.lineBits (l : Lane) (w2 : Bool) (bits : List Bool) : List Bool × Lane :=
  if l.fadami && !w2 then
    let r := unpam4 l.w1.rxY bits
    (r.1, { l with w1 := { l.w1 with rxY := r.2 } })
  else (bits, l)

/-- The lane content of a frame that one wavelength alone brought; an idle frame has none. -/
def RxHalf.alone (h : RxHalf) : List (Byte × Bool) :=
  match h.words with
  | none => []
  | some ws => if h.w2 then laneContent lostWave (some ws) else laneContent ws (some lostWave)

/-- The lane content of one frame index's two wavelengths (R351): what is idle on one is idle on both. -/
def RxHalf.both (h x : RxHalf) : List (Byte × Bool) :=
  match h.words, x.words with
  | some a, some b => if x.w2 then laneContent a (some b) else laneContent b (some a)
  | _, _ => []

/-- Line bits within which the starts of one lane frame's two wavelengths lie: half a frame, the skew being at most 4,096
(R351, R367, log entry 60). -/
def halfFrame : Nat := 16384

/-- Add one wavelength's frame, which started at its line bit `at'`, to the lane content: a native lane frame needs both
of its index. -/
def Lane.addHalf (l : Lane) (w2 : Bool) (at' : Nat) (ws : Option (List (List Bool × Bool))) : Lane :=
  if l.fadami then
    match ws with
    | some a => { l with rxBytes := l.rxBytes ++ laneContent a none }
    | none => l
  else
    let x : RxHalf := { w2 := w2, at' := at', words := ws }
    match l.rxHalf with
    | none => { l with rxHalf := some x }
    | some h =>
      -- the other wavelength's frame of the earlier index never came
      if h.w2 == w2 || decide (h.at' + halfFrame < at') then { l with rxBytes := l.rxBytes ++ h.alone, rxHalf := some x }
      -- the frame of an index that was given up
      else if at' + halfFrame < h.at' then l
      else { l with rxBytes := l.rxBytes ++ h.both x, rxHalf := none }

/-- The line bit of a wavelength at which the frame just taken started. -/
def Wave.frameAt (w : Wave) : Nat := w.rxBits - w.tail.length - 32768

/-- A wavelength's comma was found in its place. -/
def Wave.comma (w : Wave) : Wave :=
  { w with commas := w.commas + 1, missed := 0, lock := w.lock || decide (4 ≤ w.commas + 1) }

/-- Every lane of the port has reached step 6, and link blocks carry LINK_UP (R352, R367 step 7). -/
def State.linkingUp (s : State) (lp : Nat) : Bool := decide ((s.port lp).st = .training) && (s.port lp).trainStep == 6

/-- The lane's content is used: it carries an ACTIVE port, or one whose ends exchange LINK_UP. -/
def State.carries (s : State) (n : Nat) : Bool :=
  (s.laneOwner n).any (fun o => s.linkingUp o.1 ||
    ((s.lane n).st = .inUse && s.portActive o.1 && !(s.port o.1).retraining))

/-- Lane content added by a frame, but not by a training frame, which a partner that is not ACTIVE still sends. -/
def State.keepContent (s : State) (n : Nat) (l l' : Lane) : Lane :=
  let new := l'.rxBytes.drop l.rxBytes.length
  if (s.laneOwner n).any (fun o => !(s.port o.1).peerUp) && recordOk ((new.take 64).map (·.1)) then { l' with rxBytes := l.rxBytes }
  else l'

/-- A frame of a wavelength in lock adds its codewords to the lane content in use; none: it is an idle frame. -/
def State.content (s : State) (n : Nat) (w2 : Bool) (ws : Option (List (List Bool × Bool))) (l : Lane) : Lane :=
  if s.carries n then s.keepContent n l (l.addHalf w2 (l.wave w2).frameAt ws) else l

/-- A data frame of a wavelength in lock: counted, and its codewords added to the lane content. -/
def State.dataFrameIn (s : State) (n : Nat) (w2 : Bool) (bits : List Bool) : State :=
  match frameContent bits with
  | none =>
    let s := (s.bump (Reg.stuffSlip n)).bumpBy (Reg.fecUncorrCw n) 6
    s.modLane n (fun l =>
      s.content n w2 (some lostWave)
        { l with ueTimes := l.ueTimes.filter (fun t => decide (s.now ≤ t + ms)) ++ List.replicate 6 s.now })
  | some c =>
    let d := descramble ((s.lane n).wave w2).rxScr c
    let w := decodeWave d.1
    let s := (s.bumpBy (Reg.fecCorrSym n) w.corrected).bumpBy (Reg.fecUncorrCw n) w.lost
    let s := match s.laneOwner n with
      | some (lp, _) => s.countEv (lp / 4) 0x0A w.corrected none (some (lp % 4))
      | none => s
    s.modLane n (fun l =>
      let l := l.modWave w2 (fun x => { x with rxScr := d.2 })
      s.content n w2 (some w.words)
        { l with ueTimes := l.ueTimes.filter (fun t => decide (s.now ≤ t + ms)) ++ List.replicate w.lost s.now })

/-- The received bits from the first comma on (R348). -/
def findComma : List Bool → Option (List Bool)
  | [] => none
  | b :: bs =>
    if (b :: bs).take 64 = dataComma ∨ (b :: bs).take 64 = idleComma then some (b :: bs) else findComma bs

/-- The next frame in the bits a wavelength holds, what is left of them, and whether it stands where the last one ended:
in lock it is the next 32,768 bits, else it starts at the first comma (R348). -/
def Wave.nextFrame (w : Wave) (bits : List Bool) : Option (List Bool) × List Bool × Bool :=
  let all := w.tail ++ bits
  if w.lock then (some (all.take 32768), all.drop 32768, true)
  else match findComma all with
    | none => (none, all.drop (all.length - 63), false)
    | some r =>
      if r.length < 32768 then (none, r, decide (r.length = all.length))
      else (some (r.take 32768), r.drop 32768, decide (r.length = all.length))

/-- Lock is lost (R348): counted, and the lane of an ACTIVE port is replaced or the port retrains (R367, R377). -/
def State.commaLost (s : State) (n : Nat) (w2 : Bool) : State :=
  let s := (s.bump (Reg.commaLoss n)).modLane n (fun l => l.modWave w2 (fun w => { w with lock := false, commas := 0, missed := 0 }))
  match s.laneOwner n with
  | some (lp, pos) => s.laneFailed lp pos n
  | none => s

/-- A frame without its comma (R348): its content is lost, unless the other wavelength shows that the frame was idle, and
the fourth in a row ends lock. -/
def State.commaMissed (s : State) (n : Nat) (w2 : Bool) : State :=
  let s := s.modLane n (fun l =>
    let l := l.modWave w2 (fun w => { w with missed := w.missed + 1, commas := 0 })
    if (l.wave w2).lock then s.content n w2 (some lostWave) l else l)
  let w := (s.lane n).wave w2
  if w.lock && decide (4 ≤ w.missed) then s.commaLost n w2 else s

/-- One frame of a wavelength. -/
def State.frameIn (s : State) (n : Nat) (w2 : Bool) (bs : List Bool) : State :=
  let head := bs.take 64
  if head = dataComma then
    let locked := ((s.lane n).wave w2).lock
    let s := s.modLane n (fun l => l.modWave w2 Wave.comma)
    let s := s.modLane n (fun (l : Lane) => if l.st = .training && l.w1.lock then { l with st := .locked } else l)
    if locked then s.dataFrameIn n w2 bs else s
  else if head = idleComma then
    s.modLane n (fun l =>
      let l' := l.modWave w2 (fun w => { w.comma with rxScr := seedState (seedOf bs) })
      if (l.wave w2).lock then s.content n w2 none l' else l')
  else s.commaMissed n w2

/-- LANE_FRAME_RECEIVED (R348): the next 32,768 line bits of a wavelength; a Fadami lane's are levels. -/
def execLaneFrameReceived (n : Fin 528) (w2 : Bool) (bits : List Bool) (s : State) : Host.Outcome State Fault Refusal :=
  let l := s.lane n
  if !s.clocked || bits.length ≠ 32768 || l.st = .off || l.st = .faulty || l.st = .test || (w2 && l.fadami) then .next s
  else
    let (bs, l') := l.lineBits w2 bits
    let (frame, rest, inPlace) := (l'.wave w2).nextFrame bs
    let s := s.modLane n (fun _ => l'.modWave w2 (fun w => { w with
      tail := rest, rxBits := w.rxBits + 32768, commas := if inPlace then w.commas else 0 }))
    let s := match s.laneOwner n with
      | some (lp, _) => if s.portActive lp then s.modPort lp (fun p => { p with rx := .active }) else s
      | none => s
    match frame with
    | some f => .next (s.frameIn n w2 f)
    | none => .next s

/-- COMMA_LOSS (R348, R367, R377): four commas in a row are missing. -/
def execCommaLoss (n : Fin 528) (w2 : Bool) (s : State) : Host.Outcome State Fault Refusal :=
  let l := s.lane n
  if !s.powered || !(l.wave w2).lock then .next s else .next (s.commaLost n w2)

/-! ### Link blocks received (R352-R356, R358) -/

/-- The granules a received item's credits count. -/
def tagGranules (tag : W32) : Nat := if fld tag 0 2 = kindCell then 1 else 4 * cdiv (fld tag 6 14) 256

/-- LENGTH is in range for its KIND, and a fill's other fields are 0 (R354, R355). -/
def tagOk (tag : W32) : Bool :=
  let n := fld tag 6 14
  match fld tag 0 2 with
  | 0 => decide (21 ≤ n ∧ n ≤ 8216)
  | 1 => n == 64
  | 2 => decide (4 ≤ n ∧ n ≤ 256) && n % 4 == 0
  | _ => decide (n ≤ 252) && n % 4 == 0 && fld tag 2 4 == 0 && fld tag 20 12 == 0

/-- Send one NAK carrying NEXT, unless one is out (R358). -/
def State.sendNak (s : State) (lp : Nat) : State :=
  let p := s.port lp
  if p.nakOut && decide (s.now < p.nakAt + s.regN (Reg.replayTimeout (lp / 4))) then s
  else
    ((s.sendControl lp [w32 (pack [(0, 0x03), (8, p.rxLseq.toNat)])]).bump (Reg.nakSent (lp / 4))).modPort lp (fun p => { p with
      nakOut := true, nakAt := s.now })

/-- Hand a parsed packet or cell on: R355's checks after its LSEQ. -/
def State.itemIn (s : State) (lp : Nat) (tag : W32) (bs : List Byte) : State :=
  let kind := fld tag 0 2
  let h := hdrOfBytes bs
  let c := cellOfBytes bs
  let term := if kind = kindCell then s.rxTerm c.dest (cMc c) else s.rxTerm h.dest (hMc h)
  if kind = kindPacket && (s.port lp).fadami then s.bump (Reg.kindBad (lp / 4))
  else if term != bit tag 5 then
    (s.bump (Reg.acctBad (lp / 4))).returnCredit lp (fld tag 2 3) (bit tag 5) (tagGranules tag)
  else s.modPort lp (fun p => { p with rxItems := p.rxItems ++ [(tag, bs)] })

/-- One complete item of the tagged stream. -/
def State.streamItem (s : State) (lp : Nat) (tag : W32) (bs : List Byte) : State :=
  let kind := fld tag 0 2
  let vc := fld tag 2 3
  if kind = kindFill then s
  else if kind = kindControl then
    let ct := u8 bs 0
    if 1 ≤ ct ∧ ct ≤ 7 then s.modPort lp (fun p => { p with rxItems := p.rxItems ++ [(tag, bs)] })
    else s.bump (Reg.ctrlBad (lp / 4))
  else if 4 ≤ vc then s.itemIn lp tag bs
  else
    let q : BitVec 12 := BitVec.ofNat 12 (fld tag 20 12)
    if q = (s.port lp).rxLseq then
      (s.modPort lp (fun p => { p with
        rxLseq := p.rxLseq + 1, ackOwed := true, nakOut := false, idleSince := s.now })).itemIn lp tag bs
    else
      let s := s.bump (Reg.lseqDrop (lp / 4))
      if (q - (s.port lp).rxLseq).toNat < 2048 then s.sendNak lp else { s with
        ports := smod {} s.ports lp (fun p => { p with ackOwed := true }) }

/-- Parse the stream as far as it goes: the state, what is left of it, and whether it is in step. -/
def State.parseStream (s : State) (lp : Nat) : Nat → List Byte → State × List Byte × Bool
  | 0, bs => (s, bs, true)
  | f + 1, bs =>
    if bs.length < 4 then (s, bs, true)
    else
      let tag := w32 (u32 bs 0)
      if !tagOk tag then (s.bump (Reg.tagBad (lp / 4)), [], false)
      else
        let n := fld tag 6 14
        let k := 4 + (n + 3) / 4 * 4
        if bs.length < k then (s, bs, true)
        else (s.streamItem lp tag (slice bs 4 n)).parseStream lp f (bs.drop k)

/-- The packet that a lost item of VC4-7 began is not completed: one being cut through is ended at once as R54 states,
another is discarded (R360). -/
def State.cutArrival (s : State) (lp : Nat) (part : List Byte) : State :=
  match s.arrivalOn lp with
  | none => s
  | some a =>
    if hdrOfBytes (part.drop 4) ≠ a.h then s
    else
      let s := match s.ctOf a with
        | some x => (s.bump (Reg.lenMismatch (lp / 4))).ctFinish x true (packetOf a.h (part.drop 20))
        | none => s.returnCredit lp (hVc a.h) (s.rxTerm a.h.dest (hMc a.h)) (hdrGranules a.h)
      s.dropArrival lp

/-- An item that a lost block interrupts is discarded; one of VC4-7 is counted (R355, R360). -/
def State.cutItem (s : State) (lp : Nat) : State :=
  let p := s.port lp
  let tag := w32 (u32 p.rxPart 0)
  let s := if 4 ≤ p.rxPart.length ∧ fld tag 0 2 < 2 ∧ 4 ≤ fld tag 2 3
    then (s.bump (Reg.vc47Lost (lp / 4))).cutArrival lp p.rxPart else s
  s.modPort lp (fun p => { p with rxPart := [], rxSync := false })

/-- Parse the next port block in order: none is a lost one. -/
def State.nextBlock (s : State) (lp : Nat) (b : Option (List Byte)) : State :=
  let s := s.modPort lp (fun p => { p with rxNextBlk := p.rxNextBlk + 1 })
  match b with
  | none => s.cutItem lp
  | some blk =>
    let p := s.port lp
    let body := slice blk 4 256
    let stream := if p.rxSync then p.rxPart ++ body
      else if bit (blk.headD 0) 6 then [] else body.drop (4 * fld (blk.headD 0) 0 6)
    let sync := p.rxSync || !bit (blk.headD 0) 6
    if !sync then s
    else
      let (s, rest, ok) := s.parseStream lp 80 stream
      s.modPort lp (fun p => { p with rxPart := rest, rxSync := ok })

/-- Parse the blocks that are next in order. -/
def State.drainBlocks (s : State) (lp : Nat) : Nat → State
  | 0 => s
  | f + 1 =>
    match (s.port lp).rxBlocks.find? (fun x => x.1 == (s.port lp).rxNextBlk) with
    | none => s
    | some x =>
      let s := s.modPort lp (fun p => { p with rxBlocks := p.rxBlocks.filter (fun y => y.1 != x.1) })
      (s.nextBlock lp x.2).drainBlocks lp f

/-- Place a good block by its BSEQ; numbers its lane skipped are lost (R353). -/
def State.placeBlock (s : State) (lp : Nat) (blk : List Byte) : State :=
  let p := s.port lp
  let k := p.rxNextBlk + (u16 blk 2 + 65536 - p.rxNextBlk % 65536) % 65536
  if 32768 ≤ k - p.rxNextBlk then s
  else
    let lanes := s.laneCount lp
    let lost := ((List.range (k - p.rxNextBlk)).map (p.rxNextBlk + ·)).filter (fun j =>
      j % lanes == k % lanes && !p.rxBlocks.any (fun x => x.1 == j))
    let s := s.modPort lp (fun p => { p with
      rxBlocks := p.rxBlocks.filter (fun x => x.1 != k) ++ lost.map (fun j => (j, none)) ++ [(k, some blk)] })
    let s := if lost.isEmpty then s else s.sendNak lp
    s.drainBlocks lp (s.port lp).rxBlocks.length

/-- The elastic buffer at an idle block: whether it deletes it, or inserts one, the spec leaves to the
two clocks, so both are free (R364, log entry 33). -/
def State.elastic (s : State) (lp : Nat) : State :=
  let (v, s) := s.free
  (s.bumpBy (Reg.idleDeleted (lp / 4)) (b2n (bit v 0))).bumpBy (Reg.idleInserted (lp / 4)) (b2n (bit v 1))

/-- LINK_BLOCK_RECEIVED (R352): the next 264 bytes of a lane's content. -/
def execLinkBlockReceived (n : Fin 528) (s : State) : Host.Outcome State Fault Refusal :=
  if !s.powered then .next s else
  match s.laneOwner n with
  | none => .next s
  | some (lp, _) =>
    let l := s.lane n
    if !s.carries n || l.rxBytes.length < 264 then .next s
    else
      let raw := l.rxBytes.take 264
      let blk := raw.map (·.1)
      let s := s.modLane n (fun l => { l with rxBytes := l.rxBytes.drop 264 })
      if raw.any (·.2) || (crc32c (blk.take 260)).toNat ≠ u32 blk 260 then
        .next (((s.bump (Reg.blockBad (lp / 4))).countEv (lp / 4) 0x08 1 none (some (lp % 4))).sendNak lp)
      else
        let s := if u8 blk 1 ≠ 0 then s.bump (Reg.spareSet (lp / 4)) else s
        if bit (blk.headD 0) 7 then
          .next (if s.runsIndep lp then s.elastic lp else s)
        else .next (s.placeBlock lp blk)

/-! ### Frames sent (R344, R350, R351, R364, R368, R372, R373) -/

/-- `k` bits of `l` inverted from bit `i`. -/
def invertRun (l : List Bool) (i k : Nat) : List Bool :=
  l.take i ++ ((l.drop i).take k).map not ++ l.drop (i + k)

/-- Inject errors into a wavelength's next frame, when armed for it (R373). -/
def State.inject (s : State) (n : Nat) (w2 : Bool) (bits : List Bool) : List Bool × State :=
  let v := s.reg (Reg.injCtrl n)
  let l := s.lane n
  if bit v 2 != w2 then (bits, s)
  else
    let hit := match fld v 0 2 with
      | 1 => l.injArmed
      | 2 => l.injFrames % 2 ^ fld v 13 5 == 0
      | _ => false
    let s := s.modLane n (fun l => { l with injFrames := l.injFrames + 1, injArmed := false })
    if hit then (invertRun bits (64 + 1024) (fld v 3 10), s.bump (Reg.injCount n)) else (bits, s)

/-- Send one wavelength's line bits; a Fadami lane's leave as levels. -/
def State.sendLine (s : State) (n : Nat) (w2 : Bool) (bits : List Bool) : State :=
  let (bits, s) := s.inject n w2 bits
  let l := s.lane n
  if l.fadami then
    let r := pam4 l.w1.txY bits
    (s.modLane n (fun l => { l with w1 := { l.w1 with txY := r.2 } })).emit (.frame n w2 r.1)
  else s.emit (.frame n w2 bits)

/-- 58 seed bits from the lane's PRBS-31 generator (R350). -/
def State.drawSeed (s : State) (n : Nat) : List Bool × State :=
  let r := prbsRun false 58 (s.lane n).prbs31
  (r.1, s.modLane n (fun l => { l with prbs31 := r.2 }))

/-- Send an idle frame on one wavelength and load its seed. -/
def State.sendIdle (s : State) (n : Nat) (w2 : Bool) : State :=
  let (seed, s) := s.drawSeed n
  (s.modLane n (fun l => l.modWave w2 (fun w => { w with txScr := seedState seed }))).sendLine n w2 (idleFrame seed)

/-- Send lane content as one lane frame; true when it left, false when idle frames took its place. -/
def State.sendContent (s : State) (n : Nat) (content : List Byte) : Bool × State :=
  let l := s.lane n
  let msgs := if l.fadami then (bitsOfBytes content, []) else splitContent content
  let a := scramble l.w1.txScr (encodeWave msgs.1)
  let b := scramble l.w2.txScr (encodeWave msgs.2)
  match dataFrame a.1, if l.fadami then some [] else dataFrame b.1 with
  | some f1, some f2 =>
    let s := s.modLane n (fun l => { l with w1 := { l.w1 with txScr := a.2 } })
    let s := if l.fadami then s else s.modLane n (fun l => { l with w2 := { l.w2 with txScr := b.2 } })
    let s := s.sendLine n false f1
    (true, if l.fadami then s else s.sendLine n true f2)
  | _, _ =>
    let s := (s.bump (Reg.hostileIdle n)).sendIdle n false
    (false, if l.fadami then s else s.sendIdle n true)

/-- Bytes of lane content in one lane frame. -/
def frameBytes (fadami : Bool) : Nat := if fadami then 3855 else 7710

/-- The training record a lane sends now (R368). -/
def State.trainingRecord (s : State) (n lp : Nat) : List Byte :=
  let l := s.lane n
  let p := s.port lp
  let cfg := s.reg (Reg.portCfg (lp / 4))
  -- a spare trains by its own steps, its port being ACTIVE (R376)
  let st := if (s.laneOwner n).isNone then
      (if l.sameIds < 8 then 1 else if l.fadami && !p.fadami then 2 else if !s.eqReady n then 3 else 4)
    else if p.trainStep < 3 then 1 else if p.trainStep = 3 && s.goesNative lp then 2 else if p.trainStep < 5 then 3 else 4
  let at' := (if (s.laneOwner n).isNone then l.ownSwitch else p.ownSwitch).getD (l.frameNo + 64).toNat
  let caps := pack [(0, b2n (!bit cfg 4)), (1, b2n (bit cfg 5)), (2, b2n (bit cfg 2)), (3, 1)]
  let r := [byte st, byte caps] ++ leBytes 2 l.frameNo.toNat ++ leBytes 8 (s.identity n).toNat ++
    leBytes 4 (s.ownCoord.toNat / 256 * 256) ++ leBytes 2 at' ++ leBytes 4 l.eqRequest.toNat ++
    [byte (b2n l.eqAck), 0] ++ leBytes 2 l.rxFrameNo.toNat ++ leBytes 4 (if l.rxAt = 0 then 0 else s.now - l.rxAt) ++
    List.replicate 30 0
  r ++ leBytes 4 (crc32c r).toNat

/-- Send one training frame and note when it left. -/
def State.sendTraining (s : State) (n lp : Nat) : State :=
  let r := s.trainingRecord n lp
  let c := r ++ List.replicate (frameBytes (s.lane n).fadami - 64) 0
  let (sent, s) := (s.emit (.training n r)).sendContent n c
  if sent then
    s.modLane n (fun l => { l with frameNo := l.frameNo + 1, frames := (l.frames ++ [(l.frameNo, s.now)]).drop (l.frames.length - 1023) })
  else s

/-- Cut every block that waits, up to `f`. -/
def cutBlocks : Nat → Port → Port
  | 0, p => p
  | f + 1, p => if p.txStream.isEmpty && p.txQ.isEmpty then p else cutBlocks f (cutBlock p)

/-- Fill a lane's content with its next blocks, idle blocks where none is ready (R353, R364, R377). -/
def State.fillLane (s : State) (n lp pos need : Nat) : Nat → State
  | 0 => s
  | f + 1 =>
    let l := s.lane n
    if need ≤ l.txBytes.length then s
    else
      let p := s.port lp
      let lanes := s.laneCount lp
      -- a waking transmitter sends frames, and resumes blocks once awake (R375)
      let next := p.txBlocks.find? (fun b => p.txWakeAt.isNone && b.1 % lanes == pos && (match p.holdFrom with | some h => decide (b.1 < h) | none => true))
      let mustIdle := s.runsIndep lp && decide (2047 ≤ l.idleRun)
      match next, mustIdle with
      | some b, false =>
        ((s.modPort lp (fun p => { p with
          txBlocks := p.txBlocks.filter (fun x => x.1 != b.1) })).modLane n (fun l => { l with
          txBytes := l.txBytes ++ b.2, idleRun := l.idleRun + 1 })).fillLane n lp pos need f
      | _, _ =>
        (s.modLane n (fun l => { l with txBytes := l.txBytes ++ idleBlock, idleRun := 0 })).fillLane n lp pos need f

/-- Send the next lane frame of an ACTIVE port. -/
def State.sendBlocks (s : State) (n lp pos : Nat) : State :=
  let k := frameBytes (s.lane n).fadami
  let s := if (s.port lp).tx = .active && (s.port lp).txWakeAt.isNone then s.modPort lp (cutBlocks 128) else s
  let s := s.fillLane n lp pos k 40
  let (sent, s) := s.sendContent n ((s.lane n).txBytes.take k)
  if sent then s.modLane n (fun l => { l with txBytes := l.txBytes.drop k, frameNo := l.frameNo + 1 }) else s

/-- Send the next lane frame of a port that waits for LINK_UP: link blocks with LINK_UP and the INIT credits again, which
position 0 repeats until the partner answers, and in every other frame a READY record for a partner that is not at step 6
yet (R356, R367, DESIGN CHOICE, log entry 60). -/
def State.sendLinking (s : State) (n lp pos : Nat) : State :=
  if (s.lane n).frameNo.toNat % 2 = 0 then s.sendTraining n lp
  else (if pos = 0 then s.sendLinkUp lp else s).sendBlocks n lp pos

/-- The initiator of a swap repeats SPARE_SWAP until it is answered, after each REPLAY_TIMEOUT (R356, DESIGN CHOICE, log
entry 60). -/
def State.repeatSwap (s : State) (lp : Nat) : State :=
  match (s.port lp).swap with
  | some x =>
    if x.initiator && x.partnerAt.isNone && decide (x.sentAt + s.regN (Reg.replayTimeout (lp / 4)) ≤ s.now)
    then s.swapSend lp x 0x05 else s
  | none => s

/-- Send a raw PRBS stream on one wavelength (R372). -/
def State.sendPrbs (s : State) (n : Nat) (w2 : Bool) : State :=
  let p13 := fld (s.reg (Reg.prbsCtrl n)) 0 2 == 2
  let r := prbsRun p13 32768 ((s.lane n).wave w2).prbsGen
  (s.modLane n (fun l => l.modWave w2 (fun w => { w with prbsGen := r.2 }))).sendLine n w2 r.1

/-- LANE_FRAME_TRANSMIT (R350). -/
def execLaneFrameTransmit (n : Fin 528) (s : State) : Host.Outcome State Fault Refusal :=
  let l := s.lane n
  if !s.clocked then .next s
  else match l.st with
    | .test =>
      if fld (s.reg (Reg.prbsCtrl n)) 0 2 = 0 then .next s
      else
        let s := s.sendPrbs n false
        .next (if bit (s.reg (Reg.prbsCtrl n)) 4 then s.sendPrbs n true else s)
    | .training | .locked =>
      match s.laneOwner n, s.spareTarget n with
      | some (lp, pos), _ => .next (if s.linkingUp lp then s.sendLinking n lp pos else s.sendTraining n lp)
      | none, some p =>
        match s.spareFor n p with
        | some lp => .next (s.sendTraining n lp)
        | none => .next s
      | none, none => .next s
    | .inUse =>
      match s.laneOwner n with
      | some (lp, pos) =>
        if !s.portActive lp || (s.port lp).retraining || ((s.port lp).tx ≠ .active && (s.port lp).txWakeAt.isNone && (s.port lp).txBlocks.isEmpty) then .next s
        else .next (((s.repeatSwap lp).sendBlocks n lp pos).tryOff lp)
      | none => .next s
    | _ => .next s

/-! ### Eye scan, equalisation registers, PRBS and injection (R370-R373) -/

/-- A write to EYE_CTRL. -/
def wrEyeCtrl (n : Nat) : WriteFn := fun s v =>
  let eye := fld v 21 2
  let l := s.lane n
  if fld v 16 5 < 10 || 36 < fld v 16 5 || eye = 3 || (!l.fadami && eye ≠ 0) then none
  else if bit v 0 && l.eyeBusy then none
  else
    let s := s.setReg (Reg.eyeCtrl n) (v &&& ~~~1)
    some (if bit v 0 then s.modLane n (fun l => { l with eyeBusy := true, eyeDone := false }) else s)

/-- EYE_SCAN_START (R371). -/
def execEyeScanStart (r : Requester) (n : Fin 528) (v : W32) (s : State) : Host.Outcome State Fault Refusal :=
  writeCmd s r (Reg.eyeCtrl n) (w64 v.toNat) (wrEyeCtrl n)

/-- EYE_SCAN_DONE (R371): `errs` are the disagreements found. -/
def execEyeScanDone (n : Fin 528) (errs : W64) (s : State) : Host.Outcome State Fault Refusal :=
  if !s.powered then .next s else
  if !(s.lane n).eyeBusy then .next s
  else
    let bits := 2 ^ fld (s.reg (Reg.eyeCtrl n)) 16 5
    .next (((s.setReg (Reg.eyeBits n) (w64 bits)).setReg (Reg.eyeErrs n) errs).modLane n (fun l => { l with
      eyeBusy := false, eyeDone := true }))

/-- A write to TXEQ_W1 or TXEQ_W2 within R370's limits. -/
def wrTxeq (off : Nat) : WriteFn := fun s v =>
  if eqOk (fld v 0 4) (fld v 4 5) then some (s.setReg off v) else none

/-- No ACTIVE or TRAINING port uses the lane (R372). -/
def State.laneFree (s : State) (n : Nat) : Bool :=
  match s.laneOwner n with
  | none => decide ((s.lane n).st ≠ .training ∧ (s.lane n).st ≠ .locked)
  | some (lp, _) => !decide ((s.port lp).st = .active ∨ (s.port lp).st = .training)

/-- A write to PRBS_CTRL (R372). -/
def wrPrbsCtrl (n : Nat) : WriteFn := fun s v =>
  if fld v 0 2 = 3 || fld v 2 2 = 3 || !s.laneFree n then none
  else
    let on := fld v 0 4 ≠ 0
    let s := s.setReg (Reg.prbsCtrl n) v
    let s := if fld v 2 2 = 0 then s else
      [Reg.prbsBitsW1 n, Reg.prbsErrsW1 n, Reg.prbsBitsW2 n, Reg.prbsErrsW2 n].foldl (fun s o => s.setReg o 0) s
    let clear := fun (w : Wave) => { w with prbsLock := false, prbsClean := 0, prbsRx := 0 }
    some (s.modLane n (fun l => { l with
      st := if on then .test else if l.st = .test then .off else l.st, shutter := on || (l.st ≠ .test && l.shutter),
      w1 := clear l.w1, w2 := clear l.w2 }))

/-- PRBS_CTRL_WRITE (R372). -/
def execPrbsCtrlWrite (r : Requester) (n : Fin 528) (v : W32) (s : State) : Host.Outcome State Fault Refusal :=
  writeCmd s r (Reg.prbsCtrl n) (w64 v.toNat) (wrPrbsCtrl n)

/-- The checker over received bits: unlocked it seeds itself from them and locks after 64 error-free
bits, then it counts (R372). The counts are bits compared and errors. -/
def prbsCheck (p13 : Bool) : List Bool → Wave → Wave × Nat × Nat
  | [], w => (w, 0, 0)
  | b :: bs, w =>
    let good := prbsBit p13 w.prbsRx == b
    if w.prbsLock then
      let r := prbsCheck p13 bs { w with prbsRx := pushBit w.prbsRx (prbsBit p13 w.prbsRx) }
      (r.1, r.2.1 + 1, r.2.2 + b2n (!good))
    else
      let seed := if p13 then 13 else 31
      let clean := if good || decide (w.prbsClean < seed) then w.prbsClean + 1 else 0
      let lock := decide (seed + 64 ≤ clean)
      prbsCheck p13 bs { w with prbsRx := pushBit w.prbsRx b, prbsClean := clean, prbsLock := lock }

/-- PRBS_CHECKER_LOCK (R372). -/
def execPrbsCheckerLock (n : Fin 528) (w2 : Bool) (bits : List Bool) (s : State) : Host.Outcome State Fault Refusal :=
  let v := s.reg (Reg.prbsCtrl n)
  if !s.powered || (s.lane n).st ≠ .test || fld v 2 2 = 0 || (w2 && !bit v 4) then .next s
  else
    let (w, k, e) := prbsCheck (fld v 2 2 == 2) bits ((s.lane n).wave w2)
    let s := s.modLane n (fun l => l.modWave w2 (fun _ => w))
    let bo := if w2 then Reg.prbsBitsW2 n else Reg.prbsBitsW1 n
    let eo := if w2 then Reg.prbsErrsW2 n else Reg.prbsErrsW1 n
    .next ((s.setReg bo (s.reg bo + w64 k)).setReg eo (s.reg eo + w64 e))

/-- A write to INJ_CTRL (R373, R381). -/
def wrInjCtrl (n : Nat) : WriteFn := fun s v =>
  if fld v 0 2 = 3 || (fld v 0 2 ≠ 0 && fld v 3 10 = 0) || 20 < fld v 13 5 then none
  else some ((s.setReg (Reg.injCtrl n) v).modLane n (fun l => { l with
    injArmed := decide (fld v 0 2 = 1), injFrames := 0 }))

/-- INJ_CTRL_WRITE (R373). -/
def execInjCtrlWrite (r : Requester) (n : Fin 528) (v : W32) (s : State) : Host.Outcome State Fault Refusal :=
  writeCmd s r (Reg.injCtrl n) (w64 v.toNat) (wrInjCtrl n)

end Sys2Proof.Machine
end

