-- ==== Sys2Proof/Machine/Status.lean ====
section
/-! DEFINITION. Derived status: power limits and interlocks (R434, R438, R451-R453), assured operation
(R403), boot status and the part's own values (R189, R190, R474, R482). -/

namespace Sys2Proof.Machine

def State.modPwr (s : State) (f : Power → Power) : State := { s with pwr := f s.pwr }
def State.modFault (s : State) (f : FaultUnit → FaultUnit) : State := { s with fault := f s.fault }
def State.modHost (s : State) (f : HostIf → HostIf) : State := { s with host := f s.host }
def State.modMgmt (s : State) (f : Mgmt → Mgmt) : State := { s with mgmt := f s.mgmt }
def State.modBoot (s : State) (f : Boot → Boot) : State := { s with boot := f s.boot }

/-! ### Interlocks and caps -/

/-- The sensor-fault state (R447, R448). -/
def Power.sensorFault (p : Power) : Bool := decide (p.leak = .failed) || p.blind
/-- An emergency throttle holds: flow loss, leak wet, or Tj at or above 110 °C (R444, R446, R449). -/
def Power.emergency (p : Power) : Bool := p.flowLoss || p.leakLatched || p.over110
/-- A state of R451 holds. -/
def Power.outside (p : Power) : Bool := p.over105 || p.flowLoss || p.leakLatched || p.sensorFault || p.emergency

/-- The effective cap (R438). -/
def State.effCap (s : State) : Nat :=
  let p := s.pwr
  let c := min p.hostCap p.trayCap
  let c := if p.shelf then min c (s.regN Reg.shelfCap) else c
  if p.sensorFault then min c (s.regN Reg.sensorFaultCap) else c

/-- The throttle stage's output in percent; 100 before an input has driven it. -/
def Power.stageThrottle (p : Power) : Nat := if p.throttleSt.driven then p.throttleSt.out.toNat else 100
/-- The power request level (R453); 1,500 W before an input has driven it. -/
def Power.preq (p : Power) : Nat := if p.request.driven then p.request.out.toNat else 1500
/-- Cooling demand in 1/256: forced to full during flow loss and leak wet (R453). -/
def Power.coolDuty (p : Power) : Nat := if p.flowLoss || p.leakLatched then 256 else p.cooling.out.toNat
/-- The throttle state in force, in percent (R453). -/
def Power.throttleNow (p : Power) : Nat :=
  let t := min p.stageThrottle 100
  let t := if p.emergency then min t 35 else t
  if p.thermOn then min t (p.thermLimit * 100 / 1900) else t

/-- The power limit: the lowest of the active limits of ranks 2 and 3, the power request level, what the throttle state
allows and 1,900 W; the thermal limit is one in watts (R434, R438, R449, R453). -/
def State.powerLimit (s : State) : Nat :=
  let p := s.pwr
  let l := min (min 1900 s.effCap) (min p.preq (min p.stageThrottle 100 * 19))
  let l := if p.emergency then min l 665 else l
  if p.thermOn then min l p.thermLimit else l

/-- The bin of bench `b` while awake (R433): the common bin, its ageing bin, and live margin. -/
def State.benchBinOf (s : State) (b : Nat) : Nat := max s.pwr.benchBin (max (sget 0 s.pwr.curBin b) (sget 0 s.pwr.ageBin b))
/-- The switching core runs at bin 1 (R433). -/
def State.swcBin (s : State) : Bool := bit (s.reg Reg.fmaxCtrl) 3 || s.pwr.swcAged || decide (sget 0 s.pwr.curBin 100 ≠ 0)

/-- ALERT_N is asserted (R457): by any event but the thermal trip. -/
def State.alertLow (s : State) : Bool :=
  s.aonUp && bit (s.reg Reg.pwrCtrl) 1 && decide (s.reg Reg.alertStatus &&& ~~~w64 (2 ^ 0x0C) ≠ 0)
/-- COOL_DEMAND is driven (R443). -/
def State.coolDriven (s : State) : Bool := s.aonUp && bit (s.reg Reg.pwrCtrl) 0

/-- The device is outside its operating conditions (R451, R521): a state of R451, Tj below 0 °C, or a reference clock lost. -/
def State.outside (s : State) : Bool := s.pwr.outside || decide (s.pwr.tj < 0) || !s.clk.fabRef || !s.clk.cxlRef

/-- Assured operation (R403). -/
def State.assured (s : State) : Bool :=
  s.powered && bit (s.reg Reg.scCtrl) 4 && bit (s.reg Reg.arithCtrl) 0 && bit (s.reg Reg.arithCtrl) 1 &&
  bit (s.reg Reg.poolCtrl) 1 && !s.outside

/-! ### Levels, benches, the part -/

/-- LEVEL of FAULT_STATUS (R431). -/
def State.level (s : State) : Nat :=
  match s.fault.reset with
  | some r => r.level
  | none => if s.fault.oos then 3 else 0

/-- Physical benches that the map leaves in, ascending (R189). -/
def enabledBenches : List Nat := (List.range 104).filter (fun k => !disabledBenches.contains k)
/-- The physical bench of logical bench `b` (R190). -/
def physBench (b : Nat) : Nat := enabledBenches.getD b 0

/-- Logical ports ACTIVE. -/
def State.portsActive (s : State) : Nat := (s.lports.filter s.portActive).length
def State.benchesAwake (s : State) : Nat := (s.benches.filter (fun e => decide (e.2.st = .awake))).length

/-! ### Boot and identity -/

/-- BOOT_STATUS (R482). -/
def State.bootStatus (s : State) : Nat :=
  let b := s.boot
  pack [(0, match s.bootStep with | some n => n - 1 | none => 9), (4, b2n b.image), (5, b2n b.fallback),
    (8, b.reasonA.toNat), (12, b.reasonB.toNat), (16, b2n s.hostReached), (17, b2n s.ready), (18, b2n b.oosAtBoot)]

/-- The digest that key slot `k` holds; all 0 means empty (R463). -/
def slotKey (k : Nat) : List Byte := leBytes 64 (Config.slotFuses k).toNat
def slotFilled (k : Nat) : Bool := decide (k ≤ 3) && Config.slotFuses k != 0
/-- Slots revoked: at least 2 of 3 bits fused at manufacture, or every bit since (R463, R471). -/
def State.revoked (s : State) (k : Nat) : Bool :=
  let w := Config.revokeFuses k
  decide (2 ≤ k) && (decide (2 ≤ ((List.range 3).filter (fun i => w.getLsbD i)).length) ||
    (k == 2 && s.boot.revoke2) || (k == 3 && s.boot.revoke3))
/-- The bits of the SVN fuses that read 1 at manufacture (R463). -/
def fusedSvn : Nat := ((List.range 32).filter (fun i => Config.svnFuses.getLsbD i)).length
/-- The fused SVN now, 0 to 32. -/
def State.svn (s : State) : Nat := min 32 (fusedSvn + s.boot.svnAdded)
/-- KEY_STATUS (R482). -/
def State.keyStatus (s : State) : Nat :=
  pack [(0, b2n (slotFilled 0)), (1, b2n (slotFilled 1)), (2, b2n (slotFilled 2)), (3, b2n (slotFilled 3)), (6, b2n (s.revoked 2)), (7, b2n (s.revoked 3)), (8, s.svn), (16, b2n Config.debugFuse)]
/-- DEBUG_STATUS (R482). -/
def State.debugStatus (s : State) : Nat :=
  pack [(0, s.boot.debugLevel.toNat), (2, b2n s.boot.lockout), (3, b2n s.boot.identityErased)]

/-- The ASCII bytes that R475 appends to the secret. -/
def identityLabel : List Byte :=
  [0x51, 0x4F, 0x52, 0x4C, 0x49, 0x54, 0x48, 0x2D, 0x49, 0x44, 0x45, 0x4E, 0x54, 0x49, 0x54, 0x59, 0x2D, 0x56, 0x31]
/-- The 96-byte identity seed (R475). -/
def identitySeed : List Byte := Config.shake256 (Config.deviceSecret ++ identityLabel) 96
/-- The identity hash (R474): 64 bytes. -/
def identityHash : List Byte := Config.shake256 (Config.slhPublic identitySeed) 64

/-- HOST_STATUS (R402). -/
def State.hostStatus (s : State) : Nat :=
  let h := s.host
  pack [(0, b2n h.linkUp), (1, b2n h.cxlMode), (2, h.width), (5, h.speed), (8, b2n h.memActive), (9, b2n h.fenced)]

/-- PWR_STATUS (R462). -/
def State.pwrStatus (s : State) : Nat :=
  let p := s.pwr
  pack [(0, p.throttleNow), (8, b2n p.capFloor), (9, b2n p.emergency), (10, b2n p.sensorFault), (11, b2n p.flowLoss),
    (12, b2n p.leakLatched), (13, b2n p.shelf), (14, b2n p.policyConflict), (15, b2n p.capDeficit), (16, b2n p.thermOn),
    (17, b2n s.outside), (18, p.benchBin)]

/-- FAULT_STATUS (R431). -/
def State.faultStatus (s : State) : Nat :=
  pack [(0, b2n s.assured), (1, b2n s.fenceActive), (2, s.level), (4, s.fault.lastSevere.toNat)]

/-- DEV_STATUS (R504). -/
def State.devStatus (s : State) : Nat :=
  pack [(0, b2n (bit (s.reg Reg.devStatus) 0)), (1, b2n s.ready), (2, b2n s.assured), (3, b2n s.fenceActive), (4, s.level),
    (6, fld s.timeStatus 0 2), (8, b2n s.host.linkUp), (9, b2n s.host.memActive), (10, b2n (s.lockBit .global))]

/-! ### Ports and lanes -/

def PortState.num : PortState → Nat
  | .down => 0 | .training => 1 | .active => 2 | .failed => 3 | .outOfService => 4
def DirState.num : DirState → Nat
  | .active => 0 | .doze => 1 | .nap => 2 | .off => 3
def LaneState.num : LaneState → Nat
  | .off => 0 | .training => 1 | .locked => 2 | .inUse => 3 | .standby => 4 | .faulty => 5 | .test => 6

/-- PORT_STATUS (R380). -/
def portStatusOf (p : Port) : Nat :=
  pack [(0, p.st.num), (3, b2n p.retraining), (4, p.reason), (8, p.tx.num), (10, p.rx.num), (12, b2n p.fadami),
    (13, b2n p.partnerFabric), (14, b2n p.partnerCellsOnly), (15, b2n p.partnerIndep)]
/-- LANE_STATUS (R381). -/
def laneStatusOf (l : Lane) : Nat :=
  pack [(0, l.st.num), (3, b2n l.fadami), (4, b2n l.miscabled), (5, b2n l.w1.lock), (6, b2n l.w2.lock), (8, l.position % 4)]

end Sys2Proof.Machine
end

