-- ==== Sys2Proof/Machine/RegRead.lean ====
section
/-! DEFINITION. The value that every BAR0 register reads: stored in `State.regs`, or computed from the
structured state that holds what it reports (R8, R484, R502, and each chapter's register table). -/

namespace Sys2Proof.Machine

/-- Bytes of a 32-bit word at byte `i` of a byte string. -/
def wordAt (bs : List Byte) (i : Nat) : Nat := ofLe (slice bs i 4)

/-- The context record of R289: register at offset `o` within it. -/
def ctxReg (x : Ctx) (o : Nat) : Option Nat :=
  match o with
  | 0x00 => some (pack [(0, match x.st with | .free => 0 | .opened => 1 | .closing => 2 | .resting => 3),
      (8, x.gen.toNat), (16, x.perms.toNat)])
  | 0x04 => some x.part.toNat
  | 0x08 => some (fld x.benchSet 0 32)
  | 0x0C => some (fld x.benchSet 32 32)
  | 0x10 => some (fld x.benchSet 64 32)
  | 0x14 => some (fld x.benchSet 96 32)
  | 0x18 => some x.crucibleQuota
  | 0x1C => some x.loamQuota
  | 0x20 => some x.subsoilQuota
  | 0x24 => some (pack [(0, x.ltFirst), (16, x.ltCount - 1)])
  | 0x28 => some x.collBase
  | 0x30 => some x.jobSeed.toNat
  | 0x38 => some x.doneAddr
  | _ => none

/-- A replay register of R340 that reports state. -/
def rplReg (r : Rpl) (used o : Nat) : Option Nat :=
  match o with
  | 0x04 => some (pack [(0, match r.st with
      | .idle => 0 | .recording => 1 | .replaying => 2 | .stopped => 3 | .done => 4 | .diverged => 5 | .refused => 6),
      (8, r.code.toNat), (16, r.reason.toNat), (19, b2n r.overflow), (20, b2n r.clean), (21, b2n r.fwMatch),
      (22, b2n r.mapMatch)])
  | 0x18 => some used
  | 0x20 => some r.rseq
  | 0x24 => some r.divergeRseq
  | _ => none

/-- Global block (R288, R289, R340, R341, R431, R502). -/
def State.viewGlobal (s : State) (o : Nat) : Option Nat :=
  if 0x10000 ≤ o && o < 0x18000 then
    let slot := (o - 0x10000) / 32
    some (match s.fault.log.find? (fun e => e.seq % 1024 == slot) with
      | some e => wordAt e.bytes (o % 32)
      | none => 0)
  else if 0x4000 ≤ o && o < 0x8000 then ctxReg (s.ctx ((o - 0x4000) / 0x40)) (o % 0x40)
  else if 0x8000 ≤ o && o < 0xC000 then rplReg (s.rplOf ((o - 0x8000) / 0x40)) (s.logUsed ((o - 0x8000) / 0x40)) (o % 0x40)
  else match o with
    | 0x10 => some s.devStatus
    | 0x14 => some s.portsActive
    | 0x18 => some s.benchesAwake
    | 0x1000 => some s.clk.ftime.toNat
    | 0x1018 => some s.timeStatus.toNat
    | 0x101C => some (tc 32 s.clk.lastOffset)
    | 0x1110 => some (cdiv (4 * s.ltSize + 10000) 10000 + s.regN Reg.wakeLead)
    | 0x1114 => some s.launch.listed.length
    | 0x2044 => some (s.ctxResult.toNat + 256 * b2n s.ctxCmd.isSome)
    | 0xC000 => some s.rplActive
    | 0xC008 => some s.recqDepth
    | 0xD004 => some s.faultStatus
    | 0xD020 => some (pack [(0, b2n s.fault.dumpValid), (2, b2n s.fault.dumpTrunc)])
    | 0xD024 => some s.fault.dumpSeq
    | 0xD068 => some s.fault.next
    | _ => none

/-- Switching core and collective unit (R85, R156). -/
def State.viewSwitch (s : State) (o : Nat) : Option Nat :=
  match o with
  | 0x100014 => some s.sharedUnits
  | 0x100018 => some s.bufSharedFree
  | 0x100024 => some (cdiv s.sw.intUsed 4)
  | 0x100028 => some s.sw.quar
  | 0x104014 => some (if s.collEn then s.spillFree else 0)
  | 0x104020 => some (s.coll.insts.filter (·.live)).length
  | 0x104024 => some (s.coll.insts.filter (fun i => !i.live)).length
  | 0x104028 => some s.fritUsed
  | _ =>
    if 0x100060 ≤ o && o < 0x100080 then
      some ([16896, 4096, 32768, 16896, 16896, 16896, 16896, 16896].getD ((o - 0x100060) / 4) 0)
    else none

/-- Routing (R108, R111). -/
def State.viewRoute (s : State) (o : Nat) : Option Nat :=
  match o with
  | 0x200008 => some (b2n s.route.activeBank)
  | 0x20001C => some (pack [(0, s.route.swap.toNat), (2, s.route.reason.toNat), (4, b2n s.route.copyUntil.isSome)])
  | _ => if 0x400000 ≤ o then some (sget 0 s.route.tbl o).toNat else none

/-- A port block register (R112, R380): block `p`, offset `o` within it. -/
def State.viewPort (s : State) (p o : Nat) : Option Nat :=
  if 0x40 ≤ o && o < 0xC0 then
    let x := s.port (4 * p + (o - 0x40) / 0x20)
    match (o - 0x40) % 0x20 with
    | 0x04 => some (portStatusOf x)
    | 0x08 => some x.partnerCoord.toNat
    | 0x0C => some x.rttNs.toNat
    | 0x14 => some x.freqOffset.toNat
    | _ => none
  else if 0xA000 ≤ o && o < 0xA800 && o % 0x40 = 0x20 then
    some (s.qdepth (4 * p + (o - 0xA000) / 0x200) ((o - 0xA000) % 0x200 / 0x40))
  else none

/-- A lane block register (R381). -/
def State.viewLane (s : State) (n o : Nat) : Option Nat :=
  let l := s.lane n
  match o with
  | 0x000 => some (laneStatusOf l)
  | 0x010 => some l.partnerId.toNat
  | 0x084 => some (pack [(0, b2n l.eyeBusy), (1, b2n l.eyeDone)])
  | 0x0C4 => some (pack [(0, b2n l.w1.prbsLock), (1, b2n l.w2.prbsLock)])
  | _ => none

/-- A bench block register (R211, R212). -/
def State.viewBench (s : State) (b o : Nat) : Option Nat :=
  if 100 ≤ b then
    some (if o = 0 then pack [(0, disabledBenches.getD (b - 100) 0), (8, 0x7F)] else 0)
  else
    let x := s.bench b
    if 0x100 ≤ o && o < 0x300 then
      let c := s.core (b * 8 + (o - 0x100) / 0x40)
      match (o - 0x100) % 0x40 with
      | 0x00 => some (pack [(0, match c.run with | .halted => 0 | .running => 1 | .waiting => 2 | .stopped => 3),
          (8, c.cause.toNat)])
      | 0x04 => some c.excPc.toNat
      | 0x08 => some c.excAddr.toNat
      | 0x14 => some (pack [(0, c.dmaStatus.toNat), (8, c.dmaQ.length)])
      | _ => none
    else match o with
      | 0x00 => some (pack [(0, physBench b), (8, b), (15, 1)])
      | 0x04 => some (pack ([(0, match x.st with | .asleep => 0 | .waking => 1 | .awake => 2), (2, b2n (b == 99))] ++
          (match s.coreCtx b with
            | some c => [(3, 1), (8, c), (16, (s.ctx c).gen.toNat)]
            | none => [])))
      | 0x18 => some (s.adderDepth b)
      | 0x20 => some x.items.length
      | _ => none

/-- A memory controller register (R320). -/
def State.viewMem (s : State) (m o : Nat) : Option Nat :=
  let x := s.memCtl m
  match o with
  | 0x00 => some (pack [(0, match x.st with | .selfRefresh => 0 | .waking => 1 | .active => 2 | .training => 3),
      (4, x.refresh)])
  | 0x10 => some x.ueAddr
  | 0x18 => some (((s.pool.poisoned.map s.homeLine) ++ s.pool.hidden).filter (fun l => memOf (64 * l) == m)).length
  | 0x1C => some x.passes
  | 0x20 => some x.scrubPos
  | _ => none

/-- The pool unit and the window table (R289, R318). -/
def State.viewPool (s : State) (o : Nat) : Option Nat :=
  if 0x3120000 ≤ o then some (sget 0 s.pool.windows ((o - 0x3120000) / 4)).toNat
  else match o with
    | 0x3110014 => some s.pool.results.length
    | 0x3110018 => some s.poolBusy
    | 0x3110044 => some (s.pool.winResult.toNat + 256 * b2n (decide (s.now < s.pool.winBusyUntil)))
    | 0x3110048 => some s.pool.flushing.length
    | _ => none

/-- An output stage's registers (R462). -/
def stageReg (x : Stage) (o : Nat) : Nat :=
  match o with
  | 0x0 => pack [(0, x.sVal.toNat), (16, x.sClaim.toNat), (24, b2n x.sStale)]
  | 0x4 => pack [(0, x.gVal.toNat), (16, 0x40)]
  | 0x8 => pack [(0, x.out.toNat), (16, b2n x.tie), (17, b2n x.held)]
  | _ => 0

/-- Power, thermal and ageing (R462). -/
def State.viewPower (s : State) (o : Nat) : Option Nat :=
  let p := s.pwr
  if 0x60 ≤ o && o < 0x90 then
    some (stageReg (match o / 0x10 with | 6 => p.cooling | 7 => p.request | _ => p.throttleSt) (o % 0x10))
  else if 0x100 ≤ o && o < 0x1C0 then
    let k := (o - 0x100) / 4
    some (pack [(0, tc 16 (p.temps.getD k 0)), (16, b2n (p.failedSensors.contains k))])
  else if 0x240 ≤ o && o < 0x284 then
    some ((p.eqStale.filter (fun n => n / 32 == (o - 0x240) / 4)).foldl (fun a n => a + 2 ^ (n % 32)) 0)
  else if 0x300 ≤ o && o < 0x490 then
    let b := (o - 0x300) / 4
    some (pack [(0, tc 8 (sget 0 p.guard b)), (8, sget 0 p.live b), (16, s.benchBinOf b),
      (19, sget 0 p.ageBin b)])
  else match o with
    | 0x004 => some p.hostCap
    | 0x008 => some p.trayCap
    | 0x014 => some s.effCap
    | 0x020 => some s.pwrStatus
    | 0x024 => some (p.powerNow % 4096)
    | 0x028 => some (p.powerAvg % 4096)
    | 0x02C => some (p.preq % 2048)
    | 0x040 => some (pack [(0, tc 16 p.tj), (16, p.tjRegion)])
    | 0x044 => some ((p.failedSensors.filter (· < 32)).foldl (fun a k => a + 2 ^ k) 0)
    | 0x048 => some ((p.failedSensors.filter (32 ≤ ·)).foldl (fun a k => a + 2 ^ (k - 32)) 0)
    | 0x050 => some (pack [(0, match p.leak with | .unarmed => 0 | .dry => 1 | .wet => 2 | .failed => 3),
        (2, b2n p.leakLatched)])
    | 0x058 => some (min 65535 (p.flowEdges.filter (fun t => decide (s.now < t + sec))).length)
    | 0x204 => some (pack [(0, p.lehrStep), (3, b2n p.lehrPaused), (4, b2n (!p.lehrDeferred.isEmpty))])
    | 0x208 => some p.epochGain
    | 0x20C => some p.passGain
    | 0x210 => some (pack [(0, tc 8 (sget 0 p.guard 100)), (8, sget 0 p.live 100), (16, b2n s.swcBin), (17, b2n p.swcAge)])
    | _ => none

/-- Boot and security (R482). -/
def State.viewBoot (s : State) (o : Nat) : Option Nat :=
  match o with
  | 0x000 => some s.bootStatus
  | 0x004 => some s.boot.timeHost
  | 0x008 => some s.boot.timeReady
  | 0x00C => some (b2n s.boot.primary)
  | 0x010 => some s.keyStatus
  | 0x020 => some s.debugStatus
  | _ => if 0x40 ≤ o && o < 0x80 then some (wordAt identityHash (o - 0x40)) else none

/-- A counter block's BLOCK_INFO (R483, R484). -/
def blockInfo (n : Nat) : Nat :=
  if n < 128 then n * 256
  else if n < 228 then 1 + (n - 128) * 256
  else if n < 240 then 2 + (n - 228) * 256
  else if n = 240 then 3 else 4

/-- The value of the register at `start` when the structured state holds it; none: it is stored. -/
def State.regView (s : State) (off : Nat) : Option Nat :=
  if off < 0x100000 then s.viewGlobal off
  else if off < 0x200000 then s.viewSwitch off
  else if off < 0x1000000 then s.viewRoute off
  else if off < 0x1800000 then s.viewPort ((off - 0x1000000) / 0x10000) (off % 0x10000)
  else if off < 0x2000000 then s.viewLane ((off - 0x1800000) / 0x800) ((off - 0x1800000) % 0x800)
  else if off < 0x2F00000 then s.viewBench ((off - 0x2000000) / 0x10000) (off % 0x10000)
  else if off < 0x3000000 then
    (if 0x2F00000 ≤ off && off < 0x2F00010 then some (fld disabledMap (8 * (off - 0x2F00000)) 32) else none)
  else if off < 0x3100000 then s.viewMem ((off - 0x3000000) / 0x10000) (off % 0x10000)
  else if off < 0x3110000 then s.viewMem (12 + (off - 0x3100000) / 0x800) (off % 0x800)
  else if off < 0x3800000 then s.viewPool off
  else if off < 0x3C00000 then s.viewPower (off - 0x3800000)
  else if off < 0x3C80000 then s.viewBoot (off - 0x3C00000)
  else if off < 0x3F00000 then (if off = 0x3C80000 then some s.hostStatus else none)
  else if off % 0x1000 = 0x00C then some (blockInfo ((off - 0x3F00000) / 0x1000))
  else if off % 0x1000 = 0 then some (s.perf.cyc.getD ((off - 0x3F00000) / 0x1000) 0 / 10)
  else none

/-- The value of the register that starts at `start`: 0 for a register of an absent instance (R499)
and for WO (R8); reserved staging bits read 0 (R9). -/
def State.regValue (s : State) (start : Nat) : W64 :=
  match findReg start with
  | none => 0
  | some w =>
    if w.acc = .wo || (start < 0x2640000 || 0x2680000 ≤ start) && s.absentReg start then 0
    else match s.regView start with
      | some v => w64 v
      | none => s.reg start &&& ~~~w64 (stagedRes start)

/-- The 32-bit word at an aligned offset, for the dump (R425, R428, R429). -/
def State.wordOf (s : State) (off : Nat) : Nat :=
  match findReg off with
  | none => 0
  | some w =>
    let st := w.start off
    (s.regValue st).toNat / 2 ^ (8 * (off - st)) % 2 ^ 32

/-- RC: the value a register returns to when it is read (R8). -/
def State.rcRest (s : State) (start : Nat) : W64 :=
  if start = Reg.bufSharedFreeMin then w64 s.bufSharedFree
  else if 0x1000000 ≤ start && start < 0x1800000 && 0xA000 ≤ start % 0x10000 && start % 0x40 = 0x24 then
    w64 (s.regValue (start - 4)).toNat
  else if 0x2000000 ≤ start && start < 0x2640000 && start % 0x10000 = 0x1C then s.regValue (start - 4)
  else 0

end Sys2Proof.Machine
end

