-- ==== Sys2Proof/Machine/Dump.lean ====
section
/-! DEFINITION. Dump capture (R424-R430), and the ledger and state records in flash (R468, R469). -/

namespace Sys2Proof.Machine

/-- `n` zero bytes. -/
def zeros (n : Nat) : List Byte := List.replicate n 0
/-- A byte string cut or filled with zeros to `n` bytes. -/
def padTo (n : Nat) (bs : List Byte) : List Byte := bs.take n ++ zeros (n - bs.length)
/-- `n` bytes of consecutive registers from an aligned offset. -/
def State.regBytes (s : State) (off n : Nat) : List Byte :=
  (List.range (n / 4)).flatMap (fun i => leBytes 4 (s.wordOf (off + 4 * i)))

/-! ### Regions of the dump -/

/-- STATE of an instance summary (R427). -/
def instStateCode (i : Inst) : Nat :=
  match i.st with
  | .running => if i.spilled then 2 else 1
  | .counting => 3
  | .complete => 4
  | .poisoned => 5
  | .refused => 6
  | .abandoned => 7

/-- An instance summary (R427). -/
def instSummary (i : Inst) : List Byte :=
  let low := i.lowWater
  let y := (i.chunk low).side (i.primClaim == 0)
  let present := (y.applied ++ y.staged.map (·.member)).eraseDups
  leBytes 4 (pack [(0, i.key.handle.toNat), (20, i.key.gen.toNat), (28, instStateCode i)]) ++ leBytes 4 i.key.step.toNat ++
  leBytes 8 i.openFt.toNat ++ leBytes 4 i.finalised.length ++ leBytes 4 (pack [(0, low), (24, i.code.toNat)]) ++
  leBytes 2 i.missing ++ leBytes 2 present.length ++ zeros 4

/-- The owning context of bench `b` permits privileged dumps (R266). -/
def State.dumpPriv (s : State) (b : Nat) : Bool := (s.coreCtx b).any (fun c => bit (s.ctx c).perms 3)

/-- A core's register fields (R428). -/
def coreDump (x : Core) : List Byte :=
  (List.range 32).flatMap (fun i => leBytes 8 (x.s i).toNat) ++ (List.range 8).flatMap (fun i => leBytes 8 (x.p i).toNat) ++
  leBytes 8 x.pc.toNat ++ leBytes 8 x.lsQuarter ++ zeros 0x30 ++ (List.range 32).flatMap (fun i => leBytes 64 (x.v i).toNat)

/-- A bench's 32 KiB (R428). -/
def State.benchDump (s : State) (b : Nat) : List Byte :=
  let x := s.bench b
  s.regBytes (0x2000000 + b * 0x10000) 0x300 ++
  (List.range 64).flatMap (fun t => leBytes 4 (sget 0 x.tallies t).toNat) ++
  padTo 0x400 ((x.adderQ.take 32).flatMap (fun c => padTo 32 (c.sub.take 24))) ++
  (List.range 8).flatMap (fun c => padTo 0xC00 (if s.dumpPriv b then coreDump (s.core (b * 8 + c)) else [])) ++
  zeros 0x1800

/-- A queue entry of a port block's dump (R429). -/
def State.queueDump (s : State) (lp v : Nat) : List Byte :=
  let hd := match (s.queue lp v).head?.bind s.stored? with
    | some x => (match x.item with | .packet p => hdrBytes p.h | .cell c => (cellBytes c).take 16)
    | none => zeros 16
  leBytes 4 (s.qdepth lp v) ++ leBytes 4 (txAvail (s.txAcct lp v false)) ++ leBytes 4 (txAvail (s.txAcct lp v true)) ++
  zeros 4 ++ hd

/-- A port block's 4 KiB (R429). -/
def State.portDump (s : State) (p : Nat) : List Byte :=
  let base := 0x1000000 + p * 0x10000
  s.regBytes base 0x200 ++ s.regBytes (base + 0x8000) 0x100 ++
  (List.range 4).flatMap (fun l => (List.range 8).flatMap (fun v => s.queueDump (4 * p + l) v)) ++ zeros 0x900

/-- The regions of a dump: offset and size (R425). -/
def dumpRegions : List (Nat × Nat) :=
  [(0, 4096), (0x1000, 32768), (0x9000, 16384), (0xD000, 524288), (0x8D000, 32768), (0x100000, 3276800), (0x500000, 524288),
    (0x1000000, 51904512)]
/-- The end of the last region. -/
def dumpEnd : Nat := 0x1000000 + 51904512
/-- Bytes written by a capture that stops at offset `lim`. -/
def dumpBytes (lim : Nat) : Nat := (dumpRegions.map (fun r => min r.2 (lim - r.1))).foldl (· + ·) 0
/-- The first line of the dump area that is to be written and holds an uncorrectable error. -/
def State.dumpUe (s : State) : Nat :=
  let b := s.regN Reg.dumpBase
  s.pool.latent.foldl (fun m e =>
    let o := 64 * e.1 - b
    if !e.2 && decide (b ≤ 64 * e.1) && dumpRegions.any (fun r => decide (r.1 ≤ o ∧ o < r.1 + r.2)) then min m o else m) dumpEnd

/-- Where step 4's bound of R416 stops a capture, if it does: a free value, since the spec does not say how far a capture
comes in its time (log entry 34). -/
def dumpBound (v : W64) : Nat := if bit v 63 then v.toNat % dumpEnd else dumpEnd

/-- The header (R426), of a capture that stops at offset `lim`. -/
def State.dumpHeader (s : State) (r : ResetRun) (level lim : Nat) : List Byte :=
  leBytes 4 1 ++ leBytes 4 (s.fault.dumpSeq + 1) ++ leBytes 8 r.ftime.toNat ++ leBytes 8 (r.startedAt / 1000) ++
  [r.cls, byte level] ++ leBytes 2 r.index ++ leBytes 4 r.logSeq ++ leBytes 4 (s.regN Reg.fwVersion % 2 ^ 24) ++ zeros 4 ++
  leBytes 16 disabledMap.toNat ++ leBytes 8 (dumpBytes lim) ++ byte (b2n (decide (lim < dumpEnd))) :: zeros (4096 - 65)

/-- Write `bs` at an offset of the dump area, in place of the `n` bytes there, as far as the capture goes. -/
def State.dumpWrite (s : State) (lim off n : Nat) (bs : List Byte) : State :=
  let n := min n (lim - off)
  let bs := bs.take n
  let a := s.regN Reg.dumpBase + off
  let s := (s.memBulk a n true).modPool (fun p => { p with
    mem := sdropRange p.mem a (a + n),
    poisoned := p.poisoned.filter (fun l => !covers a n l) })
  if bs.isEmpty then s else s.memWrite a bs

/-- The local-store samples (R430). -/
def State.dumpSamples (s : State) (lim : Nat) : State :=
  (List.range 99).foldl (fun s b =>
    if s.dumpPriv b then
      (List.range 8).foldl (fun s c =>
        let k := 8 * b + c
        s.dumpWrite lim (0x1000000 + k * 0x10000) 0x10000 (mread s.ls (k * 262144 + (s.core k).lsQuarter * 65536) 65536)) s
    else s) (s.dumpWrite lim 0x1000000 51904512 [])

/-- Capture the dump of a reset at `level` (R424, R425): up to a line that holds an uncorrectable error, which the
write meets, or as far as its time allows. -/
def State.captureDump (s : State) (r : ResetRun) (level : Nat) : State :=
  let (v, s) := (s.memServe (s.regN Reg.dumpBase) 4096).free
  let d := s
  let lim := min s.dumpUe (dumpBound v)
  let s := s.dumpWrite lim 0 4096 (d.dumpHeader r level lim)
  let s := s.dumpWrite lim 0x1000 32768 (padTo 32768 (d.fault.log.flatMap LogEntry.bytes))
  let s := s.dumpWrite lim 0x9000 16384 (d.regBytes 0x4000 16384)
  let s := s.dumpWrite lim 0xD000 524288 (d.coll.insts.flatMap instSummary)
  let s := s.dumpWrite lim 0x8D000 32768 (d.regBytes 0x100000 0x4200)
  let s := (List.range 100).foldl (fun s b => s.dumpWrite lim (0x100000 + b * 0x8000) 0x8000 (d.benchDump b)) s
  let s := (List.range 128).foldl (fun s p => s.dumpWrite lim (0x500000 + p * 0x1000) 0x1000 (d.portDump p)) s
  let s := (s.dumpSamples lim).modFault (fun f => { f with
    dumpValid := true, dumpTrunc := decide (lim < dumpEnd), dumpSeq := f.dumpSeq + 1 })
  if lim < dumpEnd && lim = d.dumpUe then s.ueMet ((s.regN Reg.dumpBase + lim) / 64) 0x0E 0 none else s

/-! ### Image components -/

/-- The four components of a header (R465): TYPE, OFFSET, LENGTH. -/
def headerComps (h : List Byte) : List (Nat × Nat × Nat) :=
  (List.range 4).map (fun i => (u8 h (160 + 16 * i), u32 h (164 + 16 * i), u32 h (168 + 16 * i)))

/-- The bytes of the components of the TYPEs given, in body order. -/
def compBytes (h body : List Byte) (tys : List Nat) : List Byte :=
  let cs := (headerComps h).filter (fun c => tys.contains c.1)
  (cs.foldl (fun (a : List (Nat × Nat × Nat)) c => a.takeWhile (fun d => d.2.1 < c.2.1) ++ [c] ++ a.dropWhile (fun d => d.2.1 < c.2.1))
    []).flatMap (fun c => slice body c.2.1 c.2.2)

/-! ### Flash records -/

/-- A record of flash: its sequence number, the CRC-32C of the rest, and the rest (R468, R469). -/
def flashRecord (seq : Nat) (body : List Byte) : List Byte :=
  leBytes 4 seq ++ leBytes 4 (crc32c (leBytes 4 seq ++ body)).toNat ++ body
/-- The CRC of a record holds. -/
def recordValid (r : List Byte) : Bool := u32 r 4 == (crc32c (slice r 0 4 ++ r.drop 8)).toNat

/-- The list with `e` at position `p`; positions never written are erased. -/
def putAt (l : List (List Byte)) (p : Nat) (e : List Byte) : List (List Byte) :=
  if p < l.length then l.set p e else l ++ List.replicate (p - l.length) [] ++ [e]

/-- A chip select's state-record area with one more record: a full area is erased first (R469). -/
def Flash.addRec (f : Flash) (r : List Byte) : Flash :=
  { f with recs := (if 1024 ≤ f.recs.length then [] else f.recs) ++ [r] }

/-- A chip select's ledger with entry `e` at the position of its ENTRY_SEQ (R468). -/
def Flash.addEntry (f : Flash) (e : List Byte) : Flash := { f with ledger := putAt f.ledger (u32 e 0 % 4096) e }

/-- The same write to both chip selects (R468, R469). -/
def Mgmt.both (m : Mgmt) (f : Flash → Flash) : Mgmt := { m with flashA := f m.flashA, flashB := f m.flashB }

/-- Append a ledger entry of 256 bytes: TYPE, and bytes 24-255 (R468). -/
def State.ledgerAppend (s : State) (ty : Nat) (body : List Byte) : State :=
  let e := flashRecord s.mgmt.ledgerSeq
    ([byte ty, 0, 0, 0] ++ leBytes 4 s.pwr.epochGain ++ leBytes 8 s.nowUs ++ padTo 232 body)
  s.modMgmt (fun m =>
    let m := { m with ledgerSeq := m.ledgerSeq + 1 }
    if m.spiHeld then { m with ledgerWaiting := m.ledgerWaiting ++ [e] } else m.both (·.addEntry e))

/-- Append a state record of 64 bytes: PRIMARY and OUT_OF_SERVICE (R469). -/
def State.stateRecord (s : State) (primary oos : Bool) : State :=
  let e := flashRecord s.mgmt.stateSeq ([byte (b2n primary), byte (b2n oos)] ++ zeros 54)
  let s := s.modMgmt (fun m =>
    let m := { m with stateSeq := m.stateSeq + 1 }
    if m.spiHeld then { m with recWaiting := m.recWaiting ++ [e] } else m.both (·.addRec e))
  s.modBoot (fun b => { b with primary := primary })

/-- The record with the higher sequence number, the first of two with the same. -/
def newerOf (a : Option (List Byte)) (r : List Byte) : Option (List Byte) :=
  match a with
  | some b => if u32 b 0 < u32 r 0 then some r else some b
  | none => some r

/-- The valid state records of both chip selects (R469). -/
def Mgmt.validRecs (m : Mgmt) : List (List Byte) := (m.flashA.recs ++ m.flashB.recs).filter recordValid

/-- The valid state record with the highest SEQ across both chip selects: PRIMARY and OUT_OF_SERVICE (R469). -/
def Mgmt.newestRecord (m : Mgmt) : Bool × Bool :=
  match m.validRecs.foldl newerOf none with
  | some r => (bit (r.getD 8 0) 0, bit (r.getD 9 0) 0)
  | none => (false, false)

/-- The ledger as it is read (R468): at each position the copy with a valid CRC and the higher ENTRY_SEQ; a position
where neither is valid is skipped. -/
def Mgmt.ledger (m : Mgmt) : List (List Byte) :=
  (List.range (max m.flashA.ledger.length m.flashB.ledger.length)).filterMap (fun p =>
    ([m.flashA.ledger.getD p [], m.flashB.ledger.getD p []].filter (fun e => !e.isEmpty && recordValid e)).foldl newerOf none)

/-- Perform the flash writes that waited for SPI_HOLD_OFF_N (R469). -/
def State.flushFlash (s : State) : State :=
  s.modMgmt (fun m =>
    let put : Flash → Flash := fun f => m.ledgerWaiting.foldl Flash.addEntry (m.recWaiting.foldl Flash.addRec f)
    { m.both put with recWaiting := [], ledgerWaiting := [] })

end Sys2Proof.Machine
end

