-- ==== Sys2Proof/Machine/Faults.lean ====
section
/-! DEFINITION. Resets, escalation and out of service (R415-R423), hang checks (R412-R414), control-state
faults (R406, R409), and the commands of this family. -/

namespace Sys2Proof.Machine

/-! ### The fence, and the stop and drain of R416 steps 1 to 3 -/

/-- Contexts a fence applies to (R415). -/
def State.fenceable (s : State) : List Nat :=
  (s.ctxs.filter (fun e => decide (e.2.st = .opened ∨ e.2.st = .closing))).map (·.1)

/-- Step 1: every OPEN and CLOSING context is fenced, and its recording or replay stops (R334, R415). -/
def State.fenceAll (s : State) : State :=
  s.fenceable.foldl (fun s c => ((s.modCtx c (fun x => { x with fenced := true })).recStop c 3).rplStopped c Code.fenced) s

/-- A core stops at an instruction boundary; one stopped by an exception stays so. -/
def Core.halt (x : Core) : Core := haltCore (if x.run = .stopped then .stopped else .halted) x

/-- Step 2: cores halt, adders and result stages stop, launches end with FENCED. -/
def State.stopAll (s : State) : State :=
  let s := { s with
    cores := smap {} s.cores Core.halt,
    benches := smap {} s.benches (fun x => { x with sendQ := [] }) }
  let s := s.modSw (fun w => { w with held := w.held.filter (fun h => match h.writer with | .answer => true | _ => false) })
  s.launch.runs.foldl (fun s (r : Run) =>
    if r.started then s.completeRun r.num Code.fenced else s.failRun r Code.fenced) s

/-- Step 3: outstanding pool operations of fenced contexts are answered FENCED, and DMA descriptors end. -/
def State.drainAll (s : State) : State :=
  (s.fenceable.foldl (fun s c => s.endAccesses c Code.fenced) s).dmaEnd 99 Code.fenced

/-! ### Clearing (R419) -/

/-- What the registers of a core's record show (R212), which out of service keeps (R419). -/
def Core.record (x : Core) : Core :=
  { cause := x.cause, excPc := x.excPc, excAddr := x.excAddr, dmaStatus := x.dmaStatus, pc := x.pc, run := x.run }

/-- The compute part: benches, stores, crucible, instances and the pending list. -/
def State.clearCompute (s : State) : State :=
  let s := (skeys s.benches).foldl State.emptyQueues s
  { s with
    benches := [], cores := [], ls := [], is := [], badWords := [],
    coll := { s.coll with insts := [] }, launch := { s.launch with listed := [], runs := [] },
    regs := sdropRange s.regs 0x2000000 0x2680000 }

/-- Registers that a full device recovery keeps (R419, R482, R502): the coordinate and its valid bit,
SCRATCH, the reset counters and history, port and lane blocks, boot and security. -/
def keptByRecovery (off : Nat) : Bool :=
  off == Reg.ownCoord || off == Reg.devStatus || decide (0x30 ≤ off ∧ off < 0x40) ||
  decide (0xD028 ≤ off ∧ off < 0xD030) || decide (0xD050 ≤ off ∧ off < 0xD068) ||
  decide (0x1000000 ≤ off ∧ off < 0x2000000) || decide (0x3C00000 ≤ off ∧ off < 0x3C80000)

/-- The bench bins and duty have no cap left: the caps return to their defaults (R396). -/
def State.resetRegs (s : State) : State :=
  ({ s with regs := s.regs.filter (fun e => keptByRecovery e.1) }).modPwr (fun p => { p with hostCap := 1500, trayCap := 1500 })

/-- The switching core's contents (R417 step 4): buffer, queues, reassembly. -/
def State.clearSwitch (s : State) : State :=
  s.modSw (fun w =>
    { w with
      stored := [], queues := [], deficit := [], capBal := [], capAt := [], rr := [], sharedUsed := 0, intUsed := 0, headroom := [],
      held := [], arrivals := [], cellRoute := [], cellOpen := [], reasm := [], reasmWait := [], stopped := [], ctlIn := [] })

/-- The warden program starts again, unless bench 99 is held stopped; a steward that is down owes it. -/
def State.rewarden (s : State) : State :=
  if s.fault.wardenHeld then s
  else if !s.fault.stewardUp then s.modFault (fun f => { f with wardenOwed := true })
  else ((s.modFault (fun f => { f with wardenOwed := false })).bump Reg.wardenRestarts).startWarden

/-! ### Out of service (R422, R423) -/

/-- Close every context, its generation one higher (R417, R419). -/
def State.closeAll (s : State) : State :=
  s.fenceable.foldl (fun s c =>
    ((s.clearWindows c).nextGen c .free).modCtx c (fun x => { x with fenced := false, heldTeardown := false })) s

/-- The device is out of service: fence, drain and dump are done (R422). Registers are kept (R419). -/
def State.enterOos (s : State) (r : ResetRun) : State :=
  let seq := s.fault.next
  let s := s.logFault { cls := 0x30, sev := 3, act := 6 }
  let s := s.ledgerAppend 2 ([r.cls, 3, 0, 0] ++ leBytes 4 seq)
  let s := s.stateRecord s.boot.primary true
  let s := { s.clearCompute with regs := s.regs, cores := smap {} s.cores Core.record }.closeAll
  let s := s.lports.foldl (fun s lp => s.portTo lp .outOfService 0) s
  let s := s.clearSwitch
  let s := s.modPool (fun p => { p with results := [], inq := [], cache := [] })
  let s := s.setReg Reg.ltCtrl (s.reg Reg.ltCtrl &&& ~~~1)
  let s := s.modClk (fun c => { c with locked := false, goodRun := 0 })
  ({ s with ctxCmd := none }).modFault (fun f => { f with reset := none, oos := true })

/-! ### Starting a reset (R416-R418, R420, R421) -/

/-- Escalation at a trigger (R421). -/
def State.escalates (s : State) (level : Nat) : Bool :=
  let within := fun (off n : Nat) => decide (s.regN off ≠ 0 ∧ s.nowUs ≤ s.regN off + n * 1000000)
  !s.testMode && (if level = 1 then within Reg.crHist1 600 && within Reg.crHist0 600 else within Reg.frHist 3600)

/-- Count a reset that begins, and record its time (R420). -/
def State.countReset (s : State) (level : Nat) : State :=
  if s.testMode then s
  else if level = 1 then
    ((s.bump Reg.computeResets).setReg Reg.crHist1 (s.reg Reg.crHist0)).setReg Reg.crHist0 (w64 s.nowUs)
  else (s.bump Reg.fullRecoveries).setReg Reg.frHist (w64 s.nowUs)

/-- A reset that is counted as it begins keeps what its count replaced. -/
def ResetRun.count (r : ResetRun) (s : State) (level : Nat) : ResetRun :=
  if s.testMode then r
  else if level = 1 then { r with counted := 1 :: r.counted, lostCr := s.reg Reg.crHist1 }
  else { r with counted := 2 :: r.counted, lostFr := s.reg Reg.frHist }

/-- A counter one lower. -/
def State.unbump (s : State) (off : Nat) : State := s.setReg off (w64 (s.regN off - 1))

/-- A reset that a rail fault abandons is not counted (R513). -/
def State.uncountReset (s : State) : State :=
  match s.fault.reset with
  | none => s
  | some r =>
    let s := if r.counted.contains 1 then
        (((s.unbump Reg.computeResets).setReg Reg.crHist0 (s.reg Reg.crHist1)).setReg Reg.crHist1 r.lostCr)
      else s
    if r.counted.contains 2 then (s.unbump Reg.fullRecoveries).setReg Reg.frHist r.lostFr else s

/-- Host accesses that wait when memory becomes unavailable are refused (R391). -/
def State.refuseHostOps (s : State) : State :=
  (s.pool.inflight.filter (fun o => decide (8 ≤ o.pop))).foldl State.hostUnavailable s

/-- Steps 3 and 4 of R417: queued records reach their logs (R334), cached windows are written back, memory enters
self-refresh, SRAM is cleared, and registers return to their reset values. -/
def State.recoverMemory (s : State) (r : ResetRun) : State :=
  let s := s.clearCompute.clearSwitch
  let s := s.modSw (fun w => { w with quar := 0, quarRaised := false })
  let s := { s.flushRecq with route := {}, rpl := [], perf := {}, ctxResult := 0 }
  let s := s.winCtxs.foldl State.clearWindows s.refuseHostOps
  let s := s.modPool (fun p => { p with
    inq := [], inflight := [], results := [], cache := [], flushing := [], winResult := 0, winBusyUntil := 0,
    ctl := smap {} p.ctl (fun x => { x with st := .selfRefresh, passes := 0, scrubPos := 0, ueAddr := 0 }) })
  let s := s.modClk (fun c => { c with timeValid := false, locked := false, goodRun := 0, reqOut := none, reqOld := [], slew := 0, lastOffset := 0 })
  let s := s.modPwr (fun p => { p with
    failedSensors := [], blind := false, coolSince := [], swcAged := p.swcAge, swcFree := false,
    curBin := if p.swcFree then sset 0 p.curBin 100 0 else p.curBin })
  let s := s.modHost (fun h => { h with memActive := false })
  (s.resetRegs).modFault (fun f => { f with reset := some { r with level := 2, step := 5 }, wardenHeld := false, wardenRestarts := [] })

/-- A port at step 2 of R417: one with ADMIN_UP 1 retrains, and one that was out of service is down. -/
def State.recoverPort (s : State) (lp : Nat) : State :=
  if s.adminUp lp then (s.portTo lp .training 0).startTraining lp
  else if (s.port lp).st = .outOfService then s.portTo lp .down 0
  else s

/-- Steps 2 to 4 of R417: ports stop and retrain, then steps 3 and 4. -/
def State.beginRecovery (s : State) (r : ResetRun) : State := (s.lports.foldl State.recoverPort s).recoverMemory r

/-- The SEQ of the triggering entry: the newest of the class and INDEX, 0 for a command (R426). -/
def State.trigSeq (s : State) (cls : Byte) (index : Nat) : Nat :=
  if cls = 0 then 0
  else ((s.fault.log.filter (fun e => decide (e.cls = cls ∧ e.index.toNat = index))).getLast?.map (·.seq)).getD 0

/-- The records of fenced contexts are freed (R132), once the dump has captured them (log entry 34). -/
def State.freeFenced (s : State) : State :=
  s.modColl (fun q => { q with insts := q.insts.filter (fun i => !(s.ctx i.ctx).fenced) })

/-- A reset of `level` starts: fence, stop, drain, dump; then out of service where R421 requires it, and
the rest of R417 for a full device recovery. `free`: the recovery that clears out of service. -/
def State.beginReset (s : State) (level : Nat) (cls : Byte) (index : Nat) (free : Bool) : State :=
  let esc := !free && s.escalates level
  let r : ResetRun :=
    { level := level, startedAt := s.now, step := 4, cls := cls, index := index, logSeq := s.trigSeq cls index,
      ftime := s.ftimeOr0 }
  let (s, r) := if free || esc then (s, r) else (s.countReset level, r.count s level)
  let s := s.fenceAll.stopAll.drainAll
  let s := (s.captureDump r (if esc then 3 else level)).freeFenced
  let s := s.modFault (fun f => { f with reset := some r, oos := false })
  if esc then s.enterOos r else if level = 1 then s else s.beginRecovery r

/-- A trigger of `level` while a reset runs (R418): it joins, or turns a compute reset into a full
device recovery, or puts the device out of service now that the dump is complete. -/
def State.joinReset (s : State) (r : ResetRun) (level : Nat) : State :=
  if level = 2 && r.level == 1 then
    if s.escalates 2 then s.enterOos r else (s.countReset 2).beginRecovery (r.count s 2)
  else s

/-- A trigger from within the device, or from a command that R418 and R473 let through. -/
def State.trigger (s : State) (level : Nat) (cls : Byte) (index : Nat) : State :=
  match s.fault.reset with
  | some r => s.joinReset r level
  | none => s.beginReset level cls index false

/-- A write to RESET_CMD (R416-R418, R431, R473). -/
def wrResetCmd : WriteFn := fun s v =>
  if !s.ready || s.fault.reset.isSome || s.fault.oos then none
  else match v.toNat with
    | 1 => some (s.trigger 1 0 0)
    | 2 => some (s.trigger 2 0 0)
    | _ => none

/-- A reset command of any source: a RESET_CMD write, a fault's own trigger, the steward, or the tray. -/
def resetCmd (level : Nat) (src : ResetSource) (s : State) : Host.Outcome State Fault Refusal :=
  match src with
  | .cmd r => writeCmd s r Reg.resetCmd (w64 level) wrResetCmd
  | .fault c i =>
    if !s.powered || !s.ready || s.fault.oos || !s.fault.deferred.contains (level, c, i) then .next s
    else .next ((s.modFault (fun f => { f with deferred := f.deferred.erase (level, c, i) })).trigger level c i)
  | .steward =>
    if !s.powered || !s.fault.stewardUp || s.fault.oos || level ≠ 1 then .next s
    else if !s.ready then .next (s.ignored .steward Reg.resetCmd false)
    else .next (s.trigger level 0 0)
  | .tray =>
    if !s.powered || s.fault.oos || level ≠ 2 then .next s
    else if !s.ready then .next (s.ignored .tray Reg.resetCmd false)
    else .next (s.trigger level 0 0)

/-- COMPUTE_RESET (R416). -/
def execComputeReset (src : ResetSource) (s : State) : Host.Outcome State Fault Refusal := resetCmd 1 src s

/-- FULL_DEVICE_RECOVERY (R417). -/
def execFullDeviceRecovery (src : ResetSource) (s : State) : Host.Outcome State Fault Refusal := resetCmd 2 src s

/-- A fenced context at the end of a compute reset (R287, R415, R416 step 5). -/
def State.unfence (s : State) (c : Nat) : State :=
  if (s.ctx c).st = .closing then
    (s.finishTeardown c).modCtx c (fun x => { x with fenced := false, heldTeardown := false })
  else
    let held := (s.ctx c).heldTeardown
    let s := (s.modPool (fun p => { p with results := p.results.filter (fun e => e.ctx != c) })).nextGen c .opened
    let s := s.modCtx c (fun x => { x with fenced := false, heldTeardown := false })
    if (s.ctx c).st = .resting then
      let s := s.clearWindows c
      if held then ({ s with ctxCmd := none }).ctxReport c Code.ok else s
    else if held then s.beginTeardown c else s

/-- COMPUTE_RESET_COMPLETE (R416 step 5). -/
def execComputeResetComplete (s : State) : Host.Outcome State Fault Refusal :=
  match s.fault.reset with
  | some r =>
    if r.level ≠ 1 || !s.powered then .next s
    else
      let s := s.clearCompute
      let s := (s.ctxs.filter (fun e => e.2.fenced)).foldl (fun s e => s.unfence e.1) s
      .next (s.modFault (fun f => { f with reset := none })).rewarden
  | none => .next s

/-- Memory is retrained (R417 step 5). -/
def State.memBack (s : State) : State :=
  (s.modPool (fun p => { p with ctl := (List.range 28).foldl (fun m k => smod {} m k (fun c => { c with st := .active, refresh := max 1 c.refresh })) p.ctl })).modHost
    (fun h => { h with memActive := true })

/-- FULL_DEVICE_RECOVERY_COMPLETE (R417 steps 5 to 7); it runs under the steward (R418). -/
def execFullDeviceRecoveryComplete (s : State) : Host.Outcome State Fault Refusal :=
  match s.fault.reset with
  | some r =>
    if r.level ≠ 2 || !s.powered || !s.fault.stewardUp then .next s
    else
      let s := if r.step < 6 then s.memBack else s
      let s := (s.clearCompute.closeAll).modFault (fun f => { f with reset := none })
      .next ({ s with ctxCmd := none }).rewarden
  | none => .next s

/-! ### Hang checks (R412-R414) -/

/-- A core that waits without being pending work: RECV or RECVH on an empty queue, CTAKE on an open
instance (R412). -/
def State.idleWait (s : State) (b : Fin 100) (x : Core) : Bool :=
  match x.wait with
  | some w => match w.kind with
    | .recv => (s.bench b).recvQ.isEmpty
    | .recvh => (s.bench b).recvQ.isEmpty
    | .ctake => x.bound.any (fun k => (s.inst? k.1).any (·.live))
    | _ => false
  | none => false

/-- A TWAIT without a timeout. -/
def foreverWait (x : Core) : Bool := x.wait.any (fun w => decide (w.kind = .tally) && w.deadline.isNone)

/-- Cores of a bench that are not halted. -/
def State.activeCores (s : State) (b : Fin 100) : List Core :=
  ((List.range 8).map (fun c => s.core (b.val * 8 + c))).filter (fun x => decide (x.run = .running ∨ x.run = .waiting))

/-- The engines of a bench hold something they can take. -/
def State.engineWork (s : State) (b : Fin 100) : Bool :=
  (s.bench b).adderQ.any s.adderCan || !(s.bench b).dmaActive.isEmpty ||
  (List.range 8).any (fun c => !(s.core (b.val * 8 + c)).dmaQ.isEmpty)

/-- Nothing of the bench is pending work: a core waits in RECV, RECVH or CTAKE, no other runs, and its engines and item
queue hold nothing (R412). -/
def State.benchRests (s : State) (b : Fin 100) : Bool :=
  !(s.activeCores b).isEmpty && (s.activeCores b).all (s.idleWait b) && !s.engineWork b && (s.bench b).items.isEmpty

/-- The bench is checked (R412): awake, with a launch running or something in a queue. Bench 99's program counts as its
launch. -/
def State.benchChecked (s : State) (b : Fin 100) : Bool :=
  decide ((s.bench b).st = .awake) && !s.fenceActive && !s.benchHeld b &&
  ((s.bench b).launch.isSome || (b.val == 99 && !(s.activeCores b).isEmpty) || s.engineWork b || !(s.bench b).items.isEmpty) &&
  !s.benchRests b

/-- The state of a program hang (R412): every core is halted or in TWAIT without a timeout, and the engines hold nothing
they can take. A core whose wait is no pending work does not count while no item waits. -/
def State.progHung (s : State) (b : Fin 100) : Bool :=
  (s.activeCores b).all (fun x => foreverWait x || ((s.bench b).items.isEmpty && s.idleWait b x)) && !s.engineWork b

/-- BENCH_HANG_CHECK (R412). -/
def execBenchHangCheck (b : Fin 100) (s : State) : Host.Outcome State Fault Refusal :=
  if !s.powered || !s.benchChecked b || s.now < (s.bench b).progressAt + s.regN Reg.benchHangWin * ms then .next s
  else
    let again := fun (s : State) => s.modBench b (fun x => { x with progressAt := s.now })
    if s.progHung b then
      if b.val = 99 then
        .next ((again (s.logFault { cls := 0x21, sev := 1, act := 3, block := 5, index := 99 })).modFault
          (fun f => { f with wardenOwed := true }))
      else
        let s := (s.bump Reg.progHangs).logFault
          { cls := 0x19, sev := 0, act := 3, code := Code.incomplete, block := 5, index := b, ctx := s.coreCtx b }
        .next (again (match (s.bench b).launch with | some n => s.stopRun n Code.incomplete | none => s))
    else
      .next ((again ((s.bump Reg.benchHangs).logFault
        { cls := 0x18, sev := 2, act := 4, block := 5, index := b, ctx := s.coreCtx b })).oweReset 1 0x18 b)

/-- Since when a port has held a head that it has not sent (R413). -/
def State.portStalledFrom (s : State) (lp : Nat) : Option Nat :=
  match (List.range 8).filterMap (fun v => (s.frontOf lp v).map (·.storedAt)) with
  | [] => none
  | t :: ts => some (max (s.port lp).lastSendAt (ts.foldl min t))

/-- PORT_HANG_CHECK (R413): a head held credits throughout, since credits fall only at a send. -/
def execPortHangCheck (lp : Fin 512) (s : State) : Host.Outcome State Fault Refusal :=
  match s.portStalledFrom lp with
  | none => .next s
  | some t =>
    if !s.powered || !s.portActive lp || (s.port lp).retraining || s.now < t + s.regN Reg.portHangWin * ms then .next s
    else
      let had := (List.range 8).any (fun v => match s.headOf lp v with
        | some x => s.txHolds lp v (s.itemAcct lp x.item) (if s.segments lp x then 1 else x.granules)
        | none => false)
      let again := fun (s : State) => s.modPort lp (fun p => { p with lastSendAt := s.now })
      if had then
        .next ((again ((s.bump Reg.portHangs).logFault { cls := 0x1A, sev := 2, act := 5, block := 3, index := lp.val / 4 })).oweReset
          2 0x1A (lp.val / 4))
      else
        .next (again ((s.bump Reg.partnerStalls).logFault { cls := 0x1B, sev := 1, act := 0, block := 3, index := lp.val / 4 }))

/-- MEM_HANG_CHECK (R414). -/
def execMemHangCheck (m : Fin 28) (s : State) : Host.Outcome State Fault Refusal :=
  let c := s.memCtl m
  if !s.powered || !s.memPending m || decide (c.st = .waking ∨ c.st = .training) ||
      s.now < c.hangFrom + s.regN Reg.memHangWin * ms then .next s
  else
    let i := if m.val < 12 then m.val else m.val - 12
    .next ((((s.modMem m (fun c => { c with hangFrom := s.now })).bump Reg.memHangs).logFault
      { cls := 0x1C, sev := 2, act := 5, block := if m.val < 12 then 6 else 7, index := i }).oweReset 2 0x1C i)

/-! ### The steward (R392, R406, R455, R456, R475, R478) -/

/-- A stage input whose claim is withdrawn: the output holds (R455). -/
def Stage.withdraw (x : Stage) : Stage := { x with sClaim := 0, sStale := true, held := true }

/-- The steward restarts: what stops until it is back (R456). -/
def State.stewardDown (s : State) : State :=
  let s := (s.bump Reg.stewardRestarts).logFault { cls := 0x20, sev := 1, act := 2, block := 9 }
  let s := s.modPwr (fun p => { p with
    cooling := p.cooling.withdraw, request := p.request.withdraw, throttleSt := p.throttleSt.withdraw,
    lehrPaused := p.lehrStep != 0 })
  let s := s.modMgmt (fun m => { m with mctpReady := false, fwTransfer := none, mbox := {}, i3c := {}, vdm := {} })
  let s := s.modHost (fun h => { h with mboxReady := false })
  let s := s.modBoot (fun b => { b with keyPresent := false })
  s.modFault (fun f => { f with stewardUp := false })

/-- STEWARD_WATCHDOG_EXPIRY (R406). -/
def execStewardWatchdogExpiry (s : State) : Host.Outcome State Fault Refusal :=
  if s.powered && s.fault.stewardUp then .next s.stewardDown else .next s

/-- STEWARD_MEMORY_UE (R406). -/
def execStewardMemoryUe (s : State) : Host.Outcome State Fault Refusal :=
  if s.powered && s.fault.stewardUp then .next s.stewardDown else .next s

/-- Return a mailbox command's result: held while the link is down (R397). A command that goes on in the background is
not completed yet (R402). -/
def State.mboxDone (s : State) (op ret : BitVec 16) (out : List Byte) : State :=
  let s := (if ret = 0x0001 then s else s.bump Reg.mboxCmds).modHost (fun h => { h with mboxBusy := none })
  if s.host.linkUp then s.emit (.mailbox op ret out) else s.modHost (fun h => { h with mboxResult := h.mboxResult ++ [(op, ret, out)] })

/-- A background command completes with Retry Required, and vector 0 signals it (R392). -/
def State.backgroundRetry (s : State) : State :=
  (((s.bump Reg.mboxRetry).mboxDone 0x0201 0x0005 []).modHost (fun h => { h with background := none })).msix 0

/-- The steward's copy of its firmware has the digest measured at boot (R473, R477). -/
def State.copyOk (s : State) : Bool :=
  decide (Config.sha3x512 (compBytes s.boot.header s.boot.body [1]) = s.boot.measured.getD 1 [])

/-- STEWARD_RESTART_COMPLETE (R392, R418, R456, R459, R473, R475): before host-ready boot goes on at the step in progress;
after it the steward runs the firmware that it holds, once its digest is checked. -/
def execStewardRestartComplete (s : State) : Host.Outcome State Fault Refusal :=
  if !s.powered || s.fault.stewardUp || (s.hostReached && !s.copyOk) then .next s
  else
    let s := s.modFault (fun f => { f with stewardUp := true })
    let s := s.modBoot (fun b => { b with keyPresent := b.seedPresent })
    if !s.hostReached then .next s
    else
      let s := s.modMgmt (fun m => { m with mctpReady := true })
      let s := s.modPwr (fun p => if p.lehrPaused then { p with lehrPaused := false, lehrStep := 1, lehrStepAt := s.now } else p)
      let s := s.modHost (fun h => { h with mboxReady := true })
      -- a full device recovery resumes at step 3 (R418)
      let s := match s.fault.reset with
        | some r => if r.level = 2 then s.recoverMemory r else s
        | none => s
      let s := match s.host.mboxBusy with
        | some op => (s.bump Reg.mboxRetry).mboxDone op 0x0005 []
        | none => s
      if s.host.background.isSome then .next s.backgroundRetry else .next s

/-! ### Control state and stores (R196, R406, R409) -/

/-- CONTROL_STATE_SWEEP (R406, R409): `idx` numbers the instance record, context or result table entry. -/
def execControlStateSweep (cls : SweepClass) (idx : Nat) (s : State) : Host.Outcome State Fault Refusal :=
  if !s.powered then .next s
  else match cls with
    | .switchState => .next ((s.logFault { cls := 0x09, sev := 2, act := 5, block := 1 }).oweReset 2 0x09 0)
    | .collState =>
      let d : W64 := match s.coll.insts.drop idx with
        | i :: _ => w64 (pack [(0, i.key.handle.toNat), (32, i.key.step.toNat)])
        | [] => 0
      let cx := (s.coll.insts.drop idx).head?.map (·.ctx)
      .next ((s.logFault { cls := 0x10, sev := 2, act := 4, block := 11, detail := d, ctx := cx }).oweReset 1 0x10 0)
    | .ctxState =>
      .next ((s.logFault { cls := 0x11, sev := 2, act := 4, ctx := some (idx % 256) }).oweReset 1 0x11 0)
    | .resultTable =>
      if s.pool.results.length ≤ idx then .next s
      else
        let s := s.logFault { cls := 0x12, sev := 1, act := 2, block := 12 }
        .next (s.modPool (fun p => { p with
          results := p.results.zipIdx.map (fun e => if e.2 = idx then { e.1 with poisoned := true, madeAt := s.now } else e.1) }))

/-- RESULT_SLOT_POISON_END (R409): the slot is released after RESULT_HOLD. -/
def execResultSlotPoisonEnd (k : Nat) (s : State) : Host.Outcome State Fault Refusal :=
  if !s.powered then .next s else
  match s.pool.results.drop k with
  | e :: _ =>
    if e.poisoned && decide (e.madeAt + s.holdNs ≤ s.now) then
      .next (s.modPool (fun p => { p with results := p.results.eraseIdx k }))
    else .next s
  | [] => .next s

/-- CRUCIBLE_PATROL_SCRUB (R196, R406): a LATENT fault, corrected and so masked, or uncorrectable. -/
def execCruciblePatrolScrub (b : Fin 100) (_line : Nat) (obs : MemObs) (s : State) : Host.Outcome State Fault Refusal :=
  if !s.powered then .next s
  else match obs with
    | .clean => .next s
    | .corrected _ =>
      .next ((s.bump (Reg.crCe b)).logFault { cls := 0x0F, sev := 1, act := 1, block := 5, index := b, ctx := s.coreCtx b })
    | .uncorrectable _ =>
      .next ((s.bump (Reg.crUe b)).logFault { cls := 0x0F, sev := 1, act := 2, block := 5, index := b, ctx := s.coreCtx b })

end Sys2Proof.Machine
end

