-- ==== Sys2Proof/Machine/Power.lean ====
section
/-! DEFINITION. Power, thermal protection and ageing (R432-R462): limits and reductions, caps, cooling and
leak supervision, temperature, output stages, live margin and the Lehr pass. -/

namespace Sys2Proof.Machine

/-! ### Limits and reductions (R434-R437) -/

/-- The lowest code at or above `ceil` whose power meets the limit; bin 4 when none does (R436). -/
def binFor (ceil limit : Nat) (w : List Nat) : Nat :=
  ((List.range 5).find? (fun b => decide (ceil ≤ b) && decide (w.getD b 0 ≤ limit))).getD 4

/-- A percentage between a lower bound and 99 that the spec does not state. -/
def State.freePct (s : State) (lo : Nat) : Nat × State :=
  let r := s.free
  (lo + r.1.toNat % (100 - lo), r.2)

/-- One reduction of R435: none needed, partial, or all the way down to `lo` when `w` at its lowest
still exceeds the limit. -/
def State.reduction (s : State) (needed : Bool) (w limit lo : Nat) : Nat × State :=
  if !needed then (100, s) else if limit < w then (lo, s) else s.freePct lo

/-- The reductions of one control interval (R435, R436, R440). -/
def State.applyLimits (s : State) (est : PowerEstimate) : State :=
  let limit := s.powerLimit
  let ceil := fld (s.reg Reg.fmaxCtrl) 0 3
  let bin := if s.pwr.capFloor then 4 else binFor ceil limit est.floorW
  let need := decide (limit < est.floorW.getD bin 0)
  let l := s.reduction need est.loamW limit 25
  let loam := if s.pwr.capFloor then 25 else l.1
  let d := l.2.reduction (need && decide (limit < est.loamW)) est.dutyW limit 10
  let p := d.2.reduction (need && decide (limit < est.loamW) && decide (limit < est.dutyW)) est.paceW limit 10
  let s := p.2
  let aged := (List.range 100).any (fun b => decide ((s.bench b).st = .awake) && decide (bin < max (sget 0 s.pwr.curBin b) (sget 0 s.pwr.ageBin b)))
  let swc := (s.pwr.swcAged || decide (sget 0 s.pwr.curBin 100 ≠ 0)) && !bit (s.reg Reg.fmaxCtrl) 3
  let conflict := swc || decide (binFor ceil limit est.factoryW < binFor ceil limit est.floorW) || aged ||
    (p.1 == 10 && decide (limit < est.paceW))
  let rises := conflict && !s.pwr.policyConflict
  let s := s.modPwr (fun q => { q with
    benchBin := bin, loamPct := loam, dutyPct := d.1, pacePct := p.1, policyConflict := conflict })
  let s := if conflict then s.bump Reg.policyConflictEv else s
  if rises then s.envEvent 0x03 1 2 0 else s

/-- POWER_CONTROL_INTERVAL (R434-R436): `watts` is the 10 µs power sample, `est` the power estimates. -/
def execPowerControlInterval (watts : Nat) (est : PowerEstimate) (s : State) : Host.Outcome State Fault Refusal :=
  if !s.powered then .next s
  else .next ((s.modPwr (fun p => { p with powerNow := watts, samples := (watts :: p.samples).take 100 })).applyLimits est)

/-! ### Caps (R438-R442) -/

/-- The average power of the last ms. -/
def Power.avgMs (p : Power) : Nat := p.samples.foldl (· + ·) 0 / max 1 p.samples.length

/-- Enter the cap-floor state, or hold it longer (R439, R440). -/
def State.enterFloor (s : State) : State :=
  let s := if s.pwr.capFloor then s else s.bump Reg.pwrCapEvents
  s.modPwr (fun p => { p with
    capFloor := true, capFloorUntil := max p.capFloorUntil (s.now + 100 * us), benchBin := 4, loamPct := 25 })

/-- The emergency step of R439, after a change that took the effective cap down from `old`. -/
def State.capStep (s : State) (old : Nat) : State :=
  if s.effCap < old && decide (s.effCap + 200 < s.pwr.avgMs) then s.enterFloor else s

/-- CAP_WINDOW_END (R439): a cap that the average of the last ms still exceeds by more than 200 W takes the emergency step
here too. -/
def execCapWindowEnd (avgW : Nat) (s : State) : Host.Outcome State Fault Refusal :=
  if !s.powered then .next s
  else
    let exceeded := decide (s.effCap < avgW)
    let s := s.modPwr (fun p => { p with powerAvg := avgW, capDeficit := exceeded })
    let s := if exceeded then
        ((s.bump Reg.capDeficitEv).bumpBy Reg.capDeficitMj ((avgW - s.effCap) * 10)).envEvent 0x02 1 0 0
      else s
    .next (if s.effCap + 200 < s.pwr.avgMs then s.enterFloor else s)

/-- PWR_CAP_N_RECOGNISED (R440). -/
def execPwrCapNRecognised (s : State) : Host.Outcome State Fault Refusal :=
  if !s.powered then .next s else .next (s.enterFloor.envEvent 0x01 0 2 0)

/-- CAP_FLOOR_END (R440): PWR_CAP_N is high, at least 100 µs after its recognition. -/
def execCapFloorEnd (s : State) : Host.Outcome State Fault Refusal :=
  if s.powered && s.pwr.capFloor && decide (s.pwr.capFloorUntil ≤ s.now) then
    .next (s.modPwr (fun p => { p with capFloor := false, loamPct := 100 }))
  else .next s

/-- SHELF_ALERT_N_ASSERT (R441). -/
def execShelfAlertNAssert (s : State) : Host.Outcome State Fault Refusal :=
  if !s.powered then .next s
  else .next (((s.modPwr (fun p => { p with shelf := true })).envEvent 0x04 1 2 0).capStep s.effCap)

/-- SHELF_CAP_RELEASE (R441): 100 ms after the signal's release. -/
def execShelfCapRelease (s : State) : Host.Outcome State Fault Refusal :=
  if !s.powered then .next s else .next (s.modPwr (fun p => { p with shelf := false }))

/-- A write to SHELF_CAP or SENSOR_FAULT_CAP, 400 to 1,900 W (R462). -/
def wrWattCap (off : Nat) : WriteFn := fun s v =>
  if 400 ≤ v.toNat ∧ v.toNat ≤ 1900 then some ((s.setReg off v).capStep s.effCap) else none

/-! ### Flow (R444) -/

/-- FLOW_PULSE_EDGE (R444): a rising edge arms supervision; flow loss ends after 1 s of edges less than
50 ms apart. -/
def execFlowPulseEdge (s : State) : Host.Outcome State Fault Refusal :=
  if !s.aonUp then .next s
  else .next (s.modPwr (fun p =>
    let good := if s.now < p.flowLast + 50 * ms then p.flowGoodSince else s.now
    { p with
      flowArmed := true, flowLast := s.now, flowGoodSince := good,
      flowEdges := (p.flowEdges.filter (fun t => decide (s.now < t + sec))) ++ [s.now],
      flowLoss := p.flowLoss && decide (s.now < good + sec) }))

/-- FLOW_LOSS (R444). -/
def execFlowLoss (s : State) : Host.Outcome State Fault Refusal :=
  if s.aonUp && s.pwr.flowArmed && !s.pwr.flowLoss && decide (s.pwr.flowLast + 50 * ms ≤ s.now) then
    .next (((s.modPwr (fun p => { p with flowLoss := true })).bump Reg.flowLossEv).envEvent 0x05 2 2 0)
  else .next s

/-! ### Leak sensing (R445-R447) -/

/-- A toggle period of 800 to 1,200 Hz. -/
def togglePeriod (ns : Nat) : Bool := decide (sec ≤ 1200 * ns ∧ 800 * ns ≤ sec)

/-- A rising edge after the line was low for `low` ns. -/
def Power.leakRises (p : Power) (now : Nat) : Power :=
  let low := now - p.leakEdgeAt
  let selfTest := decide (4 * ms ≤ low ∧ low ≤ 6 * ms)
  let valid := togglePeriod (now - p.leakRise)
  let p :=
    if selfTest then { p with leakSelfTest := now, leakRecover := decide (p.leak = .failed), leakValidAt := now }
    else if 4 * ms ≤ low then { p with leakValidAt := now }
    else p
  let p :=
    if !valid then p
    else
      let st := match p.leak with
        | .unarmed => LeakState.dry
        | .dry => .dry
        | .wet => .dry
        | .failed => if p.leakRecover then .dry else .failed
      { p with
        leakValidAt := now, leak := st, leakRecover := p.leakRecover && decide (st = .failed),
        leakSelfTest := if p.leak ≠ .dry ∧ st = .dry then now else p.leakSelfTest }
  { p with leakLine := true, leakEdgeAt := now, leakRise := now }

/-- LEAK_SENSE_EDGE (R445). -/
def execLeakSenseEdge (rising : Bool) (s : State) : Host.Outcome State Fault Refusal :=
  if !s.aonUp || rising == s.pwr.leakLine then .next s
  else if rising then
    let low := s.now - s.pwr.leakEdgeAt
    let glitch := decide (s.pwr.leak ≠ .unarmed) && decide (6 * ms < low ∧ low < 20 * ms)
    let s := s.modPwr (fun p => p.leakRises s.now)
    .next (if glitch then s.bump Reg.leakEv else s)
  else .next (s.modPwr (fun p => { p with leakLine := false, leakEdgeAt := s.now }))

/-- LEAK_WET (R446): the line has been low for 20 ms. -/
def execLeakWet (s : State) : Host.Outcome State Fault Refusal :=
  let p := s.pwr
  if s.aonUp && decide (p.leak ≠ .unarmed ∧ p.leak ≠ .wet) && !(decide (p.leak = .failed) && p.leakLatched) &&
      !p.leakLine && decide (p.leakEdgeAt + 20 * ms ≤ s.now) then
    .next (((s.modPwr (fun p => { p with
      leakLatched := true, leak := if p.leak = .failed then .failed else .wet })).bump Reg.leakEv).envEvent 0x06 2 2 0)
  else .next s

/-- The sensor is stopped or stuck (R445). -/
def Power.leakDead (p : Power) (now : Nat) : Bool :=
  (p.leakLine && decide (p.leakEdgeAt + 5 * ms ≤ now)) ||
  ((p.leakLine || decide (now < p.leakEdgeAt + 4 * ms)) && decide (p.leakValidAt + 10 * ms ≤ now)) ||
  (decide (p.leak = .dry) && decide (p.leakSelfTest + 180 * sec ≤ now))

/-- LEAK_SENSOR_FAILED (R445, R447, R451). -/
def execLeakSensorFailed (s : State) : Host.Outcome State Fault Refusal :=
  if s.aonUp && decide (s.pwr.leak ≠ .unarmed ∧ s.pwr.leak ≠ .failed) && s.pwr.leakDead s.now then
    .next ((((s.modPwr (fun p => { p with leak := .failed, leakRecover := false })).bump Reg.leakEv).envEvent 0x07 1 2 0).capStep
      s.effCap)
  else .next s

/-- SENSOR_SUPERVISION_ARM (R444, R445): 1 s after power-up. -/
def execSensorSupervisionArm (s : State) : Host.Outcome State Fault Refusal :=
  if !s.aonUp || s.now < sec then .next s
  else .next (s.modPwr (fun p =>
    let p := if p.flowArmed then p else { p with flowArmed := true, flowLast := s.now, flowGoodSince := s.now }
    if p.leak = .unarmed then { p with leak := .dry, leakEdgeAt := s.now, leakValidAt := s.now, leakSelfTest := s.now } else p))

/-! ### Temperature (R448-R450) -/

/-- Sensors listed once each, but sensor `k`, up to `m` of them. -/
def sensorsOf (k m : Nat) (l : List Nat) : List Nat :=
  (l.foldl (fun a n => if n < 48 ∧ n ≠ k ∧ !a.contains n then a ++ [n] else a) []).take m

/-- The 3 to 6 fixed neighbours of sensor `k` (R448): the part's own, made up to 3 where it names fewer. -/
def sensorNbrs (k : Nat) : List Nat :=
  let own := sensorsOf k 6 (Config.sensorNbrs k)
  if 3 ≤ own.length then own else sensorsOf k 3 (own ++ List.range 48)

/-- The readings of the healthy neighbours of sensor `k`, in 1/16 °C. -/
def nbrTemps (temps : List Int) (failed : List Nat) (k : Nat) : List Int :=
  ((sensorNbrs k).filter (fun n => !failed.contains n)).map (fun n => temps.getD n 0)

/-- A reading outside -20 °C to 150 °C. -/
def tempOut (t : Int) : Bool := decide (t < -320 ∨ 2400 < t)

/-- The reading is more than 8 °C below the sensor's model. -/
def belowModel (temps : List Int) (failed : List Nat) (k : Nat) : Bool :=
  let ns := nbrTemps temps failed k
  !ns.isEmpty && decide ((temps.getD k 0 + 128 - Config.sensorOffset k) * ns.length < ns.foldl (· + ·) 0)

/-- The temperature of region `k`: none when it has no reading left (R448). -/
def regionTemp (temps : List Int) (failed : List Nat) (k : Nat) : Option Int :=
  if !failed.contains k then some (temps.getD k 0)
  else match nbrTemps temps failed k with
    | [] => none
    | t :: ts => some (ts.foldl max t + 80)

/-- Substitution and the failure rules: the sensors that fail in this sample, and since when each one has
read below its model. -/
def sensorCheck (p : Power) (temps : List Int) (now : Nat) : List Nat × Sparse Nat :=
  let out := (List.range 48).filter (fun k => !p.failedSensors.contains k && tempOut (temps.getD k 0))
  let failed := p.failedSensors ++ out
  let cool := (List.range 48).filter (fun k => !failed.contains k && belowModel temps failed k)
  let since := cool.map (fun k => (k, match p.coolSince.find? (fun e => e.1 == k) with | some e => e.2 | none => now))
  let late := (since.filter (fun e => decide (e.2 + 100 * ms ≤ now))).map (·.1)
  ((List.range 48).filter (fun k => out.contains k || late.contains k), since.filter (fun e => !late.contains e.1))

/-- Tj and its region: the highest region temperature, the lowest region number that has it. -/
def tjOf (regions : List (Nat × Int)) (old : Int × Nat) : Int × Nat :=
  match regions with
  | [] => old
  | (k, t) :: rs => rs.foldl (fun a e => if a.1 < e.2 then (e.2, e.1) else a) (t, k)

/-- The thermal limit after one sample (R449). -/
def thermStep (p : Power) (limit target : Nat) : Power :=
  let hot := decide ((target * 16 : Nat) < p.tj)
  let low := ((target - 2) * 16 : Nat)
  let fall := hot || (p.thermFall && decide ((low : Int) < p.tj))
  if !p.thermOn && !hot then { p with thermFall := false }
  else
    let cur := if p.thermOn then p.thermLimit else min p.thermLimit limit
    let next := if fall then cur - 20 else if p.tj < (low : Int) then min 1900 (cur + 5) else cur
    { p with thermOn := decide (next < 1900), thermLimit := next, thermFall := fall }

/-- The responses to Tj (R449, R451), the statistics of R468 and THERM_LIMIT_MS. -/
def State.tjResponse (s : State) : State :=
  let old := s.pwr
  let s := s.modPwr (fun p =>
    let p := thermStep p s.powerLimit (s.regN Reg.tjTarget)
    { p with
      over105 := decide (1680 < p.tj), over110 := decide (1760 ≤ p.tj),
      tempSum := p.tempSum + p.tj, tempCount := p.tempCount + 1, tempMax := max p.tempMax p.tj,
      over100 := p.over100 + b2n (decide (1600 < p.tj)) })
  let s := if s.pwr.thermOn then
      if s.pwr.thermSub + 1 = 10 then (s.bump Reg.thermLimitMs).modPwr (fun p => { p with thermSub := 0 })
      else s.modPwr (fun p => { p with thermSub := p.thermSub + 1 })
    else s
  let s := if s.pwr.over105 && !old.over105 then s.envEvent 0x0A 1 2 s.pwr.tjRegion else s
  if s.pwr.over110 && !old.over110 then s.envEvent 0x0B 2 2 s.pwr.tjRegion else s

/-- THERMAL_SAMPLE (R448-R450): 48 readings in 1/16 °C. -/
def execThermalSample (temps : List Int) (s : State) : Host.Outcome State Fault Refusal :=
  if !s.aonUp then .next s
  else
    let cap := s.effCap
    let was := s.pwr.failedSensors
    let chk := sensorCheck s.pwr temps s.now
    let fresh := chk.1
    let failed := was ++ fresh
    let blindNow := (List.range 48).filter (fun k => (regionTemp temps failed k).isNone)
    let blindNew := blindNow.filter (fun k => (regionTemp temps was k).isSome)
    let regions := (List.range 48).filterMap (fun k => (regionTemp temps failed k).map (fun t => (k, t)))
    let tj := tjOf regions (s.pwr.tj, s.pwr.tjRegion)
    let s := s.modPwr (fun p => { p with
      temps := (List.range 48).map (fun k => temps.getD k 0), failedSensors := failed, coolSince := chk.2,
      blind := p.blind || !blindNow.isEmpty, tj := tj.1, tjRegion := tj.2 })
    let s := fresh.foldl (fun s k => s.envEvent 0x08 1 2 k) s
    let s := blindNew.foldl (fun s k => s.envEvent 0x09 2 2 k) s
    let s := if regions.length = 48 ∧ s.pwr.tj < 1840 ∧ !s.pwr.trip then { s with pins := { s.pins with thermTrip := false } } else s
    .next (s.tjResponse.capStep cap)

/-- THERMAL_TRIP (R449): latched until power is removed. -/
def execThermalTrip (s : State) : Host.Outcome State Fault Refusal :=
  if !s.aonUp || s.pwr.trip || s.pwr.tj < 1840 then .next s
  else
    let s := s.modPwr (fun p => { p with trip := true })
    let s := { s with
      pins := { s.pins with thermTrip := true },
      lanes := smap {} s.lanes (fun l => { l with shutter := false }) }
    .next (s.envEvent 0x0C 3 2 s.pwr.tjRegion)

/-! ### Output stages (R453-R455) -/

/-- The stages: 0 cooling, 1 request, 2 throttle. -/
def Power.stage (p : Power) (k : Nat) : Stage := match k with | 0 => p.cooling | 1 => p.request | _ => p.throttleSt
def Power.setStage (p : Power) (k : Nat) (x : Stage) : Power :=
  match k with
  | 0 => { p with cooling := x }
  | 1 => { p with request := x }
  | _ => { p with throttleSt := x }

/-- The value of the higher claim drives the output; equal claims hold it (R453). The governor claims 0x40. -/
def Stage.resolve (x : Stage) : Stage :=
  if 0x40 < x.sClaim.toNat then { x with out := x.sVal, driven := true, tie := false, held := false }
  else if x.sClaim.toNat = 0x40 then { x with tie := true, held := true }
  else { x with out := x.gVal, driven := true, tie := false, held := false }

/-- Resolve stage `k` as `x` and report a tie that begins (R453). -/
def State.resolveStage (s : State) (k : Nat) (x : Stage) : State :=
  let y := x.resolve
  let s := s.modPwr (fun p => p.setStage k y)
  if y.tie && !x.tie then (s.bump Reg.pwrClaimTie).envEvent 0x0F 1 2 k else s

/-- A governor value within its unit's range, which the spec does not state further. -/
def governorRange (k : Nat) : Nat := match k with | 0 => 257 | 1 => 1901 | _ => 101

/-- GOVERNOR_UPDATE (R454): three values every 1 ms, from inputs whose function the spec leaves open. -/
def execGovernorUpdate (s : State) : Host.Outcome State Fault Refusal :=
  if !s.aonUp then .next s
  else .next ((List.range 3).foldl (fun s k =>
    let r := s.free
    r.2.resolveStage k { s.pwr.stage k with gVal := BitVec.ofNat 16 (r.1.toNat % governorRange k) }) s)

/-- STEWARD_STAGE_WRITE (R453, R455): a claim of 0 withdraws the input. -/
def execStewardStageWrite (k : Fin 3) (value : BitVec 16) (claim : Byte) (s : State) : Host.Outcome State Fault Refusal :=
  if !s.powered || !s.hostReached || !s.fault.stewardUp then .next s
  else
    let x := { s.pwr.stage k with sVal := value, sClaim := claim, sStale := false, sAt := s.now }
    if claim = 0 then .next (s.modPwr (fun p => p.setStage k { x with held := true }))
    else .next (s.resolveStage k x)

/-- STEWARD_CLAIM_EXPIRY (R455). -/
def execStewardClaimExpiry (k : Fin 3) (s : State) : Host.Outcome State Fault Refusal :=
  let x := s.pwr.stage k
  if s.aonUp && decide (x.sClaim ≠ 0) && decide (x.sAt + 4 * ms ≤ s.now) then
    .next (s.modPwr (fun p => p.setStage k x.withdraw))
  else .next s

/-! ### Live margin and bins (R433, R458) -/

def marginKey : MarginDomain → Nat
  | .bench b => b
  | .switchCore => 100

/-- The factory voltage range of a bin in 0.1 mV (R432). -/
def factoryRange (k bin : Nat) : Nat × Nat :=
  if k = 100 then (if bin = 0 then (7200, 7900) else (6900, 7550))
  else match bin with
    | 0 => (7000, 7800)
    | 1 => (6600, 7350)
    | 2 => (6250, 6950)
    | 3 => (5950, 6600)
    | _ => (5700, 6300)

/-- The factory voltage, and the floor of a domain at a bin: with its guard band and live offset, in steps of 2.5 mV. -/
def factoryV (k bin : Nat) : Int :=
  let r := factoryRange k bin
  ((r.1 + (Config.factoryVoltage k bin).toNat % (r.2 - r.1 + 1) : Nat) : Int)
def Power.floorV (p : Power) (k bin : Nat) : Int := factoryV k bin + 25 * (sget 0 p.guard k + (sget 0 p.live k : Nat))

/-- One more live step would take the floor above the highest voltage, 100 mV above the factory voltage (R432, R458). -/
def Power.atTop (p : Power) (k bin : Nat) : Bool := decide (factoryV k bin + 1000 < p.floorV k bin + 25)

/-- TIMING_MARGIN_WARNING (R458): the live offset rises one step, or the domain steps down one bin. -/
def execTimingMarginWarning (d : MarginDomain) (s : State) : Host.Outcome State Fault Refusal :=
  if !s.powered then .next s
  else
    let k := marginKey d
    let live := sget 0 s.pwr.live k
    let bin := match d with
      | .bench b => s.benchBinOf b
      | .switchCore => b2n s.swcBin
    if s.pwr.atTop k bin then
      let down := match d with
        | .bench _ => min 4 (bin + 1)
        | .switchCore => 1
      .next ((s.modPwr (fun p => { p with
        curBin := sset 0 p.curBin k down, swcFree := p.swcFree && decide (k ≠ 100) })).envEvent 0x0E 1 2 k)
    else if live < 10 then
      .next (((s.modPwr (fun p => { p with live := sset 0 p.live k (live + 1) })).bump Reg.marginWarn).envEvent 0x0D 0 2 k)
    else .next (s.envEvent 0x0D 0 2 k)

/-- A write to FMAX_CTRL: bench bins 5 to 7 are refused (R433, R462). -/
def wrFmax : WriteFn := fun s v =>
  let b := fld v 0 3
  if 4 < b then none else some ((s.setReg Reg.fmaxCtrl v).modPwr (fun p => { p with benchBin := max p.benchBin b }))

/-- FMAX_CTRL_WRITE (R433). -/
def execFmaxCtrlWrite (r : Requester) (v : W32) (s : State) : Host.Outcome State Fault Refusal :=
  writeCmd s r Reg.fmaxCtrl (w64 v.toNat) wrFmax

/-! ### The Lehr pass (R459, R460) -/

/-- A pass starts at step 1; it waits while the steward is down. -/
def State.lehrBegin (s : State) : State :=
  s.modPwr (fun p => { p with
    lehrStep := 1, lehrPaused := !s.fault.stewardUp, lehrAt := s.now, lehrStepAt := s.now, lehrChanged := false, lehrDue := [],
    lehrRetrained := 0 })

/-- A write to LEHR_CTRL: an interval out of range, and START while a pass runs, are refused (R459, R462). -/
def wrLehr : WriteFn := fun s v =>
  let hours := fld v 4 16
  if hours < 24 || 8760 < hours || (bit v 1 && s.pwr.lehrStep != 0) then none
  else
    let t := s.setReg Reg.lehrCtrl (setFld v 1 1 0)
    some (if bit v 1 then t.lehrBegin else t)

/-- LEHR_START (R459). -/
def execLehrStart (r : Requester) (v : W32) (s : State) : Host.Outcome State Fault Refusal :=
  writeCmd s r Reg.lehrCtrl (w64 v.toNat) wrLehr

/-- LEHR_INTERVAL_EXPIRY (R459). -/
def execLehrIntervalExpiry (s : State) : Host.Outcome State Fault Refusal :=
  let hours := fld (s.reg Reg.lehrCtrl) 4 16
  if s.powered && bit (s.reg Reg.lehrCtrl) 0 && s.pwr.lehrStep == 0 && decide (s.pwr.lehrAt + hours * 3600 * sec ≤ s.now) then
    .next s.lehrBegin
  else .next s

/-- A trigger by the mailbox or PLDM; one that meets a running pass is counted (R459). -/
def State.lehrTrigger (s : State) (r : Requester) : State :=
  if s.pwr.lehrStep ≠ 0 then s.ignored r Reg.lehrCtrl false else s.lehrBegin

/-- Step 2: each guard band takes its live offset in, and moves toward its plan by at most 4 steps. -/
def lehrGuard (m : LehrMeasure) (p : Power) : Power :=
  (List.range 101).foldl (fun p d =>
    let g := sget 0 p.guard d
    let base := g + sget 0 p.live d
    let next := clampInt (-128) 127 (clampInt (base - 4) (base + 4) (m.guardTarget.getD d base))
    { p with
      guard := sset 0 p.guard d next, live := sset 0 p.live d 0,
      lehrChanged := p.lehrChanged || decide (next ≠ g) }) p

/-- Step 3: the ageing bin of a domain whose guard band is `g` (R459): highest code `top`. -/
def ageNext (g : Int) (bin top : Nat) : Nat := if 40 < g then min top (bin + 1) else if g ≤ 38 then bin - 1 else bin

/-- Step 3 over every domain: bins forced by live margin are released; the switching core's change waits for the next full
device recovery (R433, R459). -/
def lehrBins (p : Power) : Power :=
  let p := (List.range 100).foldl (fun p b =>
    let a := sget 0 p.ageBin b
    let n := ageNext (sget 0 p.guard b) a 4
    { p with
      ageBin := sset 0 p.ageBin b n, curBin := sset 0 p.curBin b 0, lehrChanged := p.lehrChanged || decide (n ≠ a) }) p
  let n := ageNext (sget 0 p.guard 100) (b2n p.swcAge) 1
  { p with swcAge := n == 1, swcFree := true, lehrChanged := p.lehrChanged || decide (n ≠ b2n p.swcAge) }

/-- Step 4: flagged lanes, and lanes below the error ratio move to their STANDBY spare (R377, R459). -/
def State.lehrEyes (s : State) (m : LehrMeasure) : State :=
  let s := s.modPwr (fun p => { p with
    eqStale := (m.eyeFallen.filter (fun n => decide (n < 528))).foldl (fun l n => insertNat n l) p.eqStale })
  m.berBad.foldl (fun s n =>
    if 512 ≤ n then s
    else match s.laneOwner n with
      | some (lp, pos) => if s.canSwap lp pos false then s.startSwap lp pos false true else s
      | none => s) s

/-- Step 5: refresh multipliers, and the controllers due for retraining. -/
def State.lehrRefresh (s : State) (m : LehrMeasure) : State :=
  let want := fun k => max 1 (min 4 (m.refresh.getD k (s.memCtl k).refresh))
  let changed := (List.range 28).any (fun k => decide (want k ≠ (s.memCtl k).refresh))
  let s := (List.range 28).foldl (fun s k => s.modMem k (fun c => { c with refresh := want k })) s
  s.modPwr (fun p => { p with
    lehrChanged := p.lehrChanged || changed, lehrDeferred := [],
    lehrDue := (m.marginFallen.filter (fun k => decide (k < 28))).foldl (fun l k => insertNat k l) p.lehrDeferred })

/-- Bytes 24-255 of a Lehr ledger entry (R468). -/
def State.lehrEntry (s : State) : List Byte :=
  let p := s.pwr
  let mean := if p.tempCount = 0 then p.tj else p.tempSum / p.tempCount
  let ages := (List.range 100).foldl (fun a b => a + sget 0 p.ageBin b * 2 ^ (3 * b)) 0
  let refs := (List.range 28).foldl (fun a k => a + ((s.memCtl k).refresh - 1) * 2 ^ (4 * k)) 0
  let stale := p.eqStale.foldl (fun a n => a + 2 ^ n) 0
  leBytes 2 (tc 16 mean) ++ leBytes 2 (tc 16 p.tempMax) ++ leBytes 4 (p.over100 / 36000000) ++
  [byte (tc 8 (sget 0 p.guard 100)), byte (b2n s.swcBin + 2 * b2n p.swcAge), 0, 0] ++
  (List.range 100).map (fun b => byte (tc 8 (sget 0 p.guard b))) ++ leBytes 38 ages ++ leBytes 14 refs ++ leBytes 66 stale ++
  [byte p.lehrRetrained, byte p.lehrDeferred.length]

/-- Step 7: the ledger entry, the epoch and the pass count. -/
def State.lehrEnd (s : State) : State :=
  let s := s.modPwr (fun p => { p with epochGain := p.epochGain + b2n p.lehrChanged, passGain := p.passGain + 1 })
  (s.ledgerAppend 1 s.lehrEntry).modPwr (fun p => { p with
    lehrStep := 0, lehrRetrained := 0, tempSum := 0, tempCount := 0, tempMax := -4096, over100 := 0 })

/-- LEHR_STEP_COMPLETE (R459). -/
def execLehrStepComplete (m : LehrMeasure) (s : State) : Host.Outcome State Fault Refusal :=
  let p := s.pwr
  let goTo := fun (s : State) (n : Nat) => s.modPwr (fun p => { p with lehrStep := n })
  if !s.powered || !s.fault.stewardUp || p.lehrPaused then .next s
  else match p.lehrStep with
    | 1 => .next (goTo s 2)
    | 2 => .next (goTo (s.modPwr (lehrGuard m)) 3)
    | 3 => .next (goTo (s.modPwr lehrBins) 4)
    | 4 => .next (goTo (s.lehrEyes m) 5)
    | 5 => .next (goTo (s.lehrRefresh m) 6)
    | 6 =>
      if p.lehrDue.isEmpty || decide (p.lehrStepAt + 24 * 3600 * sec ≤ s.now) then
        .next (goTo (s.modPwr (fun p => { p with lehrDeferred := p.lehrDue, lehrDue := [] })) 7)
      else .next s
    | 7 => .next s.lehrEnd
    | _ => .next s

/-- MEMORY_RETRAIN_WINDOW (R459 step 6): no pending access for 10 ms; accesses wait until the controller has trained. -/
def execMemoryRetrainWindow (m : Fin 28) (s : State) : Host.Outcome State Fault Refusal :=
  let p := s.pwr
  if s.powered && p.lehrStep == 6 && !p.lehrPaused && p.lehrDue.contains m.val && !s.memPending m &&
      decide ((s.memCtl m).lastAccess + 10 * ms ≤ s.now) then
    .next ((s.modMem m (fun c => { c with st := .training })).modPwr (fun p => { p with
      lehrDue := p.lehrDue.filter (· != m.val), lehrRetrained := p.lehrRetrained + 1 }))
  else .next s

end Sys2Proof.Machine
end

