-- ==== Sys2Proof/Machine/Cycles.lean ====
section
/-! DEFINITION. What passing time does: the clocks and cycle counters (R27, R483-R486), and the tick. -/

namespace Sys2Proof.Machine

/-- The switching core is clock-gated: every port is down. -/
def State.swcGated (s : State) : Bool :=
  !s.ports.any (fun e => decide (e.2.st = .active ∨ e.2.st = .training))

/-- Controller `m`'s clock runs. -/
def State.memClocked (s : State) (m : Nat) : Bool := decide ((s.memCtl m).st = .active ∨ (s.memCtl m).st = .training)

/-- Tenths of a cycle that the clock of counter block `n` advances in 1 ns (R210, R432, R483). -/
def State.blockRate (s : State) (n : Nat) : Nat :=
  if n < 128 || n = 241 then (if s.swcGated then 0 else if s.swcBin then 18 else 20)
  else if n < 228 then
    (if (s.bench (n - 128)).st ≠ .awake then 0
     else if (s.bench (n - 128)).halfRate then 8 else 16 - 2 * s.benchBinOf (n - 128))
  else if n < 240 then (if s.memClocked (n - 228) then 16 else 0)
  else if (List.range 16).any (fun j => s.memClocked (12 + j)) then 16 else 0

/-- Counter blocks with an enabled selection. -/
def State.evBlocks (s : State) : List Nat :=
  (s.regs.filter (fun e => decide (0x3F00000 ≤ e.1 ∧ 0x40 ≤ e.1 % 0x1000 ∧ e.1 % 0x1000 < 0x60) && bit e.2 8)).foldl
    (fun l e => insertNat ((e.1 - 0x3F00000) / 0x1000) l) []

/-- A VC holds a packet at its head and lacks the credits of R71 (R112). -/
def State.starved (s : State) (lp vc : Nat) : Bool :=
  (s.headOf lp vc).any (fun x => !x.arriving &&
    !s.txHolds lp vc (s.itemAcct lp x.item) (if s.segments lp x then 1 else x.granules))

/-- A bench's send at the head of its queue finds no room in the buffer (R69). -/
def State.sendHeld (s : State) (b : Nat) : Bool :=
  match (s.bench b).sendQ with
  | [] => false
  | (p, _) :: _ => !(!hMc p.h && s.isOwn p.h.dest) && !((s.coreCtx b).any s.replaying) && (s.tryInternal (.bench b) p).isNone

/-- An internal writer is held (R69). -/
def State.writersHeld (s : State) : Bool := !s.sw.held.isEmpty || (skeys s.benches).any s.sendHeld

/-- A core's next item waits at its ITEM record (R333). -/
def State.itemStalls (s : State) (b : Fin 100) : Bool :=
  match (s.bench b).items with
  | [] => false
  | w :: _ => !s.waitRoom b 16 && (s.runOn b).isSome && !((s.coreCtx b).any s.replaying) && (s.itemCore b w).any (fun c =>
      decide ((s.core (b.val * 8 + c)).run = .halted))

/-- A bench's engine waits at the record of its next take (R333). -/
def State.engineStalls (s : State) (b : Nat) : Bool :=
  match s.adderNext b with
  | .take c => s.adderStalls c
  | _ => false

/-- A core's instruction could retire, and its record has no room: one that could not issue, or a wait that could end
(R333). -/
def State.retireStalls (s : State) (b : Fin 100) (c : Fin 8) : Bool :=
  match (s.core (coreNo b c)).wait with
  | none => false
  | some q =>
    let take := fun (k : Nat) => match (s.bench b).recvQ with
      | p :: _ => !s.waitRoom b (takeBody k p.pkt)
      | [] => s.late q && !s.waitRoom b 8
    if (s.logCtx b).isSome then false
    else match q.kind with
      | .record => true
      | .recv => take 1
      | .recvh => take 2
      | .tally => (s.twaitMet b c q.word || s.late q) && !s.waitRoom b 8
      | .ctake => ((s.ctakeNow b c q.word).isSome || s.late q) && !s.ctakeRoom b c
      | _ => false

/-- A record point stalls: a core, a packet of a send queue, an engine or the frit path's take, an upper-tier take, or a start (R333). -/
def State.recordPointStalls (s : State) : Bool :=
  decide (0 < s.recq.length) &&
  ((List.finRange 100).any (fun b => (List.finRange 8).any (s.retireStalls b)) || (List.finRange 100).any (fun b => s.outStalls b) ||
   (List.finRange 100).any (fun b => s.itemStalls b || s.engineStalls b) ||
   s.coll.inq.any (fun i => decide (24 ≤ i.pkt.payload.length) && s.recordStalls (collMsgOf i)) || s.seqStalls)

/-- An event that holds for `k` cycles at 1 per cycle. -/
def State.holds (s : State) (c : Bool) (blk code k : Nat) (vc l : Option Nat := none) : State :=
  if c then s.countEv blk code k vc l else s

/-- `k` cycles of a port block's events (R486). -/
def State.portCycles (s : State) (p k : Nat) : State :=
  (List.range 4).foldl (fun s l =>
    let lp := 4 * p + l
    if !s.lportExists lp then s
    else
      let s := s.holds (decide (s.pwr.pacePct < 100)) p 0x0B k none (some l)
      let s := s.holds (!(s.portActive lp && decide ((s.port lp).tx = .active))) p 0x0C k none (some l)
      (List.range 8).foldl (fun s v =>
        (s.holds (s.starved lp v) p 0x05 k (some v) (some l)).countEv p 0x06 (k * s.qdepth lp v) (some v) (some l)) s) s

/-- `k` cycles of a memory block's events. How many of them refresh takes is free (R486, class 1). -/
def State.memCycles (s : State) (n k : Nat) : State :=
  let ms := if n < 240 then [n - 228] else (List.range 16).map (fun j => 12 + j)
  let s := s.holds (ms.any s.memPending) n 0x82 k
  let (v, s) := s.free
  s.countEv n 0x83 (v.toNat % (k + 1))

/-- `k` cycles of the events of counter block `n` (R486). -/
def State.blockCycles (s : State) (n k : Nat) : State :=
  if n < 128 then s.portCycles n k
  else if n < 228 then
    let b := n - 128
    let waiting := ((List.range 8).filter (fun c => decide ((s.core (8 * b + c)).run = .waiting))).length
    (s.holds (decide (512 ≤ s.adderDepth b)) n 0x44 k).countEv n 0x45 (k * waiting)
  else if n < 241 then s.memCycles n k
  else s.holds s.writersHeld n 0xC2 k

/-- The fixed cycle registers (R85, R112, R333, R462) over `ns` nanoseconds, `k` cycles of the switching core;
those that count
2.0 GHz cycles count two a nanosecond (log entry 26). -/
def State.fixedCycles (s : State) (ns k : Nat) : State :=
  let s := s.sw.queues.foldl (fun s q =>
    let lp := q.1 / 8
    let v := q.1 % 8
    if s.starved lp v then s.bumpBy (Reg.starvedCycles (lp / 4) (lp % 4 * 8 + v)) (2 * ns) else s) s
  let s := if s.writersHeld then s.bumpBy Reg.intStallCycles k else s
  let s := if s.pwr.pacePct < 100 then s.bumpBy Reg.paceCycles (2 * ns) else s
  if s.recordPointStalls then s.bumpBy Reg.recqStallCycles (2 * ns) else s

/-- The cycle counters over `ns` nanoseconds in which nothing else changes. -/
def State.runClocks (s : State) (ns : Nat) : State :=
  let old := s.perf.cyc
  let new := (List.range 242).zipWith (fun n c => c + ns * s.blockRate n) old
  let k := fun n => new.getD n 0 / 10 - old.getD n 0 / 10
  let s := { s with perf := { s.perf with cyc := new } }
  let s := s.fixedCycles ns (k 241)
  s.evBlocks.foldl (fun s n => s.blockCycles n (k n)) s

/-! ### Errors that appear by themselves (R65, R110, R196, R313) -/

/-- An error appears in a word or line; one that is uncorrectable already stays so (log entry 12). -/
def State.upset (s : State) : Upset → State
  | .line n ce =>
    if !inPool (64 * n) 64 || s.pool.poisoned.contains n || s.pool.latent.any (fun e => e.1 == n && !e.2) then s
    else s.modPool (fun p => { p with latent := p.latent.filter (fun e => e.1 != n) ++ [(n, ce)] })
  | .word space owner addr ce =>
    let w : BadWord := { space := space, owner := owner, addr := addr / 8 * 8, ce := ce }
    let here := fun (x : BadWord) => x.space == w.space && x.owner == w.owner && x.addr == w.addr
    if !(decide (owner < 800) && decide ((space = 0 ∧ addr < 0x40000) ∨ (space = 3 ∧ addr < 0x10000))) ||
        s.badWords.any (fun x => here x && !x.ce) then s
    else { s with badWords := s.badWords.filter (fun x => !here x) ++ [w] }
  | .crucible inst chunk twin addr ce =>
    match s.coll.insts.drop inst with
    | [] => s
    | i :: _ =>
      let y := (i.chunk chunk).side twin
      let a := addr / 8 * 8
      if !(i.live && i.chunks.any (·.idx == chunk)) || parisonLines i.ent * 256 ≤ a || y.bad.any (fun w => w.1 == a && !w.2) then s
      else s.modInst i.key (fun i =>
        let ch := i.chunk chunk
        i.setChunk (ch.setSide twin { y with bad := y.bad.filter (fun w => w.1 != a) ++ [(a, ce)] }))
  | .entry bank t idx ce =>
    let e : EntryRef := { bank := bank, table := t, index := idx }
    if tableEntries t.val ≤ idx.val || s.route.errs.any (fun x => decide (x.ref = e)) then s
    else if ce then s.modRoute (fun r => { r with ces := r.ces.filter (fun x => !decide (x = e)) ++ [e] })
    else s.modRoute (fun r => { r with
      ces := r.ces.filter (fun x => !decide (x = e)), errs := r.errs ++ [{ ref := e, detected := false }] })

/-- The error that this nanosecond brings, if any. -/
def State.upsets (s : State) : State :=
  match Config.upset s.now with
  | some u => s.upset u
  | none => s

/-- What happens when no command waits: 1 ns of the always-on domain passes, the cycle counters advance, the record
queue drains, corrected lines are written back, and launches whose 2 µs have passed are stopped (log entry 2). -/
def State.tick (s : State) : State :=
  if s.powered then ((((s.runClocks 1).modClk Clock.tick).drainRecq).writeBack).upsets.stopRaised
  else if s.aonUp then s.modClk Clock.tick else s

end Sys2Proof.Machine
end

