-- ==== Sys2Proof/Machine/Boot.lean ====
section
/-! DEFINITION. Boot, image verification and debug unlock (R463-R475, R477, R479-R481). -/

namespace Sys2Proof.Machine

/-! ### Images (R464-R467) -/

/-- `n` bytes of flash from offset `i`; bytes never written read 0xFF. -/
def flashRead (bs : List Byte) (i n : Nat) : List Byte :=
  let r := (bs.drop i).take n
  r ++ List.replicate (n - r.length) 0xFF

/-- The flash of image A or B. -/
def State.imageFlash (s : State) (img : Bool) : Flash := if img then s.mgmt.flashB else s.mgmt.flashA

/-- Every byte of a range is 0. -/
def zeroRange (h : List Byte) (i n : Nat) : Bool := (slice h i n).all (· == 0)

/-- Order 2 of R466: format, reserved bytes, key slot and revoke flags. -/
def headerFormatOk (h : List Byte) : Bool :=
  let slot := u8 h 6
  let flags := u8 h 7
  u32 h 0 == 0x30524A54 && u16 h 4 == 1 && decide (flags < 8) && u8 h 11 == 0 && zeroRange h 13 3 && zeroRange h 24 8 &&
  (List.range 4).all (fun i => zeroRange h (161 + 16 * i) 3 && zeroRange h (172 + 16 * i) 4) && zeroRange h 224 32 &&
  decide (slot ≤ 3) && !(flags / 2 % 2 == 1 && slot == 2) && !(flags / 4 % 2 == 1 && slot == 3)

/-- Order 8 of R466: BODY_LEN and the components. -/
def headerBodyOk (h : List Byte) : Bool :=
  let len := u32 h 16
  let cs := (headerComps h).filter (fun c => c.1 != 0)
  decide (4096 ≤ len ∧ len ≤ 67108864 ∧ len % 4096 = 0) &&
  cs.all (fun c => decide (c.1 ≤ 4 ∧ c.2.1 + c.2.2 ≤ len)) &&
  (List.range 4).all (fun i => (List.range i).all (fun j => match (headerComps h)[i]?, (headerComps h)[j]? with
    | some a, some b => a.1 == 0 || b.1 == 0 || a.2.2 == 0 || b.2.2 == 0 ||
        decide (a.2.1 + a.2.2 ≤ b.2.1 ∨ b.2.1 + b.2.2 ≤ a.2.1)
    | _, _ => true)) &&
  (cs.filter (fun c => c.1 == 1)).length == 1 && (cs.filter (fun c => c.1 == 2)).length == 1

/-- Orders 2 to 8 of R466: 0, or the reason of the first failure. -/
def State.headerReason (s : State) (h : List Byte) : Nat :=
  let slot := u8 h 6
  if !headerFormatOk h then 2
  else if !slotFilled slot then 3
  else if s.revoked slot then 4
  else if Config.shake256 (slice h 96 64) 64 ≠ slotKey slot then 5
  else if !Config.slhVerify (slice h 96 64) (slice h 0 256) (slice h 256 29792) then 6
  else if u8 h 12 < s.svn || 32 < u8 h 12 then 7
  else if !headerBodyOk h then 2
  else 0

/-! ### Boot stages (R470-R473) -/

def State.setStage (s : State) (st : BootStage) : State := s.modBoot (fun b => { b with stage := st })

/-- The reason code of an image. -/
def Boot.setReason (b : Boot) (img : Bool) (r : Nat) : Boot :=
  if img then { b with reasonB := BitVec.ofNat 4 r } else { b with reasonA := BitVec.ofNat 4 r }

/-- Step 3: the state records are read and the primary image is chosen; later records follow the highest SEQ (R469). -/
def State.chooseImage (s : State) : State :=
  let r := s.mgmt.newestRecord
  let s := s.modMgmt (fun m => { m with
    stateSeq := m.validRecs.foldl (fun n e => max n (u32 e 0 + 1)) m.stateSeq })
  s.modBoot (fun b => { b with
    stage := .step 3, primary := r.1, image := r.1, oosAtBoot := r.2, fallback := false, reasonA := 0, reasonB := 0,
    header := [], body := [] })

/-- An image fails (R466, R467): the other is tried, or boot enters RECOVERY (R470 step 6, R472). -/
def State.imageFail (s : State) (reason : Nat) : State :=
  let img := s.boot.image
  let s := s.logFault { cls := 0x29, sev := 2, act := 0, block := 9, index := b2n img, detail := w64 reason }
  let s := s.modBoot (fun b => b.setReason img reason)
  if s.boot.fallback then s.setStage .recovery
  else s.modBoot (fun b => { b with stage := .step 3, image := !img, fallback := true, header := [] })

/-- Boot may read flash. -/
def State.flashReady (s : State) : Bool := s.powered && s.fault.stewardUp && !s.mgmt.spiHeld

/-- FLASH_HEADER_READ_COMPLETE (R466 orders 1 to 8, R470 step 4). -/
def execFlashHeaderReadComplete (obs : FlashObs) (s : State) : Host.Outcome State Fault Refusal :=
  if !s.flashReady || s.boot.stage ≠ .step 3 then .next s
  else match obs with
    | .failed => .next (s.imageFail 9)
    | .complete =>
      let h := flashRead (s.imageFlash s.boot.image).header 0 30048
      let r := s.headerReason h
      if r ≠ 0 then .next (s.imageFail r) else .next (s.modBoot (fun b => { b with stage := .step 4, header := h }))

/-- The digests of measurement indices 2 to 5 (R477). -/
def measureImage (h body : List Byte) : List (List Byte) :=
  [Config.sha3x512 (slice h 0 256), Config.sha3x512 (compBytes h body [1]), Config.sha3x512 (compBytes h body [2]),
    Config.sha3x512 (compBytes h body [3, 4])]

/-- FLASH_BODY_READ_COMPLETE (R466 orders 1 and 9, R470 step 5, R477). -/
def execFlashBodyReadComplete (obs : FlashObs) (s : State) : Host.Outcome State Fault Refusal :=
  if !s.flashReady || s.boot.stage ≠ .step 4 then .next s
  else match obs with
    | .failed => .next (s.imageFail 9)
    | .complete =>
      let h := s.boot.header
      let body := flashRead (s.imageFlash s.boot.image).body 0 (u32 h 16)
      if Config.shake256 body 64 ≠ slice h 32 64 then .next (s.imageFail 8)
      else .next (s.modBoot (fun b => { b.setReason b.image 1 with
        stage := .step 5, body := body, measured := measureImage h body }))

/-- FLASH_HOLD_TIMEOUT (R466 order 1): held for more than 60 s while an image is to be read. -/
def execFlashHoldTimeout (s : State) : Host.Outcome State Fault Refusal :=
  if s.powered && s.fault.stewardUp && s.mgmt.spiHeld && decide (s.mgmt.spiHeldAt + 60 * sec < s.now) &&
      decide (s.boot.stage = .step 3 ∨ s.boot.stage = .step 4) then .next (s.imageFail 9)
  else .next s

/-- A boot time as its 32-bit register holds it (R482): a longer one stays at the highest value (log entry 66). -/
def bootTime (us : Nat) : Nat := min us 0xFFFFFFFF

/-- HOST_READY (R470 step 7): host-ready, with the subsystem IDs of the header (R384); a device that was out of service enters it again (R423). -/
def execHostReady (s : State) : Host.Outcome State Fault Refusal :=
  if !s.flashReady || s.boot.stage ≠ .step 5 then .next s
  else
    let h := s.boot.header
    let s := s.modBoot (fun b => { b with stage := .step 7, timeHost := bootTime s.nowUs })
    let s := s.modHost (fun x => { x with
      mboxReady := true, subsys := w32 (u32 h 20) })
    let s := s.modMgmt (fun m => { m with mctpReady := true })
    let s := (s.setReg Reg.fwVersion (w64 (u32 h 8))).setReg Reg.imageSvn (w64 (u8 h 12))
    let s := s.setReg Reg.wardenVersion (w64 (u32 s.wardenBundle 0))
    if s.boot.oosAtBoot then
      .next ((s.lports.foldl (fun s lp => s.portTo lp .outOfService 0) s).modFault (fun f => { f with oos := true }))
    else .next s

/-- The ledger is read (R468, R470 step 8): the newest entries give the sequence number, the epoch and the
settings of the last Lehr pass. -/
def State.readLedger (s : State) : State :=
  let es := s.mgmt.ledger
  let s := match es.foldl newerOf none with
    | some e => (s.modMgmt (fun m => { m with ledgerSeq := u32 e 0 + 1 })).modPwr (fun p => { p with epochGain := u32 e 12 })
    | none => s
  match (es.filter (fun e => u8 e 8 == 1)).foldl newerOf none with
  | none => s
  | some e =>
    let ages := ofLe (slice e 136 38)
    let stale := ofLe (slice e 188 66)
    let refs := ofLe (slice e 174 14)
    let s := s.modPwr (fun p => { p with
      guard := (List.range 100).foldl (fun m b => sset 0 m b (sgn 8 (u8 e (36 + b)))) (sset 0 [] 100 (sgn 8 (u8 e 32))),
      ageBin := (List.range 100).foldl (fun m b => sset 0 m b (ages / 2 ^ (3 * b) % 8)) [],
      swcAge := u8 e 33 / 2 % 2 == 1, swcAged := u8 e 33 / 2 % 2 == 1, eqStale := bitsOf 528 stale })
    (List.range 28).foldl (fun s k => s.modMem k (fun c => { c with refresh := min 4 (refs / 2 ^ (4 * k) % 16 + 1) })) s

/-- MEMORY_TRAINING_COMPLETE (R391, R417 step 5, R470 step 8). -/
def execMemoryTrainingComplete (s : State) : Host.Outcome State Fault Refusal :=
  if !s.powered then .next s
  else match s.fault.reset with
    | some r =>
      if r.level = 2 ∧ r.step = 5 then .next (s.memBack.modFault (fun f => { f with reset := some { r with step := 6 } }))
      else .next s
    | none =>
      if s.boot.stage ≠ .step 7 || !s.flashReady then .next s
      else .next (s.memBack.readLedger.setStage (.step 8))

/-- Apply the image's flags (R471): revocation, then the SVN. -/
def State.applyFlags (s : State) : State :=
  let flags := u8 s.boot.header 7
  let svn := u8 s.boot.header 12
  let s := s.modBoot (fun b => { b with
    revoke2 := b.revoke2 || flags / 2 % 2 == 1, revoke3 := b.revoke3 || flags / 4 % 2 == 1 })
  if flags % 2 = 1 ∧ s.svn < svn then s.modBoot (fun b => { b with svnAdded := svn - fusedSvn }) else s

/-- BOOT_READY (R470 step 9, R471); a device out of service keeps its benches asleep (R423). -/
def execBootReady (s : State) : Host.Outcome State Fault Refusal :=
  if !s.flashReady || s.boot.stage ≠ .step 8 then .next s
  else
    let s := if s.fault.oos then s else s.startWarden
    let s := s.modBoot (fun b => { b with stage := .step 9, timeReady := bootTime s.nowUs })
    .next (if s.boot.image == s.boot.primary && !s.boot.fallback then s.applyFlags else s)

/-! ### Debug unlock (R479-R481) -/

/-- DEBUG_CHALLENGE_READ (R479): a locked-out challenge gives nothing. -/
def execDebugChallengeRead (s : State) : Host.Outcome State Fault Refusal :=
  if !s.powered || s.boot.lockout then .next s
  else
    let r := s.freeBytes 32
    .next ((r.2.modBoot (fun b => { b with nonce := some r.1 })).emit (.jtag (r.1 ++ identityHash)))

/-- The conditions of R480 that a token passes. -/
def State.tokenOk (s : State) (t : List Byte) : Bool :=
  let slot := u8 t 5
  !Config.debugFuse && !s.boot.lockout && t.length == 29960 && u32 t 0 == 1 && decide (1 ≤ u8 t 4 ∧ u8 t 4 ≤ 2) && u16 t 6 == 0 &&
  decide (slot ≤ 3) && slotFilled slot && !s.revoked slot &&
  decide (Config.shake256 (slice t 104 64) 64 = slotKey slot) && decide (s.boot.nonce = some (slice t 8 32)) &&
  decide (slice t 40 64 = identityHash) && Config.slhVerify (slice t 104 64) (slice t 0 168) (slice t 168 29792)

/-- DEBUG_TOKEN_WRITE (R480, R481). -/
def execDebugTokenWrite (token : List Byte) (s : State) : Host.Outcome State Fault Refusal :=
  if !s.powered then .next s
  else if !s.tokenOk token then
    .next ((s.bump Reg.debugFails).modBoot (fun b => { b with
      nonce := none, refusals := b.refusals + 1, lockout := b.lockout || decide (3 ≤ b.refusals + 1) }))
  else
    let lvl := u8 token 4
    .next (s.modBoot (fun b =>
      let b := { b with debugLevel := BitVec.ofNat 2 (max b.debugLevel.toNat lvl) }
      if lvl = 2 then { b with keyPresent := false, seedPresent := false, identityErased := true } else b))

end Sys2Proof.Machine
end

