-- ==== Sys2Proof/Machine/HostIf.lean ====
section
/-! DEFINITION. The host link, HDM decoders and host memory accesses (R382-R391, R397, R398). -/

namespace Sys2Proof.Machine

/-! ### Address maps (R387, R388) -/

def mib256 : Nat := 0x10000000

/-- The DPA size of a decoder: its size over its ways (R387). -/
def dpaSize (d : HdmDecoder) : Nat := d.size / 2 ^ d.ways

/-- The DPA base that decoder `i` gets as it commits: decoder 1's follows decoder 0's end (R387). -/
def HostIf.dpaBase (h : HostIf) (i : Nat) (d : HdmDecoder) : Nat :=
  if i = 0 then d.skip
  else match h.dec0 with
    | some d0 => d0.skip + dpaSize d0 + d.skip
    | none => d.skip

/-- The DPA offset of a host offset under the interleave: granules of the ways in turn (log entry 40). -/
def interleave (d : HdmDecoder) (off : Nat) : Nat :=
  let g := 256 * 2 ^ d.gran
  off / (g * 2 ^ d.ways) * g + off % g

/-- The pool address that a committed decoder maps a host address to. -/
def HostIf.dpa (h : HostIf) (addr : Nat) : Option Nat :=
  let via := fun (at' : Nat) (o : Option HdmDecoder) => match o with
    | some d => if d.base ≤ addr ∧ addr < d.base + d.size then some (at' + interleave d (addr - d.base)) else none
    | none => none
  (via (h.dec0.elim 0 (·.skip)) h.dec0).or (via h.dpa1 h.dec1)

/-- A commit fails (R388). -/
def HostIf.commitBad (h : HostIf) (i : Nat) (d : HdmDecoder) : Bool :=
  let a := h.dpaBase i d
  let b := a + dpaSize d
  decide (3 < d.ways) || decide (6 < d.gran) || d.base % mib256 != 0 || d.size % mib256 != 0 || d.skip % mib256 != 0 ||
  d.size == 0 || decide (0x10000000000 < b) || decide (a < 0x8000000000 ∧ 0x6C00000000 < b) ||
  (i == 1 && h.dec0.isNone) || d.lock

/-- The offset in BAR2 of HDM decoder `i`'s registers (log entry 65). -/
def hdmBase (i : Nat) : Nat := 0x1210 + 0x20 * i

/-- The words of a decoder's registers: base, size, control and skip. -/
def decoderWords (d : HdmDecoder) : List (Nat × W32) :=
  let hi := fun (v : Nat) => w32 (v / 2 ^ 32 % 2 ^ 32)
  [(0, w32 (d.base % 2 ^ 32)), (4, hi d.base), (8, w32 (d.size % 2 ^ 32)), (12, hi d.size),
    (16, w32 (pack [(0, d.gran), (4, d.ways), (8, b2n d.lock), (9, b2n d.commit)])), (20, w32 (d.skip % 2 ^ 32)), (24, hi d.skip)]

/-- A decoder's registers are written (R387, R388). With the Commit bit, a decoder that is not committed commits or fails,
and a committed one does not change; without it, the decoder is uncommitted (log entry 65). -/
def HostIf.program (h : HostIf) (i : Nat) (d : HdmDecoder) : HostIf :=
  let put : HostIf → HostIf := fun h =>
    { h with comp := (decoderWords d).foldl (fun m e => sset 0 m (hdmBase i + e.1) e.2) h.comp }
  if !d.commit then put (if i = 0 then { h with err0 := false, dec0 := none } else { h with err1 := false, dec1 := none })
  else if (if i = 0 then h.dec0 else h.dec1).isSome then h
  else
    let bad := h.commitBad i d
    put (if i = 0 then { h with err0 := bad, dec0 := if bad then none else some d }
      else { h with err1 := bad, dec1 := if bad then none else some d, dpa1 := if bad then h.dpa1 else h.dpaBase 1 d })

/-- HDM_DECODER_COMMIT (R387, R388): a write of the decoder's registers that ends with its control word. -/
def execHdmDecoderCommit (i : Fin 2) (d : HdmDecoder) (s : State) : Host.Outcome State Fault Refusal :=
  if !s.reaches .host true then .next s else .next (s.modHost (fun h => h.program i.val d))

/-! ### Host memory accesses (R389-R391) -/

/-- The host's traffic reaches the device. -/
def State.hostOpen (s : State) : Bool := s.reaches .host false && !s.host.fenced

/-- The mailbox takes a command: the steward is ready, the link is up, and no command is in progress (R392). -/
def State.mboxOpen (s : State) : Bool := s.hostOpen && s.host.mboxReady && s.host.mboxBusy.isNone

/-- The pool address of a host access of `n` bytes: through the decoders in CXL mode, else the aperture. -/
def State.hostAddr (s : State) (addr n : Nat) : Option Nat :=
  if s.host.cxlMode then s.host.dpa addr else if inPool addr n then some addr else none

/-- An Unsupported Request (R390): AER reports it, as an advisory error of a request that is answered (R383, log entry 65). -/
def State.unsupported (s : State) (addr : Nat) : State :=
  (s.modHost (fun h => { h with ueStatus := h.ueStatus ||| 0x00100000, ceStatus := h.ceStatus ||| 0x00002000 })).emit (.hostRefused addr)

/-- An Unsupported Request outside both tiers is counted too (R390). -/
def State.hostRefuse (s : State) (addr : Nat) : State := (s.bump Reg.hostMemRefused).unsupported addr

/-- A host access reaches the pool unit, first of its cycle, and is performed at once when nothing before it on its
lines, no sleeping controller and no fill holds it back; else it waits in the order (R305, R389). -/
def State.hostEnter (s : State) (o : PoolOp) (obs : MemObs) : State :=
  let s := s.enterOp 0 o
  s.tryPerform (s.pool.inflight.length - 1) obs

/-- A host access of kind `pop` to pool address `a`. -/
def hostOp (pop a addr len : Nat) (data : List Byte) (bytes : List (Option Byte)) (lastPiece : Bool) : PoolOp :=
  { h := ⟨0, 0, 0, 0⟩, pop := pop, ctx := 256, addr := a, len := len, data := data, group := 0, lp := none,
    hostAt := addr, bytes := bytes, lastPiece := lastPiece }

/-- HOST_MEM_READ (R389-R391). -/
def execHostMemRead (addr len : Nat) (obs : MemObs) (s : State) : Host.Outcome State Fault Refusal :=
  if !s.hostOpen || len = 0 then .next s
  else match s.hostAddr addr len with
    | none => if s.host.cxlMode then .next s else .next (s.hostRefuse addr)
    | some a =>
      if !s.host.memActive then .next (s.hostOnes addr len)
      else .next (s.hostEnter (hostOp 8 a addr len [] [] true) obs)

/-- The pieces of a write, split at 64-byte line boundaries. -/
def State.hostPieces (s : State) (a addr : Nat) (bs : List (Option Byte)) : Nat → State
  | 0 => s
  | f + 1 =>
    if bs.isEmpty then s
    else
      let k := 64 - a % 64
      let p := bs.take k
      State.hostPieces (s.hostEnter (hostOp 9 a addr p.length [] p (decide (bs.length ≤ k))) .clean)
        (a + k) addr (bs.drop k) f

/-- HOST_MEM_WRITE (R389-R391): bytes not enabled are none. A dropped CXL.mem write is completed too (log entry 65). -/
def execHostMemWrite (addr : Nat) (data : List (Option Byte)) (s : State) : Host.Outcome State Fault Refusal :=
  if !s.hostOpen || data.isEmpty then .next s
  else match s.hostAddr addr data.length with
    | none => if s.host.cxlMode then .next s else .next (s.hostRefuse addr)
    | some a =>
      if !s.host.memActive then .next (s.hostUnavailable (hostOp 9 a addr data.length [] data true))
      else .next (s.hostPieces a addr data (data.length / 64 + 2))

/-- HOST_MEM_SPEC_READ (R389): a hint, never a change of data. -/
def execHostMemSpecRead (_addr : Nat) (s : State) : Host.Outcome State Fault Refusal := .next s

/-- HOST_PCIE_ATOMIC (R390, R304): FetchAdd or CAS, 8-byte aligned, in PCIe mode. -/
def execHostPcieAtomic (cas : Bool) (addr : Nat) (x y : W64) (s : State) : Host.Outcome State Fault Refusal :=
  if !s.hostOpen then .next s
  else if s.host.cxlMode || addr % 8 ≠ 0 then .next (s.unsupported addr)
  else if !inPool addr 8 then .next (s.hostRefuse addr)
  else if !s.host.memActive then .next (s.hostOnes addr 8)
  else .next (s.hostEnter (hostOp (if cas then 11 else 10) addr addr 8 (leBytes 8 x.toNat ++ leBytes 8 y.toNat) [] true) .clean)

/-- GPF_FLUSH (R383): no volatile write buffer exists past the pool unit, so nothing is left to flush. -/
def execGpfFlush (s : State) : Host.Outcome State Fault Refusal := .next s

/-! ### The link and host-side resets (R382, R397, R398) -/

/-- CXL.io state, the BARs and MSI-X reset (R398): every vector is masked and none is pending (log entry 65). -/
def HostIf.resetIo (h : HostIf) : HostIf :=
  { h with bars := [], msixTable := [], msixMasked := List.range 64, msixPending := [] }

/-- The decoders return to uncommitted (R398). -/
def HostIf.uncommit (h : HostIf) : HostIf := { h with dec0 := none, dec1 := none, err0 := false, err1 := false, comp := [] }

/-- HOST_LINK_TRAINED (R382, R397): held MSI-X messages and a held mailbox result leave. -/
def execHostLinkTrained (cxl : Bool) (width speed : Fin 5) (s : State) : Host.Outcome State Fault Refusal :=
  if !s.powered || s.host.perst || s.host.linkUp then .next s
  else
    let send := s.host.msixPending.filter (fun v => !s.host.msixMasked.contains v)
    let held := s.host.mboxResult
    let s := (s.modClk (fun c => { c with cxlRef := true })).modHost (fun h => { h with
      linkUp := true, fenced := false, cxlMode := cxl && speed.val == 4, width := width, speed := speed,
      msixPending := h.msixPending.filter (fun v => h.msixMasked.contains v), mboxResult := [] })
    let s := send.foldl (fun s v => s.emit (.msix v)) s
    .next (held.foldl (fun s r => s.emit (.mailbox r.1 r.2.1 r.2.2)) s)

/-- Host accesses that are not performed leave: no write is performed and no read completes (R397). -/
def State.dropHostOps (s : State) : State :=
  s.modPool (fun p => { p with inflight := p.inflight.filter (fun o => decide (o.pop < 8)) })

/-- The link goes down: traffic is fenced, and MSI-X messages are held (R397, R398). -/
def State.linkLost (s : State) : State :=
  if !s.host.linkUp then s
  else (s.dropHostOps.bump Reg.hostLinkDowns).modHost (fun h => { h.uncommit.resetIo with
    linkUp := false, fenced := true, msixPending := h.msixPending })

/-- HOST_LINK_DOWN (R397). -/
def execHostLinkDown (s : State) : Host.Outcome State Fault Refusal :=
  if s.powered then .next s.linkLost else .next s

/-- The mailbox is reset (R398): no command is in progress, a signature for one answers nothing, and a firmware transfer
over the mailbox ends. -/
def State.mboxReset (s : State) : State :=
  (s.modHost (fun h => { h with mboxBusy := none, mboxResult := [], background := none })).modMgmt (fun m => { m with
    mbox := { m.mbox with signing := none }, fwTransfer := if m.fwTransfer.any (fun t => !t.1) then none else m.fwTransfer })

/-- The AER registers at their defaults: PERST_N resets them, a hot reset does not (log entry 65). -/
def HostIf.resetAer (h : HostIf) : HostIf :=
  { h with ueStatus := 0, ueMask := 0x00400000, ueSev := 0x00462030, ceStatus := 0, ceMask := 0x00002000 }

/-- PERST_N_ASSERT (R398): `hot` is a hot reset. Event logs are kept, and so is FENCED until the link trains (R397). -/
def execPerstNAssert (hot : Bool) (s : State) : Host.Outcome State Fault Refusal :=
  .next (s.dropHostOps.mboxReset.modHost (fun h => { (if hot then h else h.resetAer).uncommit.resetIo with
    linkUp := false, perst := h.perst || !hot, configAt := if hot then h.configAt else none }))

/-- PERST_N_DEASSERT (R397): configuration requests are answered from 100 ms on. -/
def execPerstNDeassert (s : State) : Host.Outcome State Fault Refusal :=
  if s.host.perst then .next (s.modHost (fun h => { h with perst := false, configAt := some (s.now + 100 * ms) })) else .next s

/-- FUNCTION_LEVEL_RESET (R398): decoders, mailbox and event logs are kept. -/
def execFunctionLevelReset (s : State) : Host.Outcome State Fault Refusal :=
  if s.hostOpen then .next (s.modHost HostIf.resetIo) else .next s

end Sys2Proof.Machine
end

