-- ==== Sys2Proof/Machine/Spdm.lean ====
section
/-! DEFINITION. Attestation: the SPDM responder (R476-R478). Message layouts are those of the SPDM 1.2
standard (log entry 41), which the spec names without restating. -/

namespace Sys2Proof.Machine

/-! ### Connections and messages -/

def State.spdm (s : State) (t : Transport) : Spdm :=
  match t with | .mailbox => s.mgmt.mbox | .i3c => s.mgmt.i3c | .vdm => s.mgmt.vdm
def State.modSpdm (s : State) (t : Transport) (f : Spdm → Spdm) : State :=
  s.modMgmt (fun m => match t with
    | .mailbox => { m with mbox := f m.mbox } | .i3c => { m with i3c := f m.i3c } | .vdm => { m with vdm := f m.vdm })

/-- The responder serves transport `t`: the steward runs past host-ready, and the mailbox has no command in progress (R392). -/
def State.spdmUp (s : State) (t : Transport) : Bool :=
  s.powered && (match t with
    | .mailbox => s.mboxOpen
    | .i3c => s.mgmt.mctpReady
    | .vdm => s.mgmt.mctpReady && s.host.linkUp)

/-- An ERROR response. -/
def spdmError (code : Nat) : List Byte := [0x12, 0x7F, byte code, 0]
def errInvalid : List Byte := spdmError 0x01
def errBusy : List Byte := spdmError 0x03
def errUnexpected : List Byte := spdmError 0x04
def errUnspecified : List Byte := spdmError 0x05
def errUnsupported : List Byte := spdmError 0x07

/-- The request codes of R478. -/
inductive SpdmReq where
  | version | capabilities | algorithms | digests | certificate | challenge | measurements | chunkSend | chunkGet
  deriving DecidableEq, Repr

def spdmReqOf (req : List Byte) : Option SpdmReq :=
  match u8 req 1 with
  | 0x84 => some .version
  | 0xE1 => some .capabilities
  | 0xE3 => some .algorithms
  | 0x81 => some .digests
  | 0x82 => some .certificate
  | 0x83 => some .challenge
  | 0xE0 => some .measurements
  | 0x85 => some .chunkSend
  | 0x86 => some .chunkGet
  | _ => none

/-- Data transfer size: 4,096 bytes, and 4,095 where the mailbox's completion code takes one (R394). -/
def spdmMax (t : Transport) : Nat := match t with | .mailbox => 4095 | _ => 4096

/-! ### The certificate chain (R476) -/

/-- The bytes of a length in DER. -/
def derLen (n : Nat) : List Byte :=
  if n < 128 then [byte n] else if n < 0x100 then [0x81, byte n] else if n < 0x10000 then [0x82, byte (n / 256), byte n]
  else [0x83, byte (n / 65536), byte (n / 256), byte n]
/-- A DER element: tag, length and contents. -/
def der (tag : Byte) (xs : List Byte) : List Byte := tag :: derLen xs.length ++ xs
/-- The algorithm identifier of SLH-DSA-SHAKE-256s (last arc 30) or -256f (31): 2.16.840.1.101.3.4.3. -/
def slhOid (last : Byte) : List Byte := der 0x30 (der 0x06 [0x60, 0x86, 0x48, 0x01, 0x65, 0x03, 0x04, 0x03, last])
/-- The name of certificate `k`: the device's carries its identity hash beside the rest (log entry 41). -/
def certSubject (k : Nat) : List Byte :=
  der 0x30 (Config.certName k ++
    if k = 2 then der 0x31 (der 0x30 (der 0x06 [0x55, 0x04, 0x05] ++ der 0x04 identityHash)) else [])
/-- The public key of certificate `k`: the device's is the identity public key. -/
def certPublic (k : Nat) : List Byte := if k = 2 then Config.slhPublic identitySeed else Config.certKey k
/-- The part of certificate `k` that is signed: X.509 version 3, its serial number, issuer, validity, subject and key. -/
def certBody (k : Nat) : List Byte :=
  der 0x30 (der 0xA0 [0x02, 0x01, 0x02] ++ der 0x02 (Config.certSerial k) ++ slhOid 0x1E ++ certSubject (k - 1) ++
    Config.certValidity k ++ certSubject k ++
    der 0x30 (slhOid (if k = 2 then 0x1F else 0x1E) ++ der 0x03 (0 :: certPublic k)) ++ der 0xA3 (Config.certExtensions k))
/-- Certificate `k`, signed by the key of the one above it; the root signs itself. -/
def cert (k : Nat) : List Byte :=
  der 0x30 (certBody k ++ slhOid 0x1E ++ der 0x03 (0 :: Config.slhSign (Config.certSignKey (k - 1)) (certBody k)))
/-- The chain of slot 0 as SPDM carries it: its length, the digest of the root, and the three certificates. -/
def certChain : List Byte :=
  let cs := cert 0 ++ cert 1 ++ cert 2
  leBytes 2 (cs.length + 68) ++ [0, 0] ++ Config.sha3x512 (cert 0) ++ cs

/-! ### Responses -/

/-- GET_VERSION: a new connection. -/
def State.rspVersion (s : State) (t : Transport) (req : List Byte) : List Byte × State :=
  let r : List Byte := [0x10, 0x04, 0, 0, 0, 1, 0x00, 0x12]
  (r, s.modSpdm t (fun _ => { version := true, vca := req ++ r }))

/-- GET_CAPABILITIES: CERT, CHAL, MEAS with signature and CHUNK; CTExponent 19. The largest message size is
not stated. -/
def State.rspCapabilities (s : State) (t : Transport) (req : List Byte) : List Byte × State :=
  if !(s.spdm t).version then (errUnexpected, s)
  else
    let m := s.freeBytes 4
    let r := [0x12, 0x61, 0, 0, 0, 19, 0, 0] ++ leBytes 4 0x20016 ++ leBytes 4 (spdmMax t) ++ m.1
    (r, m.2.modSpdm t (fun c => { c with capabilities := true, vca := c.vca ++ req ++ r }))

/-- The request offers SHA3-512 and the extended algorithm of R478: registry 3, PCI-SIG, with algorithm 0x0001. An
extended-algorithm entry of SPDM 1.2 has four bytes and no place for the vendor ID, which is the device's own, 0x1EA7
(log entry 41). -/
def algorithmsCommon (req : List Byte) : Bool :=
  u32 req 12 / 32 % 2 == 1 &&
  (List.range (u8 req 28)).any (fun i => u8 req (32 + 4 * i) == 3 && u16 req (34 + 4 * i) == 1)

/-- NEGOTIATE_ALGORITHMS. -/
def State.rspAlgorithms (s : State) (t : Transport) (req : List Byte) : List Byte × State :=
  if !(s.spdm t).capabilities then (errUnexpected, s)
  else if !algorithmsCommon req then (errInvalid, s)
  else
    let r := [0x12, 0x63, 0, 0] ++ leBytes 2 40 ++ [1, 0] ++ leBytes 4 0x40 ++ leBytes 4 0 ++ leBytes 4 0x20 ++ zeros 12 ++
      [1, 0, 0, 0] ++ [3, 0, 1, 0]
    (r, s.modSpdm t (fun c => { c with algorithms := true, vca := c.vca ++ req ++ r }))

/-- GET_DIGESTS: slot 0 only (R476). -/
def State.rspDigests (s : State) (t : Transport) (req : List Byte) : List Byte × State :=
  let r := [0x12, 0x01, 0, 1] ++ Config.sha3x512 certChain
  (r, s.modSpdm t (fun c => { c with certs := c.certs ++ req ++ r }))

/-- GET_CERTIFICATE: a portion of the chain of slot 0. -/
def State.rspCertificate (s : State) (t : Transport) (req : List Byte) : List Byte × State :=
  let off := u16 req 4
  let len := certChain.length
  if u8 req 2 ≠ 0 || len ≤ off then (errInvalid, s)
  else
    let n := min (min (u16 req 6) (len - off)) (spdmMax t - 8)
    let r := [0x12, 0x02, 0, 0] ++ leBytes 2 n ++ leBytes 2 (len - off - n) ++ slice certChain off n
    (r, s.modSpdm t (fun c => { c with certs := c.certs ++ req ++ r }))

/-- Both versions are at or above the equivalence firmware level 1.2.0 (R15, R16, R477). -/
def State.equiv (s : State) : Bool :=
  decide (0x010200 ≤ s.regN Reg.fwVersion % 2 ^ 24) && decide (0x010200 ≤ s.regN Reg.wardenVersion % 2 ^ 24)

/-- The measurements of R477 by index 1-9: raw or digest, and the value. -/
def State.measurement (s : State) (i : Nat) : Bool × List Byte :=
  match i with
  | 1 => (false, Config.sha3x512 Config.bootRom)
  | 6 => (true, leBytes 4 s.bootStatus ++ leBytes 4 s.keyStatus ++ leBytes 4 s.debugStatus ++ leBytes 4 (s.regN Reg.imageSvn))
  | 7 => (true, leBytes 16 disabledMap.toNat)
  | 8 => (true, leBytes 4 s.pwr.epochGain ++ leBytes 4 s.pwr.passGain)
  | 9 => (true, leBytes 4 (s.regN Reg.fwVersion) ++ leBytes 4 (s.regN Reg.wardenVersion) ++ leBytes 4 (b2n s.equiv))
  | _ => (false, s.boot.measured.getD (i - 2) [])

/-- A measurement block; the low bits of its type byte are not stated. -/
def State.measBlock (s : State) (i : Nat) : List Byte × State :=
  let f := s.free
  let m := s.measurement i
  let v := [byte (f.1.toNat % 128 + 128 * b2n m.1)] ++ leBytes 2 m.2.length ++ m.2
  ([byte i, 1] ++ leBytes 2 v.length ++ v, f.2)

def State.measBlocks (s : State) : List Nat → List Byte × State
  | [] => ([], s)
  | i :: is =>
    let b := s.measBlock i
    let r := State.measBlocks b.2 is
    (b.1 ++ r.1, r.2)

/-! ### Signatures (R475, R478) -/

/-- Another signature runs on the hash engine. -/
def State.engineBusy (s : State) : Bool := [Transport.mailbox, .i3c, .vdm].any (fun t => (s.spdm t).signing.isSome)

/-- Begin a signature over `msg` that ends response `rsp`: Busy while one runs; Unspecified once the identity
is erased; a lost key pair is regenerated first. -/
def State.startSign (s : State) (t : Transport) (rsp msg : List Byte) : Option (List Byte) × State :=
  if s.engineBusy then (some errBusy, s)
  else if !s.boot.keyPresent && !s.boot.seedPresent then (some errUnspecified, s)
  else (none, (s.modBoot (fun b => { b with keyPresent := true })).modSpdm t (fun c => { c with signing := some (rsp, msg) }))

/-- CHALLENGE of slot 0. -/
def State.rspChallenge (s : State) (t : Transport) (req : List Byte) : Option (List Byte) × State :=
  if u8 req 2 ≠ 0 then (some errInvalid, s)
  else
    let n := s.freeBytes 32
    let all := n.2.measBlocks (List.range' 1 9)
    let sum := if u8 req 3 = 0 then [] else Config.sha3x512 all.1
    let r := [0x12, 0x03, 0, 1] ++ Config.sha3x512 certChain ++ n.1 ++ sum ++ [0, 0]
    let c := s.spdm t
    all.2.startSign t r (c.vca ++ c.certs ++ req ++ r)

/-- GET_MEASUREMENTS: the count, one block, or all, with or without a signature. -/
def State.rspMeasurements (s : State) (t : Transport) (req : List Byte) : Option (List Byte) × State :=
  let op := u8 req 3
  let idx := if op = 0 then some [] else if op = 0xFF then some (List.range' 1 9) else if op ≤ 9 then some [op] else none
  match idx with
  | none => (some errInvalid, s)
  | some is =>
    let b := s.measBlocks is
    let n := b.2.freeBytes 32
    let r := [0x12, 0x60, if op = 0 then 9 else 0, 0, byte is.length] ++ leBytes 3 b.1.length ++ b.1 ++ n.1 ++ [0, 0]
    let c := s.spdm t
    let s := n.2.modSpdm t (fun c => { c with meas := c.meas ++ req ++ r })
    if u8 req 2 % 2 = 0 then (some r, s)
    else if u8 req 36 ≠ 0 then (some errInvalid, s)
    else s.startSign t r (c.vca ++ c.meas ++ req ++ r)

/-! ### Chunks and dispatch -/

/-- A request other than a chunk: its response, or none while its signature runs. -/
def State.serveOne (s : State) (t : Transport) (k : SpdmReq) (req : List Byte) : Option (List Byte) × State :=
  let w : List Byte × State → Option (List Byte) × State := fun r => (some r.1, r.2)
  match k with
  | .version => w (s.rspVersion t req)
  | .capabilities => w (s.rspCapabilities t req)
  | .algorithms => w (s.rspAlgorithms t req)
  | _ =>
    if !(s.spdm t).algorithms then (some errUnexpected, s)
    else match k with
      | .digests => w (s.rspDigests t req)
      | .certificate => w (s.rspCertificate t req)
      | .challenge => s.rspChallenge t req
      | .measurements => s.rspMeasurements t req
      | _ => (some errUnexpected, s)

/-- CHUNK_SEND: the chunks are put together, and the whole request is served with the last. -/
def State.rspChunkSend (s : State) (t : Transport) (req : List Byte) : Option (List Byte) × State :=
  let c := s.spdm t
  let seq := u16 req 4
  let last := u8 req 2 % 2 == 1
  let at_ := if seq = 0 then 16 else 12
  if !c.algorithms then (some errUnexpected, s)
  else if seq ≠ 0 ∧ seq ≠ c.inSeq then (some errInvalid, s)
  else
    let got := (if seq = 0 then [] else c.chunkIn) ++ slice req at_ (min (u32 req 8) 4096)
    let ack := fun (rest : List Byte) => [0x12, 0x05, 0, byte (u8 req 3)] ++ leBytes 2 seq ++ rest
    if !last then (some (ack []), s.modSpdm t (fun c => { c with chunkIn := got, inSeq := seq + 1 }))
    else
      let s := s.modSpdm t (fun c => { c with chunkIn := [], inSeq := 0 })
      match spdmReqOf got with
      | none => (some (ack errUnsupported), s)
      | some k =>
        let r := s.serveOne t k got
        (r.1.map ack, r.2)

/-- CHUNK_GET: the next chunk of a large response. -/
def State.rspChunkGet (s : State) (t : Transport) (req : List Byte) : Option (List Byte) × State :=
  let c := s.spdm t
  let seq := u16 req 4
  if c.large.isEmpty then (some errUnexpected, s)
  else if byte (u8 req 3) ≠ c.handle ∨ seq ≠ c.outSeq then (some errInvalid, s)
  else
    let first := seq == 0
    let cap := spdmMax t - (if first then 16 else 12)
    let done := if first then 0 else spdmMax t - 16 + (seq - 1) * (spdmMax t - 12)
    let part := (c.large.drop done).take cap
    let last := decide (c.large.length ≤ done + cap)
    let r := [0x12, 0x06, byte (b2n last), c.handle] ++ leBytes 2 seq ++ [0, 0] ++ leBytes 4 part.length ++
      (if first then leBytes 4 c.large.length else []) ++ part
    (some r, s.modSpdm t (fun c => if last then { c with large := [], outSeq := 0 } else { c with outSeq := seq + 1 }))

/-- The response to a request, or none while its signature runs. -/
def State.spdmServe (s : State) (t : Transport) (req : List Byte) : Option (List Byte) × State :=
  match spdmReqOf req with
  | none => (some errUnsupported, s)
  | some .chunkSend => s.rspChunkSend t req
  | some .chunkGet => s.rspChunkGet t req
  | some k => s.serveOne t k req

/-- A response leaves: in the output of SPDM_MESSAGE where that command is in progress (R394). -/
def State.spdmSend (s : State) (t : Transport) (rsp : List Byte) : State :=
  match t with
  | .mailbox => if s.host.mboxBusy = some 0xC030 then s.mboxDone 0xC030 0 (0 :: rsp) else s
  | _ => s.emit (.spdm t rsp)

/-- Serve a request and send what it answers. -/
def State.spdmRun (s : State) (t : Transport) (req : List Byte) : State :=
  let r := s.spdmServe t req
  match r.1 with
  | some rsp => r.2.spdmSend t rsp
  | none => r.2

/-- Payload Size 12: a payload is at most 4 KiB (R392). -/
def mboxPayload : Nat := 2 ^ 12

/-- A request over the mailbox is the input of SPDM_MESSAGE (R394): the command stays in progress while a signature runs. -/
def State.spdmMailbox (s : State) (inp : List Byte) : State :=
  if inp.length < 1 ∨ mboxPayload < inp.length then s.mboxDone 0xC030 0x0016 []
  else (s.modHost (fun h => { h with mboxBusy := some 0xC030 })).spdmRun .mailbox inp

/-- A request row: it carries a request of its own code. -/
def spdmCmd (t : Transport) (req : List Byte) (k : Option SpdmReq) (s : State) : Host.Outcome State Fault Refusal :=
  if s.spdmUp t && decide (spdmReqOf req = k) then .next (if t = .mailbox then s.spdmMailbox req else s.spdmRun t req)
  else .next s

/-- GET_VERSION (R478). -/
def execGetVersion (t : Transport) (req : List Byte) (s : State) : Host.Outcome State Fault Refusal := spdmCmd t req (some .version) s
/-- GET_CAPABILITIES (R478). -/
def execGetCapabilities (t : Transport) (req : List Byte) (s : State) : Host.Outcome State Fault Refusal := spdmCmd t req (some .capabilities) s
/-- NEGOTIATE_ALGORITHMS (R478). -/
def execNegotiateAlgorithms (t : Transport) (req : List Byte) (s : State) : Host.Outcome State Fault Refusal := spdmCmd t req (some .algorithms) s
/-- GET_DIGESTS (R478). -/
def execGetDigests (t : Transport) (req : List Byte) (s : State) : Host.Outcome State Fault Refusal := spdmCmd t req (some .digests) s
/-- GET_CERTIFICATE (R478). -/
def execGetCertificate (t : Transport) (req : List Byte) (s : State) : Host.Outcome State Fault Refusal := spdmCmd t req (some .certificate) s
/-- CHALLENGE (R478). -/
def execChallenge (t : Transport) (req : List Byte) (s : State) : Host.Outcome State Fault Refusal := spdmCmd t req (some .challenge) s
/-- GET_MEASUREMENTS (R477, R478). -/
def execGetMeasurements (t : Transport) (req : List Byte) (s : State) : Host.Outcome State Fault Refusal := spdmCmd t req (some .measurements) s
/-- CHUNK_SEND (R478). -/
def execChunkSend (t : Transport) (req : List Byte) (s : State) : Host.Outcome State Fault Refusal := spdmCmd t req (some .chunkSend) s
/-- CHUNK_GET (R478). -/
def execChunkGet (t : Transport) (req : List Byte) (s : State) : Host.Outcome State Fault Refusal := spdmCmd t req (some .chunkGet) s
/-- SPDM_UNSUPPORTED (R478): every other request is answered with ERROR UnsupportedRequest. -/
def execSpdmUnsupported (t : Transport) (req : List Byte) (s : State) : Host.Outcome State Fault Refusal := spdmCmd t req none s

/-- SIGNATURE_COMPLETE (R475, R478): the signed response is held for CHUNK_GET, and LargeResponse says so. -/
def execSignatureComplete (t : Transport) (s : State) : Host.Outcome State Fault Refusal :=
  match (s.spdm t).signing with
  | none => .next s
  | some (rsp, msg) =>
    if !s.powered || !s.fault.stewardUp then .next s
    else if !s.boot.keyPresent then
      .next ((s.modSpdm t (fun c => { c with signing := none })).spdmSend t errUnspecified)
    else
      let h := s.free
      let s := (h.2.bump Reg.attestSigns).modSpdm t (fun c => { c with
        signing := none, large := rsp ++ Config.slhSign identitySeed msg, outSeq := 0, handle := byte h.1.toNat, certs := [], meas := [] })
      .next (s.spdmSend t [0x12, 0x7F, 0x0F, 0, byte h.1.toNat])

end Sys2Proof.Machine
end

