-- ==== Sys2Proof/Machine/Mailbox.lean ====
section
/-! DEFINITION. The mailbox commands (R392-R396). The payload layouts of the standard commands are those of
CXL 2.0 (log entry 42), which the spec names without restating; a field that neither gives is free. -/

namespace Sys2Proof.Machine

/-! ### The mailbox (R392) -/

/-- Standard return codes. -/
abbrev Ret.success : BitVec 16 := 0x0000
abbrev Ret.background : BitVec 16 := 0x0001
abbrev Ret.invalidInput : BitVec 16 := 0x0002
abbrev Ret.unsupported : BitVec 16 := 0x0003
abbrev Ret.busy : BitVec 16 := 0x0006
abbrev Ret.fwTransfer : BitVec 16 := 0x0008
abbrev Ret.fwOrder : BitVec 16 := 0x0009
abbrev Ret.invalidSlot : BitVec 16 := 0x000B
abbrev Ret.invalidAddr : BitVec 16 := 0x000F
abbrev Ret.invalidLength : BitVec 16 := 0x0016

/-- A command whose input has the length `ok` asks for: return code, output and state. -/
def mboxCmd (op : BitVec 16) (ok : Bool) (f : State → BitVec 16 × List Byte × State) (s : State) :
    Host.Outcome State Fault Refusal :=
  if !s.mboxOpen then .next s
  else if !ok then .next (s.mboxDone op Ret.invalidLength [])
  else
    let r := f s
    .next (r.2.2.mboxDone op r.1 r.2.1)

/-- A command that only reports. -/
def mboxRead (op : BitVec 16) (ok : Bool) (f : State → List Byte × State) (s : State) : Host.Outcome State Fault Refusal :=
  mboxCmd op ok (fun s => let r := f s; (Ret.success, r.1, r.2)) s

/-! ### Events (0x0100-0x0103, R395) -/

/-- A record of 128 bytes (R395): the 32 bytes of the fault-log entry stand after the 48 bytes of the common header in a
vendor-defined record (log entry 42). -/
def eventBytes (r : List Byte) : List Byte :=
  let e := r.drop 1
  if r.getD 0 0 == 1 then padTo 128 (Config.eventRecord true e)
  else
    let x := padTo 96 (Config.eventRecord false e)
    x.take 48 ++ padTo 32 e ++ x.drop 48

/-- GET_EVENT_RECORDS: up to 31 records, oldest first. -/
def execGetEventRecords (inp : List Byte) (s : State) : Host.Outcome State Fault Refusal :=
  mboxCmd 0x0100 (inp.length == 1) (fun s =>
    if 3 < u8 inp 0 then (Ret.invalidInput, [], s)
    else
      let l := s.host.logs.getD (u8 inp 0) {}
      let t := if l.overflow then s.freeBytes 16 else (zeros 16, s)
      let rs := l.recs.take 31
      (Ret.success, [byte (pack [(0, b2n l.overflow), (1, b2n (decide (31 < l.recs.length)))]), 0] ++ leBytes 2 (min l.dropped 65535) ++
        t.1 ++ leBytes 2 rs.length ++ zeros 10 ++
        rs.flatMap eventBytes, t.2)) s

/-- CLEAR_EVENT_RECORDS: all, or as many of the oldest as handles are given. -/
def execClearEventRecords (inp : List Byte) (s : State) : Host.Outcome State Fault Refusal :=
  mboxCmd 0x0101 (decide (6 ≤ inp.length) && inp.length == 6 + 2 * u8 inp 2) (fun s =>
    if 3 < u8 inp 0 then (Ret.invalidInput, [], s)
    else
      let l := s.host.logs.getD (u8 inp 0) {}
      let recs := if u8 inp 1 % 2 = 1 then [] else l.recs.drop (u8 inp 2)
      (Ret.success, [], s.modHost (fun h => { h with logs := h.logs.set (u8 inp 0) { recs := recs } }))) s

/-- GET_EVENT_INTERRUPT_POLICY. -/
def execGetEventInterruptPolicy (inp : List Byte) (s : State) : Host.Outcome State Fault Refusal :=
  mboxRead 0x0102 inp.isEmpty (fun s => (s.host.policy, s)) s

/-- SET_EVENT_INTERRUPT_POLICY: one byte for each of the four logs. -/
def execSetEventInterruptPolicy (inp : List Byte) (s : State) : Host.Outcome State Fault Refusal :=
  mboxCmd 0x0103 (inp.length == 4) (fun s => (Ret.success, [], s.modHost (fun h => { h with policy := inp }))) s

/-! ### Firmware (0x0200-0x0202, R393, R400, R464) -/

/-- Bytes placed at an offset of a flash region; bytes never written read 0xFF. -/
def flashPut (old : List Byte) (at_ : Nat) (bs : List Byte) : List Byte :=
  flashRead old 0 at_ ++ bs ++ old.drop (at_ + bs.length)

/-- Write `bs` at image offset `off`: the header below 64 KiB, then the body (R464). -/
def State.flashWrite (s : State) (img : Bool) (off : Nat) (bs : List Byte) : State :=
  let put : Flash → Flash := fun f =>
    let hd := bs.take (0x10000 - off)
    let bd := (bs.drop (0x10000 - off)).take (0x4010000 - max off 0x10000)
    { f with
      header := if hd.isEmpty then f.header else flashPut f.header off hd,
      body := if bd.isEmpty then f.body else flashPut f.body (off - 0x10000) bd }
  s.modMgmt (fun m => if img then { m with flashB := put m.flashB } else { m with flashA := put m.flashA })

/-- GET_FW_INFO: slot 1 is image A, slot 2 image B; the revision strings are not stated. -/
def execGetFwInfo (inp : List Byte) (s : State) : Host.Outcome State Fault Refusal :=
  mboxRead 0x0200 inp.isEmpty (fun s =>
    let r := s.freeBytes 32
    let staged := if s.boot.primary == s.boot.image then 0 else 1 + b2n s.boot.primary
    ([2, byte (pack [(0, 1 + b2n s.boot.image), (3, staged)]), 0] ++ zeros 13 ++ r.1 ++ zeros 32, r.2)) s

/-- TRANSFER_FW: a part of an image that does not run, written in the background. -/
def execTransferFw (inp : List Byte) (s : State) : Host.Outcome State Fault Refusal :=
  mboxCmd 0x0201 (decide (128 ≤ inp.length ∧ inp.length ≤ mboxPayload)) (fun s =>
    let act := u8 inp 0
    let slot := u8 inp 1
    let img := slot == 2
    let mine := s.mgmt.fwTransfer == some (false, img)
    if 4 < act then (Ret.invalidInput, [], s)
    else if s.mgmt.fwTransfer.any (·.1) then (Ret.fwTransfer, [], s)
    else if act ≤ 1 ∧ s.mgmt.fwTransfer.isSome then (Ret.fwTransfer, [], s)
    else if s.host.background.isSome then (Ret.busy, [], s)
    else if act = 4 then (Ret.success, [], s.modMgmt (fun m => { m with fwTransfer := none }))
    else if (slot ≠ 1 ∧ slot ≠ 2) ∨ img = s.boot.image then (Ret.invalidSlot, [], s)
    else if 2 ≤ act ∧ !mine then (Ret.fwOrder, [], s)
    else
      let last := act == 0 || act == 3
      (Ret.background, [], (s.modMgmt (fun m => { m with fwTransfer := some (false, img) })).modHost (fun h => { h with
        background := some (img, 128 * u32 inp 4, inp.drop 128, last) }))) s

/-- TRANSFER_FW_COMPLETE: the part is in flash, the command is completed (R402), and vector 0 says so. -/
def execTransferFwComplete (s : State) : Host.Outcome State Fault Refusal :=
  match s.host.background with
  | none => .next s
  | some (img, off, bs, last) =>
    if !s.powered || !s.fault.stewardUp || s.mgmt.spiHeld then .next s
    else
      let s := ((s.flashWrite img off bs).bump Reg.mboxCmds).modHost (fun h => { h with background := none })
      .next ((if last then s.modMgmt (fun m => { m with fwTransfer := none }) else s).msix 0)

/-- ACTIVATE_FW: on the next cold reset only; PRIMARY inverts when the slot is not the primary image. -/
def execActivateFw (inp : List Byte) (s : State) : Host.Outcome State Fault Refusal :=
  mboxCmd 0x0202 (inp.length == 2) (fun s =>
    let slot := u8 inp 1
    if u8 inp 0 ≠ 1 then (Ret.invalidInput, [], s)
    else if slot ≠ 1 ∧ slot ≠ 2 then (Ret.invalidSlot, [], s)
    else if (slot == 2) == s.boot.primary then (Ret.success, [], s)
    else (Ret.success, [], s.stateRecord (!s.boot.primary) s.fault.oos)) s

/-! ### Timestamp and logs (0x0300-0x0401) -/

/-- GET_TIMESTAMP: 0 until it is set. -/
def execGetTimestamp (inp : List Byte) (s : State) : Host.Outcome State Fault Refusal :=
  mboxRead 0x0300 inp.isEmpty (fun s =>
    (leBytes 8 (if s.host.timestampBase = 0 then 0 else s.host.timestampBase + (s.now - s.host.timestampAt)), s)) s

/-- SET_TIMESTAMP: independent of fabric time. -/
def execSetTimestamp (inp : List Byte) (s : State) : Host.Outcome State Fault Refusal :=
  mboxCmd 0x0301 (inp.length == 8) (fun s =>
    (Ret.success, [], s.modHost (fun h => { h with timestampBase := u64 inp 0, timestampAt := s.now }))) s

/-- The opcodes of R393 and R394. -/
def mboxOpcodes : List Nat :=
  [0x0100, 0x0101, 0x0102, 0x0103, 0x0200, 0x0201, 0x0202, 0x0300, 0x0301, 0x0400, 0x0401, 0x4000, 0x4200, 0x4300, 0x4301, 0x4302,
    0xC000, 0xC001, 0xC002, 0xC010, 0xC011, 0xC020, 0xC030, 0xC040, 0xC050]

/-- The identifier of the Command Effects Log. -/
def celUuid : List Byte := [0x0D, 0xA9, 0xC0, 0xB5, 0xBF, 0x41, 0x4B, 0x78, 0x8F, 0x79, 0x96, 0xB1, 0x62, 0x3B, 0x3F, 0x17]

/-- The Command Effects Log; the effects are not stated. -/
def State.celLog (s : State) : List Byte × State :=
  mboxOpcodes.foldl (fun r op =>
    let f := r.2.freeBytes 2
    (r.1 ++ leBytes 2 op ++ f.1, f.2)) ([], s)

/-- GET_SUPPORTED_LOGS. -/
def execGetSupportedLogs (inp : List Byte) (s : State) : Host.Outcome State Fault Refusal :=
  mboxRead 0x0400 inp.isEmpty (fun s => (leBytes 2 1 ++ zeros 6 ++ celUuid ++ leBytes 4 (4 * mboxOpcodes.length), s)) s

/-- GET_LOG: a part of the Command Effects Log. -/
def execGetLog (inp : List Byte) (s : State) : Host.Outcome State Fault Refusal :=
  mboxCmd 0x0401 (inp.length == 24) (fun s =>
    if inp.take 16 ≠ celUuid ∨ 4 * mboxOpcodes.length < u32 inp 16 + u32 inp 20 then (Ret.invalidInput, [], s)
    else
      let l := s.celLog
      (Ret.success, slice l.1 (u32 inp 16) (u32 inp 20), l.2)) s

/-! ### Memory device (0x4000-0x4302) -/

/-- IDENTIFY_MEMORY_DEVICE: 944 GiB, volatile only; capacities in 256 MiB. -/
def execIdentifyMemoryDevice (inp : List Byte) (s : State) : Host.Outcome State Fault Refusal :=
  mboxRead 0x4000 inp.isEmpty (fun s =>
    let rev := s.freeBytes 16
    let tail := rev.2.freeBytes 7
    (rev.1 ++ leBytes 8 3776 ++ leBytes 8 3776 ++ zeros 16 ++ (List.range 4).flatMap (fun _ => leBytes 2 1024) ++ zeros 4 ++ tail.1,
      tail.2)) s

/-- The health and media status of R393, from the fault state (log entry 42): maintenance is needed once a fault of
severity Failure or Fatal is logged, performance is degraded while a reset runs or a unit is quarantined, hardware is to be
replaced while the device is out of service; the media are not ready while memory is inactive. -/
def State.healthStatus (s : State) : List Byte :=
  [byte (pack [(0, b2n (s.fault.lastSevere != 0)), (1, b2n (s.fault.reset.isSome || decide (0 < s.sw.quar))), (2, b2n s.fault.oos)]),
    if s.host.memActive then 0 else 1]

/-- GET_HEALTH_INFO: the status bytes, two bytes that are not stated, the temperature Tj, four bytes that are not
stated, and the count MEM_CE over every controller. -/
def execGetHealthInfo (inp : List Byte) (s : State) : Host.Outcome State Fault Refusal :=
  mboxRead 0x4200 inp.isEmpty (fun s =>
    let a := s.freeBytes 2
    let b := a.2.freeBytes 4
    let ce := (List.range 28).foldl (fun n m => n + s.regN (memReg m 4)) 0
    (s.healthStatus ++ a.1 ++ leBytes 2 (tc 16 (s.pwr.tj / 16)) ++ b.1 ++ leBytes 4 (min ce 0xFFFFFFFF) ++ zeros 4, b.2)) s

/-- GET_POISON_LIST: poisoned lines of a range, 64 bytes each. -/
def execGetPoisonList (inp : List Byte) (s : State) : Host.Outcome State Fault Refusal :=
  mboxRead 0x4300 (inp.length == 16) (fun s =>
    let all := s.badLines (u64 inp 0) (64 * u64 inp 8)
    let ls := all.take 254
    ([byte (b2n (decide (254 < all.length))), 0] ++ zeros 8 ++ leBytes 2 ls.length ++ zeros 20 ++
      ls.flatMap (fun l => leBytes 8 (64 * l) ++ leBytes 4 1 ++ zeros 4), s)) s

/-- INJECT_POISON: refused outside test mode (R393). -/
def execInjectPoison (inp : List Byte) (s : State) : Host.Outcome State Fault Refusal :=
  mboxCmd 0x4301 (inp.length == 8) (fun s =>
    let a := u64 inp 0 / 64 * 64
    if !s.testMode then (Ret.invalidInput, [], s)
    else if !inPool a 64 then (Ret.invalidAddr, [], s)
    else (Ret.success, [], s.modPool (fun p => { p with poisoned := insertNat (a / 64) p.poisoned }))) s

/-- CLEAR_POISON: the line takes the data given. -/
def execClearPoison (inp : List Byte) (s : State) : Host.Outcome State Fault Refusal :=
  mboxCmd 0x4302 (inp.length == 72) (fun s =>
    let a := u64 inp 0 / 64 * 64
    if !inPool a 64 then (Ret.invalidAddr, [], s) else (Ret.success, [], ((s.memServe a 64).memWrite a (inp.drop 8)).memBytes a 64 true)) s

/-- MBOX_UNSUPPORTED (R393, R394): an opcode that neither table lists. -/
def execMboxUnsupported (op : BitVec 16) (_inp : List Byte) (s : State) : Host.Outcome State Fault Refusal :=
  if mboxOpcodes.contains op.toNat then .next s else mboxCmd op true (fun s => (Ret.unsupported, [], s)) s

/-! ### Vendor commands (R394) -/

/-- A vendor command: a completion code of R12, then output when it is OK, cut or filled with free bytes
to the stated length. -/
def vendorOut (code : Nat) (out : List Byte) (len : Nat) (s : State) : BitVec 16 × List Byte × State :=
  if code ≠ 0 then (Ret.success, [byte code], s)
  else
    let r := s.freeBytes (len - out.length)
    (Ret.success, (0 : Byte) :: (out ++ r.1), r.2)

/-- GET_DEVICE_INFO: the items of R394 in their order; the rest of the 63 bytes is free. -/
def execGetDeviceInfo (inp : List Byte) (s : State) : Host.Outcome State Fault Refusal :=
  mboxCmd 0xC000 inp.isEmpty (fun s =>
    vendorOut 0 (leBytes 2 (s.regN Reg.partId) ++ leBytes 1 (fld (s.reg Reg.partId) 16 8) ++ leBytes 4 (s.regN Reg.fwVersion) ++
      leBytes 4 (s.regN Reg.wardenVersion) ++ leBytes 16 disabledMap.toNat ++ leBytes 4 s.ownCoord.toNat ++
      [byte (b2n s.equiv)]) 63 s) s

/-- GET_FAULT_LOG: entries by SEQ; one no longer held reads as zeros. -/
def execGetFaultLog (inp : List Byte) (s : State) : Host.Outcome State Fault Refusal :=
  mboxCmd 0xC001 (inp.length == 8) (fun s =>
    let n := u32 inp 4
    if 4096 < 32 * n + 1 then vendorOut Code.lenErr [] 0 s
    else vendorOut 0 ((List.range n).flatMap (fun i => match s.fault.log.find? (fun e => e.seq == u32 inp 0 + i) with
      | some e => e.bytes
      | none => zeros 32)) (32 * n) s) s

/-- GET_DUMP_INFO: the items of R394 in their order; the rest of the 31 bytes is free. -/
def execGetDumpInfo (inp : List Byte) (s : State) : Host.Outcome State Fault Refusal :=
  mboxCmd 0xC002 inp.isEmpty (fun s =>
    vendorOut 0 ([byte (b2n s.fault.dumpValid)] ++ leBytes 8 (s.regN Reg.dumpBase) ++ leBytes 8 gib ++ leBytes 4 s.fault.dumpSeq) 31 s) s

/-- SET_POWER_CAP: the host cap (R396). -/
def execSetPowerCap (inp : List Byte) (s : State) : Host.Outcome State Fault Refusal :=
  mboxCmd 0xC010 (inp.length == 4) (fun s =>
    let w := u32 inp 0
    if w < 400 ∨ 1900 < w then vendorOut Code.lenErr [] 0 s
    else vendorOut 0 (zeros 3) 3 ((s.modPwr (fun p => { p with hostCap := w })).capStep s.effCap)) s

/-- GET_POWER_STATUS: the items of R394 in their order; the rest of the 31 bytes is free. -/
def execGetPowerStatus (inp : List Byte) (s : State) : Host.Outcome State Fault Refusal :=
  mboxCmd 0xC011 inp.isEmpty (fun s =>
    vendorOut 0 (leBytes 4 s.pwr.powerNow ++ leBytes 4 s.effCap ++ [byte s.pwr.throttleNow] ++
      [byte (b2n s.pwr.policyConflict), byte (b2n s.pwr.capDeficit)]) 31 s) s

/-- LEHR_TRIGGER: a trigger during a pass is ignored and counted, and its completion code is not stated; the
background operation ends, on vector 0, once the pass has started. -/
def execLehrTrigger (inp : List Byte) (s : State) : Host.Outcome State Fault Refusal :=
  mboxCmd 0xC020 inp.isEmpty (fun s =>
    if s.pwr.lehrStep ≠ 0 then
      let f := s.free
      (Ret.success, [byte f.1.toNat], f.2.lehrTrigger .host)
    else vendorOut 0 [] 0 ((s.lehrTrigger .host).msix 0)) s

/-- SPDM_MESSAGE (R394, R478): the command stays in progress while a signature runs. -/
def execSpdmMessage (inp : List Byte) (s : State) : Host.Outcome State Fault Refusal :=
  if s.mboxOpen then .next (s.spdmMailbox inp) else .next s

/-- GET_LINK_SUMMARY: PORT_STATUS [7:0] of each logical port; one that does not exist reads 0. -/
def execGetLinkSummary (inp : List Byte) (s : State) : Host.Outcome State Fault Refusal :=
  mboxCmd 0xC040 inp.isEmpty (fun s =>
    vendorOut 0 ((List.range 512).map (fun lp => if s.lportExists lp then byte (portStatusOf (s.port lp)) else 0)) 512 s) s

/-- CLEAR_OUT_OF_SERVICE: always PERM over the host mailbox. -/
def execClearOutOfService (inp : List Byte) (s : State) : Host.Outcome State Fault Refusal :=
  mboxCmd 0xC050 inp.isEmpty (fun s => vendorOut Code.perm [] 0 s) s

end Sys2Proof.Machine
end

