-- ==== Sys2Proof/Machine/Sideband.lean ====
section
/-! DEFINITION. The tray controller's interfaces: MCTP, PLDM, LEAK_CLEAR and SPI_HOLD_OFF_N (R396, R399-R401,
R423, R446, R472, R473). PLDM completion codes and data layouts are the model's (log entry 43). -/

namespace Sys2Proof.Machine

/-! ### MCTP (R399) -/

/-- PLDM is served: by the steward, or by the boot ROM in RECOVERY (R472). -/
def State.pldmUp (s : State) : Bool := s.powered && (s.mgmt.mctpReady || (decide (s.boot.stage = .recovery) && s.fault.stewardUp))

/-- The target's static address, for SETDASA and as SMBus target; the bytes of one MCTP packet on I3C and on VDM. -/
def i3cAddress : Byte := 0x52
def mctpMtu (t : Transport) : Nat := match t with | .i3c => 256 | _ => 1024

/-- SMBUS_FALLBACK (R399). -/
def execSmbusFallback (s : State) : Host.Outcome State Fault Refusal :=
  if !s.powered then .next s else
  .next (s.modMgmt (fun m => { m with smbus := true }))

/-- The PLDM Types served: 0, 2 and 5; in RECOVERY 0 and 5 (R472). -/
def State.pldmTypes (s : State) : List Byte := (if s.boot.stage = .recovery then 0x21 else 0x25) :: zeros 7

/-- PLDM over MCTP: the base commands of Type 0. The commands of Types 2 and 5 are rows of their own. -/
def State.pldmBase (s : State) (body : List Byte) : State :=
  let ty := u8 body 1 % 64
  if ty = 0 then
    if u8 body 2 = 0x04 then s.emit (.pldm 0 s.pldmTypes)
    else if u8 body 2 = 0x02 ∨ u8 body 2 = 0x03 ∨ u8 body 2 = 0x05 then
      let r := s.freeBytes 4
      r.2.emit (.pldm 0 r.1)
    else s.emit (.pldm 0x05 [])
  else if ty = 2 ∨ ty = 5 then s
  else s.emit (.pldm 0x20 [])

/-- The response to an MCTP control request (R399; layouts of DSP0236, log entry 43): Set and Get Endpoint ID, the MCTP
version 1.3 and the message types served; any other is not supported. A new EID is taken from the bus owner. -/
def State.mctpControl (s : State) (t : Transport) (body : List Byte) : State :=
  let cmd := u8 body 1
  let rsp := fun (xs : List Byte) => Emit.mctp t ([byte (u8 body 0 % 32), byte cmd] ++ xs)
  match cmd with
  | 0x01 =>
    if u8 body 2 % 4 ≤ 1 ∧ u8 body 3 ≠ 0 ∧ u8 body 3 ≠ 0xFF then
      (s.modMgmt (fun m => { m with eid := byte (u8 body 3) })).emit (rsp [0, 0, byte (u8 body 3), 0])
    else s.emit (rsp [2])
  | 0x02 => s.emit (rsp [0, s.mgmt.eid, 0, 0])
  | 0x04 => s.emit (rsp [0, 1, 0x00, 0xFF, 0xF3, 0xF1])
  | 0x05 => s.emit (rsp (if s.boot.stage = .recovery then [0, 2, 0, 1] else [0, 3, 0, 1, 5]))
  | _ => s.emit (rsp [5])

/-- MCTP_MESSAGE (R399): control messages, PLDM and SPDM; other types are dropped. RECOVERY serves I3C or SMBus only
(R472). -/
def execMctpMessage (t : Transport) (eid msgType : Byte) (body : List Byte) (s : State) : Host.Outcome State Fault Refusal :=
  if t = .mailbox || !s.pldmUp || (t = .vdm && (!s.host.linkUp || decide (s.boot.stage = .recovery))) || (eid ≠ 0 && eid ≠ s.mgmt.eid) then .next s
  else
    if msgType = 0 then .next (if 128 ≤ u8 body 0 then s.mctpControl t body else s)
    else if msgType = 1 then .next (s.pldmBase body)
    else if msgType = 5 ∧ s.spdmUp t then .next (s.spdmRun t body)
    else .next s

/-! ### PLDM (R396, R399, R400, R423, R472) -/

/-- The data of a sensor (R400): in RECOVERY the state sensor reads the boot failure codes. -/
def State.sensorData (s : State) : PldmSensor → List Byte
  | .power => leBytes 4 s.pwr.powerNow
  | .temperature k => leBytes 2 (tc 16 (s.pwr.temps.getD k 0))
  | .flow => leBytes 2 (min 65535 (s.pwr.flowEdges.filter (fun t => decide (s.now < t + sec))).length)
  | .faultState =>
    if s.boot.stage = .recovery then [9, byte s.boot.reasonA.toNat, byte s.boot.reasonB.toNat]
    else leBytes 4 s.faultStatus

/-- PLDM_SENSOR_READ (R399, R472): in RECOVERY the state sensor reports RECOVERY and both reason codes. -/
def execPldmSensorRead (sensor : PldmSensor) (s : State) : Host.Outcome State Fault Refusal :=
  if !s.pldmUp then .next s
  else if s.boot.stage = .recovery ∧ sensor ≠ .faultState then .next (s.emit (.pldm 0x05 []))
  else .next (s.emit (.pldm 0 (s.sensorData sensor)))

/-- PLDM_SET_POWER_CAP (R396, R462): 400 to 1,900 W. -/
def execPldmSetPowerCap (w : Nat) (s : State) : Host.Outcome State Fault Refusal :=
  if !s.powered || !s.mgmt.mctpReady then .next s
  else if w < 400 ∨ 1900 < w then .next (s.ignored .tray Reg.trayCap false)
  else .next ((s.modPwr (fun p => { p with trayCap := w })).capStep s.effCap)

/-- A firmware update over PLDM may write image `img`: one that does not run, or any in RECOVERY. -/
def State.fwMay (s : State) (img : Bool) : Bool := decide (s.boot.stage = .recovery) || img != s.boot.image

/-- The steps over PLDM: refused while another transfer runs or the pins are held (R400). -/
def State.fwStep (s : State) (img : Bool) (step : FwStep) : Host.Outcome State Fault Refusal :=
  let mine := s.mgmt.fwTransfer == some (true, img)
  match step with
    | .direct _ _ => .next s
    | .start =>
      if s.mgmt.fwTransfer.isSome then .next (s.emit (.pldm 0x04 []))
      else if !s.fwMay img then .next (s.emit (.pldm 0x02 []))
      else .next ((s.modMgmt (fun m => { m with fwTransfer := some (true, img) })).emit (.pldm 0 []))
    | .part off data =>
      if !mine || s.mgmt.spiHeld then .next (s.emit (.pldm 0x04 []))
      else .next ((s.flashWrite img off data).emit (.pldm 0 []))
    | .activate =>
      if !mine then .next (s.emit (.pldm 0x04 []))
      else
        let s := (s.modMgmt (fun m => { m with fwTransfer := none })).emit (.pldm 0 [])
        .next (if s.boot.stage = .recovery && !s.mgmt.spiHeld then s.chooseImage else s)
    | .cancel =>
      if !mine then .next (s.emit (.pldm 0x04 []))
      else .next ((s.modMgmt (fun m => { m with fwTransfer := none })).emit (.pldm 0 []))

/-- PLDM_FIRMWARE_UPDATE (R400, R401, R464, R472): over PLDM, or by the tray controller's own write of header and body
while it holds the flash pins, which asks nothing of the device. -/
def execPldmFirmwareUpdate (img : Bool) (step : FwStep) (s : State) : Host.Outcome State Fault Refusal :=
  match step with
  | .direct off data => if s.pwr.railsUp && s.mgmt.spiHeld then .next (s.flashWrite img off data) else .next s
  | _ => if s.pldmUp then s.fwStep img step else .next s

/-- PLDM_SELECT_BOOT_IMAGE (R400, R469). -/
def execPldmSelectBootImage (img : Bool) (s : State) : Host.Outcome State Fault Refusal :=
  if !s.powered || !s.mgmt.mctpReady then .next s
  else .next ((s.stateRecord img s.fault.oos).emit (.pldm 0 []))

/-- PLDM_CLEAR_OUT_OF_SERVICE (R420, R423, R468, R469, R473). -/
def execPldmClearOutOfService (s : State) : Host.Outcome State Fault Refusal :=
  if !s.powered || !s.mgmt.mctpReady || !s.fault.oos then .next s
  else if !s.ready then .next (s.ignored .tray Reg.resetCmd false)
  else
    let s := ((s.setReg Reg.crHist0 0).setReg Reg.crHist1 0).setReg Reg.frHist 0
    let s := (s.ledgerAppend 3 []).stateRecord s.boot.primary false
    .next ((s.emit (.pldm 0 [])).beginReset 2 0 0 true)

/-- PLDM_LEHR_TRIGGER (R459). -/
def execPldmLehrTrigger (s : State) : Host.Outcome State Fault Refusal :=
  if s.powered && s.mgmt.mctpReady then .next (s.lehrTrigger .tray) else .next s

/-- LEAK_CLEAR (R446, R462): only while the sensor reports dry. -/
def execLeakClear (s : State) : Host.Outcome State Fault Refusal :=
  if !s.powered || !s.mgmt.mctpReady then .next s
  else if s.pwr.leak = .dry then .next (s.modPwr (fun p => { p with leakLatched := false }))
  else .next (s.ignored .tray Reg.leakClear false)

/-! ### The boot flash pins (R401, R469, R472, R473) -/

/-- SPI_HOLD_OFF_ASSERT (R401): the level of the pin is seen at every time, and an assertion is counted once the always-on
domain runs. -/
def execSpiHoldOffAssert (s : State) : Host.Outcome State Fault Refusal :=
  if s.mgmt.spiHeld then .next s
  else .next ((if s.aonUp then s.bump Reg.spiHoldEvents else s).modMgmt (fun m => { m with spiHeld := true, spiHeldAt := s.now }))

/-- SPI_HOLD_OFF_RELEASE (R469, R472, R473): waiting records are written; an image read restarts at step 4,
and RECOVERY restarts boot at step 3. -/
def execSpiHoldOffRelease (s : State) : Host.Outcome State Fault Refusal :=
  if !s.mgmt.spiHeld then .next s
  else
    let s := (s.modMgmt (fun m => { m with spiHeld := false })).flushFlash
    if !s.aonUp || s.pwr.railFault then .next s
    else match s.boot.stage with
      | .recovery => .next s.chooseImage
      | .step n =>
        if n = 2 then .next s.chooseImage
        else if n = 4 then .next (s.modBoot (fun b => { b with stage := .step 3, header := [] }))
        else .next s
      | .inert => .next s

end Sys2Proof.Machine
end

