-- ==== Sys2Proof/Machine/Counters.lean ====
section
/-! DEFINITION. The counter blocks: event selection, counter writes and derived port bandwidth (R483-R491). -/

namespace Sys2Proof.Machine

/-- BLOCK_INFO type: 0 port, 1 bench, 2 Loam, 3 Subsoil, 4 switching core (R483, R484). -/
def blkType (n : Nat) : Nat := if n < 128 then 0 else if n < 228 then 1 else if n < 240 then 2 else if n = 240 then 3 else 4

/-- The events a block of a type counts (R486). -/
def eventListed (ty e : Nat) : Bool :=
  e == 0 ||
  (match ty with
    | 0 => decide (0x01 ≤ e ∧ e ≤ 0x0C)
    | 1 => decide (0x40 ≤ e ∧ e ≤ 0x48)
    | 4 => decide (0xC0 ≤ e ∧ e ≤ 0xC5)
    | _ => decide (0x80 ≤ e ∧ e ≤ 0x85))

/-- The registers of a counter block are written only by the host or by WRREG, and by the debug port that may write every
register (R481, R490). -/
def counterWrite (r : Requester) (f : WriteFn) : WriteFn :=
  match r with
  | .host | .warden _ | .debug => f
  | .steward | .tray => fun _ _ => none

/-- A write to EVSEL_k: a new selection clears the count (R485). -/
def wrEvsel (blk k : Nat) : WriteFn := fun s v =>
  let e := fld v 0 8
  let ty := blkType blk
  if !eventListed ty e || (ty != 0 && fld v 9 7 != 0) || (ty == 0 && decide (8 ≤ e) && fld v 9 4 != 0) then none
  else some (((s.setReg (Reg.evsel blk k) v).setReg (Reg.cnt blk k) 0).setReg (Reg.ovf blk) (setFld (s.reg (Reg.ovf blk)) k 1 0))

/-- EVSEL_WRITE (R485). -/
def execEvselWrite (r : Requester) (blk : Fin 242) (k : Fin 8) (v : W32) (s : State) : Host.Outcome State Fault Refusal :=
  writeCmd s r (Reg.evsel blk k) (w64 v.toNat) (counterWrite r (wrEvsel blk k))

/-- CNT_WRITE (R487). -/
def execCntWrite (r : Requester) (blk : Fin 242) (k : Fin 8) (v : W64) (s : State) : Host.Outcome State Fault Refusal :=
  writeCmd s r (Reg.cnt blk k) v (counterWrite r (plainWrite (Reg.cnt blk k)))

def State.modPerf (s : State) (f : Perf → Perf) : State := { s with perf := f s.perf }

/-- The byte counts of the window of port block `p` start again. -/
def State.clearWindow (s : State) (p : Nat) : State :=
  s.modPerf (fun f => { f with rx := sdropRange f.rx (4 * p) (4 * p + 4), tx := sdropRange f.tx (4 * p) (4 * p + 4) })

/-- The window that time is in at port block `p` (R491): fabric time, or the always-on time while that is invalid, over
2^W µs. -/
def State.bwIndex (s : State) (p : Nat) : Nat :=
  (if s.clk.timeValid then s.clk.ftime.toNat else s.now) / (2 ^ fld (s.reg (Reg.bwCtrl p)) 0 5 * us)

/-- The window in progress is the one that time is in. -/
def State.openWindow (s : State) (p : Nat) : State :=
  (s.clearWindow p).modPerf (fun f => { f with win := sset 0 f.win p (s.bwIndex p) })

/-- A write to BW_CTRL: the window in progress is discarded, and a new one starts at the next boundary (R491). -/
def wrBwCtrl (p : Nat) : WriteFn := fun s v =>
  if 20 < v.toNat then none
  else some (((s.modPerf (fun f => { f with discard := insertNat p f.discard })).setReg (Reg.bwCtrl p) v).openWindow p)

/-- BW_CTRL_WRITE (R491). -/
def execBwCtrlWrite (r : Requester) (p : Fin 128) (v : W32) (s : State) : Host.Outcome State Fault Refusal :=
  writeCmd s r (Reg.bwCtrl p) (w64 v.toNat) (counterWrite r (wrBwCtrl p))

/-- BW_WINDOW_END (R491): time has passed an aligned boundary; after a write to BW_CTRL it only starts a window. -/
def execBwWindowEnd (p : Fin 128) (s : State) : Host.Outcome State Fault Refusal :=
  if !s.powered || s.bwIndex p == sget 0 s.perf.win p then .next s
  else if s.perf.discard.contains p.val then
    .next ((s.modPerf (fun f => { f with discard := f.discard.filter (· != p.val) })).openWindow p)
  else
    let t := (List.range 4).foldl (fun t l =>
      (t.setReg (Reg.bwRx p l) (w64 (sget 0 s.perf.rx (4 * p.val + l)))).setReg (Reg.bwTx p l) (w64 (sget 0 s.perf.tx (4 * p.val + l)))) s
    .next ((t.setReg (Reg.bwSeq p) (w64 ((s.regN (Reg.bwSeq p) + 1) % 2 ^ 32))).openWindow p)

end Sys2Proof.Machine
end

