-- ==== Sys2Proof/Machine/HostCfg.lean ====
section
/-! DEFINITION. What the host reads and writes beside BAR0: the configuration header, capabilities and DVSECs, the
BARs and the MSI-X table (R383-R386, R395). -/

namespace Sys2Proof.Machine

/-! ### Where a host access goes (log entry 65)

A register access of the host below 64 MiB is one of BAR0. From there on its offset names, in turn, BAR2, the
configuration header, a capability, an extended capability and a DVSEC, the last three by their ID times 256. -/

def hostSpace : Nat := 0x4000000

inductive HostReg where
  | bar2 (o : Nat)
  | header (o : Nat)
  | cap (id o : Nat)
  | extCap (id o : Nat)
  | dvsec (id o : Nat)
  deriving DecidableEq, Repr

/-- The register that offset `off` of the host names. -/
def hostRegAt (off : Nat) : HostReg :=
  let o := off - hostSpace
  if o < 0x40000 then .bar2 o
  else if o < 0x50000 then .header (o - 0x40000)
  else if o < 0x60000 then .cap ((o - 0x50000) / 256) (o % 256)
  else if o < 0x70000 then .extCap ((o - 0x60000) / 256) (o % 256)
  else .dvsec ((o - 0x70000) / 256) (o % 256)

/-! ### The configuration header and the BARs (R384, R385) -/

/-- Class code by mode. -/
def HostIf.classCode (h : HostIf) : Nat := if h.cxlMode then 0x050210 else 0x058000

/-- BAR word `k`: the address bits that a write sets, and the type bits. BAR4/5 reads 0 in CXL mode. -/
def HostIf.barWord (h : HostIf) (k : Nat) : W32 :=
  let v := (sget 0 h.bars k).toNat
  match k with
  | 0 => w32 (v / 2 ^ 26 * 2 ^ 26 + 4)
  | 2 => w32 (v / 2 ^ 18 * 2 ^ 18 + 4)
  | 4 => if h.cxlMode then 0 else 12
  | 5 => if h.cxlMode then 0 else w32 (v / 256 * 256)
  | _ => w32 v

/-- A word of the configuration header; none where the spec states no value. -/
def HostIf.headerWord (h : HostIf) (o : Nat) : Option W32 :=
  if o = 0 then some 0x51201EA7
  else if o = 8 then some (w32 (h.classCode * 256 + 1))
  else if 0x10 ≤ o ∧ o < 0x28 then some (h.barWord ((o - 0x10) / 4))
  else if o = 0x2C then some h.subsys
  -- the interrupt line is the host's own; there is no interrupt pin (R383)
  else if o = 0x3C then some (w32 ((sget 0 h.bars 11).toNat % 256))
  else none

/-! ### Capabilities and DVSECs (R383, R386) -/

/-- PCIe capability: 512-byte payloads and function level reset; 4,096-byte reads; ASPM L1 only; 64-bit atomics as
completer in PCIe mode. MSI-X capability: 64 vectors, table and PBA in BAR2. No other capability is offered. -/
def HostIf.capWord (h : HostIf) (id o : Nat) : Option W32 :=
  match id, o with
  | 0x10, 4 => some 0x10000002
  | 0x10, 8 => some 0x00005000
  | 0x10, 0xC => some 0x00000800
  | 0x10, 0x24 => some (if h.cxlMode then 0 else 0x100)
  | 0x11, 0 => some 0x003F0011
  | 0x11, 4 => some 0x00020002
  | 0x11, 8 => some 0x00021002
  | 0x10, _ => none
  | _, _ => some 0

/-- AER is offered; DPC, ACS, SR-IOV, ATS, PASID, IDE and L1 substates are not. -/
def HostIf.extCapWord (h : HostIf) (id o : Nat) : Option W32 :=
  match id, o with
  | 1, 0 => some 0x00020001
  | 1, 4 => some h.ueStatus
  | 1, 8 => some h.ueMask
  | 1, 0xC => some h.ueSev
  | 1, 0x10 => some h.ceStatus
  | 1, 0x14 => some h.ceMask
  | 1, _ => none
  | _, _ => some 0

/-- A write to AER: a 1 clears a status bit; masks and severity are set. -/
def HostIf.writeAer (h : HostIf) (o : Nat) (v : W32) : HostIf :=
  match o with
  | 4 => { h with ueStatus := h.ueStatus &&& ~~~v }
  | 8 => { h with ueMask := v }
  | 0xC => { h with ueSev := v }
  | 0x10 => { h with ceStatus := h.ceStatus &&& ~~~v }
  | 0x14 => { h with ceMask := v }
  | _ => h

/-- Word `o` of the DVSEC `id`; absent ones read 0, and all are absent in PCIe mode. -/
def HostIf.dvsecWord (h : HostIf) (id o : Nat) : Option W32 :=
  let active : W32 := if h.memActive then 3 else 1
  if !h.cxlMode then some 0
  else match id, o with
  -- CXL devices: IO_Capable, Mem_Capable, HDM_Count 2; Range 1 is 432 GiB and Range 2 is 512 GiB
  | 0, 8 => some 0x00260000
  | 0, 0x18 => some 0x6C
  | 0, 0x1C => some active
  | 0, 0x28 => some 0x80
  | 0, 0x2C => some active
  -- GPF: phase 2 lasts 1 ms at 0 W beyond normal
  | 5, 8 => some 0x03010005
  | 5, 0xC => some 0
  -- Flex Bus port: CXL.io, CXL.mem and 68-byte flits
  | 7, 8 => some 0x00260007
  -- Register locator: component registers at 0, device registers at 0x1_0000, both of BAR2
  | 8, 8 => some 0x00000008
  | 8, 0xC => some 0x00000102
  | 8, 0x10 => some 0
  | 8, 0x14 => some 0x00010302
  | 8, 0x18 => some 0
  | _, _ => if id = 0 ∨ id = 5 ∨ id = 7 ∨ id = 8 then (if o = 4 then some 0x00001E98 else none) else some 0

/-! ### The MSI-X table and PBA in BAR2 (R385, R395) -/

/-- A word of the MSI-X table: an entry's address, data and mask bit; or of the pending bits. -/
def HostIf.msixWord (h : HostIf) (o : Nat) : Option W32 :=
  if 0x20000 ≤ o ∧ o < 0x20400 then
    let v := (o - 0x20000) / 16
    if o % 16 = 12 then some (if h.msixMasked.contains v then 1 else 0) else some (sget 0 h.msixTable ((o - 0x20000) / 4))
  else if 0x21000 ≤ o ∧ o < 0x21008 then
    some (w32 (h.msixPending.foldl (fun a v => if v / 32 = (o - 0x21000) / 4 then a + 2 ^ (v % 32) else a) 0))
  else none

/-! ### Component and device registers in BAR2 (R383, R385, R387, R388, R392; log entry 65) -/

/-- The CXL.cachemem registers: the capability array lists RAS, the link and the HDM decoders, and neither CXL IDE nor any
other; the HDM decoder capability has 2 decoders, of 256 bytes to 16 KiB; each decoder's words, with the Committed and
Error Not Committed bits. -/
def HostIf.componentWord (h : HostIf) (o : Nat) : Option W32 :=
  match o with
  | 0x1000 => some 0x03110001
  | 0x1004 => some 0x10020002
  | 0x1008 => some 0x18020004
  | 0x100C => some 0x20010005
  | 0x1200 => some 0x00000301
  | _ =>
    if 0x1210 ≤ o ∧ o < 0x1250 then
      let w := sget 0 h.comp o
      if o % 0x20 ≠ 0 then some w
      else
        let c := if o < 0x1230 then (h.dec0.isSome, h.err0) else (h.dec1.isSome, h.err1)
        some (w32 (w.toNat % 0x400 + pack [(10, b2n c.1), (11, b2n c.2)]))
    else none

/-- The CXL device registers: the capabilities array, the event status, the primary mailbox with Payload Size 12, its
doorbell and background bits, and the memory device status with the media state and Mailbox Interface Ready. -/
def HostIf.deviceWord (h : HostIf) (o : Nat) : Option W32 :=
  match o with
  | 0x10000 => some 0x00010000
  | 0x10004 => some 3
  | 0x10010 => some 0x00010001
  | 0x10014 => some 0x100
  | 0x10018 => some 8
  | 0x10020 => some 0x00010002
  | 0x10024 => some 0x200
  | 0x10028 => some 0x1020
  | 0x10030 => some 0x00014000
  | 0x10034 => some 0x1400
  | 0x10038 => some 8
  | 0x10100 => some (w32 (pack ((List.range 4).map (fun k => (k, b2n (!(h.logs.getD k {}).recs.isEmpty))))))
  | 0x10104 => some 0
  | 0x10200 => some 0x4C
  | 0x10204 => some (w32 (b2n h.mboxBusy.isSome))
  | 0x10210 => some (w32 (b2n h.background.isSome))
  | 0x11400 => some (w32 (pack [(2, b2n h.memActive), (4, b2n h.mboxReady)]))
  | 0x11404 => some 0
  | _ => none

/-- A word of BAR2. -/
def HostIf.bar2Word (h : HostIf) (o : Nat) : Option W32 :=
  if o < 0x10000 then h.componentWord o else if o < 0x20000 then h.deviceWord o else h.msixWord o

/-- The decoder that the words in `comp` spell, with the control word `c`. -/
def HostIf.decoderOf (h : HostIf) (i : Nat) (c : W32) : HdmDecoder :=
  let w := fun (o : Nat) => (sget 0 h.comp (hdmBase i + o)).toNat
  { base := w 0 + w 4 * 2 ^ 32, size := w 8 + w 12 * 2 ^ 32, skip := w 20 + w 24 * 2 ^ 32,
    ways := fld c 4 4, gran := fld c 0 4, lock := bit c 8, commit := bit c 9 }

/-- A write to a word of a decoder: its control word takes effect as HDM_DECODER_COMMIT does; the others are kept for it,
and a committed decoder's do not change (R388). -/
def HostIf.writeDecoder (h : HostIf) (o : Nat) (v : W32) : HostIf :=
  let i := (o - 0x1210) / 0x20
  if o % 0x20 = 0 then h.program i (h.decoderOf i v)
  else if (if i = 0 then h.dec0 else h.dec1).isSome then h
  else { h with comp := sset 0 h.comp o v }

/-- A vector's mask bit is written: a message that is pending leaves as it is unmasked (R395). -/
def State.maskVector (s : State) (v : Nat) (m : Bool) : State :=
  if m then s.modHost (fun h => { h with msixMasked := insertNat v h.msixMasked })
  else
    let t := s.modHost (fun h => { h with msixMasked := h.msixMasked.filter (· != v) })
    if s.host.msixPending.contains v then
      (t.modHost (fun h => { h with msixPending := h.msixPending.filter (· != v) })).msix v
    else t

/-! ### Accesses -/

/-- A word that the host reads; a word the spec states no value of is free. -/
def State.hostWord (s : State) (off : Nat) : W32 × State :=
  let v := match hostRegAt off with
    | .bar2 o => s.host.bar2Word o
    | .header o => s.host.headerWord o
    | .cap id o => s.host.capWord id o
    | .extCap id o => s.host.extCapWord id o
    | .dvsec id o => s.host.dvsecWord id o
  match v with
  | some w => (w, s)
  | none => let r := s.freeBytes 4; (w32 (ofLe r.1), r.2)

/-- A configuration request of the host is answered with Configuration Request Retry Status (R397). -/
def State.hostRetry (s : State) (off : Nat) : State :=
  if s.powered && s.host.linkUp && s.configAnswer == 1 then
    match hostRegAt off with
    | .bar2 _ => s
    | _ => s.emit (.configRetry off)
  else s

/-- The host reads a word beside BAR0; before configuration requests are served it gets no data (R397). -/
def State.hostRead (s : State) (off : Nat) : State :=
  if !s.reaches .host false then s.hostRetry off
  else
    let r := s.hostWord (off / 4 * 4)
    r.2.emit (.readData .host off (w64 r.1.toNat))

/-- The host writes a word beside BAR0: a BAR, AER, a decoder's register, or an entry of the MSI-X table. No other has a
stated effect. -/
def State.hostWrite (s : State) (off : Nat) (v : W32) : State :=
  if !s.reaches .host true then s.hostRetry off
  else if off % 4 ≠ 0 then s
  else match hostRegAt off with
    | .header o =>
      if (0x10 ≤ o ∧ o < 0x28) ∨ o = 0x3C then s.modHost (fun h => { h with bars := sset 0 h.bars ((o - 0x10) / 4) v }) else s
    | .extCap 1 o => s.modHost (fun h => h.writeAer o v)
    | .bar2 o =>
      if 0x1210 ≤ o ∧ o < 0x1250 then s.modHost (fun h => h.writeDecoder o v)
      else if 0x20000 ≤ o ∧ o < 0x20400 then
        if o % 16 = 12 then s.maskVector ((o - 0x20000) / 16) (bit v 0)
        else s.modHost (fun h => { h with msixTable := sset 0 h.msixTable ((o - 0x20000) / 4) v })
      else s
    | _ => s

end Sys2Proof.Machine
end

