-- ==== Sys2Proof/Machine/Registers.lean ====
section
/-! DEFINITION. Register accesses (R6-R11, R492-R505): the handler of every writable register, the access
sizes of R493, the two-word rules of R7 and R494, and the privileged instructions of R239. -/

namespace Sys2Proof.Machine

/-! ### Handlers of single registers -/

/-- OWN_COORD: NODE at least 240, and every logical port DOWN; OWN_VALID becomes 1 (R503). -/
def wrOwnCoord : WriteFn := fun s v =>
  if fld v 8 8 < 240 || s.lports.any (fun lp => decide ((s.port lp).st ≠ .down)) then none
  else some ((s.setReg Reg.ownCoord v).setReg Reg.devStatus 1)

/-- RW1C: a 1 clears the bit (R8). -/
def clearBits (off : Nat) : WriteFn := fun s v => some (s.setReg off (s.reg off &&& ~~~v))

/-- ARITH_CTRL is not written while COLL_EN is 1 (R186). -/
def wrArith : WriteFn := fun s v => if s.collEn then none else some (s.setReg Reg.arithCtrl v)

/-- DUMP_BASE: 1 GiB aligned, in Subsoil, clear of windows and write-backs (R431). -/
def wrDumpBase : WriteFn := fun s v =>
  let a := v.toNat
  if a % gib ≠ 0 || !inTier true a gib || s.hitsWindow a gib then none else some (s.setReg Reg.dumpBase v)

/-- CLASS3_WEIGHT: each weight 1 to 15 (R318). -/
def wrWeights : WriteFn := fun s v =>
  if [0, 4, 8, 12].any (fun i => fld v i 4 == 0) then none else some (s.setReg Reg.class3Weight v)

/-- A write that is always ignored and counted. -/
def wrNever : WriteFn := fun _ _ => none

/-! ### The handler of a register (R8) -/

/-- Global block. -/
def globalHandler (r : Requester) (o : Nat) : WriteFn :=
  if 0x2000 ≤ o && o < 0x2040 then wrStage r o
  else if 0x8000 ≤ o && o < 0xC000 then
    let c := (o - 0x8000) / 0x40
    match (o - 0x8000) % 0x40 with
    | 0x00 => wrRplCtrl c
    | 0x08 => wrLogReg o c
    | 0x10 => wrLogReg o c
    | _ => plainWrite o
  else match o with
    | 0x0008 => wrOwnCoord
    | 0x1008 => wrTimeCtrl
    | 0x1010 => wrFtimeSet
    | 0x1100 => wrLtBase
    | 0x1108 => wrLtCtrl
    | 0x110C => rangeWrite o 2 1000
    | 0x2040 => wrCtxCmd
    | 0xD008 => wrResetCmd
    | 0xD00C => rangeWrite o 1 10000
    | 0xD010 => rangeWrite o 1 1000
    | 0xD014 => rangeWrite o 1 1000
    | 0xD018 => wrDumpBase
    | _ => plainWrite o

/-- Switching core, collective unit, reduction arithmetic and routing. -/
def switchHandler (o : Nat) : WriteFn :=
  match o with
  | 0x100004 => rangeWrite o 1 1000
  | 0x104000 => wrCollCtrl
  | 0x104008 => wrSpillBase
  | 0x104010 => wrSpillSize
  | 0x104018 => rangeWrite o 1 10000
  | 0x104100 => wrArith
  | 0x200010 => wrSwapAt
  | 0x200018 => wrSwapCmd
  | 0x200020 => rangeWrite o 0 1000
  | 0x200024 => rangeWrite o 1 1000
  | 0x200080 => wrCommit
  | _ => plainWrite o

/-- A port block: block `p`, offset `o` within it. -/
def portHandler (start p o : Nat) : WriteFn :=
  if 0x40 ≤ o && o < 0xC0 then
    let lp := 4 * p + (o - 0x40) / 0x20
    match (o - 0x40) % 0x20 with
    | 0x00 => wrPortCtrl lp
    | 0x10 => wrPortCmd lp
    | _ => plainWrite start
  else if 0x9000 ≤ o && o < 0x9400 then
    let lp := 4 * p + (o - 0x9000) / 0x100
    let x := o % 0x100
    if x < 0x20 then wrCreditLimit lp false (x / 4)
    else if x < 0x40 then wrCreditLimit lp true ((x - 0x20) / 4)
    else if x = 0x48 ∨ x = 0x4C then wrCap start lp (if x = 0x48 then 0 else 1)
    else plainWrite start
  else match o with
    | 0x0 => wrPortCfg p
    | 0x4 => rangeWrite start 100 60000
    | 0x8 => rangeWrite start 1000 200000
    | _ => plainWrite start

/-- A lane block. -/
def laneHandler (start n o : Nat) : WriteFn :=
  match o with
  | 0x004 => wrSpareCfg n
  | 0x008 => wrTxeq start
  | 0x00C => wrTxeq start
  | 0x080 => wrEyeCtrl n
  | 0x0C0 => wrPrbsCtrl n
  | 0x100 => wrInjCtrl n
  | _ => plainWrite start

/-- A bench block. -/
def benchHandler (start b o : Nat) : WriteFn :=
  match o with
  | 0x8 => wrBenchCtrl b
  | 0xC => rangeWrite start 1 65535
  | _ => plainWrite start

/-- The pool unit. -/
def poolHandler (r : Requester) (start : Nat) : WriteFn :=
  if 0x3110020 ≤ start ∧ start < 0x3110040 then wrStage r start
  else match start with
  | 0x3110008 => rangeWrite start 10 10000
  | 0x311000C => rangeWrite start 0 64
  | 0x3110010 => rangeWrite start 1 65535
  | 0x3110040 => wrWinCmd
  | 0x311004C => wrWeights
  | _ => plainWrite start

/-- Power, thermal and ageing. -/
def powerHandler (start : Nat) : WriteFn :=
  match start with
  | 0x380000C => wrWattCap start
  | 0x3800010 => wrWattCap start
  | 0x3800018 => wrFmax
  | 0x380001C => rangeWrite start 85 105
  | 0x3800034 => clearBits start
  | 0x3800054 => wrNever
  | 0x3800200 => wrLehr
  | _ => plainWrite start

/-- A counter block. -/
def counterHandler (r : Requester) (start n o : Nat) : WriteFn :=
  counterWrite r (if o = 0x8 then clearBits start
    else if 0x40 ≤ o ∧ o < 0x60 then wrEvsel n ((o - 0x40) / 4)
    else if o = 0x100 then wrBwCtrl n
    else plainWrite start)

/-- The handler of the register that starts at `start`. -/
def handlerOf (r : Requester) (start : Nat) : WriteFn :=
  if start < 0x100000 then globalHandler r start
  else if start < 0x1000000 then switchHandler start
  else if start < 0x1800000 then portHandler start ((start - 0x1000000) / 0x10000) (start % 0x10000)
  else if start < 0x2000000 then laneHandler start ((start - 0x1800000) / 0x800) ((start - 0x1800000) % 0x800)
  else if start < 0x2680000 then benchHandler start ((start - 0x2000000) / 0x10000) (start % 0x10000)
  else if start < 0x3110000 then plainWrite start
  else if start < 0x3800000 then poolHandler r start
  else if start < 0x3F00000 then powerHandler start
  else counterHandler r start ((start - 0x3F00000) / 0x1000) (start % 0x1000)

/-- The handlers that see reserved bits: the base addresses (R157, R271), RPL_CTRL (R328). -/
def seesReserved (start : Nat) : Bool :=
  start == Reg.ltBase || start == Reg.spillBase || (decide (0x8000 ≤ start ∧ start < 0xC000) && start % 0x40 == 0)

/-- Write the whole register at `start`; `acc` is the offset of the access (R505). -/
def State.writeWhole (s : State) (r : Requester) (start : Nat) (v : W64) (acc : Nat := start) : State :=
  if start = Reg.commit then s.writeCommit r v
  else s.writeVia r start v (handlerOf r start) (seesReserved start) acc

/-! ### 64-bit registers in two words (R7, R494) -/

/-- The 64-bit register whose low word is at `off`. -/
def wideAt (off : Nat) : Option RegRow :=
  match findReg off with
  | some w => if w.wide && w.start off == off then some w else none
  | none => none

/-- A low word is held; a register that takes no write now refuses it at once (R10, R497, R499, R500). -/
def State.writeLow (s : State) (r : Requester) (start : Nat) (w : RegRow) (v : W32) : State :=
  let s := s.touch r start
  if w.acc = .ro ∨ w.acc = .rc ∨ s.resetBlocks start ∨ s.absentReg start ∨ w.lock.any s.lockBit then s.ignored r start false
  else { s with heldLow := s.heldLow.filter (fun h => !decide (h.1 = r)) ++ [(r, start, v, s.now)] }

/-- A held low word that is more than 1 µs old is discarded and counted. -/
def State.expireLow (s : State) (r : Requester) : State :=
  match s.heldLow.find? (fun h => decide (h.1 = r)) with
  | some h =>
    if h.2.2.2 + us < s.now then
      ({ s with heldLow := s.heldLow.filter (fun g => !decide (g.1 = r)) }).ignored r h.2.1 false
    else s
  | none => s

/-- A high word completes the pair, or sets the high word alone. -/
def State.writeHigh (s : State) (r : Requester) (start : Nat) (v : W32) : State :=
  let s := (s.touch r start).expireLow r
  let low := match s.heldLow.find? (fun h => decide (h.1 = r) && h.2.1 == start) with
    | some h => h.2.2.1.toNat
    | none => fld (s.reg start) 0 32
  let s := { s with heldLow := s.heldLow.filter (fun h => !decide (h.1 = r)) }
  s.writeWhole r start (w64 (low + v.toNat * 2 ^ 32)) (start + 4)

/-- A 32-bit write at an aligned offset. -/
def State.writeWord (s : State) (r : Requester) (off : Nat) (v : W32) : State :=
  if !s.reaches r true then s
  else match findReg off with
    | none => (s.touch r off).ignored r off false
    | some w =>
      if !w.wide then s.writeWhole r off (w64 v.toNat)
      else if w.start off = off then s.writeLow r off w v
      else s.writeHigh r (w.start off) v

/-- Read the register at `start` whole: RC registers return to their rest value (R8). -/
def State.readWhole (s : State) (r : Requester) (start : Nat) : W64 × State :=
  let s := s.touch r start
  match findReg start with
  | none => (0, s.ignored r start true)
  | some w =>
    (s.regValue start, if w.acc = .rc then s.setReg start (s.rcRest start) else s)

/-- A read of a low word latches the high word (R7). -/
def State.readLow (s : State) (r : Requester) (start : Nat) : W64 × State :=
  let x := s.readWhole r start
  (w64 (fld x.1 0 32), { x.2 with
    latches := x.2.latches.filter (fun l => !decide (l.1 = r)) ++ [(r, start, w32 (fld x.1 32 32))] })

/-- A read of a high word: the latched value, else the live one (R7). -/
def State.readHigh (s : State) (r : Requester) (start : Nat) : W64 × State :=
  let s := s.touch r start
  match s.latches.find? (fun l => decide (l.1 = r) && l.2.1 == start) with
  | some l => (w64 l.2.2.toNat, { s with latches := s.latches.filter (fun l => !decide (l.1 = r)) })
  | none => (w64 (fld (s.regValue start) 32 32), s)

/-- A 32-bit read at an aligned offset. -/
def State.readWord (s : State) (r : Requester) (off : Nat) : W64 × State :=
  match findReg off with
  | none => (0, (s.touch r off).ignored r off true)
  | some w =>
    if !w.wide then s.readWhole r off
    else if w.start off = off then s.readLow r off
    else s.readHigh r (w.start off)

/-! ### Register commands -/

/-- The first offset of the register that an access at `off` touches. -/
def regStart (off : Nat) : Nat :=
  match findReg (off / 4 * 4) with
  | some w => w.start (off / 4 * 4)
  | none => off / 4 * 4

/-- Read `n` consecutive words from `off`, with one answer each (R493): the words of a 64-bit register come from one
instant through its latch. -/
def State.readRun (s : State) (r : Requester) : Nat → Nat → State
  | 0, _ => s
  | n + 1, off =>
    let x := s.readWord r off
    State.readRun (x.2.emit (.readData r off x.1)) r n (off + 4)

/-- The answer of a read with its data. -/
def answerRead (r : Requester) (off : Nat) (x : W64 × State) : State := x.2.emit (.readData r off x.1)

/-- A read of an aligned register and its data. -/
def readCmd (s : State) (r : Requester) (off : Nat) (x : W64 × State) : Host.Outcome State Fault Refusal :=
  if !s.reaches r false then .next s else .next (answerRead r off x)

/-- A 32-bit read at an offset that is not a multiple of 4 reads the two words it touches (R493). -/
def State.readSplit (s : State) (r : Requester) (off : Nat) : W64 × State :=
  let lo := s.readWord r (off / 4 * 4)
  let hi := lo.2.readWord r (off / 4 * 4 + 4)
  (w64 ((lo.1.toNat + hi.1.toNat * 2 ^ 32) / 2 ^ (8 * (off % 4)) % 2 ^ 32), hi.2)

/-- The debug port beside BAR0 (R479, R481; log entry 47): from 64 MiB on the device identification register, the
bypass register, which shifts one zero bit, and the boundary scan; then the memories, which it only writes. -/
def debugMem : Nat := 2 ^ 48

/-- A debug read beside BAR0: the locked port offers the identification and bypass registers, level 1 the boundary scan. -/
def State.debugRead (s : State) (off : Nat) : State :=
  if !s.powered then s
  else if off = hostSpace then s.emit (.jtag (leBytes 4 Config.jtagIdcode.toNat))
  else if off = hostSpace + 4 then s.emit (.jtag [0])
  else if off = hostSpace + 8 ∧ 1 ≤ s.boot.debugLevel.toNat then
    let r := s.freeBytes 64
    r.2.emit (.jtag r.1)
  else s

/-- A debug write beside BAR0 at level 2: a 32-bit word of the pool, of a local store or of an instruction store. -/
def State.debugWrite (s : State) (off : Nat) (v : W32) : State :=
  if !s.reaches .debug true || off < debugMem || off % 4 ≠ 0 then s
  else
    let a := off % debugMem
    let put := fun (n : Nat) (sp : DmaSpace) =>
      s.dmaWrite (Fin.ofNat 100 (a / (8 * n))) (Fin.ofNat 8 (a / n)) sp (a % n) (leBytes 4 v.toNat)
    match off / debugMem with
    | 1 => if inPool a 4 then put (2 ^ 48) .pool else s
    | 2 => if a < 800 * 2 ^ 18 then put (2 ^ 18) (.store (a / 2 ^ 18 % 8)) else s
    | 3 => if a < 800 * 2 ^ 16 then put (2 ^ 16) .istore else s
    | _ => s

/-- REGISTER_WRITE (R8, R493): `len` bytes with byte enables `en`; the host also writes beside BAR0 (R385), and the
debug port the memories (R481). -/
def execRegisterWrite (r : Requester) (off len : Nat) (en : BitVec 4) (v : W64) (s : State) : Host.Outcome State Fault Refusal :=
  if r = .host ∧ hostSpace ≤ off then
    .next (if len = 4 ∧ en = 0xF then s.hostWrite off (w32 v.toNat)
      else if len = 8 then (s.hostWrite off (w32 v.toNat)).hostWrite (off + 4) (w32 (fld v 32 32)) else s)
  else if r = .debug ∧ hostSpace ≤ off then .next (s.debugWrite off (w32 v.toNat))
  else if !s.reaches r true then .next s
  else if len = 4 ∧ en = 0xF ∧ off % 4 = 0 then .next (s.writeWord r off (w32 v.toNat))
  else if len = 8 ∧ off % 8 = 0 ∧ (wideAt off).isSome then .next (s.writeWhole r off v)
  else .next ((s.touch r (regStart off)).ignored r off false)

/-- READ_CLEAR (R7, R8, R493): a 32-bit read, of which partial byte enables still read the whole word; an 8-byte read of
a 64-bit register at once; any longer read, and an 8-byte read of two 32-bit registers, word by word. RC returns to its
rest value. The host also reads beside BAR0 (R384-R386), and the debug port its own registers (R479). -/
def execReadClear (r : Requester) (a : ReadAt) (s : State) : Host.Outcome State Fault Refusal :=
  let base := a.off / 4 * 4
  if r = .host ∧ hostSpace ≤ a.off then
    .next ((List.range ((a.len + a.off % 4 + 3) / 4)).foldl (fun s i => s.hostRead (base + 4 * i)) s)
  else if r = .debug ∧ hostSpace ≤ a.off then .next (s.debugRead a.off)
  else if !s.reaches r false then .next s
  else if a.len ≤ 4 then
    if a.off % 4 ≠ 0 ∧ a.len = 4 ∧ a.en = 0xF then .next (answerRead r a.off (s.readSplit r a.off))
    else .next (answerRead r base (s.readWord r base))
  else if a.len = 8 ∧ a.off % 8 = 0 ∧ (wideAt a.off).isSome then .next (answerRead r a.off (s.readWhole r a.off))
  else .next (s.readRun r ((a.len + a.off % 4 + 3) / 4) base)

/-- UNASSIGNED_OFFSET_ACCESS (R11): an offset of BAR0 that holds no register. -/
def execUnassignedOffsetAccess (r : Requester) (off : Nat) (wr : Bool) (s : State) : Host.Outcome State Fault Refusal :=
  if !s.reaches r wr || (findReg (off / 4 * 4)).isSome || decide (hostSpace ≤ off) then .next s
  else
    let s := (s.touch r (off / 4 * 4)).ignored r off (!wr)
    .next (if wr then s else s.emit (.readData r off 0))

/-- LOW_WORD_READ (R7). -/
def execLowWordRead (r : Requester) (off : Nat) (s : State) : Host.Outcome State Fault Refusal :=
  match wideAt off with
  | none => .next s
  | some _ => readCmd s r off (s.readLow r off)

/-- HIGH_WORD_READ (R7): `off` is the high word's offset. -/
def execHighWordRead (r : Requester) (off : Nat) (s : State) : Host.Outcome State Fault Refusal :=
  match wideAt (off - 4) with
  | none => .next s
  | some _ => readCmd s r off (s.readHigh r (off - 4))

/-- LOW_WORD_WRITE (R494). -/
def execLowWordWrite (r : Requester) (off : Nat) (v : W32) (s : State) : Host.Outcome State Fault Refusal :=
  match wideAt off with
  | none => .next s
  | some w => if !s.reaches r true then .next s else .next (s.writeLow r off w v)

/-- HIGH_WORD_WRITE (R494): `off` is the high word's offset. -/
def execHighWordWrite (r : Requester) (off : Nat) (v : W32) (s : State) : Host.Outcome State Fault Refusal :=
  match wideAt (off - 4) with
  | none => .next s
  | some _ => if !s.reaches r true then .next s else .next (s.writeHigh r (off - 4) v)

/-- HELD_LOW_WORD_EXPIRY (R494). -/
def execHeldLowWordExpiry (r : Requester) (s : State) : Host.Outcome State Fault Refusal :=
  if s.powered then .next (s.expireLow r) else .next s

/-- LOCK_WRITE (R500). -/
def execLockWrite (r : Requester) (l : LockReg) (v : W32) (s : State) : Host.Outcome State Fault Refusal :=
  let off := match l with | .sc => Reg.scLock | .rt => Reg.rtLock | .global => Reg.globalLock
  writeCmd s r off (w64 v.toNat) (plainWrite off)

/-- OWN_COORD_WRITE (R503). -/
def execOwnCoordWrite (r : Requester) (v : W32) (s : State) : Host.Outcome State Fault Refusal :=
  writeCmd s r Reg.ownCoord (w64 v.toNat) wrOwnCoord

/-! ### Privileged instructions (R239, R490) -/

/-- A counter that CTRRD names at an offset of the counter blocks (R490). -/
def counterNamed (o : Nat) : Bool :=
  let n := o / 0x1000
  let x := o % 0x1000
  decide (n < 242) && o % 8 == 0 &&
  (x == 0 || decide (0x80 ≤ x ∧ x < 0xC0) || (decide (n < 128) && decide (0x110 ≤ x ∧ x < 0x150)))

/-- A context may read the block of offset `o`: bench blocks only within its bench set (R490). -/
def State.counterOpen (s : State) (b : Nat) (o : Nat) : Bool :=
  let n := o / 0x1000
  match s.coreCtx b with
  | none => true
  | some c => decide (n < 128 ∨ 228 ≤ n) || (s.ctx c).benchSet.getLsbD (n - 128)

/-- CTRRD (R239, R490). -/
def execCtrrd (b : Fin 100) (c : Fin 8) (s : State) : Host.Outcome State Fault Refusal :=
  coreExec b c 7 2 (fun w s =>
    let a := (s.core (coreNo b c)).s (iA w)
    let o := fld a 0 22
    if (s.coreCtx b).any (fun x => !bit (s.ctx x).perms 0) then s.raise b c Exc.priv 0
    else if a.toNat % 4 ≠ 0 then s.raise b c Exc.misalign a
    else s.retireValue b c (iD w) (fun s =>
      let s := if b.val = 99 then s.touch (.warden c) (0x3F00000 + o) else s
      if counterNamed o && s.counterOpen b o then (s.regValue (0x3F00000 + o), s)
      else (0, s.ignored (.warden c) (0x3F00000 + o) true))) s

/-- A warden program's write to a bench's register block is a demand that wakes the bench (R208); a read wakes nothing
(R496, log entry 63). -/
def State.wardenWake (s : State) (o : Nat) : State :=
  if 0x2000000 ≤ o ∧ o < 0x2640000 then s.wakeBench ((o - 0x2000000) / 0x10000) else s

/-- RDREG (R239, R496): bench 99 only. -/
def execRdreg (b : Fin 100) (c : Fin 8) (s : State) : Host.Outcome State Fault Refusal :=
  coreExec b c 7 0x10 (fun w s =>
    let a := (s.core (coreNo b c)).s (iA w)
    if b.val ≠ 99 then s.raise b c Exc.priv 0
    else if a.toNat % 4 ≠ 0 then s.raise b c Exc.misalign a
    else s.retireValue b c (iD w) (fun s => s.readWord (.warden c) (fld a 0 26))) s

/-- WRREG (R239): bench 99 only; the write follows the instruction's retirement. -/
def execWrreg (b : Fin 100) (c : Fin 8) (s : State) : Host.Outcome State Fault Refusal :=
  coreExec b c 7 0x11 (fun w s =>
    let x := s.core (coreNo b c)
    let a := x.s (iA w)
    if b.val ≠ 99 then s.raise b c Exc.priv 0
    else if a.toNat % 4 ≠ 0 then s.raise b c Exc.misalign a
    else ((s.retire b c id).wardenWake (fld a 0 26)).writeWord (.warden c) (fld a 0 26) (w32 (fld (x.s (iB w)) 0 32))) s

end Sys2Proof.Machine
end

