-- ==== Sys2Proof/Machine/PowerUp.lean ====
section
/-! DEFINITION. Power-up, power removal, rail faults, reference clocks and wake (R30, R511-R513, R516). -/

namespace Sys2Proof.Machine

/-- What power removal keeps: flash and the level of its hold pin, programmed fuses, and the part's pass count; the model's own fields stay. -/
def State.powerOff (s : State) : State :=
  { pending := s.pending, freeCtr := s.freeCtr, out := s.out,
    mgmt := { flashA := s.mgmt.flashA, flashB := s.mgmt.flashB, spiHeld := s.mgmt.spiHeld },
    boot := { revoke2 := s.boot.revoke2, revoke3 := s.boot.revoke3, svnAdded := s.boot.svnAdded },
    pwr := { railsUp := false, passGain := s.pwr.passGain } }

/-- POWER_UP (R511 steps 1 to 3): the rails come in range and both clocks run; the device is inert. -/
def execPowerUp (s : State) : Host.Outcome State Fault Refusal :=
  if s.boot.stage ≠ .inert then .next s
  else .next ((s.modPwr (fun p => { p with railsUp := true })).modClk (fun c => { c with fabRef := true, cxlRef := true }))

/-- POWER_ON_RESET_RELEASE (R470 steps 1 to 3, R475, R511 step 4): the always-on domain and the steward's boot ROM start,
the identity is derived, and the primary image is chosen unless the flash pins are held. -/
def execPowerOnResetRelease (s : State) : Host.Outcome State Fault Refusal :=
  if !s.pwr.railsUp || s.boot.stage ≠ .inert || !s.clk.fabRef || !s.clk.cxlRef then .next s
  else
    let s := (s.modBoot (fun b => { b with stage := .step 2, seedPresent := true, keyPresent := true })).modFault
      (fun f => { f with stewardUp := true })
    .next (if s.mgmt.spiHeld then s else s.chooseImage)

/-- POWER_REMOVAL (R512). -/
def execPowerRemoval (s : State) : Host.Outcome State Fault Refusal := .next s.powerOff

/-- Registers of the always-on domain, and those that only power removal clears (R482, R502, R503). -/
def keptByRail (off : Nat) : Bool :=
  off == Reg.ownCoord || off == Reg.devStatus || decide (0x30 ≤ off ∧ off < 0x40) || decide (0xD028 ≤ off ∧ off < 0xD030) ||
  decide (0xD050 ≤ off ∧ off < 0xD074) || decide (0x3800000 ≤ off ∧ off < 0x3C80000)

/-- The generation record of a context (R269, R513). -/
def Ctx.record (c : Ctx) : Ctx :=
  { st := if c.st = .resting then .resting else .free, gen := c.gen, left := c.left, restUntil := c.restUntil }

/-- Every domain but the always-on domain is held in reset (R513): the fault log, the escalation history, the
generation records, the identity seed register, fabric time and the power state stay; so do memory and flash. -/
def State.railReset (s : State) : State :=
  { pending := s.pending, freeCtr := s.freeCtr, out := s.out,
    clk := { s.clk with locked := false, goodRun := 0, lostRun := 0, reqOut := none, reqOld := [], slew := 0, lastOffset := 0 },
    regs := s.regs.filter (fun e => keptByRail e.1),
    ctxs := smap {} s.ctxs Ctx.record,
    pool := {
      mem := s.pool.mem, latent := s.pool.latent,
      poisoned := s.pool.hidden.foldl (fun l v => insertNat v l) s.pool.poisoned },
    host := { perst := s.host.perst, configAt := s.host.configAt },
    mgmt := { s.mgmt with mctpReady := false, fwTransfer := none, mbox := {}, i3c := {}, vdm := {} },
    fault := { s.fault with reset := none, deferred := [], wardenRestarts := [], wardenOwed := false, wardenHeld := false, stewardUp := false },
    pwr := { s.pwr with
      railFault := true, lehrStep := 0, lehrPaused := false, lehrDue := [], capFloor := false,
      swcAged := s.pwr.swcAge, benchBin := 0, loamPct := 100, dutyPct := 100, pacePct := 100 },
    boot := { s.boot with stage := .step 2, header := [], body := [], measured := [], keyPresent := false },
    pins := s.pins }

/-- RAIL_FAULT (R513): nothing is logged, and a reset in progress is abandoned without being counted. -/
def execRailFault (s : State) : Host.Outcome State Fault Refusal :=
  if !s.aonUp || s.pwr.railFault then .next s else .next s.uncountReset.railReset

/-- RAIL_FAULT_RECOVERY (R475, R513): boot restarts at step 3, and the key pair is regenerated from its seed. -/
def execRailFaultRecovery (s : State) : Host.Outcome State Fault Refusal :=
  if !s.aonUp || !s.pwr.railFault then .next s
  else
    let s := (s.modPwr (fun p => { p with railFault := false })).modBoot (fun b => { b with keyPresent := b.seedPresent })
    let s := s.modFault (fun f => { f with stewardUp := true })
    .next (if s.mgmt.spiHeld then s else s.chooseImage)

/-- FAB_REFCLK_LOSS (R516): lanes lose their clocks; fabric time keeps counting from the held trim. -/
def execFabRefclkLoss (s : State) : Host.Outcome State Fault Refusal :=
  .next (s.modClk (fun c => { c with fabRef := false }))

/-- FAB_REFCLK_RETURN (R516): the device retrims within 10 ms, and ports may train again. -/
def execFabRefclkReturn (s : State) : Host.Outcome State Fault Refusal :=
  if s.clk.fabRef then .next s else .next (s.modClk (fun c => { c with fabRef := true }))

/-- CXL_REFCLK_LOSS (R516): a host link-down event. -/
def execCxlRefclkLoss (s : State) : Host.Outcome State Fault Refusal :=
  if s.powered then .next (s.modClk (fun c => { c with cxlRef := false })).linkLost
  else .next (s.modClk (fun c => { c with cxlRef := false }))

/-- BLOCK_WAKE_COMPLETE (R30, R374, R375, R459): a wake changes timing only; the blocks whose state a register
reports show it. A controller that trains in a Lehr window ends its training so (log entry 38). -/
def execBlockWakeComplete (blk : WakeBlock) (s : State) : Host.Outcome State Fault Refusal :=
  if !s.powered then .next s else
  match blk with
  | .memory m =>
    if (s.memCtl m).st = .waking ∨ (s.memCtl m).st = .training then .next (s.modMem m (fun c => { c with st := .active, hangFrom := s.now })) else .next s
  | .laneTx lp =>
    if (s.port lp).txWakeAt.any (fun t => decide (t ≤ s.now)) then
      .next (s.modPort lp (fun p => { p with tx := .active, txWakeAt := none, idleSince := s.now }))
    else .next s
  | .laneRx lp => if s.portActive lp then .next (s.modPort lp (fun p => { p with rx := .active })) else .next s
  | .switchCore => .next s
  | .hostInterface => .next s

end Sys2Proof.Machine
end

