-- ==== Sys2Proof/Machine/Scalar.lean ====
section
/-! DEFINITION. The scalar family (R223, R224). -/

namespace Sys2Proof.Machine

/-- s[D] = f s[A] s[B]. -/
def scalarBin (b : Fin 100) (c : Fin 8) (op : Nat) (f : W64 → W64 → W64) (s : State) :
    Host.Outcome State Fault Refusal :=
  coreExec b c 0 op (fun w s =>
    s.retire b c (fun x => x.setS (iD w) (f (x.s (iA w)) (x.s (iB w))))) s

/-- s[D] = f s[A] of the instruction's word. -/
def scalarImm (b : Fin 100) (c : Fin 8) (op : Nat) (f : W64 → W64 → W64) (s : State) :
    Host.Outcome State Fault Refusal :=
  coreExec b c 0 op (fun w s => s.retire b c (fun x => x.setS (iD w) (f (x.s (iA w)) w))) s

/-- A shift amount from a register: s[B][5:0]. -/
def shAmt (y : W64) : Nat := fld y 0 6

/-- High 64 bits of a product of integers. -/
def mulHigh (x y : Int) : W64 := w64 (tc 128 (x * y) / 2 ^ 64)

/-- Signed quotient truncated toward zero, with the edge cases of R224. -/
def divS (x y : W64) : W64 := if y = 0 then -1 else w64 (tc 64 (Int.tdiv x.toInt y.toInt))
/-- Unsigned quotient (R224). -/
def divU (x y : W64) : W64 := if y = 0 then BitVec.allOnes 64 else w64 (x.toNat / y.toNat)
/-- Signed remainder with the sign of the dividend (R224). -/
def remS (x y : W64) : W64 := if y = 0 then x else w64 (tc 64 (Int.tmod x.toInt y.toInt))
/-- Unsigned remainder (R224). -/
def remU (x y : W64) : W64 := if y = 0 then x else w64 (x.toNat % y.toNat)

/-- Number of 1 bits. -/
def popCount (x : W64) : Nat := ((List.range 64).filter (fun i => bit x i)).length
/-- Leading zeros, 64 for 0. -/
def clz64 (x : W64) : Nat := if x = 0 then 64 else 63 - x.toNat.log2
/-- Trailing zeros, 64 for 0. -/
def ctz64 (x : W64) : Nat := ((List.range 64).find? (fun i => bit x i)).getD 64

/-- ADD (R223). -/
def execAdd (b : Fin 100) (c : Fin 8) (s : State) : Host.Outcome State Fault Refusal := scalarBin b c 0x01 (· + ·) s
/-- SUB (R223). -/
def execSub (b : Fin 100) (c : Fin 8) (s : State) : Host.Outcome State Fault Refusal := scalarBin b c 0x02 (· - ·) s
/-- AND (R223). -/
def execAnd (b : Fin 100) (c : Fin 8) (s : State) : Host.Outcome State Fault Refusal := scalarBin b c 0x03 (· &&& ·) s
/-- OR (R223). -/
def execOr (b : Fin 100) (c : Fin 8) (s : State) : Host.Outcome State Fault Refusal := scalarBin b c 0x04 (· ||| ·) s
/-- XOR (R223). -/
def execXor (b : Fin 100) (c : Fin 8) (s : State) : Host.Outcome State Fault Refusal := scalarBin b c 0x05 (· ^^^ ·) s
/-- SHL (R223). -/
def execShl (b : Fin 100) (c : Fin 8) (s : State) : Host.Outcome State Fault Refusal :=
  scalarBin b c 0x06 (fun x y => x <<< shAmt y) s
/-- SHR (R223). -/
def execShr (b : Fin 100) (c : Fin 8) (s : State) : Host.Outcome State Fault Refusal :=
  scalarBin b c 0x07 (fun x y => x >>> shAmt y) s
/-- SRA (R223). -/
def execSra (b : Fin 100) (c : Fin 8) (s : State) : Host.Outcome State Fault Refusal :=
  scalarBin b c 0x08 (fun x y => x.sshiftRight (shAmt y)) s
/-- SLT (R223). -/
def execSlt (b : Fin 100) (c : Fin 8) (s : State) : Host.Outcome State Fault Refusal :=
  scalarBin b c 0x09 (fun x y => ofBool (x.slt y)) s
/-- SLTU (R223). -/
def execSltu (b : Fin 100) (c : Fin 8) (s : State) : Host.Outcome State Fault Refusal :=
  scalarBin b c 0x0A (fun x y => ofBool (x.ult y)) s
/-- SEQ (R223). -/
def execSeq (b : Fin 100) (c : Fin 8) (s : State) : Host.Outcome State Fault Refusal :=
  scalarBin b c 0x0B (fun x y => ofBool (x == y)) s
/-- MIN (R223). -/
def execMin (b : Fin 100) (c : Fin 8) (s : State) : Host.Outcome State Fault Refusal :=
  scalarBin b c 0x0C (fun x y => if x.slt y then x else y) s
/-- MAX (R223). -/
def execMax (b : Fin 100) (c : Fin 8) (s : State) : Host.Outcome State Fault Refusal :=
  scalarBin b c 0x0D (fun x y => if x.slt y then y else x) s
/-- MINU (R223). -/
def execMinu (b : Fin 100) (c : Fin 8) (s : State) : Host.Outcome State Fault Refusal :=
  scalarBin b c 0x0E (fun x y => if x.ult y then x else y) s
/-- MAXU (R223). -/
def execMaxu (b : Fin 100) (c : Fin 8) (s : State) : Host.Outcome State Fault Refusal :=
  scalarBin b c 0x0F (fun x y => if x.ult y then y else x) s
/-- MUL (R223). -/
def execMul (b : Fin 100) (c : Fin 8) (s : State) : Host.Outcome State Fault Refusal := scalarBin b c 0x10 (· * ·) s
/-- MULHS (R223). -/
def execMulhs (b : Fin 100) (c : Fin 8) (s : State) : Host.Outcome State Fault Refusal :=
  scalarBin b c 0x11 (fun x y => mulHigh x.toInt y.toInt) s
/-- MULHU (R223). -/
def execMulhu (b : Fin 100) (c : Fin 8) (s : State) : Host.Outcome State Fault Refusal :=
  scalarBin b c 0x12 (fun x y => mulHigh x.toNat y.toNat) s
/-- DIV (R224). -/
def execDiv (b : Fin 100) (c : Fin 8) (s : State) : Host.Outcome State Fault Refusal := scalarBin b c 0x13 divS s
/-- DIVU (R224). -/
def execDivu (b : Fin 100) (c : Fin 8) (s : State) : Host.Outcome State Fault Refusal := scalarBin b c 0x14 divU s
/-- REM (R224). -/
def execRem (b : Fin 100) (c : Fin 8) (s : State) : Host.Outcome State Fault Refusal := scalarBin b c 0x15 remS s
/-- REMU (R224). -/
def execRemu (b : Fin 100) (c : Fin 8) (s : State) : Host.Outcome State Fault Refusal := scalarBin b c 0x16 remU s
/-- POPC (R223). -/
def execPopc (b : Fin 100) (c : Fin 8) (s : State) : Host.Outcome State Fault Refusal :=
  scalarImm b c 0x17 (fun x _ => w64 (popCount x)) s
/-- CLZ (R223). -/
def execClz (b : Fin 100) (c : Fin 8) (s : State) : Host.Outcome State Fault Refusal :=
  scalarImm b c 0x18 (fun x _ => w64 (clz64 x)) s
/-- CTZ (R223). -/
def execCtz (b : Fin 100) (c : Fin 8) (s : State) : Host.Outcome State Fault Refusal :=
  scalarImm b c 0x19 (fun x _ => w64 (ctz64 x)) s
/-- ADDI (R223). -/
def execAddi (b : Fin 100) (c : Fin 8) (s : State) : Host.Outcome State Fault Refusal :=
  scalarImm b c 0x20 (fun x w => x + immS w) s
/-- ANDI (R223). -/
def execAndi (b : Fin 100) (c : Fin 8) (s : State) : Host.Outcome State Fault Refusal :=
  scalarImm b c 0x21 (fun x w => x &&& immS w) s
/-- ORI (R223). -/
def execOri (b : Fin 100) (c : Fin 8) (s : State) : Host.Outcome State Fault Refusal :=
  scalarImm b c 0x22 (fun x w => x ||| immS w) s
/-- XORI (R223). -/
def execXori (b : Fin 100) (c : Fin 8) (s : State) : Host.Outcome State Fault Refusal :=
  scalarImm b c 0x23 (fun x w => x ^^^ immS w) s
/-- SHLI (R223). -/
def execShli (b : Fin 100) (c : Fin 8) (s : State) : Host.Outcome State Fault Refusal :=
  scalarImm b c 0x24 (fun x w => x <<< iImm w) s
/-- SHRI (R223). -/
def execShri (b : Fin 100) (c : Fin 8) (s : State) : Host.Outcome State Fault Refusal :=
  scalarImm b c 0x25 (fun x w => x >>> iImm w) s
/-- SRAI (R223). -/
def execSrai (b : Fin 100) (c : Fin 8) (s : State) : Host.Outcome State Fault Refusal :=
  scalarImm b c 0x26 (fun x w => x.sshiftRight (iImm w)) s
/-- SLTI (R223). -/
def execSlti (b : Fin 100) (c : Fin 8) (s : State) : Host.Outcome State Fault Refusal :=
  scalarImm b c 0x27 (fun x w => ofBool (x.slt (immS w))) s
/-- LI (R223). -/
def execLi (b : Fin 100) (c : Fin 8) (s : State) : Host.Outcome State Fault Refusal :=
  scalarImm b c 0x28 (fun _ w => immS w) s
/-- LIH (R223). -/
def execLih (b : Fin 100) (c : Fin 8) (s : State) : Host.Outcome State Fault Refusal :=
  scalarImm b c 0x29 (fun x w => w64 (iImm w * 2 ^ 32 + fld x 0 32)) s

end Sys2Proof.Machine
end

