-- ==== Sys2Proof/Machine/Vector.lean ====
section
/-! DEFINITION. The vector family (R225-R228) and the predicate family (R229). -/

namespace Sys2Proof.Machine

/-! ### Lane operations -/

/-- Integer lane result, low `w` bits. -/
def intLane (w : Nat) (x : Int) : Nat := tc w x
/-- Integer lane result saturated to the type's range. -/
def satLane (w : Nat) (x : Int) : Nat := tc w (clampInt (-(2 ^ (w - 1) : Nat)) ((2 ^ (w - 1) : Nat) - 1) x)

/-- A lane operation of R227: exact on values and rounded once, or on integers. -/
def arithLane (t rnd : Nat) (f : Val → Val → Val) (g : Int → Int → Int) (a b : Nat) : Nat :=
  if isInt t then intLane (laneW t) (g (sgn (laneW t) a) (sgn (laneW t) b))
  else laneOf t rnd (f (laneVal t a) (laneVal t b))

/-- VMIN, and VMAX with `mx` (R227). -/
def minMaxLane (mx : Bool) (t a b : Nat) : Nat :=
  let x := laneVal t a
  let y := laneVal t b
  if x == .nan || y == .nan then (match etypeFmt t with | some f => f.nan | none => 0)
  else if (if mx then y.ltZ x else x.ltZ y) then a else b

/-- Retire a lane-wise instruction: `f` gives the active lanes of v[D]. -/
def vecRetire (b : Fin 100) (c : Fin 8) (w : W64) (lw : Nat) (f : Core → Nat → Nat) (s : State) : State :=
  let x := s.core (coreNo b c)
  let p := x.p (iPg w)
  (s.countEv (128 + b.val) 0x41 (activeLanes lw p)).retire b c (fun x =>
    x.setV (iD w) (maskLanes lw p (x.v (iD w)) (f x)))

/-- v[D] lanes = f of the lanes of v[A] and v[B]. -/
def vecBin (b : Fin 100) (c : Fin 8) (op : Nat) (f : W64 → Nat → Nat → Nat) (s : State) :
    Host.Outcome State Fault Refusal :=
  laneExec b c 1 op (fun w s =>
    let lw := laneW (iType w)
    vecRetire b c w lw (fun x i => f w (vLane lw (x.v (iA w)) i) (vLane lw (x.v (iB w)) i)) s) s

/-- v[D] lanes = f of the lanes of v[A] and the scalar s[B]. -/
def vecShift (b : Fin 100) (c : Fin 8) (op : Nat) (f : Nat → Nat → Nat → Nat) (s : State) :
    Host.Outcome State Fault Refusal :=
  laneExec b c 1 op (fun w s =>
    let lw := laneW (iType w)
    vecRetire b c w lw (fun x i => f lw (vLane lw (x.v (iA w)) i) ((x.s (iB w)).toNat % lw)) s) s

/-- VADD (R227). -/
def execVadd (b : Fin 100) (c : Fin 8) (s : State) : Host.Outcome State Fault Refusal :=
  vecBin b c 0x01 (fun w => arithLane (iType w) (iRnd w) Val.add (· + ·)) s
/-- VSUB (R227). -/
def execVsub (b : Fin 100) (c : Fin 8) (s : State) : Host.Outcome State Fault Refusal :=
  vecBin b c 0x02 (fun w => arithLane (iType w) (iRnd w) (fun x y => x.add y.negate) (· - ·)) s
/-- VMUL (R227). -/
def execVmul (b : Fin 100) (c : Fin 8) (s : State) : Host.Outcome State Fault Refusal :=
  vecBin b c 0x03 (fun w => arithLane (iType w) (iRnd w) Val.mul (· * ·)) s

/-- VFMA (R227): one rounding. -/
def execVfma (b : Fin 100) (c : Fin 8) (s : State) : Host.Outcome State Fault Refusal :=
  laneExec b c 1 0x04 (fun w s =>
    let t := iType w
    let lw := laneW t
    vecRetire b c w lw (fun x i =>
      let a := vLane lw (x.v (iA w)) i
      let y := vLane lw (x.v (iB w)) i
      let z := vLane lw (x.v (iC w)) i
      if isInt t then intLane lw (sgn lw a * sgn lw y + sgn lw z)
      else laneOf t (iRnd w) (((laneVal t a).mul (laneVal t y)).add (laneVal t z))) s) s

/-- VMIN (R227). -/
def execVmin (b : Fin 100) (c : Fin 8) (s : State) : Host.Outcome State Fault Refusal :=
  vecBin b c 0x05 (fun w => minMaxLane false (iType w)) s
/-- VMAX (R227). -/
def execVmax (b : Fin 100) (c : Fin 8) (s : State) : Host.Outcome State Fault Refusal :=
  vecBin b c 0x06 (fun w => minMaxLane true (iType w)) s
/-- VADDS (R226). -/
def execVadds (b : Fin 100) (c : Fin 8) (s : State) : Host.Outcome State Fault Refusal :=
  vecBin b c 0x07 (fun w x y => let k := laneW (iType w); satLane k (sgn k x + sgn k y)) s
/-- VSUBS (R226). -/
def execVsubs (b : Fin 100) (c : Fin 8) (s : State) : Host.Outcome State Fault Refusal :=
  vecBin b c 0x08 (fun w x y => let k := laneW (iType w); satLane k (sgn k x - sgn k y)) s
/-- VAND (R226). -/
def execVand (b : Fin 100) (c : Fin 8) (s : State) : Host.Outcome State Fault Refusal :=
  vecBin b c 0x09 (fun _ x y => x &&& y) s
/-- VOR (R226). -/
def execVor (b : Fin 100) (c : Fin 8) (s : State) : Host.Outcome State Fault Refusal :=
  vecBin b c 0x0A (fun _ x y => x ||| y) s
/-- VXOR (R226). -/
def execVxor (b : Fin 100) (c : Fin 8) (s : State) : Host.Outcome State Fault Refusal :=
  vecBin b c 0x0B (fun _ x y => x ^^^ y) s
/-- VSHL (R226). -/
def execVshl (b : Fin 100) (c : Fin 8) (s : State) : Host.Outcome State Fault Refusal :=
  vecShift b c 0x0C (fun _ x n => x * 2 ^ n) s
/-- VSHR (R226). -/
def execVshr (b : Fin 100) (c : Fin 8) (s : State) : Host.Outcome State Fault Refusal :=
  vecShift b c 0x0D (fun _ x n => x / 2 ^ n) s
/-- VSRA (R226). -/
def execVsra (b : Fin 100) (c : Fin 8) (s : State) : Host.Outcome State Fault Refusal :=
  vecShift b c 0x0E (fun k x n => tc k (sgn k x / (2 ^ n : Nat))) s

/-- v[D] lanes = f of the lanes of v[A]. -/
def vecUn (b : Fin 100) (c : Fin 8) (op : Nat) (f : Nat → Nat → Nat) (s : State) : Host.Outcome State Fault Refusal :=
  laneExec b c 1 op (fun w s =>
    let lw := laneW (iType w)
    vecRetire b c w lw (fun x i => f (iType w) (vLane lw (x.v (iA w)) i)) s) s

/-- VABS (R226). -/
def execVabs (b : Fin 100) (c : Fin 8) (s : State) : Host.Outcome State Fault Refusal :=
  vecUn b c 0x0F (fun t x => let k := laneW t
    if isInt t then intLane k (sgn k x).natAbs else x % 2 ^ (k - 1)) s
/-- VNEG (R226). -/
def execVneg (b : Fin 100) (c : Fin 8) (s : State) : Host.Outcome State Fault Refusal :=
  vecUn b c 0x10 (fun t x => let k := laneW t
    if isInt t then intLane k (-(sgn k x)) else x ^^^ 2 ^ (k - 1)) s

/-- What VCVT makes of destination lane `i`: its source lane converted, or none where the lane is unchanged. -/
def cvtLane (w : W64) (x : Core) (i : Nat) : Option Conv :=
  let sw := laneW (iC w)
  let dw := laneW (iType w)
  let q := iB w
  let n := 512 / max sw dw
  let src := fun (k : Nat) => convTo (iType w) (rndOf (iRnd w)) (laneVal (iC w) (vLane sw (x.v (iA w)) k))
  if dw < sw then (if q * n ≤ i ∧ i < q * n + n then some (src (i - q * n)) else none)
  else some (src (if sw < dw then q * n + i else i))

/-- VCVT (R228): source type C, destination type TYPE, part Q = B. The conversions of active lanes count under R173. -/
def execVcvt (b : Fin 100) (c : Fin 8) (s : State) : Host.Outcome State Fault Refusal :=
  laneExec b c 1 0x11 (fun w s =>
    let dw := laneW (iType w)
    let x := s.core (coreNo b c)
    let cs := ((List.range (512 / dw)).filter (laneOn dw (x.p (iPg w)))).filterMap (cvtLane w x)
    vecRetire b c w dw (fun x i => match cvtLane w x i with
        | some y => y.bits
        | none => vLane dw (x.v (iD w)) i)
      (s.countConv { sat := (cs.filter (·.sat)).length, nanInt := (cs.filter (·.nanInt)).length })) s

/-- VCMP (R227). -/
def execVcmp (b : Fin 100) (c : Fin 8) (s : State) : Host.Outcome State Fault Refusal :=
  laneExec b c 1 0x12 (fun w s =>
    let x := s.core (coreNo b c)
    let t := iType w
    let lw := laneW t
    let p := x.p (iPg w)
    (s.countEv (128 + b.val) 0x41 (activeLanes lw p)).retire b c (fun x =>
      x.setP (iD w) (predLanes lw p (fun i =>
        cmpLane (iC w) t (vLane lw (x.v (iA w)) i) (vLane lw (x.v (iB w)) i))))) s

/-- VBCAST (R226). -/
def execVbcast (b : Fin 100) (c : Fin 8) (s : State) : Host.Outcome State Fault Refusal :=
  laneExec b c 1 0x13 (fun w s => vecRetire b c w (laneW (iType w)) (fun x _ => (x.s (iA w)).toNat) s) s

/-- VEXT (R226): guarded as a scalar instruction (R221). -/
def execVext (b : Fin 100) (c : Fin 8) (s : State) : Host.Outcome State Fault Refusal :=
  coreExec b c 1 0x14 (fun w s =>
    let lw := laneW (iType w)
    (s.countEv (128 + b.val) 0x41 1).retire b c (fun x =>
      x.setS (iD w) (w64 (vLane lw (x.v (iA w)) ((x.s (iB w)).toNat % (512 / lw)))))) s

/-- VINS (R226): lane IMM of v[D]; the lane's guard bit governs it (R221). -/
def execVins (b : Fin 100) (c : Fin 8) (s : State) : Host.Outcome State Fault Refusal :=
  laneExec b c 1 0x15 (fun w s =>
    let lw := vinsW w
    let x := s.core (coreNo b c)
    let on := laneOn lw (x.p (iPg w)) (iImm w)
    (s.countEv (128 + b.val) 0x41 (b2n on)).retire b c (fun x =>
      x.setV (iD w) (ofLanes lw ((List.range (512 / lw)).map (fun i =>
        if on && i == iImm w then (x.s (iA w)).toNat else vLane lw (x.v (iD w)) i))))) s

/-- VPERM (R226). -/
def execVperm (b : Fin 100) (c : Fin 8) (s : State) : Host.Outcome State Fault Refusal :=
  laneExec b c 1 0x16 (fun w s =>
    let lw := laneW (iType w)
    vecRetire b c w lw (fun x i => vLane lw (x.v (iA w)) (vLane lw (x.v (iB w)) i % (512 / lw))) s) s

/-- The sum of lanes rounded once (R167, R227). -/
def sumLanes (t rnd : Nat) (xs : List Nat) : W64 :=
  if isInt t then w64 (tc 64 (xs.foldl (fun a x => a + sgn (laneW t) x) 0))
  else match xs.map (laneVal t) with
    | [] => 0
    | v :: vs => w64 (laneOf t rnd (vs.foldl Val.add v))

/-- VRSUM (R227). -/
def execVrsum (b : Fin 100) (c : Fin 8) (s : State) : Host.Outcome State Fault Refusal :=
  laneExec b c 1 0x17 (fun w s =>
    let t := iType w
    let lw := laneW t
    let p := (s.core (coreNo b c)).p (iPg w)
    (s.countEv (128 + b.val) 0x41 (activeLanes lw p)).retire b c (fun x =>
      x.setS (iD w) (sumLanes t (iRnd w)
        (((List.range (512 / lw)).filter (laneOn lw p)).map (vLane lw (x.v (iA w))))))) s

/-- VMOV (R226). -/
def execVmov (b : Fin 100) (c : Fin 8) (s : State) : Host.Outcome State Fault Refusal :=
  vecUn b c 0x18 (fun _ x => x) s

/-! ### Predicates (R229) -/

/-- p[D] = f p[A] p[B]. -/
def predBin (b : Fin 100) (c : Fin 8) (op : Nat) (f : W64 → W64 → W64) (s : State) :
    Host.Outcome State Fault Refusal :=
  coreExec b c 2 op (fun w s => s.retire b c (fun x => x.setP (iD w) (f (x.p (iA w)) (x.p (iB w))))) s

/-- s[D] = f p[A]. -/
def predToS (b : Fin 100) (c : Fin 8) (op : Nat) (f : W64 → W64) (s : State) : Host.Outcome State Fault Refusal :=
  coreExec b c 2 op (fun w s => s.retire b c (fun x => x.setS (iD w) (f (x.p (iA w))))) s

/-- PAND (R229). -/
def execPand (b : Fin 100) (c : Fin 8) (s : State) : Host.Outcome State Fault Refusal := predBin b c 0x01 (· &&& ·) s
/-- POR (R229). -/
def execPor (b : Fin 100) (c : Fin 8) (s : State) : Host.Outcome State Fault Refusal := predBin b c 0x02 (· ||| ·) s
/-- PXOR (R229). -/
def execPxor (b : Fin 100) (c : Fin 8) (s : State) : Host.Outcome State Fault Refusal := predBin b c 0x03 (· ^^^ ·) s
/-- PANDN (R229). -/
def execPandn (b : Fin 100) (c : Fin 8) (s : State) : Host.Outcome State Fault Refusal :=
  predBin b c 0x04 (fun x y => x &&& ~~~y) s
/-- PNOT (R229). -/
def execPnot (b : Fin 100) (c : Fin 8) (s : State) : Host.Outcome State Fault Refusal :=
  predBin b c 0x05 (fun x _ => ~~~x) s
/-- PFROMS (R229). -/
def execPfroms (b : Fin 100) (c : Fin 8) (s : State) : Host.Outcome State Fault Refusal :=
  coreExec b c 2 0x06 (fun w s => s.retire b c (fun x => x.setP (iD w) (x.s (iA w)))) s
/-- PTOS (R229). -/
def execPtos (b : Fin 100) (c : Fin 8) (s : State) : Host.Outcome State Fault Refusal := predToS b c 0x07 id s
/-- PCNT (R229). -/
def execPcnt (b : Fin 100) (c : Fin 8) (s : State) : Host.Outcome State Fault Refusal :=
  predToS b c 0x08 (fun x => w64 ((List.range 64).filter (fun i => bit x i)).length) s
/-- PFIRST (R229). -/
def execPfirst (b : Fin 100) (c : Fin 8) (s : State) : Host.Outcome State Fault Refusal :=
  predToS b c 0x09 (fun x => w64 (((List.range 64).find? (fun i => bit x i)).getD 64)) s

end Sys2Proof.Machine
end

