-- ==== Sys2Proof/Machine/Dispatch.lean ====
section
/-! DEFINITION. One arm per command: its meaning. -/

namespace Sys2Proof.Machine

def exec (i : Instr) (s : State) : Host.Outcome State Fault Refusal :=
  match i with
  | .powerUp => Sys2Proof.Machine.execPowerUp s
  | .powerOnResetRelease => Sys2Proof.Machine.execPowerOnResetRelease s
  | .powerRemoval => Sys2Proof.Machine.execPowerRemoval s
  | .railFault => Sys2Proof.Machine.execRailFault s
  | .railFaultRecovery => Sys2Proof.Machine.execRailFaultRecovery s
  | .fabRefclkLoss => Sys2Proof.Machine.execFabRefclkLoss s
  | .fabRefclkReturn => Sys2Proof.Machine.execFabRefclkReturn s
  | .cxlRefclkLoss => Sys2Proof.Machine.execCxlRefclkLoss s
  | .registerWrite r off len en v => Sys2Proof.Machine.execRegisterWrite r off len en v s
  | .readClear r off => Sys2Proof.Machine.execReadClear r off s
  | .unassignedOffsetAccess r off wr => Sys2Proof.Machine.execUnassignedOffsetAccess r off wr s
  | .lowWordRead r off => Sys2Proof.Machine.execLowWordRead r off s
  | .highWordRead r off => Sys2Proof.Machine.execHighWordRead r off s
  | .lowWordWrite r off v => Sys2Proof.Machine.execLowWordWrite r off v s
  | .highWordWrite r off v => Sys2Proof.Machine.execHighWordWrite r off v s
  | .heldLowWordExpiry r => Sys2Proof.Machine.execHeldLowWordExpiry r s
  | .lockWrite r l v => Sys2Proof.Machine.execLockWrite r l v s
  | .ownCoordWrite r v => Sys2Proof.Machine.execOwnCoordWrite r v s
  | .headerComplete lp h => Sys2Proof.Machine.execHeaderComplete lp h s
  | .packetEnd lp body => Sys2Proof.Machine.execPacketEnd lp body s
  | .vc5MsgTimeout b src chan k => Sys2Proof.Machine.execVc5MsgTimeout b src chan k s
  | .cellArrival lp x => Sys2Proof.Machine.execCellArrival lp x s
  | .reasmTimeout src vc unit => Sys2Proof.Machine.execReasmTimeout src vc unit s
  | .egressSelect lp obs => Sys2Proof.Machine.execEgressSelect lp obs s
  | .staleDrop lp vc => Sys2Proof.Machine.execStaleDrop lp vc s
  | .ctAbort lp got => Sys2Proof.Machine.execCtAbort lp got s
  | .bufferAudit bad => Sys2Proof.Machine.execBufferAudit bad s
  | .internalWriterResume => Sys2Proof.Machine.execInternalWriterResume s
  | .creditLimitWrite r lp term vc v => Sys2Proof.Machine.execCreditLimitWrite r lp term vc v s
  | .swapArm r => Sys2Proof.Machine.execSwapArm r s
  | .swapCancel r => Sys2Proof.Machine.execSwapCancel r s
  | .swapCopy r => Sys2Proof.Machine.execSwapCopy r s
  | .copyComplete => Sys2Proof.Machine.execCopyComplete s
  | .tableBankSwap => Sys2Proof.Machine.execTableBankSwap s
  | .tableCommit r v => Sys2Proof.Machine.execTableCommit r v s
  | .tableSweep bad ce => Sys2Proof.Machine.execTableSweep bad ce s
  | .rejoinHoldEnd lp => Sys2Proof.Machine.execRejoinHoldEnd lp s
  | .contribArrival obs => Sys2Proof.Machine.execContribArrival obs s
  | .openArrival => Sys2Proof.Machine.execOpenArrival s
  | .countArrival => Sys2Proof.Machine.execCountArrival s
  | .partialArrival obs => Sys2Proof.Machine.execPartialArrival obs s
  | .upperResultArrival => Sys2Proof.Machine.execUpperResultArrival s
  | .upperStatusArrival => Sys2Proof.Machine.execUpperStatusArrival s
  | .adderTake b obs => Sys2Proof.Machine.execAdderTake b obs s
  | .resultWriteComplete k chunk => Sys2Proof.Machine.execResultWriteComplete k chunk s
  | .instanceTimeout k => Sys2Proof.Machine.execInstanceTimeout k s
  | .tombHoldExpiry k => Sys2Proof.Machine.execTombHoldExpiry k s
  | .twinHoldExpiry k chunk => Sys2Proof.Machine.execTwinHoldExpiry k chunk s
  | .collEnWrite r v => Sys2Proof.Machine.execCollEnWrite r v s
  | .spillBaseWrite r v => Sys2Proof.Machine.execSpillBaseWrite r v s
  | .dmaDescriptorExecute b => Sys2Proof.Machine.execDmaDescriptorExecute b s
  | .dmaComplete b c => Sys2Proof.Machine.execDmaComplete b c s
  | .itemStart b c => Sys2Proof.Machine.execItemStart b c s
  | .steal id thief => Sys2Proof.Machine.execSteal id thief s
  | .wardenRestart => Sys2Proof.Machine.execWardenRestart s
  | .benchSleep b demand => Sys2Proof.Machine.execBenchSleep b demand s
  | .benchWakeComplete b => Sys2Proof.Machine.execBenchWakeComplete b s
  | .clockRampComplete b => Sys2Proof.Machine.execClockRampComplete b s
  | .blockWakeComplete blk => Sys2Proof.Machine.execBlockWakeComplete blk s
  | .holdAwakeWrite r b v => Sys2Proof.Machine.execHoldAwakeWrite r b v s
  | .instructionIllegal b c => Sys2Proof.Machine.execInstructionIllegal b c s
  | .fetchBeyondLoadLimit b c => Sys2Proof.Machine.execFetchBeyondLoadLimit b c s
  | .add b c => Sys2Proof.Machine.execAdd b c s
  | .sub b c => Sys2Proof.Machine.execSub b c s
  | .and b c => Sys2Proof.Machine.execAnd b c s
  | .or b c => Sys2Proof.Machine.execOr b c s
  | .xor b c => Sys2Proof.Machine.execXor b c s
  | .shl b c => Sys2Proof.Machine.execShl b c s
  | .shr b c => Sys2Proof.Machine.execShr b c s
  | .sra b c => Sys2Proof.Machine.execSra b c s
  | .slt b c => Sys2Proof.Machine.execSlt b c s
  | .sltu b c => Sys2Proof.Machine.execSltu b c s
  | .seq b c => Sys2Proof.Machine.execSeq b c s
  | .min b c => Sys2Proof.Machine.execMin b c s
  | .max b c => Sys2Proof.Machine.execMax b c s
  | .minu b c => Sys2Proof.Machine.execMinu b c s
  | .maxu b c => Sys2Proof.Machine.execMaxu b c s
  | .mul b c => Sys2Proof.Machine.execMul b c s
  | .mulhs b c => Sys2Proof.Machine.execMulhs b c s
  | .mulhu b c => Sys2Proof.Machine.execMulhu b c s
  | .div b c => Sys2Proof.Machine.execDiv b c s
  | .divu b c => Sys2Proof.Machine.execDivu b c s
  | .rem b c => Sys2Proof.Machine.execRem b c s
  | .remu b c => Sys2Proof.Machine.execRemu b c s
  | .popc b c => Sys2Proof.Machine.execPopc b c s
  | .clz b c => Sys2Proof.Machine.execClz b c s
  | .ctz b c => Sys2Proof.Machine.execCtz b c s
  | .addi b c => Sys2Proof.Machine.execAddi b c s
  | .andi b c => Sys2Proof.Machine.execAndi b c s
  | .ori b c => Sys2Proof.Machine.execOri b c s
  | .xori b c => Sys2Proof.Machine.execXori b c s
  | .shli b c => Sys2Proof.Machine.execShli b c s
  | .shri b c => Sys2Proof.Machine.execShri b c s
  | .srai b c => Sys2Proof.Machine.execSrai b c s
  | .slti b c => Sys2Proof.Machine.execSlti b c s
  | .li b c => Sys2Proof.Machine.execLi b c s
  | .lih b c => Sys2Proof.Machine.execLih b c s
  | .vadd b c => Sys2Proof.Machine.execVadd b c s
  | .vsub b c => Sys2Proof.Machine.execVsub b c s
  | .vmul b c => Sys2Proof.Machine.execVmul b c s
  | .vfma b c => Sys2Proof.Machine.execVfma b c s
  | .vmin b c => Sys2Proof.Machine.execVmin b c s
  | .vmax b c => Sys2Proof.Machine.execVmax b c s
  | .vadds b c => Sys2Proof.Machine.execVadds b c s
  | .vsubs b c => Sys2Proof.Machine.execVsubs b c s
  | .vand b c => Sys2Proof.Machine.execVand b c s
  | .vor b c => Sys2Proof.Machine.execVor b c s
  | .vxor b c => Sys2Proof.Machine.execVxor b c s
  | .vshl b c => Sys2Proof.Machine.execVshl b c s
  | .vshr b c => Sys2Proof.Machine.execVshr b c s
  | .vsra b c => Sys2Proof.Machine.execVsra b c s
  | .vabs b c => Sys2Proof.Machine.execVabs b c s
  | .vneg b c => Sys2Proof.Machine.execVneg b c s
  | .vcvt b c => Sys2Proof.Machine.execVcvt b c s
  | .vcmp b c => Sys2Proof.Machine.execVcmp b c s
  | .vbcast b c => Sys2Proof.Machine.execVbcast b c s
  | .vext b c => Sys2Proof.Machine.execVext b c s
  | .vins b c => Sys2Proof.Machine.execVins b c s
  | .vperm b c => Sys2Proof.Machine.execVperm b c s
  | .vrsum b c => Sys2Proof.Machine.execVrsum b c s
  | .vmov b c => Sys2Proof.Machine.execVmov b c s
  | .pand b c => Sys2Proof.Machine.execPand b c s
  | .por b c => Sys2Proof.Machine.execPor b c s
  | .pxor b c => Sys2Proof.Machine.execPxor b c s
  | .pandn b c => Sys2Proof.Machine.execPandn b c s
  | .pnot b c => Sys2Proof.Machine.execPnot b c s
  | .pfroms b c => Sys2Proof.Machine.execPfroms b c s
  | .ptos b c => Sys2Proof.Machine.execPtos b c s
  | .pcnt b c => Sys2Proof.Machine.execPcnt b c s
  | .pfirst b c => Sys2Proof.Machine.execPfirst b c s
  | .ld b c => Sys2Proof.Machine.execLd b c s
  | .lds b c => Sys2Proof.Machine.execLds b c s
  | .st b c => Sys2Proof.Machine.execSt b c s
  | .vld b c => Sys2Proof.Machine.execVld b c s
  | .vst b c => Sys2Proof.Machine.execVst b c s
  | .aadd b c => Sys2Proof.Machine.execAadd b c s
  | .aaddf b c => Sys2Proof.Machine.execAaddf b c s
  | .acas b c => Sys2Proof.Machine.execAcas b c s
  | .fence b c => Sys2Proof.Machine.execFence b c s
  | .fenceComplete b c => Sys2Proof.Machine.execFenceComplete b c s
  | .dmaq b c => Sys2Proof.Machine.execDmaq b c s
  | .poolAccessReturn b c k obs => Sys2Proof.Machine.execPoolAccessReturn b c k obs s
  | .coreStallRelease b c => Sys2Proof.Machine.execCoreStallRelease b c s
  | .nop b c => Sys2Proof.Machine.execNop b c s
  | .jmp b c => Sys2Proof.Machine.execJmp b c s
  | .jal b c => Sys2Proof.Machine.execJal b c s
  | .jr b c => Sys2Proof.Machine.execJr b c s
  | .beqz b c => Sys2Proof.Machine.execBeqz b c s
  | .bnez b c => Sys2Proof.Machine.execBnez b c s
  | .endProg b c => Sys2Proof.Machine.execEndProg b c s
  | .post b c => Sys2Proof.Machine.execPost b c s
  | .tinc b c => Sys2Proof.Machine.execTinc b c s
  | .tset b c => Sys2Proof.Machine.execTset b c s
  | .trd b c => Sys2Proof.Machine.execTrd b c s
  | .twait b c => Sys2Proof.Machine.execTwait b c s
  | .twaitReached b c => Sys2Proof.Machine.execTwaitReached b c s
  | .twaitTimeout b c => Sys2Proof.Machine.execTwaitTimeout b c s
  | .rdsr b c => Sys2Proof.Machine.execRdsr b c s
  | .ctrrd b c => Sys2Proof.Machine.execCtrrd b c s
  | .rdreg b c => Sys2Proof.Machine.execRdreg b c s
  | .wrreg b c => Sys2Proof.Machine.execWrreg b c s
  | .send b c => Sys2Proof.Machine.execSend b c s
  | .sendQueueRoom b c => Sys2Proof.Machine.execSendQueueRoom b c s
  | .sendqDepart b => Sys2Proof.Machine.execSendqDepart b s
  | .recv b c => Sys2Proof.Machine.execRecv b c s
  | .recvh b c => Sys2Proof.Machine.execRecvh b c s
  | .recvDeliver b c => Sys2Proof.Machine.execRecvDeliver b c s
  | .recvTimeout b c => Sys2Proof.Machine.execRecvTimeout b c s
  | .drop b c => Sys2Proof.Machine.execDrop b c s
  | .contrib b c => Sys2Proof.Machine.execContrib b c s
  | .dqcontrib b c => Sys2Proof.Machine.execDqcontrib b c s
  | .scontrib b c => Sys2Proof.Machine.execScontrib b c s
  | .copen b c => Sys2Proof.Machine.execCopen b c s
  | .contribIssueResume b c => Sys2Proof.Machine.execContribIssueResume b c s
  | .ctake b c => Sys2Proof.Machine.execCtake b c s
  | .ctakeDeliver b c => Sys2Proof.Machine.execCtakeDeliver b c s
  | .ctakeTimeout b c => Sys2Proof.Machine.execCtakeTimeout b c s
  | .finalChunk b c => Sys2Proof.Machine.execFinalChunk b c s
  | .dispatch b c => Sys2Proof.Machine.execDispatch b c s
  | .cinfo b c => Sys2Proof.Machine.execCinfo b c s
  | .contextCreate r id => Sys2Proof.Machine.execContextCreate r id s
  | .contextCreateComplete => Sys2Proof.Machine.execContextCreateComplete s
  | .teardown r id => Sys2Proof.Machine.execTeardown r id s
  | .teardownComplete id => Sys2Proof.Machine.execTeardownComplete id s
  | .restingExpiry id => Sys2Proof.Machine.execRestingExpiry id s
  | .seqEnWrite r v => Sys2Proof.Machine.execSeqEnWrite r v s
  | .ltBaseWrite r v => Sys2Proof.Machine.execLtBaseWrite r v s
  | .ltSweep => Sys2Proof.Machine.execLtSweep s
  | .launchWake idx => Sys2Proof.Machine.execLaunchWake idx s
  | .imageLoadComplete idx => Sys2Proof.Machine.execImageLoadComplete idx s
  | .launchTake => Sys2Proof.Machine.execLaunchTake s
  | .launchStart => Sys2Proof.Machine.execLaunchStart s
  | .ftimeSet r v => Sys2Proof.Machine.execFtimeSet r v s
  | .timeRequestSend => Sys2Proof.Machine.execTimeRequestSend s
  | .timeRequestArrival => Sys2Proof.Machine.execTimeRequestArrival s
  | .timeResponseArrival => Sys2Proof.Machine.execTimeResponseArrival s
  | .timeRequestTimeout => Sys2Proof.Machine.execTimeRequestTimeout s
  | .ftimeCompare => Sys2Proof.Machine.execFtimeCompare s
  | .windowWrite r v => Sys2Proof.Machine.execWindowWrite r v s
  | .poolRead => Sys2Proof.Machine.execPoolRead s
  | .poolWrite => Sys2Proof.Machine.execPoolWrite s
  | .poolAadd64 => Sys2Proof.Machine.execPoolAadd64 s
  | .poolAaddf32 => Sys2Proof.Machine.execPoolAaddf32 s
  | .poolCas64 => Sys2Proof.Machine.execPoolCas64 s
  | .poolMcread => Sys2Proof.Machine.execPoolMcread s
  | .poolAccessPerformed k obs => Sys2Proof.Machine.execPoolAccessPerformed k obs s
  | .cacheFillComplete id w blk obs => Sys2Proof.Machine.execCacheFillComplete id w blk obs s
  | .prefetchFillComplete id w blk obs => Sys2Proof.Machine.execPrefetchFillComplete id w blk obs s
  | .cacheWritebackComplete id w => Sys2Proof.Machine.execCacheWritebackComplete id w s
  | .patrolScrub m obs => Sys2Proof.Machine.execPatrolScrub m obs s
  | .selfRefreshEntry m => Sys2Proof.Machine.execSelfRefreshEntry m s
  | .selfRefreshScrubWake m => Sys2Proof.Machine.execSelfRefreshScrubWake m s
  | .hostMemRead addr len obs => Sys2Proof.Machine.execHostMemRead addr len obs s
  | .hostMemWrite addr data => Sys2Proof.Machine.execHostMemWrite addr data s
  | .hostMemSpecRead addr => Sys2Proof.Machine.execHostMemSpecRead addr s
  | .hostPcieAtomic cas addr x y => Sys2Proof.Machine.execHostPcieAtomic cas addr x y s
  | .gpfFlush => Sys2Proof.Machine.execGpfFlush s
  | .rplRecordStart r id outEn => Sys2Proof.Machine.execRplRecordStart r id outEn s
  | .rplReplayStart r id outEn => Sys2Proof.Machine.execRplReplayStart r id outEn s
  | .rplStop r id outEn => Sys2Proof.Machine.execRplStop r id outEn s
  | .recqStallRelease => Sys2Proof.Machine.execRecqStallRelease s
  | .replayLaunchStart id => Sys2Proof.Machine.execReplayLaunchStart id s
  | .laneFrameReceived n w2 bits => Sys2Proof.Machine.execLaneFrameReceived n w2 bits s
  | .commaLoss n w2 => Sys2Proof.Machine.execCommaLoss n w2 s
  | .laneFrameTransmit n => Sys2Proof.Machine.execLaneFrameTransmit n s
  | .linkBlockReceived n => Sys2Proof.Machine.execLinkBlockReceived n s
  | .credit lp ws => Sys2Proof.Machine.execCredit lp ws s
  | .ack lp w => Sys2Proof.Machine.execAck lp w s
  | .nak lp w => Sys2Proof.Machine.execNak lp w s
  | .sleep lp w => Sys2Proof.Machine.execSleep lp w s
  | .spareSwap lp w => Sys2Proof.Machine.execSpareSwap lp w s
  | .swapEcho lp w => Sys2Proof.Machine.execSwapEcho lp w s
  | .linkUp lp ws => Sys2Proof.Machine.execLinkUp lp ws s
  | .ackSend lp => Sys2Proof.Machine.execAckSend lp s
  | .creditSend lp => Sys2Proof.Machine.execCreditSend lp s
  | .replayTimeout lp => Sys2Proof.Machine.execReplayTimeout lp s
  | .portAdminUp r lp v => Sys2Proof.Machine.execPortAdminUp r lp v s
  | .portAdminDown r lp v => Sys2Proof.Machine.execPortAdminDown r lp v s
  | .noLight t => Sys2Proof.Machine.execNoLight t s
  | .trainingRecordReceived n rec freq => Sys2Proof.Machine.execTrainingRecordReceived n rec freq s
  | .nativeModeSwitch t skewUi => Sys2Proof.Machine.execNativeModeSwitch t skewUi s
  | .txEqComplete n w2 eyes => Sys2Proof.Machine.execTxEqComplete n w2 eyes s
  | .trainTimeout t => Sys2Proof.Machine.execTrainTimeout t s
  | .fastRetrain r lp => Sys2Proof.Machine.execFastRetrain r lp s
  | .fastRetrainComplete lp ok => Sys2Proof.Machine.execFastRetrainComplete lp ok s
  | .portCmdSpareSwap r lp pos => Sys2Proof.Machine.execPortCmdSpareSwap r lp pos s
  | .portCmdSpareBack r lp pos => Sys2Proof.Machine.execPortCmdSpareBack r lp pos s
  | .spareUeThreshold n => Sys2Proof.Machine.execSpareUeThreshold n s
  | .spareSwapComplete lp => Sys2Proof.Machine.execSpareSwapComplete lp s
  | .portCfgWrite r p v => Sys2Proof.Machine.execPortCfgWrite r p v s
  | .eyeScanStart r n v => Sys2Proof.Machine.execEyeScanStart r n v s
  | .eyeScanDone n errs => Sys2Proof.Machine.execEyeScanDone n errs s
  | .prbsCtrlWrite r n v => Sys2Proof.Machine.execPrbsCtrlWrite r n v s
  | .injCtrlWrite r n v => Sys2Proof.Machine.execInjCtrlWrite r n v s
  | .txDozeEntry lp demand => Sys2Proof.Machine.execTxDozeEntry lp demand s
  | .txNapEntry lp demand => Sys2Proof.Machine.execTxNapEntry lp demand s
  | .txSleepForceWrite r lp v => Sys2Proof.Machine.execTxSleepForceWrite r lp v s
  | .txWake lp => Sys2Proof.Machine.execTxWake lp s
  | .hostLinkTrained cxl width speed => Sys2Proof.Machine.execHostLinkTrained cxl width speed s
  | .hostLinkDown => Sys2Proof.Machine.execHostLinkDown s
  | .perstNAssert hot => Sys2Proof.Machine.execPerstNAssert hot s
  | .functionLevelReset => Sys2Proof.Machine.execFunctionLevelReset s
  | .hdmDecoderCommit k d => Sys2Proof.Machine.execHdmDecoderCommit k d s
  | .getEventRecords inp => Sys2Proof.Machine.execGetEventRecords inp s
  | .clearEventRecords inp => Sys2Proof.Machine.execClearEventRecords inp s
  | .getEventInterruptPolicy inp => Sys2Proof.Machine.execGetEventInterruptPolicy inp s
  | .setEventInterruptPolicy inp => Sys2Proof.Machine.execSetEventInterruptPolicy inp s
  | .getFwInfo inp => Sys2Proof.Machine.execGetFwInfo inp s
  | .transferFw inp => Sys2Proof.Machine.execTransferFw inp s
  | .transferFwComplete => Sys2Proof.Machine.execTransferFwComplete s
  | .activateFw inp => Sys2Proof.Machine.execActivateFw inp s
  | .getTimestamp inp => Sys2Proof.Machine.execGetTimestamp inp s
  | .setTimestamp inp => Sys2Proof.Machine.execSetTimestamp inp s
  | .getSupportedLogs inp => Sys2Proof.Machine.execGetSupportedLogs inp s
  | .getLog inp => Sys2Proof.Machine.execGetLog inp s
  | .identifyMemoryDevice inp => Sys2Proof.Machine.execIdentifyMemoryDevice inp s
  | .getHealthInfo inp => Sys2Proof.Machine.execGetHealthInfo inp s
  | .getPoisonList inp => Sys2Proof.Machine.execGetPoisonList inp s
  | .injectPoison inp => Sys2Proof.Machine.execInjectPoison inp s
  | .clearPoison inp => Sys2Proof.Machine.execClearPoison inp s
  | .mboxUnsupported op inp => Sys2Proof.Machine.execMboxUnsupported op inp s
  | .getDeviceInfo inp => Sys2Proof.Machine.execGetDeviceInfo inp s
  | .getFaultLog inp => Sys2Proof.Machine.execGetFaultLog inp s
  | .getDumpInfo inp => Sys2Proof.Machine.execGetDumpInfo inp s
  | .setPowerCap inp => Sys2Proof.Machine.execSetPowerCap inp s
  | .getPowerStatus inp => Sys2Proof.Machine.execGetPowerStatus inp s
  | .lehrTrigger inp => Sys2Proof.Machine.execLehrTrigger inp s
  | .spdmMessage inp => Sys2Proof.Machine.execSpdmMessage inp s
  | .getLinkSummary inp => Sys2Proof.Machine.execGetLinkSummary inp s
  | .clearOutOfService inp => Sys2Proof.Machine.execClearOutOfService inp s
  | .smbusFallback => Sys2Proof.Machine.execSmbusFallback s
  | .mctpMessage t eid msgType body => Sys2Proof.Machine.execMctpMessage t eid msgType body s
  | .pldmSensorRead sensor => Sys2Proof.Machine.execPldmSensorRead sensor s
  | .pldmSetPowerCap w => Sys2Proof.Machine.execPldmSetPowerCap w s
  | .pldmFirmwareUpdate img step => Sys2Proof.Machine.execPldmFirmwareUpdate img step s
  | .pldmSelectBootImage img => Sys2Proof.Machine.execPldmSelectBootImage img s
  | .pldmClearOutOfService => Sys2Proof.Machine.execPldmClearOutOfService s
  | .pldmLehrTrigger => Sys2Proof.Machine.execPldmLehrTrigger s
  | .leakClear => Sys2Proof.Machine.execLeakClear s
  | .spiHoldOffAssert => Sys2Proof.Machine.execSpiHoldOffAssert s
  | .spiHoldOffRelease => Sys2Proof.Machine.execSpiHoldOffRelease s
  | .computeReset src => Sys2Proof.Machine.execComputeReset src s
  | .fullDeviceRecovery src => Sys2Proof.Machine.execFullDeviceRecovery src s
  | .benchHangCheck b => Sys2Proof.Machine.execBenchHangCheck b s
  | .portHangCheck lp => Sys2Proof.Machine.execPortHangCheck lp s
  | .memHangCheck m => Sys2Proof.Machine.execMemHangCheck m s
  | .stewardWatchdogExpiry => Sys2Proof.Machine.execStewardWatchdogExpiry s
  | .stewardRestartComplete => Sys2Proof.Machine.execStewardRestartComplete s
  | .resultSlotPoisonEnd k => Sys2Proof.Machine.execResultSlotPoisonEnd k s
  | .powerControlInterval watts est => Sys2Proof.Machine.execPowerControlInterval watts est s
  | .capWindowEnd avgW => Sys2Proof.Machine.execCapWindowEnd avgW s
  | .pwrCapNRecognised => Sys2Proof.Machine.execPwrCapNRecognised s
  | .capFloorEnd => Sys2Proof.Machine.execCapFloorEnd s
  | .shelfAlertNAssert => Sys2Proof.Machine.execShelfAlertNAssert s
  | .shelfCapRelease => Sys2Proof.Machine.execShelfCapRelease s
  | .flowPulseEdge => Sys2Proof.Machine.execFlowPulseEdge s
  | .flowLoss => Sys2Proof.Machine.execFlowLoss s
  | .leakSenseEdge rising => Sys2Proof.Machine.execLeakSenseEdge rising s
  | .leakWet => Sys2Proof.Machine.execLeakWet s
  | .leakSensorFailed => Sys2Proof.Machine.execLeakSensorFailed s
  | .thermalSample temps => Sys2Proof.Machine.execThermalSample temps s
  | .thermalTrip => Sys2Proof.Machine.execThermalTrip s
  | .governorUpdate => Sys2Proof.Machine.execGovernorUpdate s
  | .stewardStageWrite k value claim => Sys2Proof.Machine.execStewardStageWrite k value claim s
  | .stewardClaimExpiry k => Sys2Proof.Machine.execStewardClaimExpiry k s
  | .timingMarginWarning d => Sys2Proof.Machine.execTimingMarginWarning d s
  | .fmaxCtrlWrite r v => Sys2Proof.Machine.execFmaxCtrlWrite r v s
  | .lehrIntervalExpiry => Sys2Proof.Machine.execLehrIntervalExpiry s
  | .lehrStart r v => Sys2Proof.Machine.execLehrStart r v s
  | .lehrStepComplete m => Sys2Proof.Machine.execLehrStepComplete m s
  | .memoryRetrainWindow m => Sys2Proof.Machine.execMemoryRetrainWindow m s
  | .flashHeaderReadComplete obs => Sys2Proof.Machine.execFlashHeaderReadComplete obs s
  | .flashBodyReadComplete obs => Sys2Proof.Machine.execFlashBodyReadComplete obs s
  | .hostReady => Sys2Proof.Machine.execHostReady s
  | .memoryTrainingComplete => Sys2Proof.Machine.execMemoryTrainingComplete s
  | .bootReady => Sys2Proof.Machine.execBootReady s
  | .debugChallengeRead => Sys2Proof.Machine.execDebugChallengeRead s
  | .debugTokenWrite token => Sys2Proof.Machine.execDebugTokenWrite token s
  | .getVersion t req => Sys2Proof.Machine.execGetVersion t req s
  | .getCapabilities t req => Sys2Proof.Machine.execGetCapabilities t req s
  | .negotiateAlgorithms t req => Sys2Proof.Machine.execNegotiateAlgorithms t req s
  | .getDigests t req => Sys2Proof.Machine.execGetDigests t req s
  | .getCertificate t req => Sys2Proof.Machine.execGetCertificate t req s
  | .challenge t req => Sys2Proof.Machine.execChallenge t req s
  | .getMeasurements t req => Sys2Proof.Machine.execGetMeasurements t req s
  | .chunkSend t req => Sys2Proof.Machine.execChunkSend t req s
  | .chunkGet t req => Sys2Proof.Machine.execChunkGet t req s
  | .spdmUnsupported t req => Sys2Proof.Machine.execSpdmUnsupported t req s
  | .signatureComplete t => Sys2Proof.Machine.execSignatureComplete t s
  | .evselWrite r blk k v => Sys2Proof.Machine.execEvselWrite r blk k v s
  | .cntWrite r blk k v => Sys2Proof.Machine.execCntWrite r blk k v s
  | .bwCtrlWrite r p v => Sys2Proof.Machine.execBwCtrlWrite r p v s
  | .bwWindowEnd p => Sys2Proof.Machine.execBwWindowEnd p s
  | .computeResetComplete => Sys2Proof.Machine.execComputeResetComplete s
  | .fullDeviceRecoveryComplete => Sys2Proof.Machine.execFullDeviceRecoveryComplete s
  | .controlStateSweep cls idx => Sys2Proof.Machine.execControlStateSweep cls idx s
  | .cruciblePatrolScrub b line obs => Sys2Proof.Machine.execCruciblePatrolScrub b line obs s
  | .stewardMemoryUe => Sys2Proof.Machine.execStewardMemoryUe s
  | .sensorSupervisionArm => Sys2Proof.Machine.execSensorSupervisionArm s
  | .perstNDeassert => Sys2Proof.Machine.execPerstNDeassert s
  | .spareCfgWrite r n v => Sys2Proof.Machine.execSpareCfgWrite r n v s
  | .prbsCheckerLock n w2 bits => Sys2Proof.Machine.execPrbsCheckerLock n w2 bits s
  | .flashHoldTimeout => Sys2Proof.Machine.execFlashHoldTimeout s

end Sys2Proof.Machine
end

