-- ==== Sys2Proof/WellFormed.lean ====
section
/-! DEFINITION. Well-formed commands: what a command's data must be for it to be an event of the
hardware at all. A value that the hardware checks itself (a bad field, a wrong length of a packet or
of a mailbox input) is well formed: its meaning says what the check does. -/

namespace Sys2Proof

/-- A 32-bit word of BAR0, which is 64 MiB (R5, R6). -/
def wfOffset (off : Nat) : Bool := decide (off < 0x4000000) && off % 4 == 0

/-- An access of `len` bytes at `off` of BAR0, of the host's other registers (R384-R386) or of what the debug port
reaches beside BAR0 (R479, R481); an unaligned one is handled by its size (R493). -/
def wfAccess (r : Requester) (off len : Nat) : Bool :=
  decide (1 ≤ len) && match r with
    | .host => decide (off < 0x5000000)
    | .debug => true
    | _ => decide (off < 0x4000000)

/-- A wavelength frame is 32,768 line bits (R344). -/
def wfFrame (bits : List Bool) : Bool := bits.length == 32768

/-- A mailbox input fits the 4 KiB payload (R392). -/
def wfInput (inp : List Byte) : Bool := decide (inp.length ≤ 4096)

/-- A Lehr measurement covers voltage domains 0 to 100, lanes 0 to 527 and controllers 0 to 27; a refresh multiplier is
1 to 4 (R458, R459). -/
def wfLehr (m : LehrMeasure) : Bool :=
  decide (m.guardTarget.length ≤ 101) && m.eyeFallen.all (· < 528) && m.berBad.all (· < 528) &&
  decide (m.refresh.length ≤ 28) &&
  m.refresh.all (fun r => decide (1 ≤ r ∧ r ≤ 4)) && m.marginFallen.all (· < 28)

/-- The command is well formed. -/
def Instr.wellFormed : Instr → Bool
  | .powerUp | .powerOnResetRelease | .powerRemoval | .railFault | .railFaultRecovery | .fabRefclkLoss
  | .fabRefclkReturn | .cxlRefclkLoss => true
  | .registerWrite r off len _ _ => wfAccess r off len
  | .readClear r a => wfAccess r a.off a.len
  | .unassignedOffsetAccess _ off _ => wfOffset off
  | .lowWordRead _ off => wfOffset off && off % 8 == 0
  | .highWordRead _ off => wfOffset off && off % 8 == 4
  | .lowWordWrite _ off _ => wfOffset off && off % 8 == 0
  | .highWordWrite _ off _ => wfOffset off && off % 8 == 4
  | .heldLowWordExpiry _ | .lockWrite _ _ _ | .ownCoordWrite _ _ | .headerComplete _ _ | .packetEnd _ _
  | .vc5MsgTimeout _ _ _ _ => true
  | .cellArrival _ x => x.item.payload.length == 52
  | .reasmTimeout _ _ _ | .egressSelect _ _ | .staleDrop _ _ => true
  | .ctAbort _ _ => true
  | .bufferAudit _ | .internalWriterResume | .creditLimitWrite _ _ _ _ _ | .swapArm _ | .swapCancel _ | .swapCopy _
  | .copyComplete | .tableBankSwap | .tableCommit _ _ | .tableSweep _ _ | .rejoinHoldEnd _ | .contribArrival _
  | .openArrival | .countArrival | .partialArrival _ | .upperResultArrival | .upperStatusArrival | .adderTake _ _
  | .resultWriteComplete _ _ | .instanceTimeout _ | .tombHoldExpiry _ | .twinHoldExpiry _ _ | .collEnWrite _ _
  | .spillBaseWrite _ _ | .dmaDescriptorExecute _ | .dmaComplete _ _ | .itemStart _ _ | .steal _ _ | .wardenRestart
  | .benchSleep _ _ | .benchWakeComplete _ | .clockRampComplete _ | .blockWakeComplete _ | .holdAwakeWrite _ _ _
  | .instructionIllegal _ _ | .fetchBeyondLoadLimit _ _ | .add _ _ | .sub _ _ | .and _ _ | .or _ _ | .xor _ _
  | .shl _ _ | .shr _ _ | .sra _ _ | .slt _ _ | .sltu _ _ | .seq _ _ | .min _ _ | .max _ _ | .minu _ _ | .maxu _ _
  | .mul _ _ | .mulhs _ _ | .mulhu _ _ | .div _ _ | .divu _ _ | .rem _ _ | .remu _ _ | .popc _ _ | .clz _ _
  | .ctz _ _ | .addi _ _ | .andi _ _ | .ori _ _ | .xori _ _ | .shli _ _ | .shri _ _ | .srai _ _ | .slti _ _ | .li _ _
  | .lih _ _ | .vadd _ _ | .vsub _ _ | .vmul _ _ | .vfma _ _ | .vmin _ _ | .vmax _ _ | .vadds _ _ | .vsubs _ _
  | .vand _ _ | .vor _ _ | .vxor _ _ | .vshl _ _ | .vshr _ _ | .vsra _ _ | .vabs _ _ | .vneg _ _ | .vcvt _ _
  | .vcmp _ _ | .vbcast _ _ | .vext _ _ | .vins _ _ | .vperm _ _ | .vrsum _ _ | .vmov _ _ | .pand _ _ | .por _ _
  | .pxor _ _ | .pandn _ _ | .pnot _ _ | .pfroms _ _ | .ptos _ _ | .pcnt _ _ | .pfirst _ _ | .ld _ _ | .lds _ _
  | .st _ _ | .vld _ _ | .vst _ _ | .aadd _ _ | .aaddf _ _ | .acas _ _ | .fence _ _ | .fenceComplete _ _ | .dmaq _ _
  | .poolAccessReturn _ _ _ _ | .coreStallRelease _ _ | .nop _ _ | .jmp _ _ | .jal _ _ | .jr _ _ | .beqz _ _
  | .bnez _ _ | .endProg _ _ | .post _ _ | .tinc _ _ | .tset _ _ | .trd _ _ | .twait _ _ | .twaitReached _ _
  | .twaitTimeout _ _ | .rdsr _ _ | .ctrrd _ _ | .rdreg _ _ | .wrreg _ _ | .send _ _ | .sendQueueRoom _ _
  | .sendqDepart _ | .recv _ _ | .recvh _ _ | .recvDeliver _ _ | .recvTimeout _ _ | .drop _ _ | .contrib _ _
  | .dqcontrib _ _ | .scontrib _ _ | .copen _ _ | .contribIssueResume _ _ | .ctake _ _ | .ctakeDeliver _ _
  | .ctakeTimeout _ _ | .finalChunk _ _ | .dispatch _ _ | .cinfo _ _ | .contextCreate _ _ | .contextCreateComplete
  | .teardown _ _ | .teardownComplete _ | .restingExpiry _ | .seqEnWrite _ _ | .ltBaseWrite _ _ | .ltSweep
  | .launchWake _ | .imageLoadComplete _ | .launchTake | .launchStart | .ftimeSet _ _ | .timeRequestSend
  | .timeRequestArrival | .timeResponseArrival | .timeRequestTimeout | .ftimeCompare | .windowWrite _ _ | .poolRead
  | .poolWrite | .poolAadd64 | .poolAaddf32 | .poolCas64 | .poolMcread | .poolAccessPerformed _ _
  | .cacheFillComplete _ _ _ _ | .prefetchFillComplete _ _ _ _ | .cacheWritebackComplete _ _ | .patrolScrub _ _
  | .selfRefreshEntry _ | .selfRefreshScrubWake _ => true
  | .hostMemRead _ len _ => decide (1 ≤ len)
  | .hostMemWrite _ data => !data.isEmpty
  | .hostMemSpecRead _ | .hostPcieAtomic _ _ _ _ | .gpfFlush | .rplRecordStart _ _ _ | .rplReplayStart _ _ _
  | .rplStop _ _ _ | .recqStallRelease | .replayLaunchStart _ => true
  | .laneFrameReceived _ _ bits => wfFrame bits
  | .commaLoss _ _ | .laneFrameTransmit _ | .linkBlockReceived _ | .credit _ _ | .ack _ _ | .nak _ _ | .sleep _ _
  | .spareSwap _ _ | .swapEcho _ _ | .linkUp _ _ | .ackSend _ | .creditSend _ | .replayTimeout _ | .portAdminUp _ _ _
  | .portAdminDown _ _ _ | .noLight _ => true
  | .trainingRecordReceived _ rec _ => rec.length == 64
  | .nativeModeSwitch _ _ => true
  | .txEqComplete _ _ eyes => !eyes.isEmpty
  | .trainTimeout _ | .fastRetrain _ _ | .fastRetrainComplete _ _ | .portCmdSpareSwap _ _ _ | .portCmdSpareBack _ _ _
  | .spareUeThreshold _ | .spareSwapComplete _ | .portCfgWrite _ _ _ | .eyeScanStart _ _ _ | .eyeScanDone _ _
  | .prbsCtrlWrite _ _ _ | .injCtrlWrite _ _ _ | .txDozeEntry _ _ | .txNapEntry _ _ | .txSleepForceWrite _ _ _
  | .txWake _ | .hostLinkTrained _ _ _ | .hostLinkDown | .perstNAssert _ | .functionLevelReset => true
  | .hdmDecoderCommit _ d => decide (d.ways < 16 ∧ d.gran < 16)
  | .getEventRecords inp => wfInput inp
  | .clearEventRecords inp => wfInput inp
  | .getEventInterruptPolicy inp => wfInput inp
  | .setEventInterruptPolicy inp => wfInput inp
  | .getFwInfo inp => wfInput inp
  | .transferFw inp => wfInput inp
  | .transferFwComplete => true
  | .activateFw inp => wfInput inp
  | .getTimestamp inp => wfInput inp
  | .setTimestamp inp => wfInput inp
  | .getSupportedLogs inp => wfInput inp
  | .getLog inp => wfInput inp
  | .identifyMemoryDevice inp => wfInput inp
  | .getHealthInfo inp => wfInput inp
  | .getPoisonList inp => wfInput inp
  | .injectPoison inp => wfInput inp
  | .clearPoison inp => wfInput inp
  | .mboxUnsupported _ inp => wfInput inp
  | .getDeviceInfo inp => wfInput inp
  | .getFaultLog inp => wfInput inp
  | .getDumpInfo inp => wfInput inp
  | .setPowerCap inp => wfInput inp
  | .getPowerStatus inp => wfInput inp
  | .lehrTrigger inp => wfInput inp
  | .spdmMessage inp => wfInput inp
  | .getLinkSummary inp => wfInput inp
  | .clearOutOfService inp => wfInput inp
  | .smbusFallback | .mctpMessage _ _ _ _ | .pldmSensorRead _ | .pldmSetPowerCap _ | .pldmFirmwareUpdate _ _
  | .pldmSelectBootImage _ | .pldmClearOutOfService | .pldmLehrTrigger | .leakClear | .spiHoldOffAssert
  | .spiHoldOffRelease | .computeReset _ | .fullDeviceRecovery _ | .benchHangCheck _ | .portHangCheck _
  | .memHangCheck _ | .stewardWatchdogExpiry | .stewardRestartComplete | .resultSlotPoisonEnd _ => true
  | .powerControlInterval _ est => est.floorW.length == 5 && est.factoryW.length == 5
  | .capWindowEnd _ | .pwrCapNRecognised | .capFloorEnd | .shelfAlertNAssert | .shelfCapRelease | .flowPulseEdge
  | .flowLoss | .leakSenseEdge _ | .leakWet | .leakSensorFailed => true
  | .thermalSample temps => temps.length == 48
  | .thermalTrip | .governorUpdate | .stewardStageWrite _ _ _ | .stewardClaimExpiry _ | .timingMarginWarning _
  | .fmaxCtrlWrite _ _ | .lehrIntervalExpiry | .lehrStart _ _ => true
  | .lehrStepComplete m => wfLehr m
  | .memoryRetrainWindow _ | .flashHeaderReadComplete _ | .flashBodyReadComplete _ | .hostReady
  | .memoryTrainingComplete | .bootReady | .debugChallengeRead | .debugTokenWrite _ | .getVersion _ _
  | .getCapabilities _ _ | .negotiateAlgorithms _ _ | .getDigests _ _ | .getCertificate _ _ | .challenge _ _
  | .getMeasurements _ _ | .chunkSend _ _ | .chunkGet _ _ | .spdmUnsupported _ _ | .signatureComplete _
  | .evselWrite _ _ _ _ | .cntWrite _ _ _ _ | .bwCtrlWrite _ _ _ | .bwWindowEnd _ | .computeResetComplete
  | .fullDeviceRecoveryComplete | .controlStateSweep _ _ | .cruciblePatrolScrub _ _ _ | .stewardMemoryUe
  | .sensorSupervisionArm | .perstNDeassert | .spareCfgWrite _ _ _ => true
  | .prbsCheckerLock _ _ _ => true
  | .flashHoldTimeout => true

end Sys2Proof
end

