-- ==== Sys2Proof/Safety.lean ====
section
/-! DEFINITION. The vocabulary of the claims: what a core needs to issue an instruction, what an
instruction that retires changes and leaves, the forms data keeps in every state, and the commands the
always-on domain performs. -/

namespace Sys2Proof.Machine

/-! ### Cores -/

/-- Core `c` of bench `b` fetches the word `w` and nothing keeps it from issuing: the device and the
bench run, the warden is not held (R407), the core runs, the fetch is below the load limit and readable (R196, R235), the word is a legal
encoding (R218), and no register it names awaits a load or an atomic (R220). -/
structure Ready (s : State) (b : Fin 100) (c : Fin 8) (w : W64) : Prop where
  powered : s.powered = true
  awake : (s.bench b).st = .awake
  unheld : s.benchHeld b = false
  running : (s.core (coreNo b c)).run = .running
  inImage : (s.core (coreNo b c)).beyond = false
  readable : s.fetchBad b c = false
  word : s.fetchWord b c = w
  legal : legal w = true
  free : (s.core (coreNo b c)).hazard w = false

/-- The word that issues is opcode `op` of family `fam` (R215, R217). -/
structure Issues (s : State) (b : Fin 100) (c : Fin 8) (w : W64) (fam op : Nat) : Prop where
  ready : Ready s b c w
  fam : iFam w = fam
  op : iOp w = op

/-- It issues and bit 0 of its guard is 1 (R221). -/
structure Fires (s : State) (b : Fin 100) (c : Fin 8) (w : W64) (fam op : Nat) : Prop where
  issues : Issues s b c w fam op
  guard : (s.core (coreNo b c)).guard w = true

/-- The registers `y` of a core `x` that goes on at the next instruction (R235). -/
def Core.after (x y : Core) : Core :=
  { y with pc := x.pc + 1, pastEnd := decide (x.pc.toNat = 8191), run := .running, wait := none }

/-- The registers `y` of a core that goes on at instruction `pc`. -/
def Core.jumpsTo (y : Core) (pc : Nat) : Core :=
  { y with pc := BitVec.ofNat 13 pc, pastEnd := false, run := .running, wait := none }

/-- A register of the performance counters of bench `b` (R483): its counter block. -/
def benchCounter (b off : Nat) : Prop := 0x3F00000 + (128 + b) * 0x1000 ≤ off ∧ off < 0x3F00000 + (129 + b) * 0x1000

/-- What an instruction of a core leaves alone: the other cores, the other benches, and every register
but its bench's counters. -/
structure KeepsOthers (s t : State) (b : Fin 100) (c : Fin 8) : Prop where
  cores : ∀ k, k ≠ coreNo b c → t.core k = s.core k
  benches : ∀ i, i ≠ b.val → t.bench i = s.bench i
  regs : ∀ off, ¬ benchCounter b off → t.reg off = s.reg off

/-- The bench too is as it was, but for the times of its progress. -/
structure Keeps (s t : State) (b : Fin 100) (c : Fin 8) : Prop where
  others : KeepsOthers s t b c
  bench : t.bench b = { s.bench b with progressAt := s.now, idleSince := s.now }

/-- An instruction that touches no memory and no other unit: everything else in the state is as it was. -/
structure OnlyCore (s t : State) (b : Fin 100) (c : Fin 8) : Prop where
  keeps : Keeps s t b c
  rest : t = { s with cores := t.cores, benches := t.benches, regs := t.regs }

/-- An instruction that changes its core and its bench alone. -/
structure OnlyBench (s t : State) (b : Fin 100) (c : Fin 8) : Prop where
  others : KeepsOthers s t b c
  rest : t = { s with cores := t.cores, benches := t.benches, regs := t.regs }

/-- An access of a core to its local store (0), its bound parison (1) or its instruction store (3):
beside the core it reaches the store, the errors of its words and their counter. -/
structure StoreAccess (s t : State) (b : Fin 100) (c : Fin 8) (sp : Nat) : Prop where
  cores : ∀ k, k ≠ coreNo b c → t.core k = s.core k
  benches : ∀ i, i ≠ b.val → t.bench i = s.bench i
  bench : t.bench b = { s.bench b with progressAt := s.now, idleSince := s.now }
  regs : ∀ off, ¬ benchCounter b off → off ≠ spaceCe sp b → t.reg off = s.reg off
  coll : sp ≠ 1 → t.coll = s.coll
  rest : t = { s with
    cores := t.cores, benches := t.benches, regs := t.regs, badWords := t.badWords, coll := t.coll, ls := t.ls, is := t.is }

/-- A core's most recent access to its local store was at `a` (R430). -/
def Core.near (x : Core) (sp a : Nat) : Core := if sp = 0 then { x with lsQuarter := a / 65536 % 4 } else x

/-- The context of a bench, if it has one, neither records nor replays (R328). -/
def Unlogged (s : State) (b : Nat) : Prop :=
  ∀ x, s.coreCtx b = some x → s.recording x = false ∧ s.replaying x = false

/-! ### Registers -/

/-- A requester's accesses reach the registers, and disturb nothing that it holds: it holds no low word and no read latch
(R7, R397, R470, R472, R481, R494). -/
structure Clear (s : State) (r : Requester) : Prop where
  low : ∀ h ∈ s.heldLow, h.1 ≠ r
  latch : ∀ l ∈ s.latches, l.1 ≠ r
  reads : s.reaches r false = true
  writes : s.reaches r true = true

/-- A write of `v` to the register at `off` is accepted by the common rules: the device runs, the register
exists, can be written, is not locked, and no reserved bit is 1 (R9-R11, R493-R500). -/
structure Writable (s : State) (off : Nat) (v : W64) : Prop where
  powered : s.powered = true
  open_ : s.resetBlocks off = false
  present : s.absentReg off = false
  row : ∃ w, findReg off = some w ∧ w.acc ≠ .ro ∧ w.acc ≠ .rc ∧ w.lock.any s.lockBit = false ∧
    w64 (v.toNat &&& w.mask) = v

/-! ### Forms that data keeps -/

/-- The canonical form of a memory: addresses strictly rising, and no entry equal to what an unlisted
address reads as. -/
def Memory.wf (m : List Host.Cell) : Bool := swf 0 m

/-- The memories of the state are in canonical form. -/
structure Canonical (s : State) : Prop where
  pool : Memory.wf s.pool.mem = true
  ls : Memory.wf s.ls = true
  is : Memory.wf s.is = true

/-- A fuse bit programmed once stays programmed (R471). -/
structure FusesKept (s t : State) : Prop where
  revoke2 : s.boot.revoke2 = true → t.boot.revoke2 = true
  revoke3 : s.boot.revoke3 = true → t.boot.revoke3 = true
  svn : s.svn ≤ t.svn

/-! ### Commands -/

/-- The commands that reach the always-on domain and the supplies: they act while the device is inert,
without clocks or tripped (R2, R449, R511-R514). -/
def alwaysOn : Instr → Bool
  | .powerUp | .powerOnResetRelease | .powerRemoval | .railFault | .railFaultRecovery | .fabRefclkLoss
  | .fabRefclkReturn | .cxlRefclkLoss | .perstNAssert _ | .perstNDeassert | .flowPulseEdge | .flowLoss
  | .leakSenseEdge _ | .leakWet | .leakSensorFailed | .sensorSupervisionArm | .thermalSample _ | .thermalTrip
  | .governorUpdate | .stewardClaimExpiry _ | .restingExpiry _ | .spiHoldOffAssert | .spiHoldOffRelease
  | .pldmFirmwareUpdate _ (.direct _ _) => true
  | _ => false

end Sys2Proof.Machine
end

