-- ==== Sys2Proof/Certificates/Slice0/Obligations.lean ====
section
/-! DEFINITION. The claims about the machine, for the provers. Each docstring names the rules of spec/
it states, or says that a clause is the model's. -/

section

open Sys2Proof Sys2Proof.Machine

/-! ### The block as a whole -/

/-- A step runs the command at the front of the queue on the state with the queue's rest. -/
def Obligations.StepRunsFrontCommand : Prop :=
  ∀ (s : State) (c : Instr) (cs : List Instr),
    step { s with pending := c :: cs } = exec c { s with pending := cs }

/-- On an empty queue 1 ns of always-on time passes and nothing else is commanded: with no record to write and no launch
whose stop is due, only counters, free values, corrected lines and errors that appear by themselves change; a device whose
always-on domain does not run stays as it is (the model's: log entry 2). -/
def Obligations.EmptyQueuePassesTime : Prop :=
  ∀ s : State, s.pending = [] →
    (s.aonUp = false → step s = .next s) ∧
    (s.aonUp = true → s.powered = false → step s = .next { s with clk := s.clk.tick }) ∧
    (s.aonUp = true → s.recq = [] → (∀ r ∈ s.launch.runs, ∀ n, r.stopAt = some n → s.now + 1 < n) →
      ∃ t, step s = .next t ∧ t.pending = [] ∧ t.clk.aonNs = s.clk.aonNs + 1 ∧ t.out = s.out ∧
      t.boot = s.boot ∧ t.fault = s.fault ∧ t.ctxs = s.ctxs ∧ t.ls = s.ls ∧ t.is = s.is ∧ t.pool.mem = s.pool.mem ∧
      t.route = { s.route with errs := t.route.errs, ces := t.route.ces } ∧ t.launch = s.launch ∧
      t.host = s.host ∧ t.mgmt = s.mgmt ∧ t.pwr = s.pwr)

/-- Every command in every state ends in a next state: none faults and none is refused. A device that is inert,
has no clock or has tripped ignores every command but those of the supplies, the pins and the always-on
domain (R2, R449, R511-R514; that such a command is without effect and not an error is the model's: log
entry 3). -/
def Obligations.EveryCommandCompletes : Prop :=
  (∀ (c : Instr) (s : State), ∃ t, exec c s = .next t) ∧
  (∀ (c : Instr) (s : State), s.powered = false → alwaysOn c = false → exec c s = .next s)

/-- Register 0 of each kind: s0 reads 0 and p0 reads all ones, writes to them are discarded (R194); every
other register reads as last written and a write leaves the others alone. -/
def Obligations.RegisterZero : Prop :=
  ∀ (x : Core) (n m : Nat) (v p : W64) (u : W512),
    (x.setS 0 v) = x ∧ (x.setP 0 p) = x ∧ x.s 0 = 0 ∧ x.p 0 = BitVec.allOnes 64 ∧
    (n ≠ 0 → (x.setS n v).s m = if m = n then v else x.s m) ∧
    (n ≠ 0 → (x.setP n p).p m = if m = n then p else x.p m) ∧
    (x.setV n u).v m = if m = n then u else x.v m

/-! ### The scalar family -/

/-- The scalar instructions of two source registers, with their results (R223). -/
def scalarTwo : List ((Fin 100 → Fin 8 → Instr) × Nat × (W64 → W64 → W64)) := [
  (.add, 0x01, fun x y => x + y),
  (.sub, 0x02, fun x y => x - y),
  (.and, 0x03, fun x y => x &&& y),
  (.or, 0x04, fun x y => x ||| y),
  (.xor, 0x05, fun x y => x ^^^ y),
  (.shl, 0x06, fun x y => x <<< (y.toNat % 64)),
  (.shr, 0x07, fun x y => x >>> (y.toNat % 64)),
  (.sra, 0x08, fun x y => x.sshiftRight (y.toNat % 64)),
  (.slt, 0x09, fun x y => if x.toInt < y.toInt then 1 else 0),
  (.sltu, 0x0A, fun x y => if x.toNat < y.toNat then 1 else 0),
  (.seq, 0x0B, fun x y => if x = y then 1 else 0),
  (.min, 0x0C, fun x y => if x.toInt < y.toInt then x else y),
  (.max, 0x0D, fun x y => if x.toInt < y.toInt then y else x),
  (.minu, 0x0E, fun x y => if x.toNat < y.toNat then x else y),
  (.maxu, 0x0F, fun x y => if x.toNat < y.toNat then y else x),
  (.mul, 0x10, fun x y => BitVec.ofNat 64 (x.toNat * y.toNat)),
  (.mulhs, 0x11, fun x y => BitVec.ofInt 64 (x.toInt * y.toInt / 2 ^ 64)),
  (.mulhu, 0x12, fun x y => BitVec.ofNat 64 (x.toNat * y.toNat / 2 ^ 64))]

/-- The division instructions, with their edge cases (R224): the divisor 0, and −2^63 by −1. -/
def scalarDivide : List ((Fin 100 → Fin 8 → Instr) × Nat × (W64 → W64 → W64)) := [
  (.div, 0x13, fun x y => if y = 0 then BitVec.allOnes 64
    else if x.toInt = -2 ^ 63 ∧ y.toInt = -1 then BitVec.ofInt 64 (-2 ^ 63) else BitVec.ofInt 64 (x.toInt.tdiv y.toInt)),
  (.divu, 0x14, fun x y => if y = 0 then 0xFFFFFFFFFFFFFFFF else BitVec.ofNat 64 (x.toNat / y.toNat)),
  (.rem, 0x15, fun x y => if y = 0 then x
    else if x.toInt = -2 ^ 63 ∧ y.toInt = -1 then 0 else BitVec.ofInt 64 (x.toInt.tmod y.toInt)),
  (.remu, 0x16, fun x y => if y = 0 then x else BitVec.ofNat 64 (x.toNat % y.toNat))]

/-- The scalar instructions of one source register and an immediate, with their results: the source, the
immediate sign-extended to 64 bits, and the immediate as it stands (R216, R223). -/
def scalarOne : List ((Fin 100 → Fin 8 → Instr) × Nat × (W64 → W64 → Nat → W64)) := [
  (.popc, 0x17, fun x _ _ => BitVec.ofNat 64 ((List.range 64).filter (fun i => x.getLsbD i)).length),
  (.clz, 0x18, fun x _ _ => BitVec.ofNat 64 (if x = 0 then 64 else 63 - x.toNat.log2)),
  (.ctz, 0x19, fun x _ _ => BitVec.ofNat 64 (((List.range 64).find? (fun i => x.getLsbD i)).getD 64)),
  (.addi, 0x20, fun x i _ => x + i),
  (.andi, 0x21, fun x i _ => x &&& i),
  (.ori, 0x22, fun x i _ => x ||| i),
  (.xori, 0x23, fun x i _ => x ^^^ i),
  (.shli, 0x24, fun x _ n => x <<< n),
  (.shri, 0x25, fun x _ n => x >>> n),
  (.srai, 0x26, fun x _ n => x.sshiftRight n),
  (.slti, 0x27, fun x i _ => if x.toInt < i.toInt then 1 else 0),
  (.li, 0x28, fun _ i _ => i),
  (.lih, 0x29, fun x _ n => BitVec.ofNat 64 (n * 2 ^ 32) ||| (x &&& 0xFFFFFFFF))]

/-- ADD to MULHU write s[D] from two sources, DIV, DIVU, REM and REMU never raise an exception and give a result for
every divisor, POPC to LIH take s[A] and the immediate; each touches nothing but its core's registers and its
progress; every other opcode, a used REG field beyond D, A and B, and a shift of 64 or more is no legal encoding
(R216, R223, R224). -/
def Obligations.ScalarOperations : Prop :=
  (∀ w : W64, iFam w = 0 → legal w = true → ((1 ≤ iOp w ∧ iOp w ≤ 0x19) ∨ (0x20 ≤ iOp w ∧ iOp w ≤ 0x29)) ∧
    (iOp w ≤ 0x19 → iC w = 0 ∧ iType w = 0 ∧ iRnd w = 0) ∧ (0x24 ≤ iOp w → iOp w ≤ 0x26 → iImm w < 64)) ∧
  (∀ e ∈ scalarTwo ++ scalarDivide, ∀ (s : State) (b : Fin 100) (c : Fin 8) (w : W64), Fires s b c w 0 e.2.1 →
    ∃ t, exec (e.1 b c) s = .next t ∧ OnlyCore (s.fetched b c) t b c ∧
      t.core (coreNo b c) = (s.core (coreNo b c)).after ((s.core (coreNo b c)).setS (iD w)
        (e.2.2 ((s.core (coreNo b c)).s (iA w)) ((s.core (coreNo b c)).s (iB w))))) ∧
  (∀ e ∈ scalarOne, ∀ (s : State) (b : Fin 100) (c : Fin 8) (w : W64), Fires s b c w 0 e.2.1 →
      ∃ t, exec (e.1 b c) s = .next t ∧ OnlyCore (s.fetched b c) t b c ∧
        t.core (coreNo b c) = (s.core (coreNo b c)).after ((s.core (coreNo b c)).setS (iD w)
          (e.2.2 ((s.core (coreNo b c)).s (iA w)) ((BitVec.ofNat 32 w.toNat).signExtend 64) (w.toNat % 2 ^ 32))))

/-! ### The vector family -/

/-- The lane type of a word, its lane width in bits, and lane `i` of a vector register (R194, R225). -/
def laneBits (w : W64) : Nat := laneW (iType w)
def laneAt (w : W64) (v : W512) (i : Nat) : Nat := v.toNat / 2 ^ (laneBits w * i) % 2 ^ laneBits w
/-- The bit that governs lane `i` (R194). -/
def laneOnAt (w : W64) (x : Core) (i : Nat) : Bool := (x.p (iPg w)).getLsbD (i * laneBits w / 8)
/-- The signed value of an integer lane. -/
def laneInt (w : W64) (n : Nat) : Int := (BitVec.ofNat (laneBits w) n).toInt

/-- Lane operations on one or two vector registers and a scalar register B: the result lane from lane A,
lane B and s[B] (R226, R227). Floating results are the exact result rounded once to the type. -/
def laneOps : List ((Fin 100 → Fin 8 → Instr) × Nat × (W64 → Nat → Nat → W64 → Nat)) := [
  (.vadd, 0x01, fun w x y _ => if isInt (iType w) then x + y
    else laneOf (iType w) (iRnd w) ((laneVal (iType w) x).add (laneVal (iType w) y))),
  (.vsub, 0x02, fun w x y _ => if isInt (iType w) then x + (2 ^ laneBits w - y)
    else laneOf (iType w) (iRnd w) ((laneVal (iType w) x).add (laneVal (iType w) y).negate)),
  (.vmul, 0x03, fun w x y _ => if isInt (iType w) then x * y
    else laneOf (iType w) (iRnd w) ((laneVal (iType w) x).mul (laneVal (iType w) y))),
  (.vadds, 0x07, fun w x y _ => tc (laneBits w)
    (max (-2 ^ (laneBits w - 1)) (min (2 ^ (laneBits w - 1) - 1) (laneInt w x + laneInt w y)))),
  (.vsubs, 0x08, fun w x y _ => tc (laneBits w)
    (max (-2 ^ (laneBits w - 1)) (min (2 ^ (laneBits w - 1) - 1) (laneInt w x - laneInt w y)))),
  (.vand, 0x09, fun _ x y _ => x &&& y),
  (.vor, 0x0A, fun _ x y _ => x ||| y),
  (.vxor, 0x0B, fun _ x y _ => x ^^^ y),
  (.vshl, 0x0C, fun w x _ n => x * 2 ^ (n.toNat % laneBits w)),
  (.vshr, 0x0D, fun w x _ n => x / 2 ^ (n.toNat % laneBits w)),
  (.vsra, 0x0E, fun w x _ n => tc (laneBits w) (laneInt w x / 2 ^ (n.toNat % laneBits w))),
  (.vabs, 0x0F, fun w x _ _ => if isInt (iType w) then (laneInt w x).natAbs else x % 2 ^ (laneBits w - 1)),
  (.vneg, 0x10, fun w x _ _ => if isInt (iType w) then 2 ^ laneBits w - x else x ^^^ 2 ^ (laneBits w - 1)),
  (.vmov, 0x18, fun _ x _ _ => x)]

/-- One of two lanes is NaN; the NaN encoding of the lane type (R173). -/
def anyNan (w : W64) (x y : Nat) : Bool := laneVal (iType w) x == .nan || laneVal (iType w) y == .nan
def nanOf (w : W64) : Nat := match etypeFmt (iType w) with | some f => f.nan | none => 0

/-- VFMA rounds once; VMIN and VMAX give the NaN of the type when an operand is NaN and order −0 below
+0; VBCAST, VPERM and VINS move lane bits (R226, R227; which lane width VINS has is free: log entry 30). -/
def Obligations.LaneMovesAndSelections : Prop :=
  ∀ (s : State) (b : Fin 100) (c : Fin 8) (w : W64),
    let x := s.core (coreNo b c)
    let a := fun i => laneAt w (x.v (iA w)) i
    let y := fun i => laneAt w (x.v (iB w)) i
    let z := fun i => laneAt w (x.v (iC w)) i
    let writes := fun (cmd : Instr) (f : Nat → Nat) => ∃ t v, exec cmd s = .next t ∧ OnlyCore (s.fetched b c) t b c ∧
      t.core (coreNo b c) = x.after (x.setV (iD w) v) ∧
      ∀ i < 512 / laneBits w, laneAt w v i = if laneOnAt w x i then f i % 2 ^ laneBits w else laneAt w (x.v (iD w)) i
    (Issues s b c w 1 0x04 → writes (.vfma b c) (fun i => if isInt (iType w) then a i * y i + z i
      else laneOf (iType w) (iRnd w) (((laneVal (iType w) (a i)).mul (laneVal (iType w) (y i))).add
        (laneVal (iType w) (z i))))) ∧
    (Issues s b c w 1 0x05 → writes (.vmin b c) (fun i => if anyNan w (a i) (y i) then nanOf w
      else if (laneVal (iType w) (a i)).ltZ (laneVal (iType w) (y i)) then a i else y i)) ∧
    (Issues s b c w 1 0x06 → writes (.vmax b c) (fun i => if anyNan w (a i) (y i) then nanOf w
      else if (laneVal (iType w) (y i)).ltZ (laneVal (iType w) (a i)) then a i else y i)) ∧
    (Issues s b c w 1 0x13 → writes (.vbcast b c) (fun _ => (x.s (iA w)).toNat)) ∧
    (Issues s b c w 1 0x16 → writes (.vperm b c) (fun i => a (y i % (512 / laneBits w)))) ∧
    (Issues s b c w 1 0x15 → ∃ t v, exec (.vins b c) s = .next t ∧ OnlyCore (s.fetched b c) t b c ∧
      t.core (coreNo b c) = x.after (x.setV (iD w) v) ∧
      ∀ i < 512 / vinsW w, vLane (vinsW w) v i =
        if i = w.toNat % 2 ^ 32 ∧ (x.p (iPg w)).getLsbD (i * vinsW w / 8) = true
        then (x.s (iA w)).toNat % 2 ^ vinsW w else vLane (vinsW w) (x.v (iD w)) i)

/-- VCVT, VCMP, VEXT and VRSUM (R226-R228). VCVT converts each active lane from its source lane, where narrowing writes only
the lanes of part Q, and counts saturated elements in SAT_EVENTS and NaNs to integer in NAN_TO_INT (R173); VCMP writes each
lane's result to the lane's predicate bits and 0 for inactive lanes; VRSUM sums exactly and rounds once. -/
def Obligations.LaneConversionsAndReductions : Prop :=
  ∀ (s : State) (b : Fin 100) (c : Fin 8) (w : W64),
    let x := s.core (coreNo b c)
    let st := iC w
    let sw := laneW st
    let dw := laneBits w
    let src := fun j => (x.v (iA w)).toNat / 2 ^ (sw * j) % 2 ^ sw
    let from_ := fun i => if sw < dw then iB w * (512 / dw) + i else if sw = dw then i else i - iB w * (512 / sw)
    let conv := fun i => convTo (iType w) (rndOf (iRnd w)) (laneVal st (src (from_ i)))
    let cvt := fun i => laneOnAt w x i ∧ (dw < sw → iB w * (512 / sw) ≤ i ∧ i < (iB w + 1) * (512 / sw))
    let cvts := ((List.range (512 / dw)).filter (fun i => decide (cvt i))).map conv
    (Issues s b c w 1 0x11 → ∃ t v, exec (.vcvt b c) s = .next t ∧
      OnlyCore ((s.fetched b c).countConv { sat := (cvts.filter (·.sat)).length, nanInt := (cvts.filter (·.nanInt)).length }) t b c ∧
      t.core (coreNo b c) = x.after (x.setV (iD w) v) ∧
      ∀ i < 512 / dw, laneAt w v i = if cvt i then (conv i).bits % 2 ^ dw else laneAt w (x.v (iD w)) i) ∧
    (Issues s b c w 1 0x12 → ∃ t p, exec (.vcmp b c) s = .next t ∧ OnlyCore (s.fetched b c) t b c ∧
      t.core (coreNo b c) = x.after (x.setP (iD w) p) ∧
      ∀ j < 64, p.getLsbD j = (laneOnAt w x (8 * j / dw) &&
        cmpLane (iC w) (iType w) (laneAt w (x.v (iA w)) (8 * j / dw)) (laneAt w (x.v (iB w)) (8 * j / dw)))) ∧
    (Fires s b c w 1 0x14 → ∃ t, exec (.vext b c) s = .next t ∧ OnlyCore (s.fetched b c) t b c ∧
      t.core (coreNo b c) = x.after (x.setS (iD w)
        (BitVec.ofNat 64 (laneAt w (x.v (iA w)) ((x.s (iB w)).toNat % (512 / dw)))))) ∧
    (Issues s b c w 1 0x17 → ∃ t, exec (.vrsum b c) s = .next t ∧ OnlyCore (s.fetched b c) t b c ∧
      t.core (coreNo b c) = x.after (x.setS (iD w)
        (sumLanes (iType w) (iRnd w) (((List.range (512 / dw)).filter (laneOnAt w x)).map (laneAt w (x.v (iA w)))))))

/-! ### The predicate family -/

/-- Predicate instructions with a predicate result from p[A] and p[B] (R229). -/
def predicateTwo : List ((Fin 100 → Fin 8 → Instr) × Nat × (W64 → W64 → W64)) := [
  (.pand, 0x01, fun x y => x &&& y), (.por, 0x02, fun x y => x ||| y), (.pxor, 0x03, fun x y => x ^^^ y),
  (.pandn, 0x04, fun x y => x &&& ~~~y), (.pnot, 0x05, fun x _ => ~~~x)]

/-- Predicate instructions with a scalar result from p[A] (R229). -/
def predicateOut : List ((Fin 100 → Fin 8 → Instr) × Nat × (W64 → W64)) := [
  (.ptos, 0x07, fun x => x),
  (.pcnt, 0x08, fun x => BitVec.ofNat 64 ((List.range 64).filter (fun i => x.getLsbD i)).length),
  (.pfirst, 0x09, fun x => BitVec.ofNat 64 (((List.range 64).find? (fun i => x.getLsbD i)).getD 64))]

/-- Lane-wise instructions: an active lane of v[D] gets the operation's result modulo the lane width, an
inactive lane keeps its value, and nothing else changes (R221, R226, R227). The predicate family works on whole
predicate registers, in REG format with TYPE, RND and C 0, and its other encodings are not legal (R229). -/
def Obligations.LaneAndPredicateOperations : Prop :=
  (∀ w : W64, iFam w = 2 → (legal w = true ↔ 1 ≤ iOp w ∧ iOp w ≤ 9 ∧ iC w = 0 ∧ iType w = 0 ∧ iRnd w = 0 ∧
    w.toNat % 2 ^ 23 = 0 ∧ (iOp w ≤ 6 → iD w < 8) ∧ (iOp w ≠ 6 → iA w < 8) ∧ (iOp w ≤ 4 → iB w < 8) ∧ (5 ≤ iOp w → iB w = 0))) ∧
  (∀ e ∈ laneOps, ∀ (s : State) (b : Fin 100) (c : Fin 8) (w : W64), Issues s b c w 1 e.2.1 →
      ∃ t v, exec (e.1 b c) s = .next t ∧ OnlyCore (s.fetched b c) t b c ∧
        t.core (coreNo b c) = (s.core (coreNo b c)).after ((s.core (coreNo b c)).setV (iD w) v) ∧
        ∀ i < 512 / laneBits w, laneAt w v i =
          if laneOnAt w (s.core (coreNo b c)) i then
            e.2.2 w (laneAt w ((s.core (coreNo b c)).v (iA w)) i) (laneAt w ((s.core (coreNo b c)).v (iB w)) i)
              ((s.core (coreNo b c)).s (iB w)) % 2 ^ laneBits w
          else laneAt w ((s.core (coreNo b c)).v (iD w)) i) ∧
  (∀ (s : State) (b : Fin 100) (c : Fin 8) (w : W64),
      let x := s.core (coreNo b c)
      (∀ e ∈ predicateTwo, Fires s b c w 2 e.2.1 → ∃ t, exec (e.1 b c) s = .next t ∧ OnlyCore (s.fetched b c) t b c ∧
        t.core (coreNo b c) = x.after (x.setP (iD w) (e.2.2 (x.p (iA w)) (x.p (iB w))))) ∧
      (∀ e ∈ predicateOut, Fires s b c w 2 e.2.1 → ∃ t, exec (e.1 b c) s = .next t ∧ OnlyCore (s.fetched b c) t b c ∧
        t.core (coreNo b c) = x.after (x.setS (iD w) (e.2.2 (x.p (iA w))))) ∧
      (Fires s b c w 2 0x06 → ∃ t, exec (.pfroms b c) s = .next t ∧ OnlyCore (s.fetched b c) t b c ∧
        t.core (coreNo b c) = x.after (x.setP (iD w) (x.s (iA w)))))
/-! ### Guards -/

/-- The instructions outside the scalar and predicate tables whose guard is bit 0 of p[PG] (R221). -/
def guardedMore : List ((Fin 100 → Fin 8 → Instr) × Nat × Nat) := [
  (.pfroms, 2, 0x06), (.vext, 1, 0x14),
  (.ld, 3, 0x01), (.lds, 3, 0x02), (.st, 3, 0x03), (.aadd, 3, 0x06), (.aaddf, 3, 0x07), (.acas, 3, 0x08),
  (.fence, 3, 0x09), (.dmaq, 3, 0x0A), (.send, 4, 0x01), (.recv, 4, 0x02), (.recvh, 4, 0x03), (.drop, 4, 0x04),
  (.contrib, 5, 0x01), (.dqcontrib, 5, 0x02), (.scontrib, 5, 0x03), (.copen, 5, 0x04), (.ctake, 5, 0x05),
  (.finalChunk, 5, 0x06), (.dispatch, 5, 0x07), (.cinfo, 5, 0x08), (.nop, 6, 0x01), (.jmp, 6, 0x02),
  (.jal, 6, 0x03), (.jr, 6, 0x04), (.beqz, 6, 0x05), (.bnez, 6, 0x06), (.endProg, 6, 0x07), (.post, 6, 0x08),
  (.tinc, 6, 0x10), (.tset, 6, 0x11), (.trd, 6, 0x12), (.twait, 6, 0x13), (.rdsr, 7, 0x01), (.ctrrd, 7, 0x02),
  (.rdreg, 7, 0x10), (.wrreg, 7, 0x11)]

/-- Every instruction whose guard is bit 0 of p[PG], with family and opcode (R221). -/
def guardedOps : List ((Fin 100 → Fin 8 → Instr) × Nat × Nat) :=
  List.flatten [scalarTwo.map (fun e => (e.1, 0, e.2.1)), scalarDivide.map (fun e => (e.1, 0, e.2.1)),
    scalarOne.map (fun e => (e.1, 0, e.2.1)), predicateTwo.map (fun e => (e.1, 2, e.2.1)),
    predicateOut.map (fun e => (e.1, 2, e.2.1)), guardedMore]

/-- Guarded off, an instruction has no effect and raises no exception: the core goes on (R221). -/
def Obligations.GuardedOffHasNoEffect : Prop :=
  ∀ e ∈ guardedOps, ∀ (s : State) (b : Fin 100) (c : Fin 8) (w : W64), Issues s b c w e.2.1 e.2.2 →
    (s.core (coreNo b c)).guard w = false →
    ∃ t, exec (e.1 b c) s = .next t ∧ OnlyCore (s.fetched b c) t b c ∧
      t.core (coreNo b c) = (s.core (coreNo b c)).after (s.core (coreNo b c))

/-! ### The memory family -/

/-- A load from a core's own stores leaves every byte of them as it was. -/
structure LoadOnly (s t : State) (b : Fin 100) (c : Fin 8) (sp : Nat) : Prop where
  access : StoreAccess s t b c sp
  ls : t.ls = s.ls
  is : t.is = s.is
  scratch : ∀ j, t.spaceBytes b c 1 j 1 = s.spaceBytes b c 1 j 1

/-- LD, LDS and VLD from the local store, the bound parison and the instruction store, at an address that
passes the checks of R195 over words without an uncorrectable error: the bytes there, zero-extended,
sign-extended, or in the active byte lanes (R230, R231). -/
def Obligations.LoadsFromOwnStores : Prop :=
  ∀ (s : State) (b : Fin 100) (c : Fin 8) (w : W64),
    let x := s.core (coreNo b c)
    let sp := iSpace w
    let a := memAddr x w
    let ok := fun n => sp ≠ 2 ∧ s.spaceCheck b c sp a n false false = 0 ∧ s.badCount b c sp a.toNat n false = 0
    let n := 2 ^ iSz w
    (Fires s b c w 3 0x01 → ok n → ∃ t, exec (.ld b c) s = .next t ∧ LoadOnly (s.fetched b c) t b c sp ∧
      t.core (coreNo b c) = x.after ((x.near sp a.toNat).setS (iD w)
        (BitVec.ofNat 64 (ofLe (s.spaceBytes b c sp a.toNat n))))) ∧
    (Fires s b c w 3 0x02 → ok n → ∃ t, exec (.lds b c) s = .next t ∧ LoadOnly (s.fetched b c) t b c sp ∧
      t.core (coreNo b c) = x.after ((x.near sp a.toNat).setS (iD w)
        ((BitVec.ofNat (8 * n) (ofLe (s.spaceBytes b c sp a.toNat n))).signExtend 64))) ∧
    (Issues s b c w 3 0x04 → x.p (iPg w) ≠ 0 → ok 64 → ∃ t v, exec (.vld b c) s = .next t ∧ LoadOnly (s.fetched b c) t b c sp ∧
      t.core (coreNo b c) = x.after ((x.near sp a.toNat).setV (iD w) v) ∧
      ∀ i < 64, vLane 8 v i = if (x.p (iPg w)).getLsbD i then (s.spaceBytes b c sp a.toNat 64).getD i 0 |>.toNat
        else vLane 8 (x.v (iD w)) i) ∧
    (Issues s b c w 3 0x04 → x.p (iPg w) = 0 → ∃ t, exec (.vld b c) s = .next t ∧ OnlyCore (s.fetched b c) t b c ∧
      t.core (coreNo b c) = x.after x)

/-- The bytes that a store of `n` bytes at `a` of space `sp` of a core leaves as they were. -/
structure StoresAt (s t : State) (b : Fin 100) (c : Fin 8) (sp a n : Nat) : Prop where
  access : StoreAccess s t b c sp
  ls : ∀ j, (sp = 0 → j < coreNo b c * 262144 + a ∨ coreNo b c * 262144 + a + n ≤ j) → sget 0 t.ls j = sget 0 s.ls j
  is : ∀ j, (sp = 3 → j < coreNo b c * 65536 + a ∨ coreNo b c * 65536 + a + n ≤ j) → sget 0 t.is j = sget 0 s.is j
  scratch : ∀ j, (sp = 1 → j < a ∨ a + n ≤ j) → t.spaceBytes b c 1 j 1 = s.spaceBytes b c 1 j 1

/-- The load limit after the bytes at these addresses of the instruction store were written (R235). -/
def limitTo (x : Core) (sp : Nat) (written : List Nat) : Core :=
  if sp = 3 then { x with loadLimit := written.foldl (fun m j => max m (j / 8 + 1)) x.loadLimit } else x

/-- ST and VST to the local store, the bound parison and the instruction store (R230-R232, R235): the
bytes of s[B], or the active bytes of v[B], at the address the instruction computes, and no other byte. -/
def Obligations.StoresToOwnStores : Prop :=
  ∀ (s : State) (b : Fin 100) (c : Fin 8) (w : W64),
    let x := s.core (coreNo b c)
    let sp := iSpace w
    let a := memAddr x w
    let ok := fun n => sp ≠ 2 ∧ s.spaceCheck b c sp a n true false = 0 ∧ s.badCount b c sp a.toNat n false = 0
    let n := 2 ^ iSz w
    (Fires s b c w 3 0x03 → ok n → ∃ t, exec (.st b c) s = .next t ∧ StoresAt (s.fetched b c) t b c sp a.toNat n ∧
      t.core (coreNo b c) = x.after (limitTo (x.near sp a.toNat) sp ((List.range n).map (a.toNat + ·))) ∧
      t.spaceBytes b c sp a.toNat n = leBytes n (x.s (iB w)).toNat) ∧
    (Issues s b c w 3 0x05 → x.p (iPg w) ≠ 0 → ok 64 → ∃ t, exec (.vst b c) s = .next t ∧
      StoresAt (s.fetched b c) t b c sp a.toNat 64 ∧
      t.core (coreNo b c) = x.after (limitTo (x.near sp a.toNat) sp
        (((List.range 64).filter (fun i => (x.p (iPg w)).getLsbD i)).map (a.toNat + ·))) ∧
      ∀ i < 64, (t.spaceBytes b c sp a.toNat 64).getD i 0 = if (x.p (iPg w)).getLsbD i
        then BitVec.ofNat 8 (vLane 8 (x.v (iB w)) i) else (s.spaceBytes b c sp a.toNat 64).getD i 0) ∧
    (Issues s b c w 3 0x05 → x.p (iPg w) = 0 → ∃ t, exec (.vst b c) s = .next t ∧ OnlyCore (s.fetched b c) t b c ∧
      t.core (coreNo b c) = x.after x)

/-- The frame of an issued pool access: no byte of any memory changes, only its controllers' states and the count that
orders accesses. -/
structure PoolIssued (s t : State) (b : Fin 100) (c : Fin 8) : Prop where
  keeps : Keeps s t b c
  rest : t = { s with
    cores := t.cores, benches := t.benches, regs := t.regs, pool := { s.pool with ctl := t.pool.ctl, nextSeq := s.pool.nextSeq + 1 } }

/-- When an access of core `c` of bench `b` reached the pool unit: now, after the host and the ports, by bench, then core
(R305). -/
def reachedAt (s : State) (b : Fin 100) (c : Fin 8) : Reach :=
  { at' := s.now, rank := 1024 + 16 * b.val + c.val, seq := s.pool.nextSeq }

/-- An outstanding access: kind, address, size, destination, operands, data and byte mask. -/
def outOf (op a n d : Nat) (x y : W64) (data : List (Option Byte)) (mask : List Bool) : OutAccess :=
  { op := op, addr := a, size := n, dest := d, x := x, y := y, data := data, mask := mask }

/-- A pool access of a core that passes the checks and has room among its 32 loads, or its 32 stores and
atomics, becomes outstanding and the core goes on (R231, R233). -/
def Obligations.PoolAccessesBecomeOutstanding : Prop :=
  ∀ (s : State) (b : Fin 100) (c : Fin 8) (w : W64),
    let x := s.core (coreNo b c)
    let a := memAddr x w
    let loads := (x.outs.filter (fun o => !isStoreOp o.op)).length
    let others := (x.outs.filter (fun o => isStoreOp o.op)).length
    let goes := fun (i : Instr) (o : OutAccess) => ∃ t, exec i s = .next t ∧ PoolIssued (s.fetched b c) t b c ∧
      t.core (coreNo b c) = x.after { x with outs := x.outs ++ [{ o with pc := x.pc, reach := reachedAt s b c }] }
    let ok := fun (a : W64) n wr at_ => s.spaceCheck b c 2 a n wr at_ = 0
    let n := 2 ^ iSz w
    let mask := (List.range 64).map (fun i => (x.p (iPg w)).getLsbD i)
    (Fires s b c w 3 0x01 → iSpace w = 2 → ok a n false false → loads < 32 →
      goes (.ld b c) (outOf 1 a.toNat n (iD w) 0 0 [] [])) ∧
    (Fires s b c w 3 0x02 → iSpace w = 2 → ok a n false false → loads < 32 →
      goes (.lds b c) (outOf 2 a.toNat n (iD w) 0 0 [] [])) ∧
    (Fires s b c w 3 0x03 → iSpace w = 2 → ok a n true false → others < 32 →
      goes (.st b c) (outOf 3 a.toNat n 0 0 0 ((leBytes n (x.s (iB w)).toNat).map some) [])) ∧
    (Issues s b c w 3 0x04 → iSpace w = 2 → x.p (iPg w) ≠ 0 → ok a 64 false false → loads < 32 →
      goes (.vld b c) (outOf 4 a.toNat 64 (iD w) 0 0 [] mask)) ∧
    (Issues s b c w 3 0x05 → iSpace w = 2 → x.p (iPg w) ≠ 0 → ok a 64 true false → others < 32 →
      goes (.vst b c) (outOf 5 a.toNat 64 0 0 0 ((List.range 64).map (fun i => if (x.p (iPg w)).getLsbD i
        then some (BitVec.ofNat 8 (vLane 8 (x.v (iB w)) i)) else none)) [])) ∧
    (Fires s b c w 3 0x06 → ok a 8 true true → others < 32 →
      goes (.aadd b c) (outOf 6 a.toNat 8 (iD w) (x.s (iB w)) 0 [] [])) ∧
    (Fires s b c w 3 0x07 → ok a 4 true true → others < 32 →
      goes (.aaddf b c) (outOf 7 a.toNat 4 (iD w) (x.s (iB w)) 0 [] [])) ∧
    (Fires s b c w 3 0x08 → ok (x.s (iA w)) 8 true true → others < 32 →
      goes (.acas b c) (outOf 8 (x.s (iA w)).toNat 8 (iD w) (x.s (iB w)) (x.s (iC w)) [] []))

/-- The pool performs an outstanding access of a core (R231-R233, R304, R305): the device runs, no earlier access
of the core touches its bytes and no access that reached one of its lines before is still to be performed, its
controllers are awake, its blocks are resident, and no line of it is uncorrectable. A load writes its register; a store writes its bytes and no other; an atomic writes the new
value and gives the old. -/
def Obligations.PoolReturnsAccess : Prop :=
  ∀ (s : State) (b : Fin 100) (c : Fin 8) (k : Nat) (o : OutAccess),
    let x := s.core (coreNo b c)
    let m := max o.size (max o.data.length 8)
    s.powered = true → x.outs[k]? = some o →
    (∀ p ∈ x.outs.take k, overlaps p.addr p.size o.addr o.size = false) →
    s.poolAhead o.addr o.size o.reach = false → s.memAwake o.addr o.size = true → s.resident o.addr o.size = true →
    s.ueLines o.addr m = [] →
    ∃ t, exec (.poolAccessReturn b c k .clean) s = .next t ∧
      (∀ j, j ≠ coreNo b c → t.core j = s.core j) ∧ t.ls = s.ls ∧ t.is = s.is ∧
      let y := { x with outs := x.outs.eraseIdx k }
      let at_ := fun i => sget 0 s.pool.mem (o.addr + i)
      let sameBut := fun n => ∀ j, j < o.addr ∨ o.addr + n ≤ j → sget 0 t.pool.mem j = sget 0 s.pool.mem j
      let old8 := ofLe (s.memRead o.addr 8)
      let old4 := ofLe (s.memRead o.addr 4)
      (o.op = 1 → sameBut 0 ∧ t.core (coreNo b c) = y.setS o.dest (BitVec.ofNat 64 (ofLe (s.memRead o.addr o.size)))) ∧
      (o.op = 2 → sameBut 0 ∧ t.core (coreNo b c) =
        y.setS o.dest ((BitVec.ofNat (8 * o.size) (ofLe (s.memRead o.addr o.size))).signExtend 64)) ∧
      (o.op = 4 → sameBut 0 ∧ ∃ v, t.core (coreNo b c) = y.setV o.dest v ∧
        ∀ i < 64, vLane 8 v i = if o.mask.getD i false then (at_ i).toNat else vLane 8 (y.v o.dest) i) ∧
      (o.op = 3 ∨ o.op = 5 → sameBut o.data.length ∧ t.core (coreNo b c) = y ∧
        ∀ i < o.data.length, sget 0 t.pool.mem (o.addr + i) = (o.data.getD i none).getD (at_ i)) ∧
      (o.op = 6 → sameBut 8 ∧ t.core (coreNo b c) = y.setS o.dest (BitVec.ofNat 64 old8) ∧
        t.memRead o.addr 8 = leBytes 8 ((old8 + o.x.toNat) % 2 ^ 64)) ∧
      (o.op = 7 → sameBut 4 ∧ t.core (coreNo b c) = y.setS o.dest (BitVec.ofNat 64 old4) ∧
        t.memRead o.addr 4 = leBytes 4 (fp32Add old4 (o.x.toNat % 2 ^ 32))) ∧
      (o.op = 8 → sameBut 8 ∧ t.core (coreNo b c) = y.setS o.dest (BitVec.ofNat 64 old8) ∧
        t.memRead o.addr 8 = leBytes 8 (if old8 = o.x.toNat then o.y.toNat else old8))

/-- FENCE retires when no pool access of its core is outstanding, else the core waits and retires when
the last is performed (R232); DMAQ appends the descriptor of the local store to the core's queue (R231); a
core stalled at issue goes on when there is room (R202, R233). -/
def Obligations.FencesQueuesAndStalls : Prop :=
  ∀ (s : State) (b : Fin 100) (c : Fin 8) (w : W64),
    let x := s.core (coreNo b c)
    let a := memAddr x w
    (Fires s b c w 3 0x09 → x.outs = [] → ∃ t, exec (.fence b c) s = .next t ∧ OnlyCore (s.fetched b c) t b c ∧
      t.core (coreNo b c) = x.after x) ∧
    (Fires s b c w 3 0x09 → x.outs ≠ [] → exec (.fence b c) s = .next ((s.fetched b c).modCore (coreNo b c) (fun x =>
      { x with run := .waiting, wait := some { kind := .fence, word := w, deadline := none } }))) ∧
    (∀ q, s.waitsFor b c .fence = some q → x.outs = [] → ∃ t, exec (.fenceComplete b c) s = .next t ∧ OnlyCore s t b c ∧
      t.core (coreNo b c) = x.after x) ∧
    (Fires s b c w 3 0x0A → lsCheck a 32 = 0 → x.dmaQ.length < 16 → s.badCount b c 0 a.toNat 32 false = 0 →
      ∃ t, exec (.dmaq b c) s = .next t ∧ LoadOnly (s.fetched b c) t b c 0 ∧
        t.core (coreNo b c) = x.after { x.near 0 a.toNat with
          dmaQ := x.dmaQ ++ [DmaDesc.mk ((List.range 8).map (fun i =>
            BitVec.ofNat 32 (ofLe (s.spaceBytes b c 0 (a.toNat + 4 * i) 4))))] }) ∧
    (∀ q, s.waitsFor b c .stall = some q → iFam q.word = 3 → iOp q.word = 0x01 → iSpace q.word = 2 →
      s.spaceCheck b c 2 (memAddr x q.word) (2 ^ iSz q.word) false false = 0 →
      (x.outs.filter (fun o => !isStoreOp o.op)).length < 32 →
      ∃ t, exec (.coreStallRelease b c) s = .next t ∧ PoolIssued s t b c ∧
        t.core (coreNo b c) = x.after { x with
          outs := x.outs ++ [{ outOf 1 (memAddr x q.word).toNat (2 ^ iSz q.word) (iD q.word) 0 0 [] [] with pc := x.pc, reach := reachedAt s b c }] }) ∧
    (∀ q, s.waitsFor b c .stall = some q → iFam q.word = 6 → (x.s (iA q.word)).toNat < 8192 →
      (s.bench b).items.length < 256 → (s.bench b).itemWait = [] →
      ∃ t, exec (.coreStallRelease b c) s = .next t ∧ OnlyBench s t b c ∧ t.core (coreNo b c) = x.after x ∧
        (t.bench b).items = (s.bench b).items ++
          [{ entry := (x.s (iA q.word)).toNat, arg := x.s (iB q.word), num := (s.bench b).itemNum }])

/-! ### Control, tallies, items and exceptions -/

/-- NOP, JMP, JAL, JR, BEQZ and BNEZ: the program counter, and the link register of JAL (R234). The fetch of an
instruction corrects the errors of its word, counts them in IS_CE, and changes nothing else (R196). -/
def Obligations.ControlTransfers : Prop :=
  ∀ (s : State) (b : Fin 100) (c : Fin 8) (w : W64),
    let x := s.core (coreNo b c)
    let goes := fun (i : Instr) (y : Core) => ∃ t, exec i s = .next t ∧ OnlyCore (s.fetched b c) t b c ∧ t.core (coreNo b c) = y
    let target := w.toNat % 2 ^ 13
    (Fires s b c w 6 0x01 → goes (.nop b c) (x.after x)) ∧
    (Fires s b c w 6 0x02 → goes (.jmp b c) (x.jumpsTo target)) ∧
    (Fires s b c w 6 0x03 → goes (.jal b c) ((x.setS (iD w) (BitVec.ofNat 64 (x.pc.toNat + 1))).jumpsTo target)) ∧
    (Fires s b c w 6 0x04 → (x.s (iA w)).toNat < 8192 → goes (.jr b c) (x.jumpsTo (x.s (iA w)).toNat)) ∧
    (Fires s b c w 6 0x05 → goes (.beqz b c) (if x.s (iA w) = 0 then x.jumpsTo target else x.after x)) ∧
    (Fires s b c w 6 0x06 → goes (.bnez b c) (if x.s (iA w) ≠ 0 then x.jumpsTo target else x.after x)) ∧
    (let ws := s.badIn 3 (coreNo b c) (8 * x.pc.toNat) 8 true
      let t := s.fetched b c
      (ws = [] → t = s) ∧
      (ws ≠ [] → t.regN (Reg.isCe b) = min (s.regN (Reg.isCe b) + ws.length) 0xFFFFFFFF) ∧
      (∀ off, off ≠ Reg.isCe b → t.reg off = s.reg off) ∧ (∀ e, e ∈ t.badWords ↔ e ∈ s.badWords ∧ e ∉ ws) ∧
      t = { s with regs := t.regs, badWords := t.badWords })

/-- A tally value has reached a target by serial order (R236). -/
def serialReached (t x : W32) : Prop := (t.toNat + 2 ^ 32 - x.toNat) % 2 ^ 32 < 2 ^ 31

/-- TINC adds to a tally modulo 2^32 and TSET sets one; both leave the other tallies (R234, R236). POST puts
an item at the end of the bench's queue (R202). TRD reads a tally into s[D] (R234). TWAIT: s[D] = 0 at once when the
target is reached, else the core waits; the target ends the wait with 0, the timeout with 1, and the target
wins (R237), in a context that is not logged. -/
def Obligations.TalliesPostsAndWaits : Prop :=
  (∀ (s : State) (b : Fin 100) (c : Fin 8) (w : W64),
      let x := s.core (coreNo b c)
      let n := w.toNat % 64
      let v := BitVec.ofNat 32 (x.s (iA w)).toNat
      (Fires s b c w 6 0x10 → ∃ t, exec (.tinc b c) s = .next t ∧ OnlyBench (s.fetched b c) t b c ∧ t.core (coreNo b c) = x.after x ∧
        ∀ j, t.tally b j = if j = n then s.tally b n + v else s.tally b j) ∧
      (Fires s b c w 6 0x11 → ∃ t, exec (.tset b c) s = .next t ∧ OnlyBench (s.fetched b c) t b c ∧ t.core (coreNo b c) = x.after x ∧
        ∀ j, t.tally b j = if j = n then v else s.tally b j) ∧
      (Fires s b c w 6 0x12 → Unlogged s b → ∃ t, exec (.trd b c) s = .next t ∧ OnlyCore (s.fetched b c) t b c ∧
        t.core (coreNo b c) = x.after (x.setS (iD w) (BitVec.ofNat 64 (s.tally b n).toNat))) ∧
      (Fires s b c w 6 0x08 → (x.s (iA w)).toNat < 8192 → (s.bench b).items.length < 256 → (s.bench b).itemWait = [] →
        ∃ t, exec (.post b c) s = .next t ∧ OnlyBench (s.fetched b c) t b c ∧ t.core (coreNo b c) = x.after x ∧
          (t.bench b).items = (s.bench b).items ++
            [{ entry := (x.s (iA w)).toNat, arg := x.s (iB w), num := (s.bench b).itemNum }] ∧
          (t.bench b).tallies = (s.bench b).tallies)) ∧
  (∀ (s : State) (b : Fin 100) (c : Fin 8) (w : W64), Unlogged s b →
      let x := s.core (coreNo b c)
      let met := fun (w : W64) => serialReached (s.tally b (w.toNat % 64)) (BitVec.ofNat 32 (x.s (iA w)).toNat)
      let done := fun (u : State) (i : Instr) (w : W64) (v : W64) => ∃ t, exec i s = .next t ∧ OnlyCore u t b c ∧
        t.core (coreNo b c) = x.after (x.setS (iD w) v)
      (Fires s b c w 6 0x13 → met w → done (s.fetched b c) (.twait b c) w 0) ∧
      (Fires s b c w 6 0x13 → ¬ met w → exec (.twait b c) s = .next ((s.fetched b c).modCore (coreNo b c) (fun y => { y with
        run := .waiting,
        wait := some ⟨.tally, w, if x.s (iB w) = 0 then none else some (s.clk.ftime.toNat + (x.s (iB w)).toNat)⟩ }))) ∧
      (∀ q, s.waitsFor b c .tally = some q → met q.word → done s (.twaitReached b c) q.word 0) ∧
      (∀ q d, s.waitsFor b c .tally = some q → ¬ met q.word → q.deadline = some d → d ≤ s.clk.ftime.toNat →
        done s (.twaitTimeout b c) q.word 1))

/-- What an exception does to its core (R205, R206): stopped, with its cause, instruction and address
recorded; its registers stay. -/
structure Raised (s t : State) (b : Fin 100) (c : Fin 8) (cause : Nat) (addr : W64) : Prop where
  run : (t.core (coreNo b c)).run = .stopped
  cause : (t.core (coreNo b c)).cause = BitVec.ofNat 8 cause
  excPc : (t.core (coreNo b c)).excPc = (s.core (coreNo b c)).pc
  excAddr : (t.core (coreNo b c)).excAddr = addr
  sreg : (t.core (coreNo b c)).sreg = (s.core (coreNo b c)).sreg
  vreg : (t.core (coreNo b c)).vreg = (s.core (coreNo b c)).vreg
  preg : (t.core (coreNo b c)).preg = (s.core (coreNo b c)).preg

/-- A core raises ECC_UE at a word it cannot read, ILLEGAL at a reserved encoding and IS_RANGE at or above its load
limit (R196, R218, R235), and its launch is to stop by 2 µs from its first exception (R206); JR and
POST raise IS_RANGE on a target beyond the store (R234); loads and stores raise the cause of the check they
fail, in the order of R195 and R230: PRIV, MISALIGN, then the range of the space, and for the pool POOL_ADDR and
POOL_PERM. -/
def Obligations.CoresRaiseExceptions : Prop :=
  (∀ (s : State) (b : Fin 100) (c : Fin 8) (w : W64),
      let x := s.core (coreNo b c)
      let raises := fun (i : Instr) (cause : Nat) (addr : W64) => ∃ t, exec i s = .next t ∧ Raised s t b c cause addr
      let a := memAddr x w
      let sp := iSpace w
      (s.coreRuns b c = true → x.beyond = false → s.fetchBad b c = false → legal (s.fetchWord b c) = false →
        raises (.instructionIllegal b c) 0x02 0) ∧
      (s.coreRuns b c = true → x.beyond = false → s.fetchBad b c = true →
        raises (.instructionIllegal b c) 0x01 (BitVec.ofNat 64 (8 * x.pc.toNat))) ∧
      (∀ n, s.coreRuns b c = true → x.beyond = true → b.val ≠ 99 → (s.bench b).launch = some n →
        ∃ t, exec (.fetchBeyondLoadLimit b c) s = .next t ∧ t.launch.runs.length = s.launch.runs.length ∧
          ∀ (i : Nat) (r : Run), s.launch.runs[i]? = some r → r.num = n → (∀ (j : Nat), j < i → ∀ (q : Run), s.launch.runs[j]? = some q → q.num ≠ n) →
            (t.launch.runs[i]?).map (·.stopAt) = some (some (r.stopAt.getD (s.now + 2000)))) ∧
      (s.coreRuns b c = true → x.beyond = true → raises (.fetchBeyondLoadLimit b c) 0x04 0) ∧
      (Fires s b c w 6 0x04 → 8192 ≤ (x.s (iA w)).toNat → raises (.jr b c) 0x04 0) ∧
      (Fires s b c w 6 0x08 → 8192 ≤ (x.s (iA w)).toNat → raises (.post b c) 0x04 0) ∧
      (∀ k, s.spaceCheck b c sp a (2 ^ iSz w) false false = k → k ≠ 0 →
        (Fires s b c w 3 0x01 → raises (.ld b c) k a) ∧ (Fires s b c w 3 0x02 → raises (.lds b c) k a)) ∧
      (∀ k, s.spaceCheck b c sp a (2 ^ iSz w) true false = k → k ≠ 0 → Fires s b c w 3 0x03 → raises (.st b c) k a) ∧
      (∀ k, s.spaceCheck b c sp a 64 false false = k → k ≠ 0 → x.p (iPg w) ≠ 0 →
        Issues s b c w 3 0x04 → raises (.vld b c) k a) ∧
      (∀ k, s.spaceCheck b c sp a 64 true false = k → k ≠ 0 → x.p (iPg w) ≠ 0 →
        Issues s b c w 3 0x05 → raises (.vst b c) k a)) ∧
  (∀ (s : State) (b : Fin 100) (c : Fin 8) (a : W64) (n : Nat) (wr : Bool),
      (b.val ≠ 99 → s.spaceCheck b c 3 a n wr false = 0x03) ∧
      (∀ sp, sp = 0 ∨ sp = 1 ∨ sp = 2 → a.toNat % n ≠ 0 → s.spaceCheck b c sp a n wr false = 0x05) ∧
      (a.toNat % n = 0 → s.spaceCheck b c 0 a n wr false = if a.toNat + n ≤ 0x40000 then 0 else 0x06) ∧
      (a.toNat % n = 0 → (s.core (coreNo b c)).bound = none → s.spaceCheck b c 1 a n wr false = 0x07) ∧
      (a.toNat % n = 0 → b.val = 99 → s.spaceCheck b c 3 a n wr false = if a.toNat + n ≤ 0x10000 then 0 else 0x06) ∧
      (a.toNat % n = 0 → 2 ^ 48 ≤ a.toNat → s.spaceCheck b c 2 a n wr false = 0x08) ∧
      (∀ x w, a.toNat % n = 0 → a.toNat < 2 ^ 48 → s.coreCtx b = some x → s.findWin x a.toNat n = some w →
        s.spaceCheck b c 2 a n wr false = if wr = true ∧ w.wr = false then 0x09 else 0))

/-- END halts the core and unbinds its parison (R238); an idle core takes the bench's oldest item, with every
register 0 but s1 (R202, R238): the first core to become idle, or core i mod 8 for item i; a bench with an empty queue
and an idle core steals the oldest item that is no chunk program's of the context's fullest bench, the lowest-numbered of
several (R203). -/
def Obligations.ItemsEndAndStart : Prop :=
  ∀ (s : State) (b : Fin 100) (c : Fin 8) (w : W64),
    let x := s.core (coreNo b c)
    (Fires s b c w 6 0x07 → ∃ t, exec (.endProg b c) s = .next t ∧ (t.core (coreNo b c)).run = .halted ∧
      (t.core (coreNo b c)).bound = none ∧ (t.core (coreNo b c)).wait = none ∧
      (t.core (coreNo b c)).sreg = x.sreg ∧ t.ls = s.ls ∧ t.is = s.is) ∧
    (∀ (r : Run) (i : WorkItem) (is : List WorkItem), x.run = .halted → (s.bench b).st = .awake → s.powered = true →
      s.benchHeld b = false → s.fenceActive = false → s.runOn b = some r → Unlogged s b → (s.bench b).items = i :: is →
      (s.bench b).itemWait = [] →
      (if r.dba then ∀ k < 8, (s.core (b.val * 8 + k)).run = .halted → x.idleSeq < (s.core (b.val * 8 + k)).idleSeq ∨
          (x.idleSeq = (s.core (b.val * 8 + k)).idleSeq ∧ c.val ≤ k)
        else i.num % 8 = c.val) →
      ∃ t, exec (.itemStart b c) s = .next t ∧ OnlyBench s t b c ∧ (t.bench b).items = is ∧
        t.core (coreNo b c) = { x with
          sreg := if i.arg = 0 then [] else [(1, i.arg)], vreg := [], preg := [], pc := BitVec.ofNat 13 i.entry,
          pastEnd := false, run := .running, wait := none, item := some i, bound := i.chunk }) ∧
    (∀ (id : Fin 256) (v : Nat) (r q : Run) (i : WorkItem) (pre is : List WorkItem),
      let mine := fun (u : Nat) => u < 99 ∧ (s.ctx id).benchSet.getLsbD u = true
      let waiting := fun (u : Nat) => (s.bench u).items.length + (s.bench u).itemWait.length
      s.powered = true → (s.ctx id).st = .opened → mine b → mine v →
      (∀ u, mine u → waiting u < waiting v ∨ (waiting u = waiting v ∧ v ≤ u)) →
      s.runOn b = some r → r.dba = true → s.runOn v = some q → q.dba = true → (s.bench b).st = .awake →
      (s.bench b).items = [] → (s.bench b).itemWait = [] → (s.bench v).itemWait = [] →
      (∃ k < 8, (s.core (b.val * 8 + k)).run = .halted) → (s.bench v).items = pre ++ i :: is →
      (∀ p ∈ pre, p.chunk ≠ none) → i.chunk = none →
      ∃ t, exec (.steal id b) s = .next t ∧
        (t.bench v).items = pre ++ is ∧ (t.bench b).items = [{ i with num := (s.bench b).itemNum }] ∧
        (∀ u, u ≠ b.val → u ≠ v → (t.bench u).items = (s.bench u).items) ∧ t.cores = s.cores ∧ t.ls = s.ls ∧ t.is = s.is ∧
        t.regN (Reg.stealsIn b) = min (s.regN (Reg.stealsIn b) + 1) 0xFFFFFFFF ∧
        t.regN (Reg.stealsOut v) = min (s.regN (Reg.stealsOut v) + 1) 0xFFFFFFFF)

/-- The state in which a warden program's write to a register is made: one to a bench's block wakes the bench (R208; that
the demand is the write's is the model's: log entry 63). -/
def demanded (s : State) (o : Nat) : State :=
  if 0x2000000 ≤ o ∧ o < 0x2640000 then s.wakeBench ((o - 0x2000000) / 0x10000) else s

/-- RDSR: the core's identity, fabric time, its cycles, its load limit, and DMA_STATUS (R240; that cycles follow always-on
time is the model's: log entry 31); CTRRD of a counter; RDREG and WRREG of bench 99, which follow the register rules as host
accesses do (R239). RDREG wakes nothing (R496); that WRREG wakes the bench whose block it writes is the model's reading of
R208 (log entry 63). -/
def Obligations.SpecialRegisters : Prop :=
  ∀ (s : State) (b : Fin 100) (c : Fin 8) (w : W64), Unlogged s b →
    let x := s.core (coreNo b c)
    let a := x.s (iA w)
    let gives := fun (i : Instr) (v : W64) => ∃ t, exec i s = .next t ∧ OnlyCore (s.fetched b c) t b c ∧
      t.core (coreNo b c) = x.after (x.setS (iD w) v)
    (Fires s b c w 7 0x01 → iImm w = 0 → gives (.rdsr b c) (s.coreId b c)) ∧
    (Fires s b c w 7 0x01 → iImm w = 1 → gives (.rdsr b c) s.clk.ftime) ∧
    (Fires s b c w 7 0x01 → iImm w = 2 → gives (.rdsr b c) (BitVec.ofNat 64 ((s.now - (s.bench b).wokeAt) * 8 / 5))) ∧
    (Fires s b c w 7 0x01 → iImm w = 3 → gives (.rdsr b c) (BitVec.ofNat 64 x.loadLimit)) ∧
    (Fires s b c w 7 0x01 → iImm w = 4 → gives (.rdsr b c)
      (BitVec.ofNat 64 (x.dmaStatus.toNat + 256 * x.dmaQ.length))) ∧
    (Fires s b c w 7 0x02 → (∀ y, s.coreCtx b = some y → (s.ctx y).perms.getLsbD 0 = true) → a.toNat % 4 = 0 →
      (b.val = 99 → Clear s (.warden c)) →
      counterNamed (a.toNat % 2 ^ 22) = true → s.counterOpen b (a.toNat % 2 ^ 22) = true →
      gives (.ctrrd b c) (s.regValue (0x3F00000 + a.toNat % 2 ^ 22))) ∧
    (Fires s b c w 7 0x10 → b.val ≠ 99 → ∃ t, exec (.rdreg b c) s = .next t ∧ Raised s t b c 0x03 0) ∧
    (Fires s b c w 7 0x11 → b.val ≠ 99 → ∃ t, exec (.wrreg b c) s = .next t ∧ Raised s t b c 0x03 0) ∧
    (Fires s b c w 7 0x10 → b.val = 99 → a.toNat % 4 = 0 →
      let r := (s.fetched b c).readWord (.warden c) (a.toNat % 2 ^ 26)
      ∃ t, exec (.rdreg b c) s = .next t ∧ OnlyCore r.2 t b c ∧
        t.core (coreNo b c) = (r.2.core (coreNo b c)).after ((r.2.core (coreNo b c)).setS (iD w) r.1)) ∧
    (Fires s b c w 7 0x11 → b.val = 99 → a.toNat % 4 = 0 →
      ∃ u, OnlyCore (s.fetched b c) u b c ∧ u.core (coreNo b c) = x.after x ∧
        exec (.wrreg b c) s = .next ((demanded u (a.toNat % 2 ^ 26)).writeWord (.warden c) (a.toNat % 2 ^ 26)
          (BitVec.ofNat 32 (x.s (iB w)).toNat)))

/-! ### Communicate and fused instructions -/

/-- What an instruction that moves bytes between a bench's local stores and its queues leaves alone. -/
structure LocalAccess (s t : State) (b : Fin 100) (c : Fin 8) : Prop where
  cores : ∀ k, k ≠ coreNo b c → t.core k = s.core k
  benches : ∀ i, i ≠ b.val → t.bench i = s.bench i
  regs : ∀ off, ¬ benchCounter b off → off ≠ Reg.lsCe b → t.reg off = s.reg off
  rest : t = { s with
    cores := t.cores, benches := t.benches, regs := t.regs, badWords := t.badWords, ls := t.ls, sw := t.sw }

/-- Bytes written from address `a` of a core's local store, and no other byte of any local store changed. -/
def LocalBytes (s t : State) (b : Fin 100) (c : Fin 8) (a : Nat) (bs : List Byte) : Prop :=
  t.spaceBytes b c 0 a bs.length = bs ∧
  ∀ j, j < coreNo b c * 262144 + a ∨ coreNo b c * 262144 + a + bs.length ≤ j → sget 0 t.ls j = sget 0 s.ls j

/-- The packets of a DISPATCH (R262): one per list entry, to its coordinate, each the TAG and the row. -/
def dispatchPackets (s : State) (b : Fin 100) (t : W64) (list row : List Byte) (k : Nat) : List Packet :=
  (List.range k).map (fun i =>
    let e := u64 list (8 + 16 * i)
    s.sendPacket b (BitVec.ofNat 32 e) (setFld (BitVec.ofNat 32 t.toNat) 17 1 1)
      (setFld (setFld (BitVec.ofNat 32 (t.toNat / 2 ^ 32)) 0 12 (e / 2 ^ 32)) 12 16 (e / 2 ^ 44)) 1
      (slice list (16 + 16 * i) 8 ++ row))

/-- SEND puts a packet of the template and the local-store bytes at the end of the bench's send queue, or
waits for room; a packet that has room departs first in, first out; DISPATCH queues one packet per
list entry (R247-R249, R262). -/
def Obligations.SendsQueuePackets : Prop :=
  ∀ (s : State) (b : Fin 100) (c : Fin 8) (w : W64),
    let x := s.core (coreNo b c)
    let pkt := fun (w : W64) => s.sendPacket b (BitVec.ofNat 32 (x.s (iA w)).toNat)
      (BitVec.ofNat 32 (x.s (iC w)).toNat) (BitVec.ofNat 32 ((x.s (iC w)).toNat / 2 ^ 32)) (fld (x.s (iA w)) 32 16)
      (s.spaceBytes b c 0 (x.s (iB w)).toNat (fld (x.s (iC w)) 0 14))
    let ok := fun (w : W64) => lsCheck (x.s (iB w)) (fld (x.s (iC w)) 0 14) = 0 ∧
      s.sendCode b (x.s (iA w)) (x.s (iC w)) = 0 ∧
      s.badCount b c 0 (x.s (iB w)).toNat (fld (x.s (iC w)) 0 14) false = 0
    let queues := fun (u : State) (i : Instr) (w : W64) => ∃ t, exec i s = .next t ∧ LocalAccess u t b c ∧ t.ls = s.ls ∧
      t.core (coreNo b c) = x.after ((x.near 0 (x.s (iB w)).toNat).setS (iD w) 0) ∧
      (t.bench b).sendQ = (s.bench b).sendQ ++ [(pkt w, c.val)]
    (Fires s b c w 4 0x01 → ok w → s.sendUsed b + pktUnits (pkt w) ≤ 128 → queues (s.fetched b c) (.send b c) w) ∧
    (Fires s b c w 4 0x01 → ok w → 128 < s.sendUsed b + pktUnits (pkt w) → exec (.send b c) s =
      .next ((s.fetched b c).modCore (coreNo b c) (fun y => { y with run := .waiting, wait := some ⟨.sendRoom, w, none⟩ }))) ∧
    (∀ q, s.waitsFor b c .sendRoom = some q → iFam q.word = 4 → ok q.word →
      s.sendUsed b + pktUnits (pkt q.word) ≤ 128 → queues s (.sendQueueRoom b c) q.word) ∧
    (∀ p k ps t, s.powered = true → (s.bench b).sendQ = (p, k) :: ps → Unlogged s b →
      (s.modBench b (fun y => { y with sendQ := ps })).sendRequest (.bench b) p = some t →
      exec (.sendqDepart b) s = .next t) ∧
    (∀ list row k, Fires s b c w 5 0x07 →
      list = s.spaceBytes b c 0 (x.s (iA w)).toNat (8 + 16 * k) →
      row = s.spaceBytes b c 0 (x.s (iC w)).toNat (fld (x.s (iB w)) 0 14) → u64 list 0 = k → 1 ≤ k → k ≤ 8 →
      lsCheck (x.s (iA w)) (8 + 16 * k) = 0 → lsCheck (x.s (iC w)) (fld (x.s (iB w)) 0 14) = 0 →
      s.badCount b c 0 (x.s (iA w)).toNat (8 + 16 * k) false = 0 →
      s.badCount b c 0 (x.s (iC w)).toNat (fld (x.s (iB w)) 0 14) false = 0 →
      (∀ i < k, u64 list (8 + 16 * i) < 2 ^ 60) → s.dispatchCode b (x.s (iB w)) k false = 0 →
      s.sendUsed b + ((dispatchPackets s b (x.s (iB w)) list row k).map pktUnits).sum ≤ 128 →
      ∃ t, exec (.dispatch b c) s = .next t ∧ LocalAccess (s.fetched b c) t b c ∧ t.ls = s.ls ∧
        ((t.core (coreNo b c)).s (iD w) = 0 ∨ iD w = 0) ∧ (t.core (coreNo b c)).pc = x.pc + 1 ∧
        (t.bench b).sendQ = (s.bench b).sendQ ++
          (dispatchPackets s b (x.s (iB w)) list row k).map (fun p => (p, c.val)))

/-- RECV writes the head packet to the local store and removes it; RECVH writes its header and leaves it;
a packet that arrives ends either's wait; the timeout gives 0; DROP discards the head (R246, R250-R252), in a
context that is not logged. Nothing but the core, its bench, the local store and the link credits changes; a head that is
the local copy of a multicast packet also reads its copy in the packet buffer (R76, R77). -/
def Obligations.ReceivesTakePackets : Prop :=
  ∀ (s : State) (b : Fin 100) (c : Fin 8) (w : W64) (p : Inbound) (ps : List Inbound), Unlogged s b →
    let x := s.core (coreNo b c)
    let head := (s.bench b).recvQ = p :: ps ∧ (s.bench b).recvWait = [] ∧ (s.bench b).vc5Wait = []
    let ok := fun (w : W64) n => lsCheck (x.s (iA w)) n = 0 ∧ s.badCount b c 0 (x.s (iA w)).toNat n false = 0
    let takes := fun (u : State) (i : Instr) (w : W64) (bs : List Byte) (q : List Inbound) => ∃ t, exec i s = .next t ∧
      (p.stored = none ∨ q = p :: ps → LocalAccess u t b c) ∧ LocalBytes s t b c (x.s (iA w)).toNat bs ∧
      (t.bench b).recvQ = q ∧ (∀ k, k ≠ coreNo b c → t.core k = s.core k) ∧
      t.core (coreNo b c) = x.after ((x.near 0 (x.s (iA w)).toNat).setS (iD w) (BitVec.ofNat 64 (256 * bs.length)))
    (Fires s b c w 4 0x02 → head → hPoison p.pkt.h = false → lsCheck (x.s (iA w)) (x.s (iB w)).toNat = 0 →
      recvSize p.pkt ≤ (x.s (iB w)).toNat → (recvBytes p.pkt).length = recvSize p.pkt → ok w (recvSize p.pkt) →
      takes (s.fetched b c) (.recv b c) w (recvBytes p.pkt) ps) ∧
    (Fires s b c w 4 0x02 → head → hPoison p.pkt.h = false → lsCheck (x.s (iA w)) (x.s (iB w)).toNat = 0 →
      (x.s (iB w)).toNat < recvSize p.pkt → ∃ t, exec (.recv b c) s = .next t ∧ OnlyCore (s.fetched b c) t b c ∧
        t.core (coreNo b c) = x.after (x.setS (iD w) (BitVec.ofNat 64 (0x05 + 256 * recvSize p.pkt)))) ∧
    (Fires s b c w 4 0x02 → (s.bench b).recvQ = [] → lsCheck (x.s (iA w)) (x.s (iB w)).toNat = 0 →
      exec (.recv b c) s = .next ((s.fetched b c).modCore (coreNo b c) (fun y => { y with
        run := .waiting,
        wait := some ⟨.recv, w, if x.s (iC w) = 0 then none else some (s.clk.ftime.toNat + (x.s (iC w)).toNat)⟩ }))) ∧
    (Fires s b c w 4 0x03 → head → ok w 20 → takes (s.fetched b c) (.recvh b c) w (recvhBytes p.pkt) (p :: ps)) ∧
    (∀ q, s.waitsFor b c .recv = some q → head → hPoison p.pkt.h = false →
      recvSize p.pkt ≤ (x.s (iB q.word)).toNat → (recvBytes p.pkt).length = recvSize p.pkt → ok q.word (recvSize p.pkt) →
      takes s (.recvDeliver b c) q.word (recvBytes p.pkt) ps) ∧
    (∀ q d, s.waitsFor b c .recv = some q → q.deadline = some d → d ≤ s.clk.ftime.toNat → (s.bench b).recvQ = [] →
      ∃ t, exec (.recvTimeout b c) s = .next t ∧ OnlyCore s t b c ∧
        t.core (coreNo b c) = x.after (x.setS (iD q.word) 0)) ∧
    (Fires s b c w 4 0x04 → head → ∃ t, exec (.drop b c) s = .next t ∧
      (p.stored = none → LocalAccess (s.fetched b c) t b c) ∧ t.ls = s.ls ∧ (t.bench b).recvQ = ps ∧
      (∀ k, k ≠ coreNo b c → t.core k = s.core k) ∧
      t.core (coreNo b c) = x.after (x.setS (iD w) (BitVec.ofNat 64 (256 * recvSize p.pkt)))) ∧
    (Fires s b c w 4 0x04 → (s.bench b).recvQ = [] → ∃ t, exec (.drop b c) s = .next t ∧ OnlyCore (s.fetched b c) t b c ∧
      t.core (coreNo b c) = x.after (x.setS (iD w) 0))

/-! ### What a collective message must meet (R124) -/

/-- Orders 2 to 5 of R124 pass for a message: its context is open under its generation and partition, not fenced and
neither recorded nor replayed, and the unit is enabled. -/
structure ContextPasses (s : State) (q : CollMsg) : Prop where
  opened : (s.ctx (handleCtx q.key.handle)).st = .opened
  free : (s.ctx (handleCtx q.key.handle)).fenced = false
  service : s.fault.oos = false
  enabled : s.collEn = true
  gen : q.key.gen = (s.ctx (handleCtx q.key.handle)).gen
  part : q.part = (s.ctx (handleCtx q.key.handle)).part.toNat
  unlogged : s.recording (handleCtx q.key.handle) = false ∧ s.replaying (handleCtx q.key.handle) = false

/-- The elements of a CONTRIB or PARTIAL are whole (R120, R124 order 6, R137). -/
abbrev WholeElems (x : Entry) (q : CollMsg) : Prop :=
  (q.stype = stContrib → (isMx x.etype = true → q.ecount % 32 = 0) ∧
    q.payload.length = 24 + elemBytes x.etype q.ecount) ∧
  (q.stype = stPartial →
    (parsePartial (if x.frit then 2 else x.mode) x.etype q.ecount (q.payload.drop 24)).isSome = true)

/-- The form an instance of entry `x` and `total` elements asks of a contribution: the chunk's element count; or in VARSIZE
a part of the member's own range, within the chunk, not received before (R124 order 6, R144). -/
abbrev ContribForm (x : Entry) (total : Nat) (offset count recv : Nat) (q : CollMsg) : Prop :=
  let n := chunkElems total x.e q.chunk
  let g := q.chunk * x.e + fld q.aux 0 16
  q.member < x.members ∧ q.chunk < nchunks total x.e ∧ WholeElems x q ∧
  (x.varsize = false → q.ecount = n) ∧
  (x.varsize = true → fld q.aux 0 16 + q.ecount ≤ n ∧ (isMx x.etype = true → fld q.aux 0 16 % 32 = 0) ∧
    offset ≤ g ∧ g + q.ecount ≤ offset + count ∧
    recv + q.ecount ≤ min (offset + count) (q.chunk * x.e + n) - max offset (q.chunk * x.e))

/-- Orders 8 and 9 of R124 pass: the digest over `total`, the source of the member table, and no poison. -/
structure Agrees (x : Entry) (total : Nat) (members : List W32) (q : CollMsg) : Prop where
  digest : q.dg = digest x total q.key.step
  source : x.mtabEn = true → members.getD q.member 0 = q.src
  sound : q.poison = false

/-- The total that the digest of a running instance's messages covers (R118). -/
def digestOver (i : Inst) : Nat := if i.ent.varsize then i.total else i.ent.total

/-- A contribution of a running instance that passes every check of R124: its chunk's slot is its own, and neither the chunk
nor, but in VARSIZE, the member is done (R124 orders 10 and 12). -/
structure Accepted (s : State) (q : CollMsg) (i : Inst) : Prop where
  context : ContextPasses s q
  record : s.inst? q.key = some i
  running : i.st = .running
  valid : i.ent.valid = true
  form : ContribForm i.ent i.total (i.offsets.getD q.member 0) (sget 0 i.counts q.member)
    (sget 0 (i.chunk q.chunk).recv q.member) q
  agrees : Agrees i.ent (digestOver i) i.members q
  slot : q.chunk < i.slots ∨ i.written.contains (q.chunk - i.slots) = true
  unwritten : i.written.contains q.chunk = false
  fresh : i.ent.varsize = false → (i.chunk q.chunk).seen.contains q.member = false

/-- The table's entry of a handle. -/
def tableEntry (s : State) (h : BitVec 20) : Entry := entryOf (s.readWords (s.entryAddr h) 16)

/-- A message of a step without a record (R124): the entry is readable and valid, with its member table in a window, the
message agrees with it over `total` elements, and a record is free. -/
structure NewRecord (s : State) (q : CollMsg) (total : Nat) : Prop where
  context : ContextPasses s q
  none : s.inst? q.key = none
  readable : s.ueLines (s.entryAddr q.key.handle) 64 = []
  valid : (tableEntry s q.key.handle).valid = true
  invalid : entryInvalid (tableEntry s q.key.handle) (s.ownersOf (handleCtx q.key.handle)).length = false
  table : (tableEntry s q.key.handle).mtabEn = true →
    (s.findWin (handleCtx q.key.handle) (tableEntry s q.key.handle).mtab (4 * (tableEntry s q.key.handle).members)).isSome = true ∧
    s.ueLines (tableEntry s q.key.handle).mtab (4 * (tableEntry s q.key.handle).members) = []
  agrees : Agrees (tableEntry s q.key.handle) total (s.memberTable (tableEntry s q.key.handle)) q
  records : s.coll.insts.length < 16384

/-- It may open an instance of a fixed total (R127, R128, R149): a frit slot is free, or its parisons find their place,
`sp` in the spill area. -/
structure NewStep (s : State) (q : CollMsg) (sp : Bool) : Prop where
  record : NewRecord s q (tableEntry s q.key.handle).total
  fixed : (tableEntry s q.key.handle).varsize = false
  room : if (tableEntry s q.key.handle).frit = true then s.fritUsed < 64 ∧ sp = false
    else s.place (tableEntry s q.key.handle) (tableEntry s q.key.handle).total (s.ownersOf (handleCtx q.key.handle))
      (handleCtx q.key.handle) = some sp

/-- The record that opening makes: running, with the entry, its members and the owner benches as they are now, and no other
record changed (R127, R128, R132). -/
def Opened (s t : State) (q : CollMsg) (sp : Bool) (i : Inst) : Prop :=
  t.inst? q.key = some i ∧ i.key = q.key ∧ i.st = .running ∧ i.ent = tableEntry s q.key.handle ∧
  i.total = (tableEntry s q.key.handle).total ∧ i.members = s.memberTable (tableEntry s q.key.handle) ∧
  i.owners = s.ownersOf (handleCtx q.key.handle) ∧ i.spilled = sp ∧ i.openedAt = s.now ∧
  i.primClaim = 0x80 ∧ i.twinClaim = (if i.ent.twin then 0x40 else 0) ∧
  (∀ k, k ≠ q.key → t.inst? k = s.inst? k) ∧ t.regN Reg.opens = min (s.regN Reg.opens + 1) 0xFFFFFFFF

/-- The chunk's owner benches have room for a contribution, and no core waits for its turn there (R199). -/
def RoomFor (s : State) (q : CollMsg) : Prop :=
  ∀ b ∈ s.targetBenches q, s.adderDepth b + cdiv (20 + q.payload.length) 256 ≤ 512 ∧
    ∀ k < 8, ∀ w, (s.core (b * 8 + k)).wait = some w → w.kind ≠ .contrib

/-- The contribution enters the queue of its chunk's bench under each claim that stands, its member counts as seen, and no
other bench's queue changes (R127, R146). -/
def Steered (s t : State) (q : CollMsg) (i : Inst) : Prop :=
  let p := i.bench q.chunk false
  let w := i.bench q.chunk true
  let y := contribOf q i.ent
  (i.primClaim ≠ 0 → i.twinClaim = 0 ∨ p ≠ w → (t.bench p).adderQ = (s.bench p).adderQ ++ [y]) ∧
  (i.twinClaim ≠ 0 → i.primClaim = 0 ∨ p ≠ w →
    (t.bench w).adderQ = (s.bench w).adderQ ++ [{ y with twin := true }]) ∧
  (∀ b, b ≠ p → b ≠ w → (t.bench b).adderQ = (s.bench b).adderQ) ∧
  (t.inst? q.key).map (fun j => ((j.chunk q.chunk).seen, sget 0 (j.chunk q.chunk).recv q.member)) =
    some ((i.chunk q.chunk).seen ++ [q.member], sget 0 (i.chunk q.chunk).recv q.member + q.ecount)

/-- What R255 asks of a fused instruction of a core: its context's handle with a valid entry that reads soundly and is
itself valid, an open context that is not fenced, and the unit enabled. -/
structure MayContribute (s : State) (b : Fin 100) (h : BitVec 20) : Prop where
  bench : b.val ≠ 99
  mine : s.coreCtx b = some (handleCtx h)
  opened : (s.ctx (handleCtx h)).st = .opened
  free : (s.ctx (handleCtx h)).fenced = false
  enabled : s.collEn = true
  readable : s.ueLines (s.entryAddr h) 64 = []
  valid : (tableEntry s h).valid = true
  invalid : entryInvalid (tableEntry s h) (s.ownersOf (handleCtx h)).length = false

/-- The source elements: decoded by TYPE, and times the FP32 weight in s[D] for SCONTRIB (R257). -/
def sourceVals (s : State) (b : Fin 100) (c : Fin 8) (w : W64) : List Val :=
  let x := s.core (coreNo b c)
  let n := fld (x.s (iB w)) 24 16
  let vs := decodeElems (iType w) n (s.spaceBytes b c 0 (x.s (iC w)).toNat (elemBytes (iType w) n))
  if iOp w = 3 then vs.map (fun v => v.mul (fp32.decode ((x.s (iD w)).toNat % 2 ^ 32))) else vs

/-- The message of a core's contribution: the operands' key, chunk, member and count, and the elements converted once to the
entry's type (R254, R256, R257). -/
def coreContribution (s : State) (b : Fin 100) (c : Fin 8) (w : W64) : Inbound :=
  let co := (s.core (coreNo b c)).s (iA w)
  let ch := (s.core (coreNo b c)).s (iB w)
  let x := tableEntry s (coHandle co)
  s.coreMsg b c co stContrib (fld ch 0 24) (fld ch 24 16)
    (s.contribElems co ch x.etype x.e (iRnd w) (sourceVals s b c w)).bytes

/-- A contribution's own conditions: the address, and the chunk operand and element count that the type and the entry
admit (R244, R254, R255). -/
structure Contributes (s : State) (b : Fin 100) (c : Fin 8) (w : W64) : Prop where
  may : MayContribute s b (coHandle ((s.core (coreNo b c)).s (iA w)))
  address : lsCheck ((s.core (coreNo b c)).s (iC w))
    (elemBytes (iType w) (fld ((s.core (coreNo b c)).s (iB w)) 24 16)) = 0
  sound : s.badCount b c 0 ((s.core (coreNo b c)).s (iC w)).toNat
    (elemBytes (iType w) (fld ((s.core (coreNo b c)).s (iB w)) 24 16)) false = 0
  reserved : fld ((s.core (coreNo b c)).s (iB w)) 40 24 = 0
  count : fld ((s.core (coreNo b c)).s (iB w)) 24 16 ≠ 0
  size : let x := tableEntry s (coHandle ((s.core (coreNo b c)).s (iA w)))
    elemBytes x.etype (fld ((s.core (coreNo b c)).s (iB w)) 24 16) ≤ (if x.frit then 256 else 8168)
  mx : isMx (tableEntry s (coHandle ((s.core (coreNo b c)).s (iA w)))).etype = true ∨ (iOp w = 2 ∧ isMx (iType w) = true) →
    fld ((s.core (coreNo b c)).s (iB w)) 24 16 % 32 = 0
  plain : iOp w = 2 → isMx (tableEntry s (coHandle ((s.core (coreNo b c)).s (iA w)))).etype = false

/-- CONTRIB, DQCONTRIB and SCONTRIB hand one contribution, converted once to the entry's type, on and return OK: to the
frit path unit, or into the queues of its chunk's benches when they have room and it is the cores' turn, opening its step
when there is no record; else the core waits, and goes on from there (R199, R255-R257). COPEN waits behind the
core's own contributions in that unit, or else opens its step, or reports OK for an open one in the core's status record
(R145, R255, R256, R258). -/
def Obligations.CoresContribute : Prop :=
  ∀ (s : State) (b : Fin 100) (c : Fin 8) (w : W64),
    let x := s.core (coreNo b c)
    let retired := fun (t : State) (w : W64) => t.core (coreNo b c) = x.after ((x.near 0 (x.s (iC w)).toNat).setS (iD w) 0) ∧
      (∀ k, k ≠ coreNo b c → t.core k = s.core k) ∧ t.ls = s.ls ∧ t.is = s.is ∧ t.pool.mem = s.pool.mem
    let turn := (s.bench b).coreTurn = false ∨ s.netWants b = false
    let hands := fun (i : Instr) (w : W64) =>
      let m := coreContribution s b c w
      let q := collMsgOf m
      ((tableEntry s q.key.handle).frit = true → s.inst? q.key = none →
        ∃ t, exec i s = .next t ∧ t.coll.inq = s.coll.inq ++ [m] ∧ t.coll.insts = s.coll.insts ∧ retired t w) ∧
      (∀ j, Accepted s q j → j.frit = false → j.ent.frit = false → s.adderRoom (j.bench q.chunk false) (cdiv (20 + q.payload.length) 256) = true →
        (j.ent.twin = true → s.adderRoom (j.bench q.chunk true) (cdiv (20 + q.payload.length) 256) = true) → turn →
        ∃ t, exec i s = .next t ∧ Steered s t q j ∧ t.coll.inq = s.coll.inq ∧ retired t w) ∧
      (∀ sp, NewStep s q sp → (tableEntry s q.key.handle).frit = false →
        ContribForm (tableEntry s q.key.handle) (tableEntry s q.key.handle).total 0 0 0 q →
        q.chunk < max 1 (min (tableEntry s q.key.handle).window
          (nchunks (tableEntry s q.key.handle).total (tableEntry s q.key.handle).e)) →
        (∀ v ∈ s.targetBenches q, s.adderRoom v (cdiv (20 + q.payload.length) 256) = true) → turn →
        ∃ t j, exec i s = .next t ∧ Opened s t q sp j ∧ Steered s t q { j with chunks := [] } ∧
          t.coll.inq = s.coll.inq ∧ retired t w)
    (Fires s b c w 5 0x01 → Contributes s b c w → hands (.contrib b c) w) ∧
    (Fires s b c w 5 0x02 → Contributes s b c w → hands (.dqcontrib b c) w) ∧
    (Fires s b c w 5 0x03 → Contributes s b c w → hands (.scontrib b c) w) ∧
    (∀ v, s.waitsFor b c .contrib = some v ∨ (s.waitsFor b c .contrib = none ∧ s.waitsFor b c .window = some v) →
      iFam v.word = 5 → iOp v.word = 1 ∨ iOp v.word = 2 ∨ iOp v.word = 3 → Contributes s b c v.word →
      hands (.contribIssueResume b c) v.word) ∧
    (∀ j, Fires s b c w 5 0x01 → Contributes s b c w → Accepted s (collMsgOf (coreContribution s b c w)) j → j.ent.frit = false →
      (s.targetBenches (collMsgOf (coreContribution s b c w))).contains b.val = true →
      s.adderRoom b (cdiv (20 + (collMsgOf (coreContribution s b c w)).payload.length) 256) = false →
      ∃ t, exec (.contrib b c) s = .next t ∧ t.core (coreNo b c) = { x with
        run := .waiting, wait := some ⟨.contrib, w, none⟩ } ∧ t.benches = s.benches ∧ t.coll = s.coll) ∧
    (Fires s b c w 5 0x04 → MayContribute s b (coHandle (x.s (iA w))) →
      let m := s.coreMsg b c (x.s (iA w)) stOpen 0 0 []
      let q := collMsgOf m
      ((∃ j ∈ s.coll.inq, j.core = m.core) → ∃ t, exec (.copen b c) s = .next t ∧ t.coll = { s.coll with inq := s.coll.inq ++ [m] } ∧
        t.core (coreNo b c) = x.after (x.setS (iD w) 0)) ∧
      ((∀ j ∈ s.coll.inq, j.core ≠ m.core) → (∀ j, ContextPasses s q → s.inst? q.key = some j → j.st = .running → j.ent.valid = true → q.member < j.ent.members →
        Agrees j.ent (digestOver j) j.members q → ∃ t, exec (.copen b c) s = .next t ∧ t.coll = s.coll ∧
        t.core (coreNo b c) = x.after (({ x with statusRec := w64 ((statusAux 0 (some q.member) false).toNat +
          2 ^ 32 * (coHandle (x.s (iA w))).toNat + 2 ^ 52) } : Core).setS (iD w) 0)) ∧
      (∀ sp, NewStep s q sp → q.member < (tableEntry s q.key.handle).members → ∃ t j, exec (.copen b c) s = .next t ∧
        Opened s t q sp j ∧ t.coll.inq = s.coll.inq ∧ ((t.core (coreNo b c)).s (iD w) = 0) ∧
        (t.core (coreNo b c)).pc = x.pc + 1)))

/-- The side of a chunk that bench `b` reduces: the primary's, or the twin's (R146). -/
def sideOf (i : Inst) (ch : Nat) (b : Fin 100) : Side := (i.chunk ch).side (onTwin b i ch)

/-- CTAKE writes the oldest contribution of the bound chunk to the local store, which counts as applied, or
waits; a contribution that arrives ends the wait, and the timeout gives OK with VALID 0; FINAL finalises the
chunk and unbinds the parison; CINFO gives the bound chunk's operands and the status record (R259-R261,
R263), in a context that is not logged. -/
def Obligations.ChunkProgramsReduce : Prop :=
  ∀ (s : State) (b : Fin 100) (c : Fin 8) (w : W64) (i : Inst) (ch : Nat), Unlogged s b →
    s.boundRec b c = some (i, ch) → i.live = true →
    let x := s.core (coreNo b c)
    let takes := fun (cmd : Instr) (w : W64) (q : Contribution) => ∃ t, exec cmd s = .next t ∧
      LocalBytes s t b c (x.s (iC w)).toNat q.elems ∧
      t.core (coreNo b c) = x.after ((x.near 0 (x.s (iC w)).toNat).setS (iD w)
        (BitVec.ofNat 64 (256 * (q.member % 4096) + 2 ^ 20))) ∧
      (t.bench b).adderQ = dropFirst (fun y => decide (y = q)) (s.bench b).adderQ ∧
      ((t.inst? i.key).map (fun j => ((j.chunk q.chunk).side q.twin).applied) =
        some (((i.chunk q.chunk).side q.twin).applied ++ [q.member]))
    let ok := fun (w : W64) n => lsCheck (x.s (iC w)) n = 0 ∧ s.badCount b c 0 (x.s (iC w)).toNat n false = 0
    (∀ q, Fires s b c w 5 0x05 → s.ctakeHead b i ch = some q → lsCheck (x.s (iC w)) (s.ctakeBytes b c) = 0 →
      q.elems ≠ [] → ok w q.elems.length → takes (.ctake b c) w q) ∧
    (Fires s b c w 5 0x05 → s.ctakeHead b i ch = none → lsCheck (x.s (iC w)) (s.ctakeBytes b c) = 0 →
      i.sideComplete ch (sideOf i ch b) = false → exec (.ctake b c) s =
        .next ((s.fetched b c).modCore (coreNo b c) (fun y => { y with
          run := .waiting,
          wait := some ⟨.ctake, w, if x.s (iA w) = 0 then none else some (s.clk.ftime.toNat + (x.s (iA w)).toNat)⟩ }))) ∧
    (∀ q v, s.waitsFor b c .ctake = some v → s.ctakeHead b i ch = some q → q.elems ≠ [] → ok v.word q.elems.length →
      takes (.ctakeDeliver b c) v.word q) ∧
    (∀ v d, s.waitsFor b c .ctake = some v → v.deadline = some d → d ≤ s.clk.ftime.toNat →
      s.ctakeHead b i ch = none → i.sideComplete ch (sideOf i ch b) = false →
      ∃ t, exec (.ctakeTimeout b c) s = .next t ∧ OnlyCore s t b c ∧
        t.core (coreNo b c) = x.after (x.setS (iD v.word) 0)) ∧
    (Fires s b c w 5 0x06 → s.finalCode b c w (x.s (iA w)) (x.s (iB w)) = 0 →
      ok w (elemBytes (iType w) (fld (x.s (iB w)) 24 16)) →
      ∃ t, exec (.finalChunk b c) s = .next t ∧ (t.core (coreNo b c)).bound = none ∧
        ((t.core (coreNo b c)).s (iD w) = 0) ∧ (t.core (coreNo b c)).pc = x.pc + 1 ∧
        ((t.inst? i.key).map (fun j => j.finalised.contains ch) = some true)) ∧
    (Fires s b c w 5 0x08 → ∃ t, exec (.cinfo b c) s = .next t ∧ OnlyCore (s.fetched b c) t b c ∧
      t.core (coreNo b c) = if w.toNat % 256 = 3 then x.after (({ x with statusRec := 0 } : Core).setS (iD w) x.statusRec)
        else x.after (x.setS (iD w) (if w.toNat % 256 = 0 then BitVec.ofNat 64 (i.key.handle.toNat + 2 ^ 32 * i.key.step.toNat)
          else if w.toNat % 256 = 1 then BitVec.ofNat 64 (ch % 2 ^ 24 + 2 ^ 24 * (chunkElems i.total i.ent.e ch % 65536))
          else BitVec.ofNat 64 i.ent.members)))

/-! ### DMA, benches -/

/-- Where the bytes of a transfer stand after it (R200). -/
def dmaAt (t : State) (b : Fin 100) (c : Fin 8) (y : DmaSpace) (a n : Nat) : List Byte :=
  match y with
  | .istore => mread t.is (coreNo b c * 65536 + a) n
  | y => t.dmaRead b c y a n

/-- No byte of a store or of the pool changed but the `n` at address `a` of the destination `z` of a transfer of core `c`. -/
structure DmaFrame (s t : State) (b : Fin 100) (c : Fin 8) (z : DmaSpace) (a n : Nat) : Prop where
  ls : ∀ j, (∀ k, z = .store k → j < (b.val * 8 + k) * 262144 + a ∨ (b.val * 8 + k) * 262144 + a + n ≤ j) →
    sget 0 t.ls j = sget 0 s.ls j
  is : ∀ j, (z = .istore → j < coreNo b c * 65536 + a ∨ coreNo b c * 65536 + a + n ≤ j) → sget 0 t.is j = sget 0 s.is j
  pool : ∀ j, (z = .pool → j < a ∨ a + n ≤ j) → sget 0 t.pool.mem j = sget 0 s.pool.mem j
  scratch : ∀ j, (z = .crucible → j < a ∨ a + n ≤ j) → t.spaceBytes b c 1 j 1 = s.spaceBytes b c 1 j 1

/-- The DMA engine takes the next descriptor round robin; one that fails a check ends with its code in
DMA_STATUS and its tally advanced; a transfer moves its bytes, and no others, then writes DMA_STATUS and adds 1 to its
tally (R200, R201; the order of a transfer among the pool's accesses, by when the engine took it, is the model's: log
entry 21). -/
def Obligations.DmaTransfers : Prop :=
  ∀ (s : State) (b : Fin 100) (c : Fin 8) (d : DmaDesc) (ds : List DmaDesc), s.powered = true → (s.bench b).st = .awake →
    let x := s.core (coreNo b c)
    let tallied := fun (t : State) => ∀ j, t.tally b j = if j = dTally d then s.tally b j + 1 else s.tally b j
    ((s.bench b).dmaTurn = c.val → x.dmaQ = d :: ds → (s.bench b).dmaActive = [] → s.dmaCode b c d = 0 →
      ∃ t, exec (.dmaDescriptorExecute b) s = .next t ∧ (t.core (coreNo b c)).dmaQ = ds ∧
        (t.bench b).dmaActive = [(c.val, (d, reachedAt s b c))] ∧ (t.bench b).dmaTurn = (c.val + 1) % 8 ∧ t.ls = s.ls ∧
        t.pool.mem = s.pool.mem) ∧
    ((s.bench b).dmaTurn = c.val → x.dmaQ = d :: ds → (s.bench b).dmaActive = [] → s.dmaCode b c d ≠ 0 →
      ∃ t, exec (.dmaDescriptorExecute b) s = .next t ∧ (t.core (coreNo b c)).dmaQ = ds ∧
        (t.core (coreNo b c)).dmaStatus = BitVec.ofNat 8 (s.dmaCode b c d) ∧ tallied t ∧ t.ls = s.ls ∧
        t.pool = s.pool) ∧
    (∀ q y z, (s.bench b).dmaActive = [(c.val, (d, q))] → s.dmaCode b c d = 0 → dSpaces d c = some (y, z) →
      s.dmaSrcBad b c y (dSrc d) (dLen d) = none → s.dmaDstBad z (dDst d) (dLen d) = none →
      (∀ a, (y = .pool ∧ a = dSrc d) ∨ (z = .pool ∧ a = dDst d) →
        s.memAwake a (dLen d) = true ∧ s.resident a (dLen d) = true ∧ s.poolAhead a (dLen d) q = false) →
      ∃ t, exec (.dmaComplete b c) s = .next t ∧
        dmaAt t b c z (dDst d) (dLen d) = s.dmaRead b c y (dSrc d) (dLen d) ∧ DmaFrame s t b c z (dDst d) (dLen d) ∧
        (∀ k, k ≠ coreNo b c → t.core k = s.core k) ∧
        (t.core (coreNo b c)).dmaStatus = 0 ∧ (t.bench b).dmaActive = [] ∧ tallied t)

/-- A bench that is idle sleeps and keeps its stores; a demand during sleep entry is counted and it stays
awake; a waking bench wakes; its clock returns to full rate 20 µs later; the steward restarts a failed warden
program, or holds bench 99, its cores at rest, after 8 restarts in 600 s (R193, R208-R210, R407). -/
def Obligations.BenchesSleepAndWake : Prop :=
  ∀ (s : State) (b : Fin 100), s.powered = true →
    ((s.bench b).st = .awake → s.benchIdle b = true → ∃ t, exec (.benchSleep b false) s = .next t ∧
      (t.bench b).st = .asleep ∧ (t.bench b).tallies = (s.bench b).tallies ∧ t.ls = s.ls ∧ t.is = s.is ∧
      t.regs = s.regs ∧ t.pool = s.pool) ∧
    ((s.bench b).st = .awake → s.benchIdle b = true → ∃ t, exec (.benchSleep b true) s = .next t ∧
      (t.bench b).st = .awake ∧ t.cores = s.cores ∧
      t.regN (Reg.wakeRace b) = min (s.regN (Reg.wakeRace b) + 1) 0xFFFFFFFF) ∧
    ((s.bench b).st = .waking → ∃ t, exec (.benchWakeComplete b) s = .next t ∧ (t.bench b).st = .awake ∧
      (t.bench b).wokeAt = s.now ∧ t.cores = s.cores ∧ t.ls = s.ls ∧ t.regs = s.regs) ∧
    ((s.bench b).halfRate = true → (s.bench b).wokeAt + 20000 ≤ s.now → exec (.clockRampComplete b) s =
      .next (s.modBench b (fun x => { x with halfRate := false }))) ∧
    (s.fault.wardenOwed = true → s.fault.wardenHeld = false → s.fault.stewardUp = true → s.fault.reset = none →
      let recent := s.fault.wardenRestarts.filter (fun t => decide (s.now ≤ t + 600000000000))
      ∃ t, exec .wardenRestart s = .next t ∧ t.fault.wardenOwed = false ∧
        (8 ≤ recent.length → t.fault.wardenHeld = true ∧ ∀ k, k < 8 →
          (t.core (99 * 8 + k)).run = .halted ∨ (t.core (99 * 8 + k)).run = .stopped) ∧
        (recent.length < 8 → t.fault.wardenHeld = false ∧ t.fault.wardenRestarts = recent ++ [s.now] ∧
          (t.bench 99).st = .awake ∧ t.regN Reg.wardenRestarts = min (s.regN Reg.wardenRestarts + 1) 0xFFFFFFFF ∧
          ∀ k < 8, (t.core (99 * 8 + k)).run = .running ∧ (t.core (99 * 8 + k)).sreg = [] ∧
            (t.core (99 * 8 + k)).cause = 0))

/-! ### Collectives -/

/-- The queue's first arrival from the network, of an STYPE on its VC (R120, R123). -/
structure Arrives (s : State) (stype : Nat) (m : Inbound) (rest : List Inbound) : Prop where
  powered : s.powered = true
  queue : s.coll.inq = m :: rest
  network : m.core = none
  long : 24 ≤ m.pkt.payload.length
  stype : (collMsgOf m).stype = stype

/-- The first arrival left the queue and its copy counts as read (R76). -/
def arrivalTaken (s : State) (m : Inbound) (rest : List Inbound) : State :=
  ({ s with coll := { s.coll with inq := rest } } : State).readCopy m.stored

/-- After a take, what each arrival left in the queue does while it waits: a demand for its entry's controller, and the
return of a VC2 arrival's credit (R26, R30). -/
def settled (s : State) : State := s.coll.inq.foldl State.collWait s

/-- The queue holds these arrivals, whose credits may have been returned. -/
def Waits (t : State) (rest : List Inbound) : Prop :=
  t.coll.inq.map (fun j => { j with units := 0 }) = rest.map (fun j => { j with units := 0 })

/-- The queue holds these arrivals first. -/
def WaitsFirst (t : State) (rest : List Inbound) : Prop :=
  rest.map (fun j => { j with units := 0 }) <+: t.coll.inq.map (fun j => { j with units := 0 })

/-- Arrivals that pass R123 and R124. A contribution or a PARTIAL of a running instance enters the queues of its
chunk's benches, or on the frit path is reduced at once, the last one finalising its chunk; one whose member or chunk is done
is counted and discarded; a contribution or an OPEN of a new step opens an instance, and an OPEN of an open one is answered OK;
a COUNT is held, the first in a new record, and the last gives the ranges. An upper RESULT is sent on once per chunk, and an upper STATUS for a chunk of the
instance, or for all of it, poisons the instance with its code, a reserved code as INTERNAL; a poisoned one with POISON; one
that matches no instance or no chunk is an orphan (R13, R48, R124, R127, R128, R132, R137, R142-R146, R149). What R124 leaves
open of its checks rests on log entries 44 and 62, and what arrivals that wait give back on log entry 62; by which way a contribution
reaches the queues, and the order of an OPEN's checks, on log entry 18. -/
def Obligations.CollectiveArrivals : Prop :=
  ∀ (s : State) (m : Inbound) (rest : List Inbound) (i : Inst),
    let q := collMsgOf m
    let u := (arrivalTaken s m rest).collTaken q
    let contribution := fun (cmd : Instr) =>
      (Accepted s q i → i.frit = false → i.ent.frit = false → q.vc = 2 → RoomFor s q →
        ∃ t, exec cmd s = .next t ∧ Waits t rest ∧ Steered s t q i) ∧
      (Accepted s q i → i.frit = true → i.ent.frit = true → q.vc = 1 ∨ q.vc = 2 → ∃ t, exec cmd s = .next t ∧ WaitsFirst t rest ∧
        let y := takeInto i.ent true (contribOf q i.ent) (i.chunk q.chunk).main
        (i.sideComplete q.chunk y = false → (t.inst? q.key).map (fun j => ((j.chunk q.chunk).seen, (j.chunk q.chunk).main)) =
          some ((i.chunk q.chunk).seen ++ [q.member], y)) ∧
        (i.sideComplete q.chunk y = true →
          (t.inst? q.key).map (fun j => j.finalised.contains q.chunk) = some true)) ∧
      (ContextPasses s q → s.inst? q.key = some i → i.st = .running → i.ent.valid = true → i.ent.varsize = false →
        q.member < i.ent.members → q.chunk < i.chunks' → q.ecount = chunkElems i.total i.ent.e q.chunk → WholeElems i.ent q →
        Agrees i.ent (digestOver i) i.members q → q.vc = 2 → RoomFor s q →
        i.written.contains q.chunk = true ∨ (i.chunk q.chunk).seen.contains q.member = true →
        ∃ t, exec cmd s = .next t ∧ Waits t rest ∧ t.coll.insts = s.coll.insts ∧ t.benches = s.benches ∧
          t.regN Reg.dupContrib = min (s.regN Reg.dupContrib + 1) 0xFFFFFFFF)
    (Arrives s stContrib m rest → contribution (.contribArrival .clean)) ∧
    (Arrives s stPartial m rest → contribution (.partialArrival .clean)) ∧
    (∀ sp, Arrives s stContrib m rest → NewStep s q sp → s.memAwake (s.entryAddr q.key.handle) 64 = true →
      (tableEntry s q.key.handle).frit = false → q.vc = 2 → RoomFor s q →
      ContribForm (tableEntry s q.key.handle) (tableEntry s q.key.handle).total 0 0 0 q →
      q.chunk < max 1 (min (tableEntry s q.key.handle).window
        (nchunks (tableEntry s q.key.handle).total (tableEntry s q.key.handle).e)) →
      ∃ t j, exec (.contribArrival .clean) s = .next t ∧ Waits t rest ∧ Opened s t q sp j ∧
        Steered s t q { j with chunks := [] }) ∧
    (∀ sp, Arrives s stOpen m rest → NewStep s q sp → s.memAwake (s.entryAddr q.key.handle) 64 = true → q.vc = 2 →
      q.member < (tableEntry s q.key.handle).members → q.payload.length = 24 →
      ∃ t j, exec .openArrival s = .next t ∧ WaitsFirst t rest ∧ Opened s t q sp j) ∧
    (Arrives s stOpen m rest → ContextPasses s q → s.inst? q.key = some i → i.st = .running → i.ent.valid = true →
      q.member < i.ent.members → q.payload.length = 24 → Agrees i.ent (digestOver i) i.members q → q.vc = 2 →
      exec .openArrival s = .next (settled (u.statusTo q.key q.src none q.chunk q.member q.dg
        (statusAux 0 (some q.member) false)))) ∧
    (Arrives s stCount m rest → ContextPasses s q → q.vc = 1 → q.payload.length = 24 → q.ecount = 0 → q.chunk = 0 →
      (NewRecord s q 0 → s.memAwake (s.entryAddr q.key.handle) 64 = true → (tableEntry s q.key.handle).varsize = true →
        q.member < (tableEntry s q.key.handle).members → (isMx (tableEntry s q.key.handle).etype = true → q.aux.toNat % 32 = 0) →
        s.fritUsed < 64 →
        ∃ t, exec .countArrival s = .next t ∧ Waits t rest ∧
          (t.inst? q.key).map (fun j => (j.st, j.ent, sget 0 j.counts q.member)) =
            some (.counting, tableEntry s q.key.handle, q.aux.toNat)) ∧
      (s.inst? q.key = some i → i.st = .counting → i.ent.valid = true → i.ent.varsize = true → q.member < i.ent.members →
        (isMx i.ent.etype = true → q.aux.toNat % 32 = 0) → Agrees i.ent 0 i.members q → sget 0 i.memberChunks q.member = 0 →
        (i.memberChunks.length + 1 < i.ent.members → ∃ t, exec .countArrival s = .next t ∧ Waits t rest ∧
          (t.inst? q.key).map (fun j => (j.st, sget 0 j.counts q.member)) = some (.counting, q.aux.toNat)) ∧
        (swf 0 i.memberChunks = true → i.memberChunks.length + 1 = i.ent.members →
          let cs := (List.range i.ent.members).map (sget 0 (sset 0 i.counts q.member q.aux.toNat))
          cs.sum ≠ 0 → cs.sum < 2 ^ 40 → nchunks cs.sum i.ent.e ≤ 16777215 →
          ((s.place i.ent cs.sum (s.ownersOf i.ctx) i.ctx).isSome = true) →
          ∃ t, exec .countArrival s = .next t ∧ WaitsFirst t rest ∧
            (t.inst? q.key).map (fun j => (j.st, j.total, j.offsets)) =
              some (.running, cs.sum, (List.range i.ent.members).map (fun k => (cs.take k).sum))))) ∧
    (Arrives s stResult m rest → q.vc = 3 ∨ (q.vc = 1 ∧ i.frit = true) → s.upperMatch q = some i → s.inst? i.key = some i →
      s.recording i.ctx = false → s.replaying i.ctx = false → q.chunk < i.chunks' → i.upperDone.contains q.chunk = false →
      let sent := (u.collSendAll i.key (.result i.key q.chunk 100) recColl (u.resultPackets i q.chunk (q.payload.drop 24))).modInst
        i.key (fun j => { j with upperDone := insertNat q.chunk j.upperDone })
      (q.poison = false → i.upperDone.length + 1 < i.chunks' → exec .upperResultArrival s = .next (settled sent)) ∧
      (q.poison = false → i.chunks' ≤ i.upperDone.length + 1 → exec .upperResultArrival s = .next (settled (sent.completeInst i.key))) ∧
      (q.poison = true → ∃ t, exec .upperResultArrival s = .next t ∧ WaitsFirst t rest ∧
        (t.inst? i.key).map (fun j => (j.st, j.code)) = some (.poisoned, 0x07))) ∧
    (Arrives s stResult m rest → q.vc = 3 → s.upperMatch q = none → ∃ t, exec .upperResultArrival s = .next t ∧
      Waits t rest ∧ t.coll.insts = s.coll.insts ∧ t.regN Reg.upperOrphan = min (s.regN Reg.upperOrphan + 1) 0xFFFFFFFF) ∧
    (Arrives s stStatus m rest → q.vc = 3 → s.upperMatch q = some i → s.inst? i.key = some i →
      s.recording i.ctx = false → s.replaying i.ctx = false →
      let code := fld q.aux 0 8
      (q.chunk < i.chunks' ∨ q.chunk = 0xFFFFFF → ∃ t, exec .upperStatusArrival s = .next t ∧ WaitsFirst t rest ∧
        (t.inst? i.key).map (fun j => (j.st, j.code)) = some (.poisoned,
          if q.poison = true then 0x07 else if code ≤ 0x0C ∨ code = 0x0F then BitVec.ofNat 8 code else 0x0F)) ∧
      (i.chunks' ≤ q.chunk → q.chunk ≠ 0xFFFFFF → ∃ t, exec .upperStatusArrival s = .next t ∧ Waits t rest ∧
        t.coll.insts = s.coll.insts ∧ t.regN Reg.upperOrphan = min (s.regN Reg.upperOrphan + 1) 0xFFFFFFFF))

/-- An adder engine that is awake takes the oldest contribution of its bench's queue that belongs to no chunk program, adds
it to its side of the chunk, and with the last finalises the chunk; a chunk's write completes when none of its
packets is held, and the last write completes an instance without an upper tier; an instance past its timeout is
abandoned with INCOMPLETE; a tombstone past TOMB_HOLD leaves; a twin that has held an unsent result for 1.5 µs takes over and
sends it (R131, R133, R135, R147, R199), in contexts that are not logged. -/
def Obligations.CollectiveProgress : Prop :=
  ∀ (s : State) (k : InstKey) (i : Inst), s.powered = true → s.inst? k = some i →
    (∀ (b : Fin 100) (q : Contribution) (pre post : List Contribution), (s.bench b).st = .awake → s.fenceActive = false →
      (∀ x, s.ownerOf b = some x → s.replaying x = false) → s.recording (handleCtx k.handle) = false →
      (s.bench b).adderQ = pre ++ q :: post → (∀ p ∈ pre, ∃ j, s.inst? p.key = some j ∧ j.ent.program = true) →
      q.key = k → i.live = true → i.ent.program = false → ((i.chunk q.chunk).side q.twin).bad = [] →
      let y := takeInto i.ent false q ((i.chunk q.chunk).side q.twin)
      ∃ t, exec (.adderTake b .clean) s = .next t ∧ s.coll.inq <+: t.coll.inq ∧
        (∀ k', k' ≠ k → t.inst? k' = s.inst? k') ∧
        (i.sideComplete q.chunk y = false → (t.bench b).adderQ = pre ++ post ∧
          (t.inst? k).map (fun j => (j.chunk q.chunk).side q.twin) = some y ∧ t.sw.held = s.sw.held) ∧
        (i.sideComplete q.chunk y = true → (t.inst? k).map (fun j => j.finalised.contains q.chunk) = some true)) ∧
    (∀ c, i.st = .running → (i.chunk c).sent = true → i.written.contains c = false →
      (∀ h ∈ s.sw.held, ∀ b, h.writer ≠ .result k c b) →
      ∃ t, exec (.resultWriteComplete k c) s = .next t ∧
        (t.inst? k).map (fun j => (j.written, j.st)) = some (insertNat c i.written,
          if i.ent.upperEn = false ∧ i.chunks' ≤ (insertNat c i.written).length then .complete else .running)) ∧
    (i.live = true → s.fenceActive = false → i.openedAt + i.timeoutNs ≤ s.now →
      ∃ t, exec (.instanceTimeout k) s = .next t ∧
        ((t.inst? k).map (fun j => (j.st, j.code, j.tombAt)) = some (.abandoned, 0x08, s.now)) ∧
        (∀ b ∈ i.owners, ∀ y ∈ (t.bench b).adderQ, y.key ≠ k) ∧
        t.regN Reg.incompleteEv = min (s.regN Reg.incompleteEv + 1) 0xFFFFFFFF) ∧
    (i.live = false → i.tombAt + s.regN Reg.tombHold * 1000000 ≤ s.now →
      ∃ t, exec (.tombHoldExpiry k) s = .next t ∧ t.inst? k = none ∧
        (∀ k', k' ≠ k → t.inst? k' = s.inst? k') ∧ t = { s with coll := t.coll }) ∧
    (∀ c bs at_, i.st = .running → s.fenceActive = false → (i.chunk c).twin.result = some (bs, at_) →
      (i.chunk c).sent = false → i.written.contains c = false → i.primClaim ≠ 0 → i.twinClaim ≠ 0 → at_ + 1500 ≤ s.now →
      ∃ t, exec (.twinHoldExpiry k c) s = .next t ∧
        ((t.inst? k).map (fun j => (j.primClaim, (j.chunk c).sent)) = some (0, true)) ∧
        t.regN Reg.twinTakeover = min (s.regN Reg.twinTakeover + 1) 0xFFFFFFFF)

/-! ### Registers -/

/-- An access that is ignored: IGNORED_WRITES counts it, IGNORED records the offset, the source, a read and
VALID, and nothing else changes (R10, R492). -/
def Ignores (s t : State) (r : Requester) (off : Nat) (read : Bool) : Prop :=
  t.regN Reg.ignoredWrites = min (s.regN Reg.ignoredWrites + 1) 0xFFFFFFFF ∧
  t.reg Reg.ignoredOffset = w64 (off / 4 * 4 % 2 ^ 26 + 2 ^ 26 * requesterSource r + 2 ^ 28 * b2n read + 2 ^ 31) ∧
  (∀ o, o ≠ Reg.ignoredWrites → o ≠ Reg.ignoredOffset → t.reg o = s.reg o) ∧ t = { s with regs := t.regs }

/-- 32-bit registers that hold what is written, with no range of their own (R8). -/
def plainRegs : List Nat := [Reg.timeAsym, 0x30, 0x34, 0x38, 0x3C, Reg.faultCtrl, 0xC, Reg.scCtrl, Reg.resultHop,
  Reg.rtCtrl, Reg.benchCommonCtrl, 0x2F00020, 0x3110000, 0x3110004, 0x3800000, 0x200040, 0x20007C, 0x3110020]

/-- Reads and writes under the common rules: an accepted write sets the register and nothing else; a write to a
read-only or locked register, one with bytes disabled and one to no register are ignored and counted; a
read gives the value, and RC returns to rest; an unassigned read gives 0; a low-word read latches the high word,
which the high-word read gives once; a low word is held for the high word, and discarded after 1 µs; a high word that
is ignored is recorded at its own offset (R7-R11, R493, R494, R500, R505). A read of 8 bytes gives a 64-bit register at once
(R493). When a low word is refused, when a latch is consumed and how FTIME counts are the model's readings (log entry 28). -/
def Obligations.RegisterAccesses : Prop :=
  ∀ (s : State) (r : Requester) (off : Nat) (v : W64) (w : RegRow), s.powered = true → Clear s r →
    (off ∈ plainRegs → Writable s off v → exec (.registerWrite r off 4 0xF v) s = .next (s.setReg off v)) ∧
    (findReg off = some w → w.wide = false → off % 4 = 0 → off ≠ Reg.commit →
      (w.acc = .ro ∨ w.acc = .rc ∨ w.lock.any s.lockBit = true) →
      ∃ t, exec (.registerWrite r off 4 0xF v) s = .next t ∧ Ignores s t r off false) ∧
    (∀ en, en ≠ 0xF → off < 0x4000000 → ∃ t, exec (.registerWrite r off 4 en v) s = .next t ∧ Ignores s t r off false) ∧
    (∀ wr, findReg (off / 4 * 4) = none → off < 0x4000000 → ∃ t, exec (.unassignedOffsetAccess r off wr) s = .next t ∧
      Ignores s { t with out := s.out } r off (!wr) ∧
      t.out = if wr then s.out else s.out ++ [.readData r off 0]) ∧
    (findReg off = some w → w.wide = false → off % 4 = 0 → ∃ t, exec (.readClear r ⟨off, 4, 0xF⟩) s = .next t ∧
      t.out = s.out ++ [.readData r off (s.regValue off)] ∧ (∀ o, o ≠ off → t.reg o = s.reg o) ∧
      t.reg off = (if w.acc = .rc then s.rcRest off else s.reg off) ∧
      t = { s with regs := t.regs, out := t.out }) ∧
    (wideAt off = some w → off % 8 = 0 → w.acc ≠ .rc → exec (.readClear r ⟨off, 8, 0xF⟩) s = .next { s with
      out := s.out ++ [.readData r off (s.regValue off)] }) ∧
    (wideAt off = some w → w.acc ≠ .rc → exec (.lowWordRead r off) s = .next { s with
      latches := s.latches ++ [(r, off, w32 ((s.regValue off).toNat / 2 ^ 32 % 2 ^ 32))],
      out := s.out ++ [.readData r off (w64 ((s.regValue off).toNat % 2 ^ 32))] }) ∧
    (wideAt (off - 4) = some w → exec (.highWordRead r off) s = .next { s with
      out := s.out ++ [.readData r off (w64 ((s.regValue (off - 4)).toNat / 2 ^ 32 % 2 ^ 32))] }) ∧
    (∀ x ls, wideAt (off - 4) = some w → ls = s.latches ++ [(r, off - 4, x)] →
      exec (.highWordRead r off) { s with latches := ls } = .next { s with
        out := s.out ++ [.readData r off (w64 x.toNat)] }) ∧
    (∀ x, wideAt off = some w → w.acc ≠ .ro → w.acc ≠ .rc → w.lock.any s.lockBit = false → s.resetBlocks off = false →
      s.absentReg off = false → exec (.lowWordWrite r off x) s = .next { s with heldLow := s.heldLow ++ [(r, off, x, s.now)] }) ∧
    (∀ n hi lo at_, off = Reg.expectId n + 4 → n < 528 → Writable s (off - 4) (w64 (lo.toNat + hi.toNat * 2 ^ 32)) →
      s.now ≤ at_ + 1000 →
      exec (.highWordWrite r off hi) { s with heldLow := s.heldLow ++ [(r, off - 4, lo, at_)] } =
        .next (s.setReg (off - 4) (w64 (lo.toNat + hi.toNat * 2 ^ 32)))) ∧
    (∀ x, wideAt (off - 4) = some w → 4 ≤ off → w.acc = .ro ∨ w.acc = .rc → ∃ t,
      exec (.highWordWrite r off x) s = .next t ∧ Ignores s t r off false) ∧
    (∀ x at_, at_ + 1000 < s.now → ∃ t,
      exec (.heldLowWordExpiry r) { s with heldLow := s.heldLow ++ [(r, off, x, at_)] } = .next t ∧ Ignores s t r off false)

/-- The commands that write one register of a fixed place set that register and change nothing else, when the
register's own range holds: the LOCK bits, the switching and port settings, the lane settings, the bases of the
launch table and the spill area, and the counter blocks' settings (R8, R73, R157, R271, R363, R364, R368, R374,
R445, R485, R488, R500), which only the host, WRREG and the debug port write (R481, R490); OWN_COORD also sets OWN_VALID
(R503). A bandwidth window ends once time is in another aligned window of 2^W µs (R491; that it is always-on time while fabric
time is invalid is the model's: log entry 66). -/
def Obligations.RegisterSettings : Prop :=
  ∀ (s : State) (r : Requester) (v : W32) (q : W64), Clear s r →
    let sets := fun (i : Instr) (off : Nat) (v : W64) => Writable s off v → exec i s = .next (s.setReg off v)
    let x := w64 v.toNat
    let counts := r ≠ .steward ∧ r ≠ .tray
    sets (.lockWrite r .sc v) Reg.scLock x ∧ sets (.lockWrite r .rt v) Reg.rtLock x ∧
    sets (.lockWrite r .global v) Reg.globalLock x ∧
    (240 ≤ fld v 8 8 → (∀ lp ∈ s.lports, (s.port lp).st = .down) → Writable s Reg.ownCoord x →
      exec (.ownCoordWrite r v) s = .next ((s.setReg Reg.ownCoord x).setReg Reg.devStatus 1))
    ∧ (∀ (lp : Fin 512) (term : Bool) (vc : Fin 8), let off := if term then tcredOff lp vc else xcredOff lp vc
      Writable s off x → (vc = 1 ∨ v.toNat = 0 ∨ 32 < v.toNat) →
      (term = false → s.transitSum lp vc v.toNat ≤ 4096 / s.lportsOf (lp.val / 4)) →
      (term = true → s.termSum lp vc v.toNat ≤ termRoom vc) →
      ∃ t, exec (.creditLimitWrite r lp term vc v) s = .next t ∧ t.reg off = x ∧
        (∀ o, o ≠ off → t.reg o = s.reg o) ∧ t = { s with regs := t.regs, sw := { s.sw with rxAcct := t.sw.rxAcct } }) ∧
    (∀ p : Fin 128, fld v 0 2 = s.split p → fld v 0 2 ≠ 3 → (∀ i < 4, (s.port (4 * p.val + i)).st = .down) →
      sets (.portCfgWrite r p v) (Reg.portCfg p) x) ∧
    (∀ n : Fin 528, Writable s (Reg.injCtrl n) x → fld v 0 2 ≠ 3 → (fld v 0 2 = 0 ∨ fld v 3 10 ≠ 0) → fld v 13 5 ≤ 20 →
      exec (.injCtrlWrite r n v) s = .next ((s.setReg (Reg.injCtrl n) x).modLane n (fun l => { l with
        injArmed := decide (fld v 0 2 = 1), injFrames := 0 }))) ∧
    (∀ n : Fin 528, Writable s (Reg.eyeCtrl n) x → 10 ≤ fld v 16 5 → fld v 16 5 ≤ 36 → fld v 21 2 = 0 → bit v 0 = true →
      (s.lane n).eyeBusy = false → exec (.eyeScanStart r n v) s = .next ((s.setReg (Reg.eyeCtrl n) (x &&& ~~~1)).modLane n
        (fun l => { l with eyeBusy := true, eyeDone := false }))) ∧
    (∀ n : Fin 528, Writable s (Reg.prbsCtrl n) x → fld v 0 2 ≠ 3 → fld v 2 2 = 0 → fld v 0 4 ≠ 0 → s.laneFree n = true →
      ∃ t, exec (.prbsCtrlWrite r n v) s = .next t ∧ t.regs = (s.setReg (Reg.prbsCtrl n) x).regs ∧
        (t.lane n).st = .test ∧ (t.lane n).shutter = true ∧ t = { s with regs := t.regs, lanes := t.lanes }) ∧
    (∀ (n : Fin 528), 512 ≤ n.val → bit v 3 = true → (s.lane n).serves.isSome = true → sets (.spareCfgWrite r n v) (Reg.spareCfg n) x) ∧
    (∀ (k : Fin 242) (j : Fin 8), counts → Writable s (Reg.evsel k j) x → eventListed (blkType k) (fld v 0 8) = true →
      (blkType k ≠ 0 → fld v 9 7 = 0) → (blkType k = 0 → 8 ≤ fld v 0 8 → fld v 9 4 = 0) →
      ∃ t, exec (.evselWrite r k j v) s = .next t ∧ t.reg (Reg.evsel k j) = x ∧ t.reg (Reg.cnt k j) = 0 ∧
        bit (t.reg (Reg.ovf k)) j = false ∧ t = { s with regs := t.regs } ∧
        (∀ o, o ≠ Reg.evsel k j → o ≠ Reg.cnt k j → o ≠ Reg.ovf k → t.reg o = s.reg o)) ∧
    (∀ (k : Fin 242) (j : Fin 8), counts → sets (.cntWrite r k j q) (Reg.cnt k j) q) ∧
    (∀ (k : Fin 242) (j : Fin 8), ¬ counts → Writable s (Reg.cnt k j) q → ∃ t, exec (.cntWrite r k j q) s = .next t ∧
      Ignores s t r (Reg.cnt k j) false) ∧
    (∀ p : Fin 128, counts → Writable s (Reg.bwCtrl p) x → v.toNat ≤ 20 → ∃ t, exec (.bwCtrlWrite r p v) s = .next t ∧
      t.regs = (s.setReg (Reg.bwCtrl p) x).regs ∧ t.perf.discard.contains p.val = true ∧ t = { s with regs := t.regs, perf := t.perf }) ∧
    (∀ p : Fin 128, s.powered = true → s.bwIndex p ≠ sget 0 s.perf.win p → s.perf.discard.contains p.val = false → ∃ t, exec (.bwWindowEnd p) s = .next t ∧
      (∀ l < 4, t.reg (Reg.bwRx p l) = w64 (sget 0 s.perf.rx (4 * p.val + l)) ∧
        t.reg (Reg.bwTx p l) = w64 (sget 0 s.perf.tx (4 * p.val + l)) ∧
        sget 0 t.perf.rx (4 * p.val + l) = 0 ∧ sget 0 t.perf.tx (4 * p.val + l) = 0) ∧
      t.reg (Reg.bwSeq p) = w64 ((s.regN (Reg.bwSeq p) + 1) % 2 ^ 32) ∧ t = { s with regs := t.regs, perf := t.perf }) ∧
    (s.seqEn = false → q.toNat % 4194304 = 0 → q.toNat < 2 ^ 48 → sets (.ltBaseWrite r q) Reg.ltBase q) ∧
    (q.toNat % 2 ^ 30 = 0 → q.toNat < 2 ^ 48 → sets (.spillBaseWrite r q) Reg.spillBase q) ∧
    (bit v 0 = false ∨ s.collEn = true ∨ s.spillOk = true → sets (.collEnWrite r v) Reg.collCtrl x) ∧
    (fld v 1 4 ≤ 8 → bit v 0 = true → (s.seqEn = true → fld v 1 4 = fld (s.reg Reg.ltCtrl) 1 4) →
      (s.seqEn = false → s.ltOk (2 ^ (fld v 1 4 + 8)) = true) → sets (.seqEnWrite r v) Reg.ltCtrl x) ∧
    (fld v 1 4 ≤ 8 → bit v 0 = false → (s.seqEn = true → fld v 1 4 = fld (s.reg Reg.ltCtrl) 1 4) →
      Writable s Reg.ltCtrl x → exec (.seqEnWrite r v) s =
        .next ((s.setReg Reg.ltCtrl x).modLaunch (fun l => { l with listed := [] }))) ∧
    (∀ b : Fin 104, b.val < 100 → Writable s (Reg.benchCtrl b) x → bit v 0 = true → s.fault.oos = false →
      exec (.holdAwakeWrite r b v) s = .next ((s.setReg (Reg.benchCtrl b) x).wakeBench b)) ∧
    (fld v 0 3 ≤ 4 → Writable s Reg.fmaxCtrl x → exec (.fmaxCtrlWrite r v) s =
      .next ((s.setReg Reg.fmaxCtrl x).modPwr (fun p => { p with benchBin := max p.benchBin (fld v 0 3) }))) ∧
    (24 ≤ fld v 4 16 → fld v 4 16 ≤ 8760 → bit v 1 = true → s.pwr.lehrStep = 0 → Writable s Reg.lehrCtrl x →
      ∃ t, exec (.lehrStart r v) s = .next t ∧ t.pwr.lehrStep = 1 ∧ t.pwr.lehrAt = s.now ∧
        t.pwr.lehrPaused = (!s.fault.stewardUp) ∧ t.reg Reg.lehrCtrl = setFld x 1 1 0)

/-! ### Route tables, contexts, launches, time, replay -/

/-- The fault log's newest entry: class, severity, action and code; a location that logged 16 in the last
second only counts (R411). -/
def Logs (s t : State) (cls sev act code block index : Nat) : Prop :=
  16 ≤ (s.fault.recent.filter (fun r => decide (r.1 = byte cls ∧ r.2.1 = byte block ∧ r.2.2.1 = BitVec.ofNat 16 index ∧
    s.now ≤ r.2.2.2 + 1000000000))).length ∨
  t.fault.log.getLast?.map (fun e => (e.cls.toNat, e.severity.toNat, e.action.toNat, e.code.toNat)) = some (cls, sev, act, code)

/-- Bank swaps, copies, commits and sweeps of the route tables: ARM arms, or is refused as late; CANCEL disarms;
COPY makes the inactive bank equal to the active one; a commit writes one entry and no other, and mends it; an armed swap
changes the bank when its time comes; a sweep logs what it finds and corrects single errors; a rejoin hold ends
(R97, R98, R105, R106, R109, R110). -/
def Obligations.RouteTables : Prop :=
  ∀ (s : State) (r : Requester), s.powered = true → Clear s r →
    let late := s.clk.timeValid = true ∧ (s.reg Reg.swapAt).toNat ≤ s.clk.ftime.toNat
    (Writable s Reg.swapCmd 1 → s.route.swap ≠ 1 → ¬ late → s.inactiveBad = false → s.route.copyUntil = none →
      exec (.swapArm r) s = .next { s with route := { s.route with swap := 1, reason := 0 } }) ∧
    (Writable s Reg.swapCmd 1 → s.route.swap ≠ 1 → late → ∃ t, exec (.swapArm r) s = .next t ∧
      t.route = { s.route with swap := 3, reason := 1 } ∧
      t.regN Reg.swapRefused = min (s.regN Reg.swapRefused + 1) 0xFFFFFFFF) ∧
    (Writable s Reg.swapCmd 2 → s.route.swap = 1 →
      exec (.swapCancel r) s = .next { s with route := { s.route with swap := 0, reason := 0 } }) ∧
    (Writable s Reg.swapCmd 4 → s.route.swap ≠ 1 → s.route.copyUntil = none → ∃ t, exec (.swapCopy r) s = .next t ∧
      (∀ tb i w, tb < 4 → i < tableEntries tb → w < tableStride tb / 4 →
        t.tblWord (!s.route.activeBank) tb i w = s.tblWord s.route.activeBank tb i w ∧
        t.tblWord s.route.activeBank tb i w = s.tblWord s.route.activeBank tb i w) ∧
      t.route.activeBank = s.route.activeBank ∧ t.route.copyUntil = some (s.now + 50000) ∧ t = { s with route := t.route }) ∧
    (exec .copyComplete s = .next { s with route := { s.route with copyUntil := none } }) ∧
    (s.route.swap = 1 → late → ∃ t, exec .tableBankSwap s = .next t ∧
      t.route = { s.route with activeBank := !s.route.activeBank, swap := 2, reason := 0 } ∧
      t.regN Reg.orderEvents = min (s.regN Reg.orderEvents + 1) 0xFFFFFFFF ∧ t = { s with route := t.route, regs := t.regs }) ∧
    (∀ v : W32, Writable s Reg.commit (w64 v.toNat) → fld v 8 12 < tableEntries (fld v 0 2) →
      s.route.copyUntil = none → s.stageReserved (w64 v.toNat) = false → ∃ t, exec (.tableCommit r v) s = .next t ∧
      (∀ w < tableStride (fld v 0 2) / 4, t.tblWord (bit v 4) (fld v 0 2) (fld v 8 12) w = w32 (s.regN (Reg.stage w)) &&& entryMask (fld v 0 2) w) ∧
      (∀ a, a < entryAddr (bit v 4) (fld v 0 2) (fld v 8 12) ∨
        entryAddr (bit v 4) (fld v 0 2) (fld v 8 12) + tableStride (fld v 0 2) ≤ a →
        sget 0 t.route.tbl a = sget 0 s.route.tbl a) ∧
      (∀ x ∈ t.route.errs, x.ref ≠ entryRef (bit v 4) (fld v 0 2) (fld v 8 12)) ∧
      t.regN Reg.orderEvents = (if bit v 4 = s.route.activeBank then min (s.regN Reg.orderEvents + 1) 0xFFFFFFFF else s.regN Reg.orderEvents) ∧
      t = { s with route := t.route, regs := t.regs }) ∧
    (∀ (e : EntryRef) ce, s.route.ces = [] → (∀ x ∈ s.route.errs, x.detected = true ∧ x.ref ≠ e) → e.index.val < tableEntries e.table.val →
      s.route.swap ≠ 1 → ∃ t, exec (.tableSweep [e] ce) s = .next t ∧ t.route = { s.route with errs := s.route.errs ++ [⟨e, true⟩] } ∧
      Logs s t 0x08 1 2 0 2 0) ∧
    (∀ ce, s.route.ces = [] → (∀ x ∈ s.route.errs, x.detected = true) →
      exec (.tableSweep [] ce) s = .next (s.bumpBy Reg.tableCe ce)) ∧
    (∀ e, s.route.ces = [e] → (∀ x ∈ s.route.errs, x.detected = true) → ∃ t, exec (.tableSweep [] 0) s = .next t ∧
      t.route = { s.route with ces := [] } ∧ t.regN Reg.tableCe = min (s.regN Reg.tableCe + 1) 0xFFFFFFFF) ∧
    (∀ (lp : Fin 512) e, s.route.rejoin.find? (fun e => e.1 == lp.val) = some e →
      e.2 + s.regN Reg.rejoinHold * 1000000 ≤ s.now → ∃ t, exec (.rejoinHoldEnd lp) s = .next t ∧
      t.route = { s.route with rejoin := s.route.rejoin.filter (fun x => x.1 != lp.val) } ∧ t = { s with route := t.route, regs := t.regs })

/-- Contexts: CREATE that passes its checks opens the ID with the staged record and its generation, returns its replay block to
reset values, and clears its benches' tallies, queues and local stores; one that fails reports the code and changes nothing else; the completion
reports OK; TEARDOWN closes the context, and its end frees the ID, clears its windows and increments the generation;
an ID rests 2 s before a generation repeats (R266-R269, R286-R289, R340). Windows: WIN_CMD that passes its checks puts the
staged entry at its number and reports 0; one that fails reports its code and leaves every window (R293, R294). In which command
each phase of CREATE and TEARDOWN falls is the model's (log entry 23). -/
def Obligations.ContextsAndWindows : Prop :=
  (∀ (s : State) (r : Requester) (id : Fin 256), s.powered = true → Clear s r →
      (Writable s Reg.ctxCmd (w64 (id.val + 256)) → s.ctxCmd = none → s.createCode id = 0 →
        ∃ t, exec (.contextCreate r id) s = .next t ∧
          t.ctx id = { s.staged with st := .opened, gen := (s.ctx id).gen, left := (s.ctx id).left } ∧
          (∀ j, j ≠ id.val → t.ctx j = s.ctx j) ∧ t.ctxCmd.map (·.id) = some id.val ∧ t.rplOf id = {} ∧
          (∀ o ∈ [Reg.rplCtrl id, Reg.logBase id, Reg.logSize id, Reg.liveDrop id], t.reg o = regReset o) ∧
          (∀ b < 99, s.staged.benchSet.getLsbD b = true → (t.bench b).tallies = [] ∧ (t.bench b).items = [] ∧
            (t.bench b).sendQ = [] ∧ (t.bench b).recvQ = [] ∧
            ∀ a, b * 8 * 262144 ≤ a → a < (b + 1) * 8 * 262144 → sget 0 t.ls a = 0)) ∧
      (Writable s Reg.ctxCmd (w64 (id.val + 256)) → s.ctxCmd = none → s.createCode id ≠ 0 →
        exec (.contextCreate r id) s = .next { s with
          ctxResult := w32 (s.createCode id + id.val * 2 ^ 16 + (s.ctx id).gen.toNat * 2 ^ 24) }) ∧
      (∀ c, s.ctxCmd = some c → (s.ctx c.id).st = .opened → (s.ctx c.id).heldTeardown = false →
        exec .contextCreateComplete s = .next { s with
          ctxCmd := none, ctxResult := w32 (c.id * 2 ^ 16 + (s.ctx c.id).gen.toNat * 2 ^ 24) }) ∧
      (Writable s Reg.ctxCmd (w64 (id.val + 512)) → s.ctxCmd = none → (s.ctx id).st = .opened → (s.ctx id).fenced = false →
        (∀ i ∈ s.coll.insts, i.ctx ≠ id.val) → (∀ x ∈ s.launch.runs, x.ctx ≠ id.val) →
        ∃ t, exec (.teardown r id) s = .next t ∧ (t.ctx id).st = .closing ∧
          (∀ b < 99, (s.ctx id).benchSet.getLsbD b = true → (t.bench b).sendQ = [])) ∧
      ((s.ctx id).st = .closing → s.recording id = false → s.pool.inflight.filter (fun o => o.ctx == id.val) = [] →
        ((s.ctx id).left.find? (fun e => e.1 == ((s.ctx id).gen + 1).toNat) = none) →
        ∃ t, exec (.teardownComplete id) s = .next t ∧ (t.ctx id).st = .free ∧ (t.ctx id).gen = (s.ctx id).gen + 1 ∧
          (∀ j, j ≠ id.val → t.ctx j = s.ctx j) ∧ (∀ w < 16, (t.win id w).valid = false) ∧
          (∀ e ∈ t.pool.results, e.ctx ≠ id.val)) ∧
      ((s.ctx id).st = .resting → (s.ctx id).restUntil ≤ s.now → ∃ t, exec (.restingExpiry id) s = .next t ∧
        t.ctx id = { s.ctx id with st := .free } ∧ (∀ j, j ≠ id.val → t.ctx j = s.ctx j) ∧ t = { s with ctxs := t.ctxs })) ∧
  (∀ (s : State) (r : Requester) (v : W32), Clear s r → Writable s Reg.winCmd (w64 v.toNat) → s.pool.winBusyUntil ≤ s.now →
      let c := fld v 0 8
      let w := fld v 8 4
      let ws := (List.range 8).map (fun k => w32 (s.regN (Reg.winStage k)))
      let code := s.winCode c w ws
      (code ≠ 0 → exec (.windowWrite r v) s = .next { s with
        pool := { s.pool with winResult := w32 (code + c * 2 ^ 16 + w * 2 ^ 24), winBusyUntil := s.now + 1000 } }) ∧
      (code = 0 → s.recording c = false → ∃ t, exec (.windowWrite r v) s = .next t ∧
        t.winWords c w = (if (winOf ws).valid then ws else List.replicate 8 0) ∧
        (∀ c' w', w' < 16 → (c', w') ≠ (c, w) → t.winWords c' w' = s.winWords c' w') ∧
        t.pool.winResult = w32 (c * 2 ^ 16 + w * 2 ^ 24) ∧ t.pool.mem = s.pool.mem ∧ t.ctxs = s.ctxs))
/-- The cores of a bench at the start of a launch of entry `ws` at table index `i` (R194, R277): at ENTRY, the
registers 0 but s1 and s2 (the arguments), s3 (the index) and s4 (COUNT), and no exception recorded. -/
def AtEntry (t : State) (b : Nat) (ws : List W64) (i : Nat) : Prop :=
  ∀ k < 8, let x := t.core (b * 8 + k)
    x.run = .running ∧ x.pc = BitVec.ofNat 13 (ltEntry ws) ∧ x.pastEnd = false ∧ x.wait = none ∧ x.bound = none ∧
    x.s 1 = ws.getD 4 0 ∧ x.s 2 = ws.getD 5 0 ∧ x.s 3 = w64 i ∧ x.s 4 = ws.getD 3 0 ∧
    (∀ n, 5 ≤ n → x.s n = 0) ∧ (∀ n, x.v n = 0) ∧ (∀ n, n ≠ 0 → x.p n = 0) ∧ x.cause = 0 ∧ x.excPc = 0

/-- Launches: a sweep lists a valid entry and drops one that is not, or that cannot be read; benches wake WAKE_LEAD before COUNT; an image is
loaded into every core's instruction store; a due entry that fails a check is refused and counted; one that
passes, with its benches free and awake, starts at once; a held one starts when its benches are free
(R272-R278). -/
def Obligations.LaunchesRun : Prop :=
  ∀ (s : State), s.powered = true →
    (s.scanning = true → s.memAwake s.ltArea.1 s.ltArea.2 = true → s.launch.listed.length + s.sweepIdx.length ≤ 4096 →
      ∃ t, exec .ltSweep s = .next t ∧
      (∀ i ∈ s.sweepIdx, s.ueLines (s.ltAddr i) 64 = [] → ltValid (s.ltRead i) = true → ltState (s.ltRead i) = 0 →
        ∃ l ∈ t.launch.listed, l.idx = i ∧ l.ws.take 7 = (s.ltRead i).take 7) ∧
      (∀ i ∈ s.sweepIdx, ltValid (s.ltRead i) = false ∨ ltState (s.ltRead i) ≠ 0 ∨ s.badLines (s.ltAddr i) 64 ≠ [] →
        ∀ l ∈ t.launch.listed, l.idx ≠ i) ∧
      t.pool.mem = s.pool.mem ∧ t.cores = s.cores ∧ t.benches = s.benches) ∧
    (∀ i l, s.launch.listed.find? (·.idx == i) = some l → s.scanning = true → l.woken = false → s.fault.oos = false →
      ltCount l.ws ≤ s.clk.ftime.toNat + s.regN Reg.wakeLead * 1000 → ∃ t, exec (.launchWake i) s = .next t ∧
      (∀ b ∈ ltBenches l.ws, (s.bench b).st = .asleep → (t.bench b).st = .waking) ∧ t.cores = s.cores ∧
      t.launch.runs = s.launch.runs) ∧
    (∀ r : Run, (∀ b ∈ ltBenches r.ws, s.benchFree b = true ∧ (s.bench b).st = .awake) → s.runBlocked r = false →
      (ltImage r.ws).2 ≤ 8192 → (s.findWin (ltCtx r.ws) (ltImage r.ws).1 (8 * (ltImage r.ws).2)).isSome = true →
      s.memAwake (ltImage r.ws).1 (8 * (ltImage r.ws).2) = true →
      s.ueLines (ltImage r.ws).1 (8 * (ltImage r.ws).2) = [] →
      s.launch.runs.find? (fun q => q.idx == r.idx && q.waitsImage) = some r →
      ∃ t, exec (.imageLoadComplete r.idx) s = .next t ∧
        ∀ b ∈ r.benches, ∀ k < 8, mread t.is ((b * 8 + k) * 65536) (8 * (ltImage r.ws).2) =
          s.memRead (ltImage r.ws).1 (8 * (ltImage r.ws).2) ∧ (ltImage r.ws).2 ≤ (t.core (b * 8 + k)).loadLimit) ∧
    (∀ l, s.scanning = true → s.pwr.capFloor = false → s.dueEntry = some l →
      (s.takeCode l.idx l.ws ≠ 0 → ∃ t, exec .launchTake s = .next t ∧
        t.launch.listed = s.launch.listed.filter (·.idx != l.idx) ∧ t.launch.runs = s.launch.runs ∧
        t.cores = s.cores ∧ t.regN Reg.launchRefused = min (s.regN Reg.launchRefused + 1) 0xFFFFFFFF) ∧
      (s.takeCode l.idx l.ws = 0 → l.loadCode = none → (ltImage l.ws).2 = 0 →
        (∀ b ∈ ltBenches l.ws, s.benchFree b = true ∧ (s.bench b).st = .awake) → (∀ q ∈ s.launch.runs, q.started = true) →
        s.recRoom (ltCtx l.ws) 64 = true → ∃ t, exec .launchTake s = .next t ∧
          t.launch.listed = s.launch.listed.filter (·.idx != l.idx) ∧
          (∃ x ∈ t.launch.runs, x.idx = l.idx ∧ x.started = true) ∧ (∀ b ∈ ltBenches l.ws, AtEntry t b l.ws l.idx) ∧
          t.regN Reg.launches = min (s.regN Reg.launches + 1) 0xFFFFFFFF)) ∧
    (∀ r, s.launch.runs.find? (fun r => !r.started && !s.replaying r.ctx && s.canStart r) = some r →
      ∃ t, exec .launchStart s = .next t ∧ (∀ b ∈ r.benches, AtEntry t b r.ws r.idx) ∧
        (∀ k, k / 8 ∉ r.benches → t.core k = s.core k) ∧
        t.regN Reg.launches = min (s.regN Reg.launches + 1) 0xFFFFFFFF)

/-- Fabric time: FTIME_SET sets the root's time once; a due request, type 1 with its number and T1, is queued for the
source port, and one still out is superseded; a request is
answered with the time it arrived and the time of the answer; any other packet is discarded and counted; a response
gives the offset, which steps an invalid time, or one far behind, slews one that is near or far ahead, locks after 8
near ones, and loses lock beyond 1 µs; 10 µs without a
response count, and the fourth in a row loses lock; counters that disagree owe a reset (R279-R283, R410). -/
def Obligations.FabricTime : Prop :=
  ∀ (s : State) (r : Requester) (v : W64) (p : Inbound) (ps : List Inbound), s.powered = true → Clear s r →
    (Writable s Reg.ftimeSet v → s.isRoot = true → s.clk.timeValid = false → exec (.ftimeSet r v) s = .next { s with
      clk := { s.clk with ftime := v, ftimeB := v, ftimeSub := 0, slew := 0, timeValid := true } }) ∧
    (s.isSource = true → s.portActive s.srcPort = true → s.clk.lastReqAt + s.timePeriod ≤ s.now →
      (∀ q, s.clk.reqOut = some q → s.now < q.2.2 + 10000) → s.sw.stopped.contains (qkey s.srcPort 0) = false →
      (s.internalCharge 2 [s.srcPort] 0).isSome = true →
      ∃ t h x, exec .timeRequestSend s = .next t ∧ t.clk = { s.clk with
        seqnum := s.clk.seqnum + 1, reqOut := some (s.clk.seqnum, s.clk.ftime, s.now), lastReqAt := s.now,
        reqOld := s.clk.reqOld ++ s.clk.reqOut.toList.map (fun q => q.2.2) } ∧
        t.queue s.srcPort 0 = s.queue s.srcPort 0 ++ [s.sw.nextId] ∧ x ∈ t.sw.stored ∧ x.id = s.sw.nextId ∧
        h.dest = w32 ((s.port s.srcPort).partnerCoord.toNat / 256 * 256) ∧ h.vc = 0 ∧
        x.item = .packet (mkPacket h ([1, 0] ++ leBytes 2 s.clk.seqnum.toNat ++ leBytes 4 0 ++ leBytes 8 s.clk.ftime.toNat ++
          zeros 32))) ∧
    (s.sw.ctlIn = p :: ps → timePacket 1 p.pkt = true → ∃ h u, h.dest = p.pkt.h.src ∧ u = { s.popCtl with freeCtr := s.freeCtr + 1 } ∧
      exec .timeRequestArrival s = .next (u.send .answer (mkPacket h ([2, 0] ++ leBytes 2 (u16 p.pkt.payload 2) ++
        leBytes 4 0 ++ leBytes 8 (u64 p.pkt.payload 8) ++ leBytes 8 p.arrivedAt.toNat ++ leBytes 8 s.clk.ftime.toNat ++
        leBytes 8 (b2n s.clk.timeValid + 2 * b2n s.timeLocked) ++ leBytes 8 0)))) ∧
    (s.sw.ctlIn = p :: ps → timePacket 1 p.pkt = false → timePacket 2 p.pkt = false → ∃ t, exec .timeRequestArrival s = .next t ∧
      t.sw.ctlIn = ps ∧ t.regN Reg.timeBad = min (s.regN Reg.timeBad + 1) 0xFFFFFFFF ∧ t.clk = s.clk) ∧
    (∀ q t1 at_, s.sw.ctlIn = p :: ps → timePacket 1 p.pkt = false → timePacket 2 p.pkt = true →
      s.clk.reqOut = some (q, t1, at_) → s.isSource = true → u16 p.pkt.payload 2 = q.toNat → bit (w32 (u32 p.pkt.payload 32)) 0 = true →
      let off : Int := (((u64 p.pkt.payload 16 : Int) - t1.toNat) + ((u64 p.pkt.payload 24 : Int) - p.arrivedAt.toNat)) * 8 +
        sgn 16 (s.regN Reg.timeAsym)
      let stepped := ((s.clk.ftime.toNat : Int) * 65536 + s.clk.ftimeSub.toNat + off * 4096) / 65536
      ∃ t, exec .timeResponseArrival s = .next t ∧ t.sw.ctlIn = ps ∧ t.clk.reqOut = none ∧ t.clk.lostRun = 0 ∧
        t.clk.lastOffset = clampInt (-2147483647) 2147483647 off ∧
        (s.clk.timeValid = false → t.clk.timeValid = true ∧ t.clk.ftime = w64 stepped.toNat ∧ t.clk.slew = 0) ∧
        (s.clk.timeValid = true → off.natAbs ≤ 16000 → t.clk.ftime = s.clk.ftime ∧ t.clk.slew = off * 4096 ∧
          t.clk.goodRun = (if off.natAbs ≤ 32 then s.clk.goodRun + 1 else 0) ∧
          (8 ≤ t.clk.goodRun → t.clk.locked = true)) ∧
        (s.clk.timeValid = true → 16000 < off.natAbs → s.clk.locked = true → t.clk.locked = false ∧ t.clk.ftime = s.clk.ftime ∧
          t.regN Reg.timeLoss = min (s.regN Reg.timeLoss + 1) 0xFFFFFFFF) ∧
        (s.clk.timeValid = true → 16000 < off → s.clk.locked = false → t.clk.ftime = w64 stepped.toNat ∧
          t.regN Reg.timeStep = min (s.regN Reg.timeStep + 1) 0xFFFFFFFF) ∧
        (s.clk.timeValid = true → off < -16000 → s.clk.locked = false → t.clk.ftime = s.clk.ftime ∧ t.clk.slew = off * 4096 ∧
          t.clk.goodRun = 0)) ∧
    (∀ x xs, s.clk.reqOld = x :: xs → x + 10000 ≤ s.now → ∃ t, exec .timeRequestTimeout s = .next t ∧
      t.clk.reqOld = xs ∧ t.clk.reqOut = s.clk.reqOut ∧ t.clk.lostRun = s.clk.lostRun + 1 ∧
      (4 ≤ s.clk.lostRun + 1 → t.clk.locked = false) ∧ t = { s with clk := t.clk, regs := t.regs }) ∧
    (∀ x, s.clk.reqOld = [] → s.clk.reqOut = some x → x.2.2 + 10000 ≤ s.now → ∃ t, exec .timeRequestTimeout s = .next t ∧
      t.clk.reqOut = none ∧ t.clk.lostRun = s.clk.lostRun + 1 ∧ (4 ≤ s.clk.lostRun + 1 → t.clk.locked = false) ∧
      t = { s with clk := t.clk, regs := t.regs }) ∧
    (s.clk.ftime ≠ s.clk.ftimeB → s.fault.deferred.contains (2, 0x13, 0) = false → ∃ t, exec .ftimeCompare s = .next t ∧
      t.fault.deferred = s.fault.deferred ++ [(2, 0x13, 0)] ∧ Logs s t 0x13 2 5 0 0 0 ∧ t.clk = s.clk)

/-- Recording and replaying: a start that passes its checks records from a START record, or replays from the one in
the log; one that fails shows its code; MODE 0 stops either, a recording with a STOP record; the record queue
drains to the log, once its memory is awake, and stalled cores go on; a replayed launch starts with its recorded entry, and
one of a bench outside the context's set, or of bench 99, diverges with PERM (R191, R328, R332-R334, R336; the code is the
model's: log entry 64). -/
def Obligations.RecordsAndReplays : Prop :=
  ∀ (s : State) (r : Requester) (id : Fin 256) (en : Bool), s.powered = true → Clear s r →
    let c := id.val
    let v := fun (m : Nat) => w64 (m + 4 * b2n en)
    let quiet := s.recording c = false ∧ s.replaying c = false
    (Writable s (Reg.rplCtrl c) (v 1) → quiet → s.rplCode c (v 1) = 0 → s.recqDepth + 96 ≤ 4194304 → ∃ t, exec (.rplRecordStart r id en) s = .next t ∧
      (t.rplOf c).st = .recording ∧ (t.rplOf c).rseq = 1 ∧ (t.rplOf c).outEn = en ∧
      (∃ e, t.recq = s.recq ++ [(c, s.logBase c, e)] ∧ e.getD 8 0 = 1) ∧ t.pool = s.pool ∧ (∀ j, j ≠ c → t.rplOf j = s.rplOf j)) ∧
    (Writable s (Reg.rplCtrl c) (v 1) → quiet → s.rplCode c (v 1) ≠ 0 → ∃ t, exec (.rplRecordStart r id en) s = .next t ∧
      t.rplOf c = { s.rplOf c with st := .refused, code := byte (s.rplCode c (v 1)) } ∧ t.recq = s.recq) ∧
    (Writable s (Reg.rplCtrl c) (v 2) → quiet → s.rplCode c (v 2) = 0 → ∃ t, exec (.rplReplayStart r id en) s = .next t ∧
      ((t.rplOf c).st = .replaying ∨ (t.rplOf c).st = .done) ∧ (t.rplOf c).consumed = [0] ∧ (t.rplOf c).used = 96 ∧
      t = { s with regs := t.regs, rpl := t.rpl, pool := { s.pool with ctl := t.pool.ctl } }) ∧
    (Writable s (Reg.rplCtrl c) (v 0) → s.recording c = true → s.recqDepth + 32 ≤ 4194304 → ∃ t, exec (.rplStop r id en) s = .next t ∧
      (t.rplOf c).st = .stopped ∧ (t.rplOf c).reason = 0 ∧
      ∃ e, t.recq = s.recq ++ [(c, s.logBase c + (s.rplOf c).used, e)] ∧ e.getD 8 0 = 8) ∧
    (Writable s (Reg.rplCtrl c) (v 0) → s.replaying c = true → ∃ t, exec (.rplStop r id en) s = .next t ∧
      t.rplOf c = { s.rplOf c with st := .stopped, code := 0 } ∧ t.recq = s.recq) ∧
    (∀ k a bs, s.recq = [(k, a, bs)] → s.memAwake a bs.length = true → ∃ t, exec .recqStallRelease s = .next t ∧ t.recq = [] ∧ t.memRead a bs.length = bs ∧
      (∀ k w, (s.core k).wait = some w → w.kind = .record → (t.core k).run = .running ∧ (t.core k).wait = none)) ∧
    (∀ k a bs, s.recq = [(k, a, bs)] → s.memAwake a bs.length = false → ∃ t, exec .recqStallRelease s = .next t ∧
      t.recq = s.recq ∧ t.pool.mem = s.pool.mem) ∧
    (∀ e, let ws := (List.range 8).map (fun k => w64 (u64 e.body (8 * k)))
      s.replaying c = true → s.rplNext c (fun r => r.rtype != 0x07 && r.src.engine && r.rtype == 2) = .entry e →
      (∀ b ∈ ltBenches ws, b < 99 ∧ (s.ctx c).benchSet.getLsbD b = true) →
      s.lowerConsumed c e.rseq = true → (∀ b ∈ ltBenches ws, s.benchFree b = true ∧ (s.bench b).st = .awake) →
      (ltImage ws).2 = 0 → ∃ t, exec (.replayLaunchStart id) s = .next t ∧ (∀ b ∈ ltBenches ws, AtEntry t b ws e.aux) ∧
        (t.rplOf c).consumed = insertNat e.rseq (s.rplOf c).consumed) ∧
    (∀ e, let ws := (List.range 8).map (fun k => w64 (u64 e.body (8 * k)))
      s.replaying c = true → s.rplNext c (fun r => r.rtype != 0x07 && r.src.engine && r.rtype == 2) = .entry e →
      (∃ b ∈ ltBenches ws, b = 99 ∨ (s.ctx c).benchSet.getLsbD b = false) → ∃ t, exec (.replayLaunchStart id) s = .next t ∧
        (t.rplOf c).st = .diverged ∧ (t.rplOf c).code = 0x06 ∧ (t.rplOf c).divergeRseq = e.rseq)

/-! ### Packets -/

/-- An own unit other than a bench takes an arriving packet into its queue (R25, R39); a pool request has reached the pool
unit then, and ranks by its port (R305). -/
def TakenBy (s t : State) (u : Nat) (i : Inbound) : Prop :=
  (u = 0 → t.sw.ctlIn = s.sw.ctlIn ++ [i]) ∧ (u = 1 → t.coll.inq = s.coll.inq ++ [i]) ∧
  (u = 2 → t.pool.inq = s.pool.inq ++ [{ i with
    reach := { at' := s.now, rank := 1 + i.lp.getD 0, seq := s.pool.nextSeq } }])

/-- Packets arrive: a header that fails a check is counted and its packet is discarded; one for an own unit waits for its
end; at the end a packet for an own unit joins that unit's queue, one for a bench its receive queue, one for another
device the egress queue of a port that is still active, or is lost when a fault has stopped that queue; one that is short is counted and goes nowhere (R25, R39, R47,
R52, R54, R67, R80, R99, R250). That a VC7 packet enters whatever its flags is the model's reading (log entry 15), that a stopped queue takes nothing its reading of R77 (log entry 55). -/
def Obligations.PacketsArrive : Prop :=
  ∀ (s : State) (lp : Fin 512) (h : Hdr), s.clocked = true → s.portActive lp = true → (s.port lp).rxItems = [] →
    let decides := fun (d : Decision) (t : State) => (t.arrivalOn lp).map (fun a => (a.h, a.decision, a.ct)) = some (h, d, none)
    (∀ k, s.arrivalOn lp = none → s.ingressCheck lp (checkReqOf h) = some k → ∃ t, exec (.headerComplete lp h) s = .next t ∧
      decides .discard t ∧ t.regN k = min (s.regN k + 1) 0xFFFFFFFF ∧ t.sw.stored = s.sw.stored) ∧
    (s.arrivalOn lp = none → s.ingressCheck lp (checkReqOf h) = none → hMc h = false → s.isOwn h.dest = true →
      ∃ t, exec (.headerComplete lp h) s = .next t ∧ decides (.own (coordUnit h.dest)) t ∧ t.sw.stored = s.sw.stored) ∧
    (∀ o k u, s.arrivalOn lp = none → s.ingressCheck lp (checkReqOf h) = none → s.isOwn h.dest = false → hSpare h = false →
      hAok h = false → s.routePkt (routeReqOf h) (some lp) = (.go [o] none k, u) → u.tryCutThrough lp o h k = none →
      ∃ t, exec (.headerComplete lp h) s = .next t ∧ decides (.forward [o] none k) t) ∧
    (∀ (a : Arrival) body obs, s.arrivalOn lp = some a → a.h = h → a.ct = none →
      let p := packetOf h body
      let i : Inbound := { pkt := p, lp := some lp.val, core := none, units := hdrGranules h, arrivedAt := s.clk.ftime }
      (body.length < hdrSize h - 16 → ∃ t, exec (.packetEnd lp ⟨body, obs⟩) s = .next t ∧ t.arrivalOn lp = none ∧
        t.regN (Reg.lenMismatch (lp.val / 4)) = min (s.regN (Reg.lenMismatch (lp.val / 4)) + 1) 0xFFFFFFFF ∧
        t.sw.stored = s.sw.stored ∧ t.sw.queues = s.sw.queues ∧ t.coll = s.coll ∧ t.pool = s.pool ∧ t.benches = s.benches ∧
        t.sw.ctlIn = s.sw.ctlIn ∧ t.out = s.out) ∧
      (body.length = hdrSize h - 16 → checkCrc p = .good → a.decision = .own (coordUnit h.dest) →
        unitAccepts (coordUnit h.dest) (hVc h) = true →
        (coordUnit h.dest < 16 → (hPoison h = true → coordUnit h.dest ≠ 0) → ∃ t, exec (.packetEnd lp ⟨body, obs⟩) s = .next t ∧
          TakenBy s t (coordUnit h.dest) i) ∧
        (∀ b c, benchOfUnit (coordUnit h.dest) = some b → s.receivingCtx b = some c → (s.ctx c).fenced = false →
          s.fault.oos = false → s.replaying c = false →
          (s.bench b).recvWait = [] → ((s.bench b).recvQ.map (fun x => pktUnits x.pkt)).sum + pktUnits p ≤ 256 →
          (hVc h = 7 ∨ (hVc h = 4 ∧ (hLast h = false ∨ hCnt h = false) ∧
              ∀ x ∈ (s.bench b).chans, x.vc = 4 → x.src = h.src → x.chan = BitVec.ofNat 12 (hChan h) →
                ∀ q, x.lastSeq = some q → hSeq h = (q.toNat + 1) % 65536) →
            ∃ t, exec (.packetEnd lp ⟨body, obs⟩) s = .next t ∧ (t.bench b).recvQ = (s.bench b).recvQ ++ [i]) ∧
          (hVc h = 5 → hLast h = true → hCnt h = true → p.count = 1 → (s.bench b).msgs = [] → (s.bench b).vc5Wait = [] →
            ∃ t, exec (.packetEnd lp ⟨body, obs⟩) s = .next t ∧ (t.bench b).recvQ = (s.bench b).recvQ ++ [i]))) ∧
      (∀ o k, body.length = hdrSize h - 16 → a.decision = .forward [o] none k → s.portActive o = false → ∃ t,
        exec (.packetEnd lp ⟨body, obs⟩) s = .next t ∧ t.sw.stored = s.sw.stored ∧ t.sw.queues = s.sw.queues ∧
        t.regN Reg.portDownDrop = min (s.regN Reg.portDownDrop + 1) 0xFFFFFFFF) ∧
      (∀ o k, body.length = hdrSize h - 16 → a.decision = .forward [o] none k → s.portActive o = true →
        s.sw.stopped.contains (qkey o (hVc h)) = true → ∃ t, exec (.packetEnd lp ⟨body, obs⟩) s = .next t ∧
        t.queue o (hVc h) = s.queue o (hVc h) ∧ t.sw.stored = s.sw.stored ∧
        t.regN Reg.pktLostFault = min (s.regN Reg.pktLostFault + 1) 0xFFFFFFFF) ∧
      (∀ o k, body.length = hdrSize h - 16 → a.decision = .forward [o] none k → s.portActive o = true →
        s.sw.stopped.contains (qkey o (hVc h)) = false → ∃ t, exec (.packetEnd lp ⟨body, obs⟩) s = .next t ∧
        t.queue o (hVc h) = s.queue o (hVc h) ++ [s.sw.nextId] ∧
        (∃ x ∈ t.sw.stored, x.id = s.sw.nextId ∧ x.item = .packet p ∧ x.refs = 1) ∧
        (∀ l v, v < 8 → hVc h < 8 → (l, v) ≠ (o, hVc h) → t.queue l v = s.queue l v)))

/-- Cells: the first cell of a message for an own unit opens it in reassembly, while fewer than 1,024 are open; one in transit joins the egress queue; an
open message without a cell for 100 µs is abandoned; an open VC5 message past its timeout is discarded (R60-R62,
R101). -/
def Obligations.CellsArrive : Prop :=
  ∀ (s : State) (lp : Fin 512) (c : GrainCell) (obs : BufObs), s.clocked = true → s.portActive lp = true → (s.port lp).rxItems = [] →
    let w2 := w32 (u32 c.payload 0)
    (cMc c = false → s.isOwn c.dest = true → cFirst c = true → cLast c = false → s.ingressCheck lp (checkReqOfCell c) = none →
      s.reasmOpen < 1024 → s.sw.reasmWait = [] → s.sw.reasm.find? (sameMsg c.src (cVc c) (coordUnit c.dest)) = none → cIndex c = 0 → fld w2 14 3 = cVc c →
      fld w2 23 8 = cPart c → bit w2 19 = false → 1 ≤ fld w2 0 14 → fld w2 0 14 ≤ 8192 → (bit w2 20 = true → bit w2 17 = true) →
      ∃ t, exec (.cellArrival lp ⟨c, obs⟩) s = .next t ∧ t.sw.reasm = s.sw.reasm ++ [{
        src := c.src, vc := cVc c, unit := coordUnit c.dest, lp := lp, dest := c.dest, part := cPart c, mc := false,
        next := 1, poison := cPoison c, hop := cHop c, stream := c.payload, lastAt := s.now,
        held := if cVc c = 2 then 1 else 0 }] ∧ t.sw.queues = s.sw.queues) ∧
    (∀ o k u, s.isOwn c.dest = false → cFirst c = true → s.ingressCheck lp (checkReqOfCell c) = none → cReserved c = 0 →
      bit w2 18 = false → (s.countRx lp (cVc c) 1 64).routePkt (routeReqOfCell c) (some lp) = (.go [o] none k, u) →
      s.portActive o = true → s.sw.stopped.contains (qkey o (cVc c)) = false →
      ∃ t, exec (.cellArrival lp ⟨c, obs⟩) s = .next t ∧
        t.queue o (cVc c) = s.queue o (cVc c) ++ [s.sw.nextId] ∧ t.sw.reasm = s.sw.reasm) ∧
    (∀ (src : W32) (vc : Fin 8) (u : Byte) m, s.sw.reasmWait = [] → s.sw.reasm.find? (sameMsg src vc u.toNat) = some m → m.lastAt + 100000 ≤ s.now →
      ∃ t, exec (.reasmTimeout src vc u) s = .next t ∧ t.sw.reasm = dropFirst (sameMsg m.src m.vc m.unit) s.sw.reasm ∧
        t.regN (Reg.reasmTimeout (m.lp / 4)) = min (s.regN (Reg.reasmTimeout (m.lp / 4)) + 1) 0xFFFFFFFF) ∧
    (∀ (b : Fin 100) (src : W32) (ch : BitVec 12) m ms, (s.bench b).msgs = m :: ms → m.src = src → m.chan = ch → m.entering = false →
      (s.bench b).vc5Wait = [] → m.lastAt + s.regN Reg.vc5MsgTimeout * 1000000 ≤ s.now →
      ∃ t, exec (.vc5MsgTimeout b src ch 0) s = .next t ∧ (t.bench b).msgs = ms ∧
        (t.bench b).recvQ = (s.bench b).recvQ ∧
        t.regN Reg.msgTimeoutDrop = min (s.regN Reg.msgTimeoutDrop + 1) 0xFFFFFFFF)

/-- Packets leave: VC0, then VC1, while its cap balance is not negative, goes first; the head that is picked leaves its
queue for the link, its account charged, and a time packet of this device's own carries the fabric time of that
moment; a head stored longer than its lifetime is discarded and counted, with its queue when the queue's pointer is found
bad on the way (R77; that a discard's checks find what a free value says is the model's: log entry 17); a
cut-through packet still incomplete after 10 µs of its complete header (the start of that time is the model's: log entry 56) is
completed with a stomped trailer and counted as one whose length differs; units an audit finds are
quarantined; a held write that fits is written (R27, R47, R54, R69-R71, R75, R78, R79, R81-R83,
R281). -/
def Obligations.PacketsLeave : Prop :=
  ∀ (s : State) (lp : Fin 512), s.powered = true →
    (s.eligible lp 0 = true → 0 ≤ s.capNow lp 0 → (s.arbitrate lp).1 = some 0) ∧
    (s.eligible lp 0 = false → s.eligible lp 1 = true → 0 ≤ s.capNow lp 1 → (s.arbitrate lp).1 = some 1) ∧
    ((∀ v < 8, s.eligible lp v = false) → exec (.egressSelect lp .clean) s = .next s) ∧
    (∀ v x p, s.canSend lp = true → s.ctOpenOn lp = none → (s.arbitrate lp).1 = some v → s.headOf lp v = some x →
      x.item = .packet p → s.segments lp x = false → x.bad = [] → x.stomped = [] → ∃ t, exec (.egressSelect lp .clean) s = .next t ∧
        (let q := if s.ownTime x p ∧ sget 0 x.cellsSent lp = 0 then stampTime s.clk.ftime p else p
         t.out = s.out ++ [.packet lp (if x.fwd then { q with h := hopHdr q.h (hHop q.h - 1) } else q)]) ∧
        t.queue lp v = dropFirst (· == x.id) (s.queue lp v) ∧ (t.port lp).txQ.length = (s.port lp).txQ.length + 1 ∧
        (t.txAcct lp v (s.itemAcct lp x.item)).charged = (s.txAcct lp v (s.itemAcct lp x.item)).charged + x.granules) ∧
    (∀ (v : Fin 8) x, s.frontOf lp v = some x → x.arriving = false → s.isStale x = true → x.bad = [] →
      ∃ t, exec (.staleDrop lp v) s = .next t ∧ t.out = s.out ∧
        (pickObs s.free.1 discardObs ≠ .ptrUe → t.queue lp v = (s.queue lp v).drop 1) ∧
        (pickObs s.free.1 discardObs = .ptrUe → t.queue lp v = []) ∧
        t.regN Reg.staleDrop = min (s.regN Reg.staleDrop + 1) 0xFFFFFFFF) ∧
    (∀ a id x o got, s.arrivalOn lp = some a → a.ct = some id → s.stored? id = some x → x.headOut = [o] →
      x.bad = [] → a.beganAt + 10000 ≤ s.now → ∃ t, exec (.ctAbort lp got) s = .next t ∧
        (let q := outPacket x (packetOf a.h got)
         t.out = s.out ++ [.ended o { q with crc := stompedCrc q }]) ∧
        t.queue o (hVc a.h) = dropFirst (· == id) (s.queue o (hVc a.h)) ∧
        t.regN Reg.ctAbort = min (s.regN Reg.ctAbort + 1) 0xFFFFFFFF ∧
        t.regN (Reg.lenMismatch (lp.val / 4)) = min (s.regN (Reg.lenMismatch (lp.val / 4)) + 1) 0xFFFFFFFF) ∧
    (∀ n, bit (s.reg Reg.scCtrl) 4 = true → 0 < n → s.sw.quar + n < 16384 → ∃ t, exec (.bufferAudit n) s = .next t ∧
      t.sw.quar = s.sw.quar + n ∧ Logs s t 0x06 1 2 0 1 0 ∧
      t.regN Reg.auditMismatch = min (s.regN Reg.auditMismatch + n) 0xFFFFFFFF) ∧
    (∀ h u, s.sw.held = [h] → h.more = [] → (s.tryInternal h.writer h.pkt).isSome = true →
      ({ s with sw := { s.sw with held := [] } } : State).tryInternal h.writer h.pkt = some (u, none) →
      exec .internalWriterResume s = .next u)

/-! ### The pool and the host's memory -/

/-- The request commands and the POP each takes (R298). -/
def poolCmds : List (Instr × Nat) :=
  [(.poolRead, 0), (.poolWrite, 1), (.poolAadd64, 2), (.poolAaddf32, 3), (.poolCas64, 4), (.poolMcread, 5)]

/-- `t` is `r` with a completion sent to the requester of `h`: VC 7, the request's PART, CHAN and SEQ, its POP, a code, a length
and the data (R301). -/
def Completes (r t : State) (h : Hdr) (pop code len : Nat) (data : List Byte) : Prop :=
  t = r.send .answer (mkPacket
    { dest := h.src, src := r.ownUnit unitPool, len := 0, vc := 7, part := hPart h, chan := hChan h, seq := hSeq h,
      hop := r.regN Reg.poolHop } (leBytes 4 (pack [(0, code), (8, pop), (16, len)]) ++ leBytes 4 0 ++ data))

/-- The form of a request whose payload holds its first 16 bytes (R298, R299). -/
def PoolForm (p : Packet) (o : PoolOp) : Prop :=
  let n := p.payload.length
  o.pop ≤ 5 ∧ u32 p.payload 0 / 16 % 16 = 0 ∧ u32 p.payload 0 / 2 ^ 24 = 0 ∧ u32 p.payload 4 / 2 ^ 26 = 0 ∧
  u32 p.payload 12 / 65536 = 0 ∧ (o.pop ≠ 5 → o.group = 0) ∧
  ((o.pop = 0 ∨ o.pop = 5) → 0 < o.len ∧ o.len ≤ 8176) ∧ (o.pop = 1 → 0 < o.len ∧ o.len ≤ 8176 ∧ n = 16 + o.len) ∧
  ((o.pop = 2 ∨ o.pop = 3 ∨ o.pop = 4) → o.len = 0) ∧ (o.pop = 0 → n = 16) ∧ (o.pop = 4 → n = 32 ∧ o.addr % 8 = 0) ∧
  ((o.pop = 2 ∨ o.pop = 3 ∨ o.pop = 5) → n = 24) ∧ (o.pop = 2 → o.addr % 8 = 0) ∧
  (o.pop = 3 → o.addr % 4 = 0 ∧ u32 p.payload 20 = 0) ∧ hLast p.h = true ∧ hCnt p.h = false ∧ hMc p.h = false

/-- Requests: the head request goes in flight, at its place from its arrival, when it passes its checks. When it does not, it
is answered with the code of the first check it fails, POP and no data, to its source, and counted, with memory as it was.
The checks come in order: a check error in a multicast group's entry, a fenced context, a pool that is not enabled or a context
that is not open, a stale generation, a partition or a permission, the form, an address outside every window, an absent group, a
poisoned packet, a full result table. An atomic whose result is held is answered from the table (R297-R301, R305, R307). -/
def Obligations.PoolRequests : Prop :=
  ∀ (s : State) (i : Inbound) (rest : List Inbound), s.powered = true → s.pool.inq = i :: rest → s.poolBusy < 4096 →
    let p := i.pkt
    let o := poolOpOf p i.lp
    let cx := s.ctx o.ctx
    let took := (s.modPool (fun q => { q with inq := rest })).tookIn i
    let code := (s.poolCode p o).1
    let gerr := o.pop = 5 ∧ (s.lookupErr s.route.activeBank 2 o.group).1 = true
    let atomic := 2 ≤ o.pop ∧ o.pop ≤ 4
    let same := fun (q : PoolOp) => decide (2 ≤ q.pop ∧ q.pop ≤ 4) && q.h.src == p.h.src && hChan q.h == hChan p.h && hSeq q.h == hSeq p.h
    let noPerm := hPart p.h ≠ cx.part.toNat ∨ (1 ≤ o.pop ∧ o.pop ≤ 4 ∧ ∃ w, s.findWin o.ctx o.addr 1 = some w ∧ w.wr = false) ∨
      (atomic ∧ bit cx.perms 1 = false)
    let looked := (took.poolCode p o).2
    let same' := fun (t : State) => t.pool.inflight = s.pool.inflight ∧ t.pool.mem = s.pool.mem ∧ t.pool.results = s.pool.results
    let refuses := fun (r : State) (cmd : Instr) (pop c : Nat) =>
      let q := r.bump Reg.reqRefused
      ∃ t, exec cmd s = .next t ∧
        Completes (if c = Code.addr then q.bump Reg.addrRefused else if c = Code.perm then q.bump Reg.permRefused else q) t p.h pop c 0 [] ∧
        t.regN Reg.reqRefused = min (s.regN Reg.reqRefused + 1) 0xFFFFFFFF ∧ same' t
    (p.payload.length < 16 → refuses took .poolRead 0 Code.lenErr) ∧
    (16 ≤ p.payload.length → 5 < o.pop → code ≠ 0 ∧ refuses looked .poolRead o.pop code) ∧
    (16 ≤ p.payload.length → ∀ e ∈ poolCmds, o.pop = e.2 →
      (code ≠ 0 → refuses looked e.1 o.pop code) ∧
      (code = 0 → (atomic → s.pool.results.find? (resultKey p.h) = none ∧
          (s.resultsFull = false ∧ s.pool.inflight.find? same = none ∨
            ∃ q, s.pool.inflight.find? same = some q ∧ q.pop = o.pop ∧ q.addr = o.addr)) →
        ∃ t, exec e.1 s = .next t ∧ t.pool.inq = took.pool.inq ∧
          t.pool.inflight = s.pool.inflight ++ [{ o with reach := i.reach }] ∧ t.pool.mem = s.pool.mem ∧
          t.pool.poisoned = s.pool.poisoned) ∧
      (atomic → code = 0 → s.pool.results.find? (resultKey p.h) = none → s.pool.inflight.find? same = none → s.resultsFull = true →
        refuses (looked.bump Reg.resultFull) e.1 o.pop Code.capacity) ∧
      (∀ x, atomic → code = 0 → s.pool.results.find? (resultKey p.h) = some x → x.poisoned = false →
        (x.pop = o.pop → x.addr = o.addr → ∃ t, exec e.1 s = .next t ∧
          (x.code = 0 → Completes (looked.bump Reg.resultHits) t p.h o.pop 0 8 (leBytes 8 x.old.toNat)) ∧
          (x.code ≠ 0 → Completes ((looked.bump Reg.resultHits).bump Reg.reqRefused) t p.h o.pop x.code.toNat 0 [] ∨
            x.code.toNat = Code.addr ∨ x.code.toNat = Code.perm) ∧
          t.regN Reg.resultHits = min (s.regN Reg.resultHits + 1) 0xFFFFFFFF ∧ same' t) ∧
        (x.pop ≠ o.pop ∨ x.addr ≠ o.addr → refuses (looked.bump Reg.resultConflict) e.1 o.pop Code.contract))) ∧
    (poolLenBad p o = false ↔ PoolForm p o) ∧
    (gerr → code = Code.internal) ∧
    (¬ gerr → cx.fenced = true → code = Code.fenced) ∧
    (¬ gerr → cx.fenced = false → s.poolEn = false ∨ cx.st ≠ .opened → code = Code.closed) ∧
    (¬ gerr → cx.fenced = false → cx.st = .opened → s.poolEn = true →
      (u8 p.payload 2 ≠ cx.gen.toNat → code = Code.genStale) ∧
      (u8 p.payload 2 = cx.gen.toNat →
        (noPerm → code = Code.perm) ∧
        (¬ noPerm → ¬ PoolForm p o → code = Code.lenErr) ∧
        (¬ noPerm → PoolForm p o →
          let w4 := s.tblWord s.route.activeBank 2 o.group 4
          let absent := o.pop = 5 ∧ (bit w4 2 = false ∨ fld w4 8 8 ≠ cx.part.toNat)
          (s.findWin o.ctx o.addr (opSpan o) = none → code = Code.addr) ∧
          (∀ w, s.findWin o.ctx o.addr (opSpan o) = some w → (absent → code = Code.noRoute) ∧
            (¬ absent → hPoison p.h = true → code = Code.poison) ∧ (¬ absent → hPoison p.h = false → code = 0)))))

/-- An operation whose lines no access before it in the order touches, whose controllers are awake and whose blocks are in the
cache: a read leaves memory as it was, a write stores its bytes and no others, an atomic stores the new value and
enters the old one in the result table (R301-R307). -/
def Obligations.PoolAccessesPerformed : Prop :=
  ∀ (s : State) (o : PoolOp) (os : List PoolOp), s.powered = true → s.pool.inflight = o :: os →
    s.poolAhead o.addr (opSpan o) o.reach = false → s.memAwake o.addr (opSpan o) = true →
    s.resident o.addr (opSpan o) = true → s.ueLines o.addr (opSpan o) = [] →
    let performs := fun (m : State → Prop) => ∃ t, exec (.poolAccessPerformed 0 .clean) s = .next t ∧ t.pool.inflight = os ∧ m t
    let outside := fun (n : Nat) (t : State) => ∀ a, a < o.addr ∨ o.addr + n ≤ a → sget 0 t.pool.mem a = sget 0 s.pool.mem a
    (o.pop = 0 → performs (fun t => t.pool.mem = s.pool.mem ∧ t.pool.results = s.pool.results)) ∧
    (o.pop = 5 → performs (fun t => t.pool.mem = s.pool.mem ∧ t.pool.results = s.pool.results)) ∧
    (o.pop = 1 → o.data.length = o.len → performs (fun t => t.memRead o.addr o.len = o.data ∧ outside o.len t ∧
      t.pool.results = s.pool.results)) ∧
    (∀ n new : Nat, s.pool.results.find? (resultKey o.h) = none → s.pool.results.length < 65536 →
      let old := ofLe (s.memRead o.addr n)
      (o.pop = 2 ∧ n = 8 ∧ new = (old + u64 o.data 0) % 2 ^ 64) ∨ (o.pop = 3 ∧ n = 4 ∧ new = fp32Add old (u64 o.data 0 % 2 ^ 32)) ∨
        (o.pop = 4 ∧ n = 8 ∧ new = if old = u64 o.data 0 then u64 o.data 8 else old) →
      performs (fun t => t.memRead o.addr n = leBytes n new ∧ outside n t ∧ ∃ e, t.pool.results = s.pool.results ++ [e] ∧
        e.src = o.h.src ∧ e.old = w64 old ∧ e.code = 0 ∧ e.addr = o.addr ∧ e.madeAt = s.now))

/-- Fills, prefetches, write-backs, scrubs and self-refresh, and the end of a poisoned result slot
(R309-R312, R315, R317, R409). -/
def Obligations.PoolUpkeep : Prop :=
  ∀ (s : State), s.powered = true →
    let awake := fun (id w blk : Nat) => ∀ m ∈ memsOf (blk * 4096) 4096 ++ memsOf (s.win id w).cbase 4096,
      (s.memCtl m).st = .active
    (∀ (id : Fin 256) (w : Fin 16) blk, awake id w blk → (s.cacheWin id w).filling.contains blk = true →
      (∀ o ∈ s.pool.inflight, (blocksOf o.addr (opSpan o)).contains blk = false) →
      ∃ t, exec (.cacheFillComplete id w blk .clean) s = .next t ∧ ((t.cacheWin id w).blocks.any (fun b => b.blk == blk)) = true ∧
        (t.cacheWin id w).filling.contains blk = false ∧ t.pool.mem = s.pool.mem) ∧
    (∀ (id : Fin 256) (w : Fin 16) blk, awake id w blk → (s.cacheWin id w).prefetching.contains blk = true →
      (∀ l ∈ s.pool.poisoned, l / 64 ≠ blk) → (∀ e ∈ s.pool.latent, e.2 = false → e.1 / 64 ≠ blk) →
      ∃ t, exec (.prefetchFillComplete id w blk .clean) s = .next t ∧
        ((t.cacheWin id w).blocks.any (fun b => b.blk == blk && b.prefetched)) = true ∧
        (t.cacheWin id w).prefetching.contains blk = false ∧ t.pool.mem = s.pool.mem ∧
        t.regN Reg.pfFills = min (s.regN Reg.pfFills + 1) 0xFFFFFFFF) ∧
    (∀ (id : Fin 256) (w : Fin 16) f fs, s.pool.flushing = f :: fs → f.ctx = id.val → f.win = w.val → s.fenceActive = false →
      let ms := f.blks.flatMap (fun b => memsOf (b.blk * 4096) 4096 ++ memsOf (winOf f.ws).cbase 4096)
      ((∀ m ∈ ms, (s.memCtl m).st = .active) → ∃ t, exec (.cacheWritebackComplete id w) s = .next t ∧ t.pool.flushing = fs ∧
        t.pool.mem = s.pool.mem ∧ t.pool.poisoned = s.pool.poisoned ∧
        t.regN Reg.writebacks = min (s.regN Reg.writebacks + f.blks.length) 0xFFFFFFFF) ∧
      (∀ m ∈ ms, (s.memCtl m).st = .selfRefresh → ∃ t, exec (.cacheWritebackComplete id w) s = .next t ∧
        t.pool.flushing = s.pool.flushing ∧ (t.memCtl m).st = .waking)) ∧
    (∀ m : Fin 28, bit (s.reg Reg.poolCtrl) 1 = true → (s.memCtl m).st = .active → memOf (s.memCtl m).scrubPos = m.val →
      inPool (s.memCtl m).scrubPos 64 = true → (∀ e ∈ s.pool.latent, e.1 ≠ (s.memCtl m).scrubPos / 64) → ∃ t, exec (.patrolScrub m .clean) s = .next t ∧
        (t.memCtl m).scrubPos = (nextLine m (s.memCtl m).scrubPos).1 ∧ t.pool.mem = s.pool.mem ∧
        t.pool.poisoned = s.pool.poisoned) ∧
    (∀ m : Fin 28, (s.memCtl m).st = .active → s.memPending m = false →
      (s.memCtl m).lastAccess + s.regN Reg.memIdle * 1000 ≤ s.now → exec (.selfRefreshEntry m) s =
        .next (s.modMem m (fun c => { c with st := .selfRefresh }))) ∧
    (∀ m : Fin 28, (s.memCtl m).st = .selfRefresh → bit (s.reg Reg.poolCtrl) 1 = true → exec (.selfRefreshScrubWake m) s =
      .next (s.modMem m (fun c => { c with st := .waking }))) ∧
    (∀ e es, s.pool.results = e :: es → e.poisoned = true → e.madeAt + s.regN Reg.resultHold * 1000000 ≤ s.now →
      exec (.resultSlotPoisonEnd 0) s = .next (s.modPool (fun p => { p with results := es })))

/-- The host's accesses, with nothing before them on their lines and their controllers awake: a read gives the bytes; a
write stores the enabled bytes of its line and no others, and is completed in CXL mode; an atomic gives the old value
and stores the new one; an address in neither tier is refused and counted in PCIe mode; before memory is active a read
gives all ones and a write is dropped, both counted; a speculative read and a flush change nothing (R305, R383,
R389-R391). -/
def Obligations.HostAccesses : Prop :=
  ∀ (s : State) (addr a n : Nat), s.hostOpen = true →
    let free := fun (x m : Nat) => s.poolAhead x m { at' := s.now, rank := 0, seq := s.pool.nextSeq } = false ∧
      s.memAwake x m = true ∧ s.resident x m = true ∧ s.ueLines x m = []
    let mf : Option MetaField := if s.host.cxlMode then some .noOp else none
    let ok := s.hostAddr addr n = some a ∧ s.host.memActive = true ∧ free a n
    (ok → 0 < n → ∃ t, exec (.hostMemRead addr n .clean) s = .next t ∧ t.pool.mem = s.pool.mem ∧
      t.out = s.out ++ [.hostData addr (s.memRead a n) false mf]) ∧
    (∀ bs : List (Option Byte), ok → bs.length = n → 0 < n → a % 64 + n ≤ 64 → ∃ t, exec (.hostMemWrite addr bs) s = .next t ∧
      (∀ i v, bs[i]? = some (some v) → sget 0 t.pool.mem (a + i) = v) ∧
      t.out = s.out ++ (match mf with | some m => [.hostDone addr m] | none => []) ∧
      (∀ j, (∀ i v, j = a + i → bs[i]? ≠ some (some v)) → sget 0 t.pool.mem j = sget 0 s.pool.mem j)) ∧
    (s.host.cxlMode = false → inPool addr n = false → 0 < n → ∃ t, exec (.hostMemRead addr n .clean) s = .next t ∧
      t.out = s.out ++ [.hostRefused addr] ∧ t.pool = s.pool ∧
      t.regN Reg.hostMemRefused = min (s.regN Reg.hostMemRefused + 1) 0xFFFFFFFF) ∧
    (s.hostAddr addr n = some a → s.host.memActive = false → 0 < n →
      (∃ t, exec (.hostMemRead addr n .clean) s = .next t ∧ t.pool = s.pool ∧
        t.out = s.out ++ [.hostData addr (List.replicate n 0xFF) true mf] ∧
        t.regN Reg.hostMemRefused = min (s.regN Reg.hostMemRefused + 1) 0xFFFFFFFF) ∧
      (∀ bs : List (Option Byte), bs.length = n → ∃ t, exec (.hostMemWrite addr bs) s = .next t ∧ t.pool = s.pool ∧
        t.regN Reg.hostMemRefused = min (s.regN Reg.hostMemRefused + 1) 0xFFFFFFFF)) ∧
    (∀ cas x y, s.host.cxlMode = false → addr % 8 = 0 → inPool addr 8 = true → s.host.memActive = true → free addr 8 →
      let old := ofLe (s.memRead addr 8)
      ∃ t, exec (.hostPcieAtomic cas addr x y) s = .next t ∧ t.out = s.out ++ [.hostData addr (leBytes 8 old) false none] ∧
        t.memRead addr 8 = leBytes 8 (if cas then (if old = x.toNat then y.toNat else old) else (old + x.toNat) % 2 ^ 64)) ∧
    (exec (.hostMemSpecRead addr) s = .next s) ∧ (exec .gpfFlush s = .next s)

/-- The host link: training brings it up and releases what was held; its loss fences the host and counts; PERST# and its
end; a function-level reset clears the BARs and the MSI-X state alone; a decoder that passes its checks is committed, and
a write without its Commit bit uncommits it (R382, R387, R388, R397, R398). That a reset of the MSI-X state leaves every
vector masked, that uncommitting clears the error bit, and what the AER registers hold after PERST#, are the model's choices
(log entry 65); that a loss of the link keeps a mailbox command in progress, and a reset ends it, is its reading (log entry 49). -/
def Obligations.HostLink : Prop :=
  ∀ (s : State), s.powered = true →
    let io := fun (h : HostIf) => { h with bars := [], msixTable := [], msixMasked := List.range 64, msixPending := [] }
    let left : Pool := { s.pool with inflight := s.pool.inflight.filter (fun o => decide (o.pop < 8)) }
    (∀ cxl w sp, s.host.perst = false → s.host.linkUp = false → ∃ t, exec (.hostLinkTrained cxl w sp) s = .next t ∧
      t.host.linkUp = true ∧ t.host.fenced = false ∧ t.host.mboxResult = [] ∧ t.host.cxlMode = (cxl && sp.val == 4) ∧
      t.out = s.out ++ (s.host.msixPending.filter (fun v => !s.host.msixMasked.contains v)).map .msix ++
        s.host.mboxResult.map (fun r => .mailbox r.1 r.2.1 r.2.2)) ∧
    (s.host.linkUp = true → ∃ t, exec .hostLinkDown s = .next t ∧
      t.regN Reg.hostLinkDowns = min (s.regN Reg.hostLinkDowns + 1) 0xFFFFFFFF ∧
      t = { s with
        host := { io s.host with
          linkUp := false
          fenced := true
          dec0 := none
          dec1 := none
          err0 := false
          err1 := false
          comp := []
          msixPending := s.host.msixPending }
        regs := t.regs
        pool := left }) ∧
    (∀ hot, exec (.perstNAssert hot) s = .next { s with
      host := { io s.host with
        linkUp := false
        perst := s.host.perst || !hot
        configAt := if hot then s.host.configAt else none
        dec0 := none
        dec1 := none
        err0 := false
        err1 := false
        comp := []
        mboxBusy := none
        mboxResult := []
        background := none
        ueStatus := if hot then s.host.ueStatus else 0
        ueMask := if hot then s.host.ueMask else 0x00400000
        ueSev := if hot then s.host.ueSev else 0x00462030
        ceStatus := if hot then s.host.ceStatus else 0
        ceMask := if hot then s.host.ceMask else 0x00002000 }
      mgmt := { s.mgmt with
        mbox := { s.mgmt.mbox with signing := none }
        fwTransfer := if s.mgmt.fwTransfer.any (fun x => !x.1) then none else s.mgmt.fwTransfer }
      pool := left }) ∧
    (s.host.perst = true → exec .perstNDeassert s = .next { s with
      host := { s.host with perst := false, configAt := some (s.now + 100000000) } }) ∧
    (s.hostOpen = true → exec .functionLevelReset s = .next { s with host := io s.host }) ∧
    (∀ (i : Fin 2) d, s.host.linkUp = true → s.configAnswer = 2 → d.commit = true →
      (if i.val = 0 then s.host.dec0 else s.host.dec1) = none →
      ∃ t, exec (.hdmDecoderCommit i d) s = .next t ∧ t = { s with host := t.host } ∧
        (if i.val = 0 then t.host.dec0 else t.host.dec1) = (if s.host.commitBad i d then none else some d) ∧
        (if i.val = 0 then t.host.err0 else t.host.err1) = s.host.commitBad i d) ∧
    (∀ (i : Fin 2) d, s.host.linkUp = true → s.configAnswer = 2 → d.commit = false →
      ∃ t, exec (.hdmDecoderCommit i d) s = .next t ∧ t = { s with host := t.host } ∧
        (if i.val = 0 then t.host.dec0 else t.host.dec1) = none ∧ (if i.val = 0 then t.host.err0 else t.host.err1) = false ∧
        (if i.val = 0 then t.host.dec1 else t.host.dec0) = (if i.val = 0 then s.host.dec1 else s.host.dec0)) ∧
    (∀ (i : Fin 2) d, s.host.linkUp = true → d.commit = true → (if i.val = 0 then s.host.dec0 else s.host.dec1).isSome = true →
      exec (.hdmDecoderCommit i d) s = .next s)

/-! ### Lanes, links and ports -/

/-- Every lane of the port as it was before is in state `st` now. -/
def LanesAre (s t : State) (lp : Nat) (p : Lane → Prop) : Prop := ∀ n ∈ s.portLanes lp, p (t.lane n)

/-- Training and administration: ADMIN_UP starts training with the lanes lit, but stays 0 before OWN_COORD has been
written; ADMIN_UP 0 brings the port down with its
queues empty and its lanes dark; no light, a timeout, too much skew and no equalisation setting fail it with their
reasons, and a spare in training is given up as miscabled instead; a bad training record is counted alone, a good one noted; the native switch and a found setting advance it;
LINK_UP makes it ACTIVE with its accounts open and its rejoin hold started; without FAB_REFCLK nothing is received (R38, R97,
R362, R367-R370, R376, R516). That the register's bit reads 0 then, how the two SWITCH_AT frames are compared, and that a bad
record ends the run of valid ones, are the model's readings (log entry 60). -/
def Obligations.PortsTrain : Prop :=
  ∀ (s : State) (r : Requester) (lp : Fin 512), s.powered = true → Clear s r →
    let p := s.port lp
    let ctrl := Reg.portCtrl (lp.val / 4) (lp.val % 4)
    let fails := fun (i : Instr) (reason : Nat) => ∃ t, exec i s = .next t ∧ (t.port lp).st = .failed ∧
      (t.port lp).reason = reason ∧ LanesAre s t lp (fun l => l.st = .off ∧ l.shutter = false) ∧
      t.regN (Reg.trainFails (lp.val / 4)) = min (s.regN (Reg.trainFails (lp.val / 4)) + 1) 0xFFFFFFFF
    (Writable s ctrl 1 → bit (s.reg Reg.devStatus) 0 = true → s.adminUp lp = false → p.st = .down → ∃ t, exec (.portAdminUp r lp 1) s = .next t ∧
      (t.port lp).st = .training ∧ (t.port lp).trainStep = 1 ∧ (t.port lp).trainAt = s.now ∧ t.reg ctrl = 1 ∧
      LanesAre s t lp (fun l => l.st = .training ∧ l.shutter = true ∧ l.fadami = true)) ∧
    (Writable s ctrl 1 → bit (s.reg Reg.devStatus) 0 = false → s.adminUp lp = false → ∃ t, exec (.portAdminUp r lp 1) s = .next t ∧
      (t.port lp).st = p.st ∧ t.reg ctrl = 0) ∧
    (Writable s ctrl 0 → s.adminUp lp = true → p.st ≠ .outOfService → ∃ t, exec (.portAdminDown r lp 0) s = .next t ∧
      (t.port lp).st = .down ∧ (t.port lp).reason = 0 ∧ t.reg ctrl = 0 ∧ (t.port lp).replay = [] ∧
      (p.st = .active → ∀ v < 8, t.queue lp v = []) ∧ LanesAre s t lp (fun l => l.st = .off ∧ l.shutter = false)) ∧
    (∀ m : Fin 528, m.val = lp.val →
      (p.st = .training → p.trainStep = 1 → p.trainAt + 100000 ≤ s.now → fails (.noLight m) 1) ∧
      (p.st = .training → p.reason = 0 → p.trainAt + s.regN (Reg.trainTimeout (lp.val / 4)) * 1000000 ≤ s.now →
        fails (.trainTimeout m) 2) ∧
      (∀ k, s.clk.fabRef = true → p.st = .training → p.trainStep = 3 → s.goesNative lp = true → s.switchDue lp = true →
        (4096 < k → fails (.nativeModeSwitch m k) 4) ∧
        (k ≤ 4096 → ∃ t, exec (.nativeModeSwitch m k) s = .next t ∧
          4 ≤ (t.port lp).trainStep ∧ (t.port lp).fadami = false ∧
          LanesAre s t lp (fun l => l.fadami = false ∧ l.st = .locked)))) ∧
    (∀ m : Fin 528, 512 ≤ m.val → ((s.lane m).st = .training ∨ (s.lane m).st = .locked) →
      let drops := fun (i : Instr) => ∃ t, exec i s = .next t ∧ (t.lane m).st = .off ∧ (t.lane m).miscabled = true ∧ t.ports = s.ports
      ((s.lane m).sameIds = 0 → (s.lane m).trainAt + 100000 ≤ s.now → drops (.noLight m)) ∧
      (∀ q, s.spareTarget m = some q → (s.lane m).trainAt + s.regN (Reg.trainTimeout q) * 1000000 ≤ s.now → drops (.trainTimeout m)) ∧
      (∀ k, s.clk.fabRef = true → (s.spareTarget m).bind (s.spareFor m) = some lp.val → 8 ≤ (s.lane m).sameIds →
        (s.lane m).fadami = true → p.fadami = false → (s.lane m).spareDue = true →
        (4096 < k → drops (.nativeModeSwitch m k)) ∧
        (k ≤ 4096 → exec (.nativeModeSwitch m k) s = .next (s.modLane m Lane.native)))) ∧
    (∀ (n : Fin 528) w2 eyes pos, s.laneOwner n = some (lp.val, pos) → p.st = .training → p.trainStep = 4 → s.eqLock n w2 = false →
      ((s.lane n).wave w2).eqDone = false → (w2 && (s.lane n).fadami) = false →
      (bestEye eyes = none → fails (.txEqComplete n w2 eyes) 7) ∧
      (∀ e, bestEye eyes = some e → ∃ t, exec (.txEqComplete n w2 eyes) s = .next t ∧ ((t.lane n).wave w2).eqDone = true)) ∧
    (s.clk.fabRef = false → ∀ (n : Fin 528) rec freq (m : Fin 528) k ws ok, exec (.trainingRecordReceived n rec freq) s = .next s ∧
      exec (.nativeModeSwitch m k) s = .next s ∧ exec (.linkUp lp ws) s = .next s ∧ exec (.fastRetrainComplete lp ok) s = .next s) ∧
    (∀ (n : Fin 528) rec freq, s.clk.fabRef = true → ((s.lane n).st = .training ∨ (s.lane n).st = .locked) →
      (recordOk rec = false → exec (.trainingRecordReceived n rec freq) s = .next ((s.bump (Reg.recBad n)).modLane n (fun l => { l with
        sameIds := if l.sameIds < 8 then 0 else l.sameIds }))) ∧
      (recordOk rec = true → ∃ t, exec (.trainingRecordReceived n rec freq) s = .next t ∧
        (t.lane n).partnerId = w64 (u64 rec 4) ∧ (t.lane n).rxAt = s.now ∧ (t.lane n).rxCoord = w32 (u32 rec 12 / 256 * 256))) ∧
    (∀ w : W32, s.clk.fabRef = true → p.st = .training → p.trainStep = 6 → s.lportExists lp = true → p.rxItems = [] → bit w 4 = true →
      ∃ t, exec (.linkUp lp [w]) s = .next t ∧ (t.port lp).st = .active ∧ LanesAre s t lp (fun l => l.st = .inUse) ∧
        t.txAcct lp (fld w 0 3) (bit w 3) = { advertised := true, limit := fld w 16 16 } ∧
        t.route.rejoin = s.route.rejoin.filter (fun x => x.1 != lp.val) ++ [(lp.val, s.now)])

/-- Fast retrains, sleep and sparing of an ACTIVE port: a retrain keeps the port ACTIVE, its LSEQ and its replay buffer;
an idle direction dozes and naps after announcing it, a demand in the cycle keeps it active and is counted; a demand wakes
it after 120 ns or 1.5 µs, and a retrain wakes it from off; a position moves to its spare when both ends know the block,
and the word that names it leaves in the blocks before it; an end that has started the same swap answers the partner's
SPARE_SWAP too (R367, R374-R377). That an ACTIVE port answers LINK_UP until the partner shows that it is ACTIVE is the
model's choice (log entry 60), and that block numbers start again after a retrain (log entry 27). -/
def Obligations.PortsSleepAndSpare : Prop :=
  ∀ (s : State) (r : Requester) (lp : Fin 512), s.powered = true → Clear s r → (s.port lp).st = .active →
    let p := s.port lp
    let cmd := Reg.portCmd (lp.val / 4) (lp.val % 4)
    let retrains := fun (i : Instr) => ∃ t, exec i s = .next t ∧ (t.port lp).st = .active ∧ (t.port lp).retraining = true ∧
      (t.port lp).reason = 2 ∧ (t.port lp).replay = p.replay ∧ (t.port lp).txLseq = p.txLseq ∧
      LanesAre s t lp (fun l => l.st = .training) ∧ (t.port lp).swap = none ∧
      t.regN (Reg.retrains (lp.val / 4)) = min (s.regN (Reg.retrains (lp.val / 4)) + 1) 0xFFFFFFFF
    let sleeps := fun (i : Instr) (d : DirState) (code : Nat) => ∃ t, exec i s = .next t ∧ (t.port lp).tx = d ∧
      t.out = s.out ++ [.control lp [w32 (4 + 256 * code)]] ∧ (t.port lp).replay = p.replay
    let races := fun (i : Instr) => ∃ t, exec i s = .next t ∧ t.port lp = { p with idleSince := s.now } ∧ t.out = s.out ∧
      t.regN (Reg.sleepRace (lp.val / 4)) = min (s.regN (Reg.sleepRace (lp.val / 4)) + 1) 0xFFFFFFFF
    let at' := (p.cutControl (s.laneCount lp) 0).txBlk
    let swaps := fun (i : Instr) (ct pos : Nat) (back : Bool) => ∃ t, exec i s = .next t ∧ (t.port lp).holdFrom = some at' ∧
      (t.port lp).swap.map (fun x => (x.pos, x.back)) = some (pos, back) ∧ (t.port lp).st = .active ∧
      t.out = s.out ++ [.control lp [w32 (pack [(0, ct), (8, pos), (11, b2n back), (16, at' % 65536)])]]
    (Writable s cmd 1 → p.retraining = false → retrains (.fastRetrain r lp)) ∧
    (s.clk.fabRef = true → p.retraining = true → ((∀ n ∈ s.portLanes lp, (s.lane n).ready = true) → ∃ t, exec (.fastRetrainComplete lp true) s = .next t ∧
      (t.port lp).st = .active ∧
      (t.port lp).retraining = false ∧ (t.port lp).replay = p.replay ∧ (t.port lp).txLseq = p.txLseq ∧
      (t.port lp).rxNextBlk = 0 ∧ LanesAre s t lp (fun l => l.st = .inUse)) ∧
      ∃ t, exec (.fastRetrainComplete lp false) s = .next t ∧ (t.port lp).st = .failed ∧ (t.port lp).reason = p.reason) ∧
    (p.tx = .active → s.txIdleFor lp (s.regN (Reg.dozeIdle (lp.val / 4))) = true →
      sleeps (.txDozeEntry lp false) .doze 1 ∧ races (.txDozeEntry lp true)) ∧
    (p.tx = .active ∨ p.tx = .doze → s.txIdleFor lp (s.regN (Reg.napIdle (lp.val / 4))) = true →
      sleeps (.txNapEntry lp false) .nap 2 ∧ races (.txNapEntry lp true)) ∧
    (∀ v : W32, Writable s (Reg.portCtrl (lp.val / 4) (lp.val % 4)) (w64 v.toNat) → bit v 0 = s.adminUp lp → p.retraining = false →
      bit (s.reg Reg.devStatus) 0 = true → p.tx = .active →
      (s.txDemand lp = false → (fld v 1 2 = 1 → sleeps (.txSleepForceWrite r lp v) .doze 1) ∧
        (fld v 1 2 = 2 → sleeps (.txSleepForceWrite r lp v) .nap 2)) ∧
      (s.txDemand lp = true → fld v 1 2 = 1 ∨ fld v 1 2 = 2 → ∃ t, exec (.txSleepForceWrite r lp v) s = .next t ∧
        (t.port lp).tx = .active ∧ t.out = s.out ∧
        t.regN (Reg.sleepRace (lp.val / 4)) = min (s.regN (Reg.sleepRace (lp.val / 4)) + 1) 0xFFFFFFFF)) ∧
    (p.retraining = false → p.txWakeAt = none → s.txDemand lp = true →
      (p.tx = .doze → exec (.txWake lp) s = .next (s.modPort lp (fun p => { p with txWakeAt := some (s.now + 120) }))) ∧
      (p.tx = .nap → exec (.txWake lp) s = .next (s.modPort lp (fun p => { p with txWakeAt := some (s.now + 1500) }))) ∧
      (p.tx = .off → retrains (.txWake lp))) ∧
    (∀ t0, p.txWakeAt = some t0 → t0 ≤ s.now → exec (.blockWakeComplete (.laneTx lp)) s =
      .next (s.modPort lp (fun p => { p with tx := .active, txWakeAt := none, idleSince := s.now }))) ∧
    (∀ pos : Fin 4, Writable s cmd (w64 (2 + 4 * pos.val)) → s.canSwap lp pos false = true →
      swaps (.portCmdSpareSwap r lp pos) 5 pos false) ∧
    (∀ pos : Fin 4, Writable s cmd (w64 (18 + 4 * pos.val)) → s.canSwap lp pos true = true →
      swaps (.portCmdSpareBack r lp pos) 5 pos true) ∧
    (∀ w : W32, s.clk.fabRef = true → s.lportExists lp = true → p.rxItems = [] →
      (fld w 0 8 = 5 → s.canSwap lp (fld w 8 3) (bit w 11) = true → swaps (.spareSwap lp w) 6 (fld w 8 3) (bit w 11)) ∧
      (∀ x, fld w 0 8 = 5 → p.swap = some x → x.pos = fld w 8 3 → x.back = bit w 11 →
        ∃ t, exec (.spareSwap lp w) s = .next t ∧
          (t.port lp).swap = some { x with partnerAt := some (fld w 16 16), sentAt := s.now } ∧
          t.out = s.out ++ [.control lp [w32 (pack [(0, 6), (8, x.pos), (11, b2n x.back), (16, at' % 65536)])]]) ∧
      (∀ x, fld w 0 8 = 6 → p.swap = some x → x.initiator = true → x.pos = fld w 8 3 → x.back = bit w 11 →
        exec (.swapEcho lp w) s = .next (s.modPort lp (fun p => { p with
          peerUp := true, swap := some { x with partnerAt := some (fld w 16 16) } }))) ∧
      (p.retraining = false →
        (p.peerUp = false → exec (.linkUp lp []) s = .next (s.sendLinkUp lp)) ∧
        (p.peerUp = true → exec (.linkUp lp []) s = .next s))) ∧
    (∀ x, p.swap = some x → x.partnerAt.isSome = true → let d := (s.lanesOf lp).getD x.pos 0
      ∃ t, exec (.spareSwapComplete lp) s = .next t ∧ (t.port lp).swap = none ∧ (t.port lp).holdFrom = none ∧
        (d < 512 → x.back = false → (t.lane d).st = .faulty ∧ (t.lane (512 + d / 32)).serves = some d ∧
          (t.lane (512 + d / 32)).st = .inUse) ∧
        (d < 512 → x.back = true → (t.lane d).st = .inUse ∧ (t.lane (512 + d / 32)).serves = none) ∧
        t.regN (Reg.spareSwaps (lp.val / 4)) = min (s.regN (Reg.spareSwaps (lp.val / 4)) + 1) 0xFFFFFFFF) ∧
    (∀ (n : Fin 528) pos, s.laneOwner n = some (lp.val, pos) → p.retraining = false → p.swap = none →
      s.regN (Reg.spareThresh (lp.val / 4)) ≠ 0 →
      s.regN (Reg.spareThresh (lp.val / 4)) < ((s.lane n).ueTimes.filter (fun t => decide (s.now ≤ t + 1000000))).length →
      (s.standbyFor lp).isSome = true → s.replaced ((s.lanesOf lp).getD pos 0) = false → ∃ t, exec (.spareUeThreshold n) s = .next t ∧
        (t.port lp).holdFrom = some at' ∧ (t.port lp).swap.map (fun x => (x.pos, x.back)) = some (pos, false) ∧
        Logs s t 0x02 1 1 0 4 n)

/-- Retry and credit: an ACK frees what it covers; a NAK and a timeout resend what is outstanding, in LSEQ order, and are
counted; a CREDIT word advances its account to the count it carries; an owed ACK and moved credits are sent; SLEEP is
followed (R356-R362, R375). -/
def Obligations.LinkRetryAndCredit : Prop :=
  ∀ (s : State) (lp : Fin 512) (w : W32), s.clocked = true → s.lportExists lp = true → (s.port lp).st = .active →
    (s.port lp).rxItems = [] →
    let p := s.port lp
    let resends := fun (i : Instr) (counter : Nat) => ∃ t, exec i s = .next t ∧ (t.port lp).replay = p.replay ∧
      (t.port lp).txQ = p.replay.map (fun r => (some r.lseq, r.bytes)) ++ p.txQ.filter (·.1.isNone) ∧
      (t.port lp).replayRun = p.replayRun + 1 ∧ t.regN counter = min (s.regN counter + 1) 0xFFFFFFFF
    (∀ x xs, fld w 0 8 = 2 → p.replay = x :: xs → let k := (BitVec.ofNat 12 (fld w 8 12) - x.lseq).toNat
      1 ≤ k → k ≤ p.replay.length → ∃ t, exec (.ack lp w) s = .next t ∧ (t.port lp).replay = p.replay.drop k) ∧
    (∀ x xs, fld w 0 8 = 3 → p.replay = x :: xs → BitVec.ofNat 12 (fld w 8 12) = x.lseq → p.replayRun < 15 →
      resends (.nak lp w) (Reg.replays (lp.val / 4))) ∧
    (p.retraining = false → p.replay ≠ [] → p.ackAt + s.regN (Reg.replayTimeout (lp.val / 4)) ≤ s.now → p.replayRun < 15 →
      resends (.replayTimeout lp) (Reg.replayTimeouts (lp.val / 4))) ∧
    (bit w 4 = false → ∃ t, exec (.credit lp [w]) s = .next t ∧
      (let a := s.txAcct lp (fld w 0 3) (bit w 3)
       let b := t.txAcct lp (fld w 0 3) (bit w 3)
       b.returned % 65536 = fld w 16 16 ∧ a.returned ≤ b.returned ∧ b.returned < a.returned + 65536 ∧ b.charged = a.charged) ∧
      t.port lp = { p with peerUp := true } ∧
      t = { s with sw := { s.sw with txAcct := t.sw.txAcct }, ports := t.ports }) ∧
    (s.canSend lp = true → p.ackOwed = true → p.offHeld = false → ∃ t, exec (.ackSend lp) s = .next t ∧ (t.port lp).ackOwed = false ∧
      t.out = s.out ++ [.control lp [w32 (2 + 256 * p.rxLseq.toNat)]]) ∧
    (s.canSend lp = true → p.offHeld = false → s.creditWords lp false ≠ [] → ∃ t, exec (.creditSend lp) s = .next t ∧
      t.out = s.out ++ [.control lp (1 :: s.creditWords lp false)] ∧ t.creditWords lp false = []) ∧
    (fld w 0 8 = 4 → (fld w 8 2 = 1 ∨ fld w 8 2 = 2 ∨ fld w 8 2 = 3) → exec (.sleep lp w) s = .next (s.modPort lp (fun p => { p with
      peerUp := true, rx := if fld w 8 2 = 1 then .doze else if fld w 8 2 = 2 then .nap else .off })))

/-- Lanes: without lock the bits are searched for a comma, and four commas each a frame after the last gain it; in lock a
comma in place keeps it, and the fourth missed one in a row ends it and is counted; a bad link block is counted and asks for a resend, the next block in order is parsed; training lanes send
records and lanes in test PRBS; a scan ends with its counts; a locked checker counts every bit (R348-R355, R364,
R368, R371, R372). -/
def Obligations.LanesCarryFrames : Prop :=
  ∀ (s : State) (n : Fin 528) (w2 : Bool) (bits : List Bool), s.powered = true → s.clk.fabRef = true →
    let l := s.lane n
    let w := l.wave w2
    let all := w.tail ++ bits
    let isComma := fun (x : List Bool) => x.take 64 = dataComma ∨ x.take 64 = idleComma
    let receives := bits.length = 32768 ∧ l.fadami = false ∧ l.st ≠ .off ∧ l.st ≠ .faulty ∧ l.st ≠ .test
    (receives → w.lock = true → isComma all → ∃ t, exec (.laneFrameReceived n w2 bits) s = .next t ∧
      ((t.lane n).wave w2).commas = w.commas + 1 ∧ ((t.lane n).wave w2).missed = 0 ∧ ((t.lane n).wave w2).lock = true ∧
      ((t.lane n).wave w2).tail = all.drop 32768) ∧
    (receives → w.lock = true → ¬ isComma all → w.missed < 3 → ∃ t, exec (.laneFrameReceived n w2 bits) s = .next t ∧
      ((t.lane n).wave w2).commas = 0 ∧ ((t.lane n).wave w2).missed = w.missed + 1 ∧ ((t.lane n).wave w2).lock = true) ∧
    (receives → w.lock = true → ¬ isComma all → 3 ≤ w.missed → ∃ t, exec (.laneFrameReceived n w2 bits) s = .next t ∧
      ((t.lane n).wave w2).lock = false ∧ t.regN (Reg.commaLoss n) = min (s.regN (Reg.commaLoss n) + 1) 0xFFFFFFFF) ∧
    (∀ x, receives → w.lock = false → findComma all = some x → 32768 ≤ x.length → ∃ t, exec (.laneFrameReceived n w2 bits) s = .next t ∧
      (let k := (if x.length = all.length then w.commas else 0) + 1
       ((t.lane n).wave w2).commas = k ∧ ((t.lane n).wave w2).lock = decide (4 ≤ k)) ∧
      ((t.lane n).wave w2).tail = x.drop 32768) ∧
    (receives → w.lock = false → findComma all = none → ∃ t, exec (.laneFrameReceived n w2 bits) s = .next t ∧
      ((t.lane n).wave w2).commas = 0 ∧ ((t.lane n).wave w2).lock = false ∧
      ((t.lane n).wave w2).tail = all.drop (all.length - 63)) ∧
    ((l.wave w2).lock = true → ∃ t, exec (.commaLoss n w2) s = .next t ∧ ((t.lane n).wave w2).lock = false ∧
      t.regN (Reg.commaLoss n) = min (s.regN (Reg.commaLoss n) + 1) 0xFFFFFFFF) ∧
    (∀ lp pos, s.laneOwner n = some (lp, pos) → s.carries n = true → 264 ≤ l.rxBytes.length →
      let raw := l.rxBytes.take 264
      let blk := raw.map (·.1)
      let bad := raw.any (·.2) = true ∨ (crc32c (blk.take 260)).toNat ≠ u32 blk 260
      (bad → ∃ t, exec (.linkBlockReceived n) s = .next t ∧ (t.lane n).rxBytes = l.rxBytes.drop 264 ∧
        t.regN (Reg.blockBad (lp / 4)) = min (s.regN (Reg.blockBad (lp / 4)) + 1) 0xFFFFFFFF ∧
        (t.port lp).rxNextBlk = (s.port lp).rxNextBlk) ∧
      (¬ bad → bit (blk.headD 0) 7 = false → u16 blk 2 = (s.port lp).rxNextBlk % 65536 → (s.port lp).rxBlocks = [] →
        ∃ t, exec (.linkBlockReceived n) s = .next t ∧ (t.lane n).rxBytes = l.rxBytes.drop 264 ∧
          (t.port lp).rxNextBlk = (s.port lp).rxNextBlk + 1)) ∧
    (∀ lp pos, l.st = .training ∨ l.st = .locked → s.laneOwner n = some (lp, pos) → s.linkingUp lp = false → ∃ t x xs, exec (.laneFrameTransmit n) s = .next t ∧
      t.out = s.out ++ .training n (s.trainingRecord n lp) :: x :: xs) ∧
    (l.st = .test → fld (s.reg (Reg.prbsCtrl n)) 0 2 ≠ 0 → l.fadami = false → fld (s.reg (Reg.injCtrl n)) 0 2 = 0 →
      bit (s.reg (Reg.prbsCtrl n)) 4 = false → ∃ t, exec (.laneFrameTransmit n) s = .next t ∧
      t.out = s.out ++ [.frame n false (prbsRun (fld (s.reg (Reg.prbsCtrl n)) 0 2 == 2) 32768 l.w1.prbsGen).1]) ∧
    (∀ e, l.eyeBusy = true → exec (.eyeScanDone n e) s = .next
      (((s.setReg (Reg.eyeBits n) (w64 (2 ^ fld (s.reg (Reg.eyeCtrl n)) 16 5))).setReg (Reg.eyeErrs n) e).modLane n (fun l => { l with
        eyeBusy := false, eyeDone := true }))) ∧
    (l.st = .test → fld (s.reg (Reg.prbsCtrl n)) 2 2 ≠ 0 → (w2 = true → bit (s.reg (Reg.prbsCtrl n)) 4 = true) →
      (l.wave w2).prbsLock = true → ∃ t, exec (.prbsCheckerLock n w2 bits) s = .next t ∧
      (let o := if w2 then Reg.prbsBitsW2 n else Reg.prbsBitsW1 n
       t.reg o = s.reg o + w64 bits.length) ∧ ((t.lane n).wave w2).prbsLock = true)

/-! ### The mailbox -/

/-- The mailbox commands with a length of input: its opcode, and whether the input has the command's length (R393, R394). -/
def mailboxRow : Instr → Option (BitVec 16 × Bool)
  | .getEventRecords i => some (0x0100, i.length == 1)
  | .clearEventRecords i => some (0x0101, decide (6 ≤ i.length) && i.length == 6 + 2 * u8 i 2)
  | .getEventInterruptPolicy i => some (0x0102, i.length == 0)
  | .setEventInterruptPolicy i => some (0x0103, i.length == 4)
  | .getFwInfo i => some (0x0200, i.length == 0)
  | .transferFw i => some (0x0201, decide (128 ≤ i.length ∧ i.length ≤ 4096))
  | .activateFw i => some (0x0202, i.length == 2)
  | .getTimestamp i => some (0x0300, i.length == 0)
  | .setTimestamp i => some (0x0301, i.length == 8)
  | .getSupportedLogs i => some (0x0400, i.length == 0)
  | .getLog i => some (0x0401, i.length == 24)
  | .identifyMemoryDevice i => some (0x4000, i.length == 0)
  | .getHealthInfo i => some (0x4200, i.length == 0)
  | .getPoisonList i => some (0x4300, i.length == 16)
  | .injectPoison i => some (0x4301, i.length == 8)
  | .clearPoison i => some (0x4302, i.length == 72)
  | .getDeviceInfo i => some (0xC000, i.length == 0)
  | .getFaultLog i => some (0xC001, i.length == 8)
  | .getDumpInfo i => some (0xC002, i.length == 0)
  | .setPowerCap i => some (0xC010, i.length == 4)
  | .getPowerStatus i => some (0xC011, i.length == 0)
  | .lehrTrigger i => some (0xC020, i.length == 0)
  | .spdmMessage i => some (0xC030, decide (1 ≤ i.length ∧ i.length ≤ 4096))
  | .getLinkSummary i => some (0xC040, i.length == 0)
  | .clearOutOfService i => some (0xC050, i.length == 0)
  | _ => none

/-- The command `c` completes with this opcode, return code and output, and is counted (R392). -/
def Answers (s t : State) (c : Instr) (op ret : BitVec 16) (body : List Byte) : Prop :=
  exec c s = .next t ∧ t.out = s.out ++ [.mailbox op ret body] ∧ t.host.mboxBusy = none ∧
  t.regN Reg.mboxCmds = min (s.regN Reg.mboxCmds + 1) 0xFFFFFFFF

/-- It completes so, and beyond its count changes nothing. -/
def Reports (s : State) (c : Instr) (op ret : BitVec 16) (body : List Byte) : Prop :=
  ∃ t, Answers s t c op ret body ∧ t = { s with regs := t.regs, out := t.out, freeCtr := t.freeCtr } ∧
    ∀ r, r ≠ Reg.mboxCmds → t.reg r = s.reg r

/-- Commands that report: a wrong length of input is answered 0x0016, an opcode of neither table 0x0003, and
each of the others gives the items that its row lists (R392-R394, R476). The places of the items within a standard
payload, and what sets a health status bit, are the model's (log entry 42). -/
def Obligations.MailboxReports : Prop :=
  ∀ (s : State), s.mboxOpen = true →
    (∀ c op, mailboxRow c = some (op, false) → Reports s c op 0x0016 []) ∧
    (∀ op inp, op.toNat ∉ mboxOpcodes → Reports s (.mboxUnsupported op inp) op 0x0003 []) ∧
    (∀ (b : Byte) l, s.host.logs[b.toNat]? = some l → b.toNat ≤ 3 → ∃ ts : List Byte, ts.length = 16 ∧ (l.overflow = false → ts = zeros 16) ∧
      Reports s (.getEventRecords [b]) 0x0100 0 ([byte (b2n l.overflow + 2 * b2n (decide (31 < l.recs.length))), 0] ++
        leBytes 2 (min l.dropped 65535) ++ ts ++ leBytes 2 (min 31 l.recs.length) ++ zeros 10 ++
        (l.recs.take 31).flatMap (fun r =>
          let own := padTo 96 (Config.eventRecord false (r.drop 1))
          if r.getD 0 0 == 1 then padTo 128 (Config.eventRecord true (r.drop 1))
          else own.take 48 ++ padTo 32 (r.drop 1) ++ own.drop 48))) ∧
    (∀ b : Byte, 3 < b.toNat → Reports s (.getEventRecords [b]) 0x0100 0x0002 []) ∧
    Reports s (.getEventInterruptPolicy []) 0x0102 0 s.host.policy ∧
    (∃ rev : List Byte, rev.length = 32 ∧ Reports s (.getFwInfo []) 0x0200 0 ([2, byte ((1 + b2n s.boot.image) +
      8 * (if s.boot.primary = s.boot.image then 0 else 1 + b2n s.boot.primary)), 0] ++ zeros 13 ++ rev ++ zeros 32)) ∧
    Reports s (.getTimestamp []) 0x0300 0 (leBytes 8 (if s.host.timestampBase = 0 then 0 else
      s.host.timestampBase + (s.now - s.host.timestampAt))) ∧
    Reports s (.getSupportedLogs []) 0x0400 0 (leBytes 2 1 ++ zeros 6 ++ celUuid ++ leBytes 4 100) ∧
    (∀ inp, inp.length = 24 → inp.take 16 = celUuid → u32 inp 16 + u32 inp 20 ≤ 100 → ∃ l : List Byte, l.length = 100 ∧
      (∀ i op, mboxOpcodes[i]? = some op → u16 l (4 * i) = op) ∧ Reports s (.getLog inp) 0x0401 0 (slice l (u32 inp 16) (u32 inp 20))) ∧
    (∃ rev tail : List Byte, rev.length = 16 ∧ tail.length = 7 ∧ Reports s (.identifyMemoryDevice []) 0x4000 0 (rev ++ leBytes 8 3776 ++
      leBytes 8 3776 ++ zeros 16 ++ (leBytes 2 1024 ++ leBytes 2 1024 ++ leBytes 2 1024 ++ leBytes 2 1024) ++ zeros 4 ++ tail)) ∧
    (∃ x y : List Byte, x.length = 2 ∧ y.length = 4 ∧ Reports s (.getHealthInfo []) 0x4200 0
      ([byte (b2n (s.fault.lastSevere != 0) + 2 * b2n (s.fault.reset.isSome || decide (0 < s.sw.quar)) + 4 * b2n s.fault.oos),
        byte (b2n (!s.host.memActive))] ++ x ++ leBytes 2 (tc 16 (s.pwr.tj / 16)) ++ y ++
      leBytes 4 (min ((List.range 28).foldl (fun n m => n + s.regN (memReg m 4)) 0) 0xFFFFFFFF) ++ zeros 4)) ∧
    (∀ inp, inp.length = 16 → (s.badLines (u64 inp 0) (64 * u64 inp 8)).length ≤ 254 → Reports s (.getPoisonList inp) 0x4300 0
      ([0, 0] ++ zeros 8 ++ leBytes 2 (s.badLines (u64 inp 0) (64 * u64 inp 8)).length ++ zeros 20 ++
        (s.badLines (u64 inp 0) (64 * u64 inp 8)).flatMap (fun l => leBytes 8 (64 * l) ++ leBytes 4 1 ++ zeros 4))) ∧
    (∃ r : List Byte, r.length = 31 ∧ Reports s (.getDeviceInfo []) 0xC000 0 (0 :: (leBytes 2 (s.regN Reg.partId) ++
      leBytes 1 (fld (s.reg Reg.partId) 16 8) ++ leBytes 4 (s.regN Reg.fwVersion) ++ leBytes 4 (s.regN Reg.wardenVersion) ++
      leBytes 16 disabledMap.toNat ++ leBytes 4 s.ownCoord.toNat ++ [byte (b2n s.equiv)] ++ r))) ∧
    (∀ inp, inp.length = 8 → u32 inp 4 ≤ 127 → ∃ es : List (List Byte), es.length = u32 inp 4 ∧
      (∀ i e, es[i]? = some e → (∃ x ∈ s.fault.log, x.seq = u32 inp 0 + i ∧ e = x.bytes) ∨
        ((∀ x ∈ s.fault.log, x.seq ≠ u32 inp 0 + i) ∧ e = zeros 32)) ∧ Reports s (.getFaultLog inp) 0xC001 0 (0 :: es.flatten)) ∧
    (∃ r : List Byte, r.length = 10 ∧ Reports s (.getDumpInfo []) 0xC002 0 (0 :: ([byte (b2n s.fault.dumpValid)] ++
      leBytes 8 (s.regN Reg.dumpBase) ++ leBytes 8 gib ++ leBytes 4 s.fault.dumpSeq ++ r))) ∧
    (∃ r : List Byte, r.length = 20 ∧ Reports s (.getPowerStatus []) 0xC011 0 (0 :: (leBytes 4 s.pwr.powerNow ++ leBytes 4 s.effCap ++
      [byte s.pwr.throttleNow] ++ [byte (b2n s.pwr.policyConflict), byte (b2n s.pwr.capDeficit)] ++ r))) ∧
    Reports s (.getLinkSummary []) 0xC040 0 (0 :: (List.range 512).map (fun lp =>
      if s.lportExists lp then byte (portStatusOf (s.port lp)) else 0)) ∧
    Reports s (.clearOutOfService []) 0xC050 0 [byte Code.perm]

/-- Commands that act: event logs are cleared, the policy and the timestamp set; a part of an image that does not
run is taken for the background, and stored with vector 0 when it completes; ACTIVATE_FW records the other image as
primary; poison is injected only in test mode and cleared with the line's data; the host cap, a Lehr pass and
SPDM messages (R392-R396, R400, R402, R459, R464, R478). The places of a payload's items are the model's (log entry 42), as are
the layout of a firmware package (log entry 46), and when an image becomes primary and which records a clear drops (log
entry 50). -/
def Obligations.MailboxActs : Prop :=
  ∀ (s : State), s.powered = true → (s.mboxOpen = true →
    (∀ inp, inp.length = 6 + 2 * u8 inp 2 → u8 inp 0 ≤ 3 → ∃ t, Answers s t (.clearEventRecords inp) 0x0101 0 [] ∧
      t.host = { s.host with
        logs := s.host.logs.set (u8 inp 0)
          { recs := if u8 inp 1 % 2 = 1 then [] else (s.host.logs.getD (u8 inp 0) {}).recs.drop (u8 inp 2) } } ∧
      t = { s with host := t.host, regs := t.regs, out := t.out }) ∧
    (∀ inp, inp.length = 4 → ∃ t, Answers s t (.setEventInterruptPolicy inp) 0x0103 0 [] ∧ t.host = { s.host with policy := inp } ∧
      t = { s with host := t.host, regs := t.regs, out := t.out }) ∧
    (∀ inp, inp.length = 8 → ∃ t, Answers s t (.setTimestamp inp) 0x0301 0 [] ∧
      t.host = { s.host with timestampBase := u64 inp 0, timestampAt := s.now } ∧
      t = { s with host := t.host, regs := t.regs, out := t.out }) ∧
    (∀ inp img, 128 ≤ inp.length → inp.length ≤ 4096 → u8 inp 0 ≤ 1 → u8 inp 1 = 1 + b2n img → s.mgmt.fwTransfer = none → s.host.background = none →
      (img ≠ s.boot.image → exec (.transferFw inp) s = .next { s with
        mgmt := { s.mgmt with fwTransfer := some (false, img) }
        host := { s.host with
          mboxBusy := none
          background := some (img, 128 * u32 inp 4, inp.drop 128, decide (u8 inp 0 = 0)) }
        out := s.out ++ [.mailbox 0x0201 0x0001 []] }) ∧
      (img = s.boot.image → Reports s (.transferFw inp) 0x0201 0x000B [])) ∧
    (∀ img, ∃ t, Answers s t (.activateFw [1, byte (1 + b2n img)]) 0x0202 0 [] ∧ t.boot.primary = img ∧ t.boot.image = s.boot.image ∧
      t = { s with boot := t.boot, mgmt := t.mgmt, regs := t.regs, out := t.out }) ∧
    (∀ inp, inp.length = 8 → (s.testMode = false → Reports s (.injectPoison inp) 0x4301 0x0002 []) ∧
      (s.testMode = true → inPool (u64 inp 0 / 64 * 64) 64 = true → ∃ t, Answers s t (.injectPoison inp) 0x4301 0 [] ∧
        u64 inp 0 / 64 ∈ t.pool.poisoned ∧ t.pool.mem = s.pool.mem)) ∧
    (∀ inp, inp.length = 72 → (inPool (u64 inp 0 / 64 * 64) 64 = true → ∃ t, Answers s t (.clearPoison inp) 0x4302 0 [] ∧
        t.memRead (u64 inp 0 / 64 * 64) 64 = inp.drop 8 ∧ u64 inp 0 / 64 ∉ t.pool.poisoned) ∧
      (inPool (u64 inp 0 / 64 * 64) 64 = false → Reports s (.clearPoison inp) 0x4302 0x000F [])) ∧
    (∀ inp, inp.length = 4 → (400 ≤ u32 inp 0 ∧ u32 inp 0 ≤ 1900 → ∃ t, Answers s t (.setPowerCap inp) 0xC010 0 (0 :: zeros 3) ∧
        t.pwr.hostCap = u32 inp 0 ∧ t.pwr.trayCap = s.pwr.trayCap) ∧
      (u32 inp 0 < 400 ∨ 1900 < u32 inp 0 → Reports s (.setPowerCap inp) 0xC010 0 [byte Code.lenErr])) ∧
    (s.pwr.lehrStep = 0 → s.host.msixMasked.contains 0 = false → ∃ t, exec (.lehrTrigger []) s = .next t ∧ t.pwr.lehrStep = 1 ∧
      t.out = s.out ++ [.msix 0, .mailbox 0xC020 0 [0]]) ∧
    (∀ inp, 1 ≤ inp.length → inp.length ≤ 4096 → u8 inp 1 = 0x84 → ∃ t, Answers s t (.spdmMessage inp) 0xC030 0
      [0, 0x10, 0x04, 0, 0, 0, 1, 0x00, 0x12] ∧ t.mgmt.mbox.version = true)) ∧
    (∀ img off bs last, s.host.background = some (img, off, bs, last) → s.fault.stewardUp = true → s.mgmt.spiHeld = false →
      off + bs.length ≤ 0x10000 → s.host.linkUp = true → s.host.msixMasked.contains 0 = false →
      ∃ t, exec .transferFwComplete s = .next t ∧ t.out = s.out ++ [.msix 0] ∧ t.host.background = none ∧
        t.regN Reg.mboxCmds = min (s.regN Reg.mboxCmds + 1) 0xFFFFFFFF ∧
        (∀ i b, bs[i]? = some b → (t.imageFlash img).header[off + i]? = some b) ∧
        t.mgmt.fwTransfer = if last then none else s.mgmt.fwTransfer)

/-! ### The tray controller's interfaces and attestation -/

/-- MCTP, PLDM, LEAK_CLEAR and SPI_HOLD_OFF_N: what each message and each edge does, the ranges of the tray cap, one
firmware transfer at a time into an image that does not run, the tray controller's own writes while it holds the pins, and
flash writes that wait for the pins, on both chip selects (R396, R399-R401, R446, R459, R464, R466, R468, R469, R472). The PLDM
completion codes and the layouts of MCTP control responses are the model's (log entry 43), as are the layout of a firmware
package (log entry 46) and the sideband's corners (log entry 50). -/
def Obligations.Sideband : Prop :=
  ∀ (s : State), s.powered = true →
    exec .smbusFallback s = .next { s with mgmt := { s.mgmt with smbus := true } } ∧
    (∀ t eid body, t ≠ .mailbox → s.pldmUp = true → (t = .vdm → s.host.linkUp = true ∧ s.boot.stage ≠ .recovery) →
      (eid ≠ 0 → eid ≠ s.mgmt.eid → ∀ ty, exec (.mctpMessage t eid ty body) s = .next s) ∧
      (s.boot.stage = .recovery → ∀ ty, exec (.mctpMessage .vdm eid ty body) s = .next s) ∧
      (s.boot.stage ≠ .recovery ∨ t ≠ .vdm → eid = 0 ∨ eid = s.mgmt.eid → 128 ≤ u8 body 0 →
        let answer := fun (xs : List Byte) => s.out ++ [.mctp t ([byte (u8 body 0 % 32), byte (u8 body 1)] ++ xs)]
        (u8 body 1 = 1 → u8 body 2 % 4 ≤ 1 → u8 body 3 ≠ 0 → u8 body 3 ≠ 0xFF → exec (.mctpMessage t eid 0 body) s =
          .next { s with mgmt := { s.mgmt with eid := byte (u8 body 3) }, out := answer [0, 0, byte (u8 body 3), 0] }) ∧
        (u8 body 1 = 2 → exec (.mctpMessage t eid 0 body) s = .next { s with out := answer [0, s.mgmt.eid, 0, 0] }) ∧
        (u8 body 1 = 0 ∨ 5 < u8 body 1 → exec (.mctpMessage t eid 0 body) s = .next { s with out := answer [5] }))) ∧
    (∀ sn, s.mgmt.mctpReady = true → s.boot.stage ≠ .recovery → exec (.pldmSensorRead sn) s =
      .next { s with out := s.out ++ [.pldm 0 (match sn with
        | .power => leBytes 4 s.pwr.powerNow
        | .temperature k => leBytes 2 (tc 16 (s.pwr.temps.getD k 0))
        | .flow => leBytes 2 (min 65535 (s.pwr.flowEdges.filter (fun e => decide (s.now < e + sec))).length)
        | .faultState => leBytes 4 s.faultStatus)] }) ∧
    (s.boot.stage = .recovery → s.pldmUp = true → exec (.pldmSensorRead .faultState) s =
      .next { s with out := s.out ++ [.pldm 0 [9, byte s.boot.reasonA.toNat, byte s.boot.reasonB.toNat]] }) ∧
    (∀ img off bs, s.mgmt.spiHeld = true → off + bs.length ≤ 0x10000 → ∃ t, exec (.pldmFirmwareUpdate img (.direct off bs)) s = .next t ∧
      (∀ i b, bs[i]? = some b → (t.imageFlash img).header[off + i]? = some b) ∧ t.imageFlash (!img) = s.imageFlash (!img) ∧
      t = { s with mgmt := t.mgmt }) ∧
    (∀ img, s.pldmUp = true →
      (s.mgmt.fwTransfer = none → s.boot.stage = .recovery ∨ img ≠ s.boot.image → exec (.pldmFirmwareUpdate img .start) s =
        .next { s with mgmt := { s.mgmt with fwTransfer := some (true, img) }, out := s.out ++ [.pldm 0 []] }) ∧
      (s.mgmt.fwTransfer ≠ none → exec (.pldmFirmwareUpdate img .start) s = .next { s with out := s.out ++ [.pldm 4 []] }) ∧
      (s.mgmt.fwTransfer = some (true, img) →
        (∀ off bs, s.mgmt.spiHeld = false → off + bs.length ≤ 0x10000 → ∃ t, exec (.pldmFirmwareUpdate img (.part off bs)) s = .next t ∧
          (∀ i b, bs[i]? = some b → (t.imageFlash img).header[off + i]? = some b) ∧ t.imageFlash (!img) = s.imageFlash (!img)) ∧
        (s.boot.stage ≠ .recovery → exec (.pldmFirmwareUpdate img .activate) s =
          .next { s with mgmt := { s.mgmt with fwTransfer := none }, out := s.out ++ [.pldm 0 []] }) ∧
        (s.boot.stage = .recovery → s.mgmt.spiHeld = false → ∃ t, exec (.pldmFirmwareUpdate img .activate) s = .next t ∧
          t.boot.stage = .step 3 ∧ t.boot.image = s.mgmt.newestRecord.1 ∧ t.mgmt.fwTransfer = none) ∧
        exec (.pldmFirmwareUpdate img .cancel) s =
          .next { s with mgmt := { s.mgmt with fwTransfer := none }, out := s.out ++ [.pldm 0 []] })) ∧
    (s.mgmt.mctpReady = true →
      (∀ w, 400 ≤ w → w ≤ 1900 → ∃ t, exec (.pldmSetPowerCap w) s = .next t ∧ t.pwr.trayCap = w ∧ t.pwr.hostCap = s.pwr.hostCap) ∧
      (∀ w, w < 400 ∨ 1900 < w → ∃ t, exec (.pldmSetPowerCap w) s = .next t ∧ t = { s with regs := t.regs } ∧
        t.regN Reg.ignoredWrites = min (s.regN Reg.ignoredWrites + 1) 0xFFFFFFFF) ∧
      (∀ img, ∃ t, exec (.pldmSelectBootImage img) s = .next t ∧ t.boot = { s.boot with primary := img } ∧
        t.out = s.out ++ [.pldm 0 []] ∧ t = { s with mgmt := t.mgmt, boot := t.boot, out := t.out }) ∧
      (s.fault.oos = true → s.ready = true → ∃ t r, exec .pldmClearOutOfService s = .next t ∧ t.fault.oos = false ∧
        t.fault.reset = some r ∧ r.level = 2) ∧
      (s.pwr.lehrStep = 0 → ∃ t, exec .pldmLehrTrigger s = .next t ∧ t.pwr.lehrStep = 1 ∧ t.pwr.lehrAt = s.now ∧ t = { s with pwr := t.pwr }) ∧
      (s.pwr.lehrStep ≠ 0 → ∃ t, exec .pldmLehrTrigger s = .next t ∧ t = { s with regs := t.regs } ∧
        t.regN Reg.ignoredWrites = min (s.regN Reg.ignoredWrites + 1) 0xFFFFFFFF) ∧
      (s.pwr.leak = .dry → exec .leakClear s = .next { s with pwr := { s.pwr with leakLatched := false } }) ∧
      (s.pwr.leak ≠ .dry → ∃ t, exec .leakClear s = .next t ∧ t = { s with regs := t.regs } ∧
        t.regN Reg.ignoredWrites = min (s.regN Reg.ignoredWrites + 1) 0xFFFFFFFF)) ∧
    (s.mgmt.spiHeld = false → ∃ t, exec .spiHoldOffAssert s = .next t ∧ t.mgmt = { s.mgmt with spiHeld := true, spiHeldAt := s.now } ∧
      t.regN Reg.spiHoldEvents = min (s.regN Reg.spiHoldEvents + 1) 0xFFFFFFFF ∧ t = { s with mgmt := t.mgmt, regs := t.regs }) ∧
    (s.mgmt.spiHeld = true →
      (s.boot.stage = .step 9 → ∃ t, exec .spiHoldOffRelease s = .next t ∧ t = { s with mgmt := t.mgmt } ∧ t.mgmt.spiHeld = false ∧
        t.mgmt.recWaiting = [] ∧ t.mgmt.ledgerWaiting = [] ∧ ∀ img,
        let old := s.imageFlash img
        let new := t.imageFlash img
        new.header = old.header ∧ new.body = old.body ∧
        (old.recs.length + s.mgmt.recWaiting.length ≤ 1024 → new.recs = old.recs ++ s.mgmt.recWaiting) ∧
        (∀ r, old.recs.length = 1024 → s.mgmt.recWaiting = [r] → new.recs = [r]) ∧
        (∀ i e, s.mgmt.ledgerWaiting[i]? = some e → (∀ x ∈ s.mgmt.ledgerWaiting.drop (i + 1), u32 x 0 % 4096 ≠ u32 e 0 % 4096) →
          new.ledger.getD (u32 e 0 % 4096) [] = e) ∧
        (∀ k, (∀ x ∈ s.mgmt.ledgerWaiting, u32 x 0 % 4096 ≠ k) → new.ledger.getD k [] = old.ledger.getD k [])) ∧
      (s.boot.stage = .recovery → ∃ t, exec .spiHoldOffRelease s = .next t ∧ t.mgmt.spiHeld = false ∧ t.boot.stage = .step 3) ∧
      (s.fault.stewardUp = true → s.mgmt.spiHeldAt + 60 * sec < s.now → s.boot.stage = .step 3 ∨ s.boot.stage = .step 4 →
        ∃ t, exec .flashHoldTimeout s = .next t ∧ (if s.boot.image then t.boot.reasonB else t.boot.reasonA) = 9 ∧
          (s.boot.fallback = true → t.boot.stage = .recovery) ∧
          (s.boot.fallback = false → t.boot.stage = .step 3 ∧ t.boot.image = !s.boot.image ∧ t.boot.fallback = true)))

/-- The SPDM request rows and the code each one's message carries (R478). -/
def spdmRow : Instr → Option (Transport × List Byte × Nat)
  | .getVersion t r => some (t, r, 0x84)
  | .getCapabilities t r => some (t, r, 0xE1)
  | .negotiateAlgorithms t r => some (t, r, 0xE3)
  | .getDigests t r => some (t, r, 0x81)
  | .getCertificate t r => some (t, r, 0x82)
  | .challenge t r => some (t, r, 0x83)
  | .getMeasurements t r => some (t, r, 0xE0)
  | .chunkSend t r => some (t, r, 0x85)
  | .chunkGet t r => some (t, r, 0x86)
  | _ => none

/-- What leaves with response `rsp`: over the mailbox it is the output of SPDM_MESSAGE. -/
def spdmOut (tr : Transport) (rsp : List Byte) : Emit := match tr with | .mailbox => .mailbox 0xC030 0 (0 :: rsp) | _ => .spdm tr rsp

/-- The command answers `rsp` on its transport and changes only the connection, and over the mailbox is counted. -/
def Responds (s : State) (c : Instr) (tr : Transport) (rsp : List Byte) (after : Spdm → Spdm) : Prop :=
  ∃ t, exec c s = .next t ∧ t.out = s.out ++ [spdmOut tr rsp] ∧ t.spdm tr = after (s.spdm tr) ∧
    t = { s with mgmt := t.mgmt, out := t.out, freeCtr := t.freeCtr, regs := t.regs } ∧
    (tr ≠ .mailbox → t.regs = s.regs) ∧ (tr = .mailbox → t.regN Reg.mboxCmds = min (s.regN Reg.mboxCmds + 1) 0xFFFFFFFF)

/-- Attestation: version, capabilities and algorithms in their order; digests and portions of the certificate chain
of slot 0; a signature runs at once only where none runs and the identity is present, its response is fetched in
chunks, and every other request is unsupported (R475-R478). The layouts of the messages are the model's (log
entry 41). -/
def Obligations.SecureSession : Prop :=
  (∀ (s : State) (tr : Transport) (req : List Byte), s.spdmUp tr = true → (tr = .mailbox → 1 ≤ req.length ∧ req.length ≤ 4096) →
    let c := s.spdm tr
    (∀ i code, spdmRow i = some (tr, req, code) → u8 req 1 ≠ code → exec i s = .next s) ∧
    (u8 req 1 = 0x84 → Responds s (.getVersion tr req) tr [0x10, 0x04, 0, 0, 0, 1, 0x00, 0x12]
      (fun _ => { version := true, vca := req ++ [0x10, 0x04, 0, 0, 0, 1, 0x00, 0x12] })) ∧
    (u8 req 1 = 0xE1 → (c.version = false → Responds s (.getCapabilities tr req) tr [0x12, 0x7F, 4, 0] id) ∧
      (c.version = true → ∃ m : List Byte, m.length = 4 ∧
        let r := [0x12, 0x61, 0, 0, 0, 19, 0, 0] ++ leBytes 4 0x20016 ++ leBytes 4 (spdmMax tr) ++ m
        Responds s (.getCapabilities tr req) tr r (fun c => { c with capabilities := true, vca := c.vca ++ req ++ r }))) ∧
    (u8 req 1 = 0xE3 → (c.capabilities = false → Responds s (.negotiateAlgorithms tr req) tr [0x12, 0x7F, 4, 0] id) ∧
      (c.capabilities = true → algorithmsCommon req = false → Responds s (.negotiateAlgorithms tr req) tr [0x12, 0x7F, 1, 0] id) ∧
      (c.capabilities = true → algorithmsCommon req = true → ∃ r, Responds s (.negotiateAlgorithms tr req) tr r
        (fun c => { c with algorithms := true, vca := c.vca ++ req ++ r }))) ∧
    (∀ i code, spdmRow i = some (tr, req, code) → u8 req 1 = code → code ∉ [0x84, 0xE1, 0xE3, 0x86] → c.algorithms = false →
      Responds s i tr [0x12, 0x7F, 4, 0] id) ∧
    (c.algorithms = true →
      (u8 req 1 = 0x81 → Responds s (.getDigests tr req) tr ([0x12, 0x01, 0, 1] ++ Config.sha3x512 certChain)
        (fun c => { c with certs := c.certs ++ req ++ ([0x12, 0x01, 0, 1] ++ Config.sha3x512 certChain) })) ∧
      (∀ off n, u8 req 1 = 0x82 → u8 req 2 = 0 → u16 req 4 = off → off < certChain.length →
        n = min (min (u16 req 6) (certChain.length - off)) (spdmMax tr - 8) →
        let r := [0x12, 0x02, 0, 0] ++ leBytes 2 n ++ leBytes 2 (certChain.length - off - n) ++ slice certChain off n
        Responds s (.getCertificate tr req) tr r (fun c => { c with certs := c.certs ++ req ++ r })) ∧
      (u8 req 1 = 0x83 → u8 req 2 = 0 → s.engineBusy = false → s.boot.keyPresent = true ∨ s.boot.seedPresent = true →
        ∃ t n sum, exec (.challenge tr req) s = .next t ∧ t.out = s.out ∧ t.boot.keyPresent = true ∧
          (tr = .mailbox → t.host.mboxBusy = some 0xC030) ∧ (tr ≠ .mailbox → t.host = s.host) ∧
          let r := [0x12, 0x03, 0, 1] ++ Config.sha3x512 certChain ++ n ++ sum ++ [0, 0]
          t.spdm tr = { c with signing := some (r, c.vca ++ c.certs ++ req ++ r) } ∧
          t = { s with mgmt := t.mgmt, boot := t.boot, host := t.host, freeCtr := t.freeCtr }) ∧
      (u8 req 1 = 0x83 → u8 req 2 = 0 → s.engineBusy = true → Responds s (.challenge tr req) tr [0x12, 0x7F, 3, 0] id) ∧
      (u8 req 1 = 0xE0 → u8 req 3 = 0 → u8 req 2 % 2 = 0 → ∃ n : List Byte, n.length = 32 ∧
        let r := [0x12, 0x60, 9, 0, 0] ++ leBytes 3 0 ++ n ++ [0, 0]
        Responds s (.getMeasurements tr req) tr r (fun c => { c with meas := c.meas ++ req ++ r })) ∧
      (u8 req 1 = 0x85 → u8 req 2 % 2 = 0 → u16 req 4 = 0 → Responds s (.chunkSend tr req) tr
        ([0x12, 0x05, 0, byte (u8 req 3)] ++ leBytes 2 0) (fun c => { c with chunkIn := slice req 16 (min (u32 req 8) 4096), inSeq := 1 }))) ∧
    (u8 req 1 = 0x86 → byte (u8 req 3) = c.handle → u16 req 4 = c.outSeq → c.large ≠ [] → ∃ last part,
      Responds s (.chunkGet tr req) tr ([0x12, 0x06, byte (b2n last), c.handle] ++ leBytes 2 c.outSeq ++ [0, 0] ++ leBytes 4 part.length ++
        (if c.outSeq = 0 then leBytes 4 c.large.length else []) ++ part)
        (fun c => if last then { c with large := [], outSeq := 0 } else { c with outSeq := c.outSeq + 1 }) ∧
      part <:+: c.large ∧ (last = true → part <:+ c.large)) ∧
    (spdmReqOf req = none → Responds s (.spdmUnsupported tr req) tr [0x12, 0x7F, 7, 0] id)) ∧
  (∀ (s : State) (tr : Transport) rsp msg, s.powered = true → s.fault.stewardUp = true → (s.spdm tr).signing = some (rsp, msg) →
    let told := fun (t : State) (r : List Byte) =>
      (tr ≠ .mailbox → t.out = s.out ++ [.spdm tr r] ∧ t.host = s.host) ∧
      (tr = .mailbox → s.host.mboxBusy = some 0xC030 → s.host.linkUp = true → t.out = s.out ++ [.mailbox 0xC030 0 (0 :: r)] ∧ t.host.mboxBusy = none) ∧
      (tr = .mailbox → s.host.mboxBusy ≠ some 0xC030 → t.out = s.out ∧ t.host = s.host)
    (s.boot.keyPresent = true → ∃ t h, exec (.signatureComplete tr) s = .next t ∧ told t [0x12, 0x7F, 0x0F, 0, h] ∧
      (t.spdm tr).large = rsp ++ Config.slhSign identitySeed msg ∧ (t.spdm tr).handle = h ∧ (t.spdm tr).outSeq = 0 ∧
      (t.spdm tr).signing = none ∧ t.regN Reg.attestSigns = min (s.regN Reg.attestSigns + 1) 0xFFFFFFFF) ∧
    (s.boot.keyPresent = false → ∃ t, exec (.signatureComplete tr) s = .next t ∧ told t [0x12, 0x7F, 0x05, 0] ∧ (t.spdm tr).signing = none ∧
      t.regN Reg.attestSigns = s.regN Reg.attestSigns))

/-! ### Faults and resets -/

/-- Hang checks, control-state sweeps, patrol scrub and the steward: each counts and logs what it finds, and owes the
reset that its class names; while the steward restarts its claims are withdrawn and the mailbox and MCTP wait, and when
it is back, its copy of the firmware checked, the command in progress and the background command are completed with Retry Required and a
full device recovery goes on; before host-ready boot goes on (R196, R392, R397, R406, R409, R412-R414, R418, R455, R456, R473). What
counts as pending work of a bench, and when its window starts again, are the model's readings (log entry 34). -/
def Obligations.FaultsReported : Prop :=
  ∀ (s : State), s.powered = true →
    let counts := fun (t : State) (r : Nat) => t.regN r = min (s.regN r + 1) 0xFFFFFFFF
    let owes := fun (t : State) (lv : Nat) (c : Byte) (i : Nat) => t.fault.deferred = s.fault.deferred ++ [(lv, c, i)]
    (∀ b : Fin 100, s.benchChecked b = true → (s.bench b).progressAt + s.regN Reg.benchHangWin * 1000000 ≤ s.now →
      let idle := (∀ x ∈ s.activeCores b, foreverWait x = true ∨ ((s.bench b).items = [] ∧ s.idleWait b x = true)) ∧ s.engineWork b = false
      (¬ idle → ∃ t, exec (.benchHangCheck b) s = .next t ∧ counts t Reg.benchHangs ∧ owes t 1 0x18 b ∧ Logs s t 0x18 2 4 0 5 b ∧
        (t.bench b).progressAt = s.now ∧ t.cores = s.cores) ∧
      (idle → b.val ≠ 99 → (s.bench b).launch = none → ∃ t, exec (.benchHangCheck b) s = .next t ∧ counts t Reg.progHangs ∧
        t.fault.deferred = s.fault.deferred ∧ Logs s t 0x19 0 3 Code.incomplete 5 b ∧ t.cores = s.cores) ∧
      (∀ n, idle → b.val ≠ 99 → (s.bench b).launch = some n → ∃ t, exec (.benchHangCheck b) s = .next t ∧
        ∀ r ∈ t.launch.runs, r.num ≠ n) ∧
      (idle → b.val = 99 → ∃ t, exec (.benchHangCheck b) s = .next t ∧ t.fault.wardenOwed = true ∧ Logs s t 0x21 1 3 0 5 99)) ∧
    (∀ (lp : Fin 512) since, s.portStalledFrom lp = some since → s.portActive lp = true → (s.port lp).retraining = false →
      since + s.regN Reg.portHangWin * 1000000 ≤ s.now →
      let had := ∃ v < 8, ∃ x, s.headOf lp v = some x ∧
        s.txHolds lp v (s.itemAcct lp x.item) (if s.segments lp x then 1 else x.granules) = true
      (had → ∃ t, exec (.portHangCheck lp) s = .next t ∧ counts t Reg.portHangs ∧ owes t 2 0x1A (lp.val / 4) ∧
        Logs s t 0x1A 2 5 0 3 (lp.val / 4)) ∧
      (¬ had → ∃ t, exec (.portHangCheck lp) s = .next t ∧ counts t Reg.partnerStalls ∧ t.fault.deferred = s.fault.deferred ∧
        Logs s t 0x1B 1 0 0 3 (lp.val / 4))) ∧
    (∀ m : Fin 28, s.memPending m = true → (s.memCtl m).st ≠ .waking → (s.memCtl m).st ≠ .training →
      (s.memCtl m).hangFrom + s.regN Reg.memHangWin * 1000000 ≤ s.now → ∃ t, exec (.memHangCheck m) s = .next t ∧
      counts t Reg.memHangs ∧ owes t 2 0x1C (if m.val < 12 then m.val else m.val - 12) ∧ t.pool.mem = s.pool.mem) ∧
    (∀ idx,
      (∃ t, exec (.controlStateSweep .switchState idx) s = .next t ∧ owes t 2 0x09 0 ∧ Logs s t 0x09 2 5 0 1 0) ∧
      (∃ t, exec (.controlStateSweep .collState idx) s = .next t ∧ owes t 1 0x10 0 ∧ Logs s t 0x10 2 4 0 11 0) ∧
      (∃ t, exec (.controlStateSweep .ctxState idx) s = .next t ∧ owes t 1 0x11 0 ∧ Logs s t 0x11 2 4 0 0 0) ∧
      (idx < s.pool.results.length → ∃ t, exec (.controlStateSweep .resultTable idx) s = .next t ∧ Logs s t 0x12 1 2 0 12 0 ∧
        t.fault.deferred = s.fault.deferred ∧ (∀ x, t.pool.results[idx]? = some x → x.poisoned = true ∧ x.madeAt = s.now) ∧
        ∀ j, j ≠ idx → t.pool.results[j]? = s.pool.results[j]?)) ∧
    (∀ (b : Fin 100) line,
      exec (.cruciblePatrolScrub b line .clean) s = .next s ∧
      (∀ k, ∃ t, exec (.cruciblePatrolScrub b line (.corrected k)) s = .next t ∧ counts t (Reg.crCe b) ∧ Logs s t 0x0F 1 1 0 5 b) ∧
      (∀ k, ∃ t, exec (.cruciblePatrolScrub b line (.uncorrectable k)) s = .next t ∧ counts t (Reg.crUe b) ∧ Logs s t 0x0F 1 2 0 5 b)) ∧
    (∀ c, c = Instr.stewardWatchdogExpiry ∨ c = .stewardMemoryUe → s.fault.stewardUp = true → ∃ t, exec c s = .next t ∧
      t.fault.stewardUp = false ∧ t.mgmt.mctpReady = false ∧ t.mgmt.fwTransfer = none ∧ t.host.mboxReady = false ∧ t.boot.keyPresent = false ∧
      t.pwr.cooling.sClaim = 0 ∧ t.pwr.request.sClaim = 0 ∧ t.pwr.throttleSt.sClaim = 0 ∧ t.pwr.cooling.out = s.pwr.cooling.out ∧
      t.pwr.lehrPaused = decide (s.pwr.lehrStep ≠ 0) ∧ counts t Reg.stewardRestarts ∧ Logs s t 0x20 1 2 0 9 0) ∧
    (s.fault.stewardUp = false → s.hostReached = false → exec .stewardRestartComplete s = .next { s with
      fault := { s.fault with stewardUp := true }, boot := { s.boot with keyPresent := s.boot.seedPresent } }) ∧
    (s.fault.stewardUp = false → s.hostReached = true → s.copyOk = false → exec .stewardRestartComplete s = .next s) ∧
    (s.fault.stewardUp = false → s.hostReached = true → s.copyOk = true → ∃ t, exec .stewardRestartComplete s = .next t ∧ t.fault.stewardUp = true ∧
      t.mgmt.mctpReady = true ∧ t.host.mboxReady = true ∧ t.boot.keyPresent = s.boot.seedPresent ∧
      t.pwr.lehrStep = (if s.pwr.lehrPaused then 1 else s.pwr.lehrStep) ∧
      t.host.mboxBusy = none ∧ t.host.background = none ∧
      (s.fault.reset = none →
        let busy := s.host.mboxBusy.toList.map (fun op => (op, (0x0005 : BitVec 16), ([] : List Byte)))
        let back := if s.host.background.isSome then [((0x0201 : BitVec 16), (0x0005 : BitVec 16), ([] : List Byte))] else []
        t.regN Reg.mboxRetry = min (s.regN Reg.mboxRetry + (busy ++ back).length) 0xFFFFFFFF ∧
        (s.host.linkUp = true → t.host.mboxResult = s.host.mboxResult ∧
          t.out = s.out ++ (busy ++ back).map (fun r => .mailbox r.1 r.2.1 r.2.2) ++
            (if s.host.background.isSome ∧ 0 ∉ s.host.msixMasked then [.msix 0] else [])) ∧
        (s.host.linkUp = false → t.host.mboxResult = s.host.mboxResult ++ busy ++ back ∧ t.out = s.out)) ∧
      (∀ r, s.fault.reset = some r → r.level = 2 → ∃ q, t.fault.reset = some q ∧ q.level = 2 ∧ q.step = 5 ∧ t.host.memActive = false))

/-- A reset, by a command or by a fault's own trigger: contexts are fenced, a dump is captured, and it is counted and
its start recorded, but not in test mode and not the recovery that clears out of service; a compute reset ends with benches, stores and instances clear, a full device recovery with every context closed and
memory active; a reset that escalates puts the device out of service with every context closed, and a port that was out of service with ADMIN_UP 0 is
DOWN after the clear (R415-R421, R423, R424). In which command each phase of a reset falls is the model's (log entry 29). -/
def Obligations.ResetsRun : Prop :=
  ∀ (s : State), s.powered = true →
    let starts := fun (c : Instr) (lv : Nat) => (∃ r, c = (if lv = 1 then .computeReset (.cmd r) else .fullDeviceRecovery (.cmd r)) ∧
        Clear s r ∧ Writable s Reg.resetCmd (w64 lv)) ∨
      (∃ k i, c = (if lv = 1 then .computeReset (.fault k i) else .fullDeviceRecovery (.fault k i)) ∧ (lv, k, i) ∈ s.fault.deferred) ∨
      (lv = 1 ∧ c = .computeReset .steward ∧ s.fault.stewardUp = true) ∨ (lv = 2 ∧ c = .fullDeviceRecovery .tray)
    let began := fun (r n : Nat) => s.regN r ≠ 0 ∧ s.now / 1000 ≤ s.regN r + n * 1000000
    (s.escalates 1 = true ↔ s.testMode = false ∧ began Reg.crHist0 600 ∧ began Reg.crHist1 600) ∧
    (s.escalates 2 = true ↔ s.testMode = false ∧ began Reg.frHist 3600) ∧
    (s.ready = true → s.fault.oos = false →
      (∀ c lv, lv = 1 ∨ lv = 2 → starts c lv → s.fault.reset = none → s.escalates lv = false → ∃ t r, exec c s = .next t ∧
        t.fault.reset = some r ∧ r.level = lv ∧ r.startedAt = s.now ∧ t.fault.oos = false ∧ t.fault.dumpValid = true ∧
        t.fault.dumpSeq = s.fault.dumpSeq + 1 ∧
        (∀ x, (s.ctx x).st = .opened ∨ (s.ctx x).st = .closing → (t.ctx x).fenced = true) ∧
        (s.testMode = false → lv = 1 → t.regN Reg.computeResets = min (s.regN Reg.computeResets + 1) 0xFFFFFFFF ∧
          t.reg Reg.crHist0 = w64 s.nowUs ∧ t.reg Reg.crHist1 = s.reg Reg.crHist0) ∧
        (s.testMode = false → lv = 2 → t.regN Reg.fullRecoveries = min (s.regN Reg.fullRecoveries + 1) 0xFFFFFFFF ∧
          t.reg Reg.frHist = w64 s.nowUs) ∧
        (s.testMode = true → t.regN Reg.computeResets = s.regN Reg.computeResets ∧ t.regN Reg.fullRecoveries = s.regN Reg.fullRecoveries ∧
          t.reg Reg.crHist0 = s.reg Reg.crHist0 ∧ t.reg Reg.frHist = s.reg Reg.frHist) ∧
        (lv = 2 → t.host.memActive = false ∧ t.clk.timeValid = false ∧ t.route = {} ∧ t.ls = [] ∧ t.is = [])) ∧
      (∀ c lv, lv = 1 ∨ lv = 2 → starts c lv → s.fault.reset = none → s.escalates lv = true → ∃ t, exec c s = .next t ∧
        t.fault.oos = true ∧ t.fault.reset = none ∧ t.fault.dumpValid = true ∧ t.ls = [] ∧ t.is = [] ∧
        ∀ x, (t.ctx x).st ≠ .opened ∧ (t.ctx x).st ≠ .closing) ∧
      (∀ k i r, (2, k, i) ∈ s.fault.deferred → s.fault.reset = some r → r.level = 1 → s.escalates 2 = false →
        ∃ t q, exec (.fullDeviceRecovery (.fault k i)) s = .next t ∧ t.fault.reset = some q ∧ q.level = 2 ∧ q.startedAt = r.startedAt)) ∧
    (s.mgmt.mctpReady = true → s.fault.oos = true → s.ready = true → ∃ t r, exec .pldmClearOutOfService s = .next t ∧
      t.fault.reset = some r ∧ r.level = 2 ∧ t.regN Reg.fullRecoveries = s.regN Reg.fullRecoveries ∧ t.reg Reg.frHist = 0 ∧
      ∀ lp ∈ s.lports, s.adminUp lp = false → (s.port lp).st = .outOfService → (t.port lp).st = .down) ∧
    (∀ r, s.fault.reset = some r → r.level = 1 → ∃ t, exec .computeResetComplete s = .next t ∧ t.fault.reset = none ∧ t.ls = [] ∧
      t.coll.insts = [] ∧ t.launch.runs = [] ∧ (∀ x, (t.ctx x).fenced = false) ∧
      (∀ k, k / 8 ≠ 99 → t.core k = {} ∧ mread t.is (k * 65536) 65536 = List.replicate 65536 0)) ∧
    (∀ r, s.fault.reset = some r → r.level = 2 → s.fault.stewardUp = true → ∃ t, exec .fullDeviceRecoveryComplete s = .next t ∧
      t.fault.reset = none ∧ t.ls = [] ∧ (r.step < 6 → t.host.memActive = true ∧ ∀ m : Fin 28, (t.memCtl m).st = .active) ∧
      ∀ x, (t.ctx x).st ≠ .opened ∧ (t.ctx x).st ≠ .closing)

/-! ### Power, temperature and ageing -/

/-- Power and its caps: an interval takes the lowest bin at or above the ceiling whose power meets the limit and needs
no other reduction when it does; a window reports its deficit, and a millisecond's average more than 200 W above the cap takes the emergency step; PWR_CAP_N holds bin 4 and 25 percent for at least 100 µs;
the shelf cap comes and goes (R434-R442, R457). -/
def Obligations.PowerCaps : Prop :=
  ∀ (s : State), s.powered = true →
    (∀ w (est : PowerEstimate), ∃ t, exec (.powerControlInterval w est) s = .next t ∧
      t.pwr.powerNow = w ∧ t.pwr.samples = (w :: s.pwr.samples).take 100 ∧
      (s.pwr.capFloor = true → t.pwr.benchBin = 4 ∧ t.pwr.loamPct = 25) ∧
      (s.pwr.capFloor = false →
        let ceil := fld (s.reg Reg.fmaxCtrl) 0 3
        (∀ b, b ≤ 4 → ceil ≤ b → est.floorW.getD b 0 ≤ s.powerLimit → (∀ c, ceil ≤ c → c < b → s.powerLimit < est.floorW.getD c 0) →
          t.pwr.benchBin = b ∧ t.pwr.loamPct = 100 ∧ t.pwr.dutyPct = 100 ∧ t.pwr.pacePct = 100) ∧
        ((∀ c, ceil ≤ c → c ≤ 4 → s.powerLimit < est.floorW.getD c 0) → t.pwr.benchBin = 4))) ∧
    (∀ w, ∃ t, exec (.capWindowEnd w) s = .next t ∧
      let floor := s.effCap + 200 < s.pwr.avgMs
      (¬ floor → t.pwr = { s.pwr with powerAvg := w, capDeficit := decide (s.effCap < w) }) ∧
      (floor → t.pwr = { s.pwr with
        powerAvg := w, capDeficit := decide (s.effCap < w), capFloor := true,
        capFloorUntil := max s.pwr.capFloorUntil (s.now + 100000), benchBin := 4, loamPct := 25 }) ∧
      (w ≤ s.effCap → ¬ floor → t = { s with pwr := t.pwr }) ∧
      (s.effCap < w → t.regN Reg.capDeficitEv = min (s.regN Reg.capDeficitEv + 1) 0xFFFFFFFF ∧
        t.regN Reg.capDeficitMj = min (s.regN Reg.capDeficitMj + (w - s.effCap) * 10) 0xFFFFFFFF ∧
        bit (t.reg Reg.alertStatus) 2 = true ∧ Logs s t 0x28 1 0 0 8 0)) ∧
    (∃ t, exec .pwrCapNRecognised s = .next t ∧ t.pwr = { s.pwr with
        capFloor := true, capFloorUntil := max s.pwr.capFloorUntil (s.now + 100000), benchBin := 4, loamPct := 25 } ∧
      t.regN Reg.pwrCapEvents = (if s.pwr.capFloor then s.regN Reg.pwrCapEvents else min (s.regN Reg.pwrCapEvents + 1) 0xFFFFFFFF) ∧
      bit (t.reg Reg.alertStatus) 1 = true ∧ Logs s t 0x28 0 2 0 8 0) ∧
    (s.pwr.capFloor = true → s.pwr.capFloorUntil ≤ s.now →
      exec .capFloorEnd s = .next { s with pwr := { s.pwr with capFloor := false, loamPct := 100 } }) ∧
    (∃ t, exec .shelfAlertNAssert s = .next t ∧ t.pwr.shelf = true ∧ bit (t.reg Reg.alertStatus) 4 = true ∧ Logs s t 0x28 1 2 0 8 0 ∧
      t.effCap ≤ s.regN Reg.shelfCap) ∧
    (exec .shelfCapRelease s = .next { s with pwr := { s.pwr with shelf := false } })

/-- Flow, leak and temperature supervision and the output stages: a pulse arms and 50 ms without one is flow loss; the
leak line's edges, 20 ms low is wet, and a dead sensor fails; Tj is the highest reading; 115 °C latches the trip and
closes every shutter; a stage follows the higher claim, holds on a tie, and a claim of 4 ms lapses (R443-R455, R457).
What the governor computes, and what a claim below 0x40 leaves, are the model's: its
values are free within their units' ranges (log entry 37); the corners of the leak sensor and the thermal limit rest on log
entry 36. -/
def Obligations.Supervision : Prop :=
  ∀ (s : State), s.aonUp = true →
    let p := s.pwr
    let counts := fun (t : State) (r : Nat) => t.regN r = min (s.regN r + 1) 0xFFFFFFFF
    (∃ t, exec .flowPulseEdge s = .next t ∧ t = { s with pwr := t.pwr } ∧ t.pwr.flowArmed = true ∧ t.pwr.flowLast = s.now ∧
      t.pwr.flowEdges = p.flowEdges.filter (fun e => decide (s.now < e + 1000000000)) ++ [s.now] ∧
      (p.flowLoss = false → t.pwr.flowLoss = false) ∧ (p.flowLast + 50000000 ≤ s.now → t.pwr.flowLoss = p.flowLoss) ∧
      (p.flowLoss = true → s.now < p.flowLast + 50000000 → p.flowGoodSince + 1000000000 ≤ s.now → t.pwr.flowLoss = false)) ∧
    (p.flowArmed = true → p.flowLoss = false → p.flowLast + 50000000 ≤ s.now → ∃ t, exec .flowLoss s = .next t ∧
      t.pwr = { p with flowLoss := true } ∧ t.pwr.coolDuty = 256 ∧ counts t Reg.flowLossEv ∧ bit (t.reg Reg.alertStatus) 5 = true ∧
      Logs s t 0x28 2 2 0 8 0) ∧
    (p.leakLine = true → exec (.leakSenseEdge false) s = .next { s with pwr := { p with leakLine := false, leakEdgeAt := s.now } }) ∧
    (p.leakLine = false → ∃ t, exec (.leakSenseEdge true) s = .next t ∧ t.pwr.leakLine = true ∧ t.pwr.leakEdgeAt = s.now ∧
      t.pwr.leakRise = s.now ∧ (togglePeriod (s.now - p.leakRise) = true → p.leak ≠ .failed → t.pwr.leak = .dry) ∧
      (togglePeriod (s.now - p.leakRise) = false → t.pwr.leak = p.leak) ∧ t.pwr.leakLatched = p.leakLatched ∧
      (p.leak ≠ .unarmed → 6000000 < s.now - p.leakEdgeAt → s.now - p.leakEdgeAt < 20000000 → counts t Reg.leakEv)) ∧
    (p.leakLine = false → p.leakEdgeAt + 20000000 ≤ s.now → p.leak = .dry ∨ (p.leak = .failed ∧ p.leakLatched = false) →
      ∃ t, exec .leakWet s = .next t ∧ t.pwr = { p with leakLatched := true, leak := if p.leak = .failed then .failed else .wet } ∧
        counts t Reg.leakEv ∧ bit (t.reg Reg.alertStatus) 6 = true ∧ Logs s t 0x28 2 2 0 8 0) ∧
    (p.leak = .dry ∨ p.leak = .wet → p.leakDead s.now = true → ∃ t, exec .leakSensorFailed s = .next t ∧ t.pwr.leak = .failed ∧
      counts t Reg.leakEv ∧ bit (t.reg Reg.alertStatus) 7 = true ∧ Logs s t 0x28 1 2 0 8 0) ∧
    (1000000000 ≤ s.now → ∃ t, exec .sensorSupervisionArm s = .next t ∧ t = { s with pwr := t.pwr } ∧ t.pwr.flowArmed = true ∧
      t.pwr.leak = if p.leak = .unarmed then .dry else p.leak) ∧
    (∀ temps : List Int, ∃ t, exec (.thermalSample temps) s = .next t ∧ t.pwr.temps = (List.range 48).map (fun k => temps.getD k 0) ∧
      (∀ k < 48, temps.getD k 0 < -320 ∨ 2400 < temps.getD k 0 → k ∈ t.pwr.failedSensors) ∧
      (∀ k ∈ p.failedSensors, k ∈ t.pwr.failedSensors) ∧
      t.pwr.over105 = decide (1680 < t.pwr.tj) ∧ t.pwr.over110 = decide (1760 ≤ t.pwr.tj) ∧
      (p.failedSensors = [] → (∀ k < 48, tempOut (temps.getD k 0) = false ∧ belowModel temps [] k = false) →
        t.pwr.failedSensors = [] ∧ (∀ k < 48, temps.getD k 0 ≤ t.pwr.tj) ∧ t.pwr.tjRegion < 48 ∧ temps.getD t.pwr.tjRegion 0 = t.pwr.tj ∧
        (∀ k < t.pwr.tjRegion, temps.getD k 0 < t.pwr.tj) ∧ (p.trip = false → t.pwr.tj < 1840 → t.pins.thermTrip = false))) ∧
    (p.trip = false → 1840 ≤ p.tj → ∃ t, exec .thermalTrip s = .next t ∧ t.pwr.trip = true ∧ t.pins.thermTrip = true ∧ t.powered = false ∧
      (∀ n, (t.lane n).shutter = false) ∧ Logs s t 0x28 3 2 0 8 p.tjRegion) ∧
    (∃ t, exec .governorUpdate s = .next t ∧ ∀ k < 3, let y := t.pwr.stage k; let x := p.stage k
      y.gVal.toNat < governorRange k ∧ y.sVal = x.sVal ∧ y.sClaim = x.sClaim ∧
      y.out = if 0x40 < x.sClaim.toNat then x.sVal else if x.sClaim.toNat = 0x40 then x.out else y.gVal) ∧
    (∀ (k : Fin 3) v claim, s.powered = true → s.hostReached = true → s.fault.stewardUp = true → ∃ t, exec (.stewardStageWrite k v claim) s = .next t ∧
      (let y := t.pwr.stage k; let x := p.stage k
        y.sVal = v ∧ y.sClaim = claim ∧ y.gVal = x.gVal ∧ y.sAt = s.now ∧
        y.out = (if claim = 0 ∨ claim.toNat = 0x40 then x.out else if 0x40 < claim.toNat then v else x.gVal) ∧
        (claim.toNat = 0x40 → x.tie = false → counts t Reg.pwrClaimTie ∧ Logs s t 0x28 1 2 0 8 k)) ∧
      ∀ j < 3, j ≠ k.val → t.pwr.stage j = p.stage j) ∧
    (∀ k : Fin 3, (p.stage k).sClaim ≠ 0 → (p.stage k).sAt + 4000000 ≤ s.now → ∃ t, exec (.stewardClaimExpiry k) s = .next t ∧
      t.pwr.stage k = { p.stage k with sClaim := 0, sStale := true, held := true } ∧ t = { s with pwr := t.pwr })

/-- Ageing: a timing margin warning takes one step of live margin or one bin; a Lehr pass starts when its interval ends
and goes through its seven steps, each with its measure; a controller retrains in a quiet window, training until it is awake again; the last step counts
the pass and writes a valid ledger entry to both chip selects (R458-R460, R468). A live margin at its limit, how the guard bands and
ageing bins move, and how a retraining ends, are the model's readings (log entry 38). -/
def Obligations.Ageing : Prop :=
  ∀ (s : State), s.powered = true →
    let p := s.pwr
    (∀ d, let k := marginKey d; let live := sget 0 p.live k
      (40 < sget 0 p.guard k + live + 1 → ∃ t, exec (.timingMarginWarning d) s = .next t ∧
        t.pwr = { p with curBin := sset 0 p.curBin k (match d with | .bench b => min 4 (s.benchBinOf b + 1) | .switchCore => 1), swcFree := p.swcFree && decide (k ≠ 100) } ∧
        Logs s t 0x28 1 2 0 8 k) ∧
      (sget 0 p.guard k + live + 1 ≤ 40 → live < 10 → ∃ t, exec (.timingMarginWarning d) s = .next t ∧
        t.pwr = { p with live := sset 0 p.live k (live + 1) } ∧ t.regN Reg.marginWarn = min (s.regN Reg.marginWarn + 1) 0xFFFFFFFF ∧
        Logs s t 0x28 0 2 0 8 k)) ∧
    (bit (s.reg Reg.lehrCtrl) 0 = true → p.lehrStep = 0 → p.lehrAt + fld (s.reg Reg.lehrCtrl) 4 16 * 3600000000000 ≤ s.now →
      ∃ t, exec .lehrIntervalExpiry s = .next t ∧ t.pwr.lehrStep = 1 ∧ t.pwr.lehrAt = s.now ∧ t = { s with pwr := t.pwr }) ∧
    (∀ m : Fin 28, p.lehrStep = 6 → p.lehrPaused = false → m.val ∈ p.lehrDue → s.memPending m = false →
      (s.memCtl m).lastAccess + 10000000 ≤ s.now → exec (.memoryRetrainWindow m) s = .next { s.modMem m (fun c => { c with st := .training }) with
        pwr := { p with lehrDue := p.lehrDue.filter (· != m.val), lehrRetrained := p.lehrRetrained + 1 } }) ∧
    (∀ m : LehrMeasure, s.fault.stewardUp = true → p.lehrPaused = false →
      let completes := fun (q : State → Prop) => ∃ t, exec (.lehrStepComplete m) s = .next t ∧ q t
      (p.lehrStep = 1 → completes (fun t => t = { s with pwr := { p with lehrStep := 2 } })) ∧
      (p.lehrStep = 2 → completes (fun t => t.pwr.lehrStep = 3 ∧ t = { s with pwr := t.pwr } ∧
        ∀ d < 101, let base := sget 0 p.guard d + sget 0 p.live d
          sget 0 t.pwr.live d = 0 ∧
          sget 0 t.pwr.guard d = clampInt (-128) 127 (clampInt (base - 4) (base + 4) (m.guardTarget.getD d base)))) ∧
      (p.lehrStep = 3 → completes (fun t => t.pwr.lehrStep = 4 ∧ t = { s with pwr := t.pwr } ∧ t.pwr.swcAged = p.swcAged ∧
        ∀ b < 100, sget 0 t.pwr.curBin b = 0 ∧ sget 0 t.pwr.ageBin b =
          (if 40 < sget 0 p.guard b then min 4 (sget 0 p.ageBin b + 1)
            else if sget 0 p.guard b ≤ 38 then sget 0 p.ageBin b - 1 else sget 0 p.ageBin b))) ∧
      (p.lehrStep = 4 → completes (fun t => t.pwr.lehrStep = 5 ∧ ∀ n ∈ m.eyeFallen, n < 528 → n ∈ t.pwr.eqStale)) ∧
      (p.lehrStep = 5 → completes (fun t => t.pwr.lehrStep = 6 ∧
        ∀ k < 28, (t.memCtl k).refresh = max 1 (min 4 (m.refresh.getD k (s.memCtl k).refresh)))) ∧
      (p.lehrStep = 6 → p.lehrDue = [] ∨ p.lehrStepAt + 86400000000000 ≤ s.now → completes (fun t => t = { s with
        pwr := { p with lehrStep := 7, lehrDeferred := p.lehrDue, lehrDue := [] } })) ∧
      (p.lehrStep = 7 → s.mgmt.spiHeld = false → completes (fun t => t.pwr.lehrStep = 0 ∧ t.pwr.passGain = p.passGain + 1 ∧
        t.pwr.epochGain = p.epochGain + b2n p.lehrChanged ∧ t.mgmt.ledgerSeq = s.mgmt.ledgerSeq + 1 ∧
        ∃ e, (∀ img, (t.imageFlash img).ledger.getD (s.mgmt.ledgerSeq % 2 ^ 32 % 4096) [] = e) ∧ recordValid e = true ∧ e.length = 256 ∧ u32 e 0 = s.mgmt.ledgerSeq % 2 ^ 32 ∧ u8 e 8 = 1)))

/-! ### Power, clocks, boot and debug -/

/-- Supplies and clocks: power-up, the release of power-on reset, removal, which keeps flash and fuses alone, a rail
fault, which keeps the fault log, the history, fabric time, memory and the identity seed and takes the count of an
abandoned reset back, its recovery, the loss and
return of the reference clocks, and the wakes that a register shows (R30, R374, R375, R470, R475, R511-R516). What a rail fault
keeps beside what R513 lists rests on log entry 39, that an abandoned reset's count is taken back by its phases on log entry 29,
and the steps of boot within one command on log entry 45. -/
def Obligations.SuppliesAndClocks : Prop :=
  ∀ (s : State),
    let after := fun (t : State) => { s with
      boot := t.boot
      pwr := t.pwr
      mgmt := { s.mgmt with
        stateSeq := s.mgmt.validRecs.foldl (fun n e => max n (u32 e 0 + 1)) s.mgmt.stateSeq }
      fault := { s.fault with stewardUp := true } }
    (s.boot.stage = .inert → exec .powerUp s = .next { s with
      pwr := { s.pwr with railsUp := true }, clk := { s.clk with fabRef := true, cxlRef := true } }) ∧
    (s.pwr.railsUp = true → s.boot.stage = .inert → s.clk.fabRef = true → s.clk.cxlRef = true → s.mgmt.spiHeld = false →
      ∃ t, exec .powerOnResetRelease s = .next t ∧ t = after t ∧ t.aonUp = true ∧ t.boot.stage = .step 3 ∧
        t.pwr = s.pwr ∧ t.boot.image = s.mgmt.newestRecord.1 ∧ t.boot.primary = s.mgmt.newestRecord.1 ∧ t.boot.oosAtBoot = s.mgmt.newestRecord.2 ∧
        t.boot.seedPresent = true ∧ t.boot.keyPresent = true) ∧
    (∃ t, exec .powerRemoval s = .next t ∧ t.aonUp = false ∧ t.regs = [] ∧ t.pool = {} ∧ t.ls = [] ∧ t.fault.log = [] ∧
      t.clk = {} ∧ t.mgmt.spiHeld = s.mgmt.spiHeld ∧ t.mgmt.flashA = s.mgmt.flashA ∧
      t.mgmt.flashB = s.mgmt.flashB ∧ t.boot.revoke2 = s.boot.revoke2 ∧ t.boot.revoke3 = s.boot.revoke3 ∧ t.svn = s.svn ∧
      t.pwr.passGain = s.pwr.passGain) ∧
    (s.aonUp = true → s.pwr.railFault = false → ∃ t, exec .railFault s = .next t ∧ t.powered = false ∧ t.aonUp = true ∧
      t.fault.log = s.fault.log ∧ t.fault.reset = none ∧ t.fault.oos = s.fault.oos ∧ t.pool.mem = s.pool.mem ∧
      t.clk.ftime = s.clk.ftime ∧ t.clk.timeValid = s.clk.timeValid ∧ t.boot.seedPresent = s.boot.seedPresent ∧ t.boot.keyPresent = false ∧
      t.ls = [] ∧ t.is = [] ∧ t.cores = [] ∧ t.route = {} ∧ (∀ c, ((s.ctx c).gen ≠ 0 → (t.ctx c).gen = (s.ctx c).gen) ∧ (t.ctx c).st ≠ .opened) ∧
      (s.fault.reset = none → ∀ r, Reg.crHist0 ≤ r → r < Reg.frHist + 8 → t.reg r = s.reg r) ∧
      (∀ q, s.fault.reset = some q → q.counted = [1] → t.reg Reg.crHist0 = s.reg Reg.crHist1 ∧ t.reg Reg.crHist1 = q.lostCr ∧
        t.regN Reg.computeResets = s.regN Reg.computeResets - 1)) ∧
    (s.aonUp = true → s.pwr.railFault = true → s.mgmt.spiHeld = false → ∃ t, exec .railFaultRecovery s = .next t ∧
      t.pwr = { s.pwr with railFault := false } ∧ t.boot.stage = .step 3 ∧ t.boot.keyPresent = s.boot.seedPresent ∧
      t.boot.image = s.mgmt.newestRecord.1 ∧ t = after t) ∧
    exec .fabRefclkLoss s = .next { s with clk := { s.clk with fabRef := false } } ∧
    (s.clk.fabRef = false → exec .fabRefclkReturn s = .next { s with clk := { s.clk with fabRef := true } }) ∧
    (s.powered = true → s.host.linkUp = true → ∃ t, exec .cxlRefclkLoss s = .next t ∧ t.clk = { s.clk with cxlRef := false } ∧
      t.host.linkUp = false ∧ t.host.fenced = true ∧ t.regN Reg.hostLinkDowns = min (s.regN Reg.hostLinkDowns + 1) 0xFFFFFFFF) ∧
    (s.powered = true →
      (∀ m : Fin 28, (s.memCtl m).st = .waking ∨ (s.memCtl m).st = .training → ∃ t, exec (.blockWakeComplete (.memory m)) s = .next t ∧ (t.memCtl m).st = .active ∧
        t.pool.mem = s.pool.mem) ∧
      (∀ (lp : Fin 512) at_, (s.port lp).txWakeAt = some at_ → at_ ≤ s.now → ∃ t, exec (.blockWakeComplete (.laneTx lp)) s = .next t ∧
        (t.port lp).tx = .active ∧ (t.port lp).txWakeAt = none) ∧
      (∀ lp : Fin 512, s.portActive lp = true → ∃ t, exec (.blockWakeComplete (.laneRx lp)) s = .next t ∧ (t.port lp).rx = .active) ∧
      exec (.blockWakeComplete .switchCore) s = .next s ∧ exec (.blockWakeComplete .hostInterface) s = .next s)

/-- Boot and debug unlock: the header and the body are checked in the order of R466, the first failure is the
reason, and the other image is tried once; host-ready, memory, READY with its time; the flags of a primary image;
a nonce is given unless locked out; a token that fails a check counts, and the third locks debug out; level 2 erases
the identity (R384, R463-R473, R479-R482). Boot waits while the steward restarts. What boot restores beside the spec's words rests
on log entry 45, that a boot time saturates on log entry 66, and the corners of debug unlock on log entry 47. -/
def Obligations.BootAndDebug : Prop :=
  ∀ (s : State), s.powered = true →
    (s.fault.stewardUp = false → s.boot.stage ≠ .step 9 → ∀ obs, exec (.flashHeaderReadComplete obs) s = .next s ∧
      exec (.flashBodyReadComplete obs) s = .next s ∧ exec .hostReady s = .next s ∧ exec .bootReady s = .next s) ∧
    (s.fault.stewardUp = true →
    let img := s.boot.image
    let h := flashRead (s.imageFlash img).header 0 30048
    let fails := fun (c : Instr) (r : Nat) => ∃ t, exec c s = .next t ∧
      (if img then t.boot.reasonB else t.boot.reasonA) = BitVec.ofNat 4 r ∧ Logs s t 0x29 2 0 0 9 (b2n img) ∧
      (s.boot.fallback = true → t.boot.stage = .recovery) ∧
      (s.boot.fallback = false → t.boot.stage = .step 3 ∧ t.boot.image = !img ∧ t.boot.fallback = true)
    (s.mgmt.spiHeld = false → s.boot.stage = .step 3 →
      (fails (.flashHeaderReadComplete .failed) 9) ∧
      (headerFormatOk h = false → fails (.flashHeaderReadComplete .complete) 2) ∧
      (headerFormatOk h = true → slotFilled (u8 h 6) = false → fails (.flashHeaderReadComplete .complete) 3) ∧
      (headerFormatOk h = true → slotFilled (u8 h 6) = true → s.revoked (u8 h 6) = true →
        fails (.flashHeaderReadComplete .complete) 4) ∧
      (s.headerReason h = 0 → exec (.flashHeaderReadComplete .complete) s =
        .next { s with boot := { s.boot with stage := .step 4, header := h } }) ∧
      (s.headerReason h = 0 → slotFilled (u8 h 6) = true ∧ s.revoked (u8 h 6) = false ∧
        Config.shake256 (slice h 96 64) 64 = slotKey (u8 h 6) ∧
        Config.slhVerify (slice h 96 64) (slice h 0 256) (slice h 256 29792) = true ∧ s.svn ≤ u8 h 12 ∧ u8 h 12 ≤ 32)) ∧
    (s.mgmt.spiHeld = false → s.boot.stage = .step 4 →
      let body := flashRead (s.imageFlash img).body 0 (u32 s.boot.header 16)
      (fails (.flashBodyReadComplete .failed) 9) ∧
      (Config.shake256 body 64 ≠ slice s.boot.header 32 64 → fails (.flashBodyReadComplete .complete) 8) ∧
      (Config.shake256 body 64 = slice s.boot.header 32 64 → ∃ t, exec (.flashBodyReadComplete .complete) s = .next t ∧
        t.boot.stage = .step 5 ∧ t.boot.body = body ∧ (if img then t.boot.reasonB else t.boot.reasonA) = 1 ∧
        t.boot.measured = measureImage s.boot.header body ∧ t = { s with boot := t.boot })) ∧
    (s.mgmt.spiHeld = false → s.boot.stage = .step 5 → s.boot.oosAtBoot = false → ∃ t, exec .hostReady s = .next t ∧
      t.boot.stage = .step 7 ∧ t.boot.timeHost = min s.nowUs 0xFFFFFFFF ∧ t.hostReached = true ∧ t.fault = s.fault ∧
      t.host.mboxReady = true ∧ t.host.subsys = w32 (u32 s.boot.header 20) ∧ t.mgmt.mctpReady = true ∧ t.reg Reg.fwVersion = w64 (u32 s.boot.header 8) ∧
      t.reg Reg.imageSvn = w64 (u8 s.boot.header 12)) ∧
    (s.mgmt.spiHeld = false → s.boot.stage = .step 5 → s.boot.oosAtBoot = true → ∃ t, exec .hostReady s = .next t ∧ t.fault.oos = true ∧
      t.boot.stage = .step 7 ∧ ∀ lp ∈ s.lports, (t.port lp).st = .outOfService) ∧
    (s.mgmt.spiHeld = false → s.boot.stage = .step 7 → s.fault.reset = none → ∃ t, exec .memoryTrainingComplete s = .next t ∧
      t.boot.stage = .step 8 ∧ t.host.memActive = true ∧ (∀ m : Fin 28, (t.memCtl m).st = .active) ∧ t.pool.mem = s.pool.mem) ∧
    (s.mgmt.spiHeld = false → s.boot.stage = .step 8 → ∃ t, exec .bootReady s = .next t ∧ t.ready = true ∧
      t.boot.timeReady = min s.nowUs 0xFFFFFFFF ∧ (s.fault.oos = false → (t.bench 99).st = .awake ∧ ∀ c < 8, (t.core (792 + c)).run = .running) ∧
      (s.boot.image = s.boot.primary → s.boot.fallback = false →
        (u8 s.boot.header 7 % 2 = 1 → u8 s.boot.header 12 ≤ 32 → t.svn = max s.svn (u8 s.boot.header 12)) ∧
        (u8 s.boot.header 7 / 2 % 2 = 1 → t.revoked 2 = true) ∧ (u8 s.boot.header 7 / 4 % 2 = 1 → t.revoked 3 = true)) ∧
      (s.boot.image ≠ s.boot.primary → t.svn = s.svn ∧ t.revoked 2 = s.revoked 2 ∧ t.revoked 3 = s.revoked 3))) ∧
    (s.boot.lockout = false → ∃ t n, exec .debugChallengeRead s = .next t ∧ n.length = 32 ∧ t.boot = { s.boot with nonce := some n } ∧
      t.out = s.out ++ [.jtag (n ++ identityHash)] ∧ t = { s with boot := t.boot, out := t.out, freeCtr := t.freeCtr }) ∧
    (s.boot.lockout = true → exec .debugChallengeRead s = .next s) ∧
    (∀ tok, s.tokenOk tok = false → ∃ t, exec (.debugTokenWrite tok) s = .next t ∧
      t.boot = { s.boot with
        nonce := none, refusals := s.boot.refusals + 1, lockout := s.boot.lockout || decide (2 ≤ s.boot.refusals) } ∧
      t.regN Reg.debugFails = min (s.regN Reg.debugFails + 1) 0xFFFFFFFF ∧ t = { s with boot := t.boot, regs := t.regs }) ∧
    (∀ tok, s.tokenOk tok = true → u8 tok 4 = 1 → exec (.debugTokenWrite tok) s =
      .next { s with boot := { s.boot with debugLevel := BitVec.ofNat 2 (max s.boot.debugLevel.toNat 1) } }) ∧
    (∀ tok, s.tokenOk tok = true → u8 tok 4 = 2 → ∃ t, exec (.debugTokenWrite tok) s = .next t ∧ t = { s with boot := t.boot } ∧
      (s.boot.debugLevel.toNat ≤ 2 → t.boot.debugLevel = 2) ∧ t.boot.keyPresent = false ∧ t.boot.seedPresent = false ∧
      t.boot.identityErased = true) ∧
    (∀ tok, s.boot.lockout = true ∨ s.boot.nonce = none → s.tokenOk tok = false)

/-! ### The whole machine -/

/-- After reset the device is inert, no command waits, no register differs from its reset value, memories list nothing and are
in canonical form, no port is up and time is not valid (R2, R511). That the rails are in range and the clocks run is
the model's (log entry 10). -/
def Obligations.ResetLeaves : Prop :=
  let s := State.reset
  s.pending = [] ∧ s.boot.stage = .inert ∧ s.aonUp = false ∧ s.powered = false ∧ s.ready = false ∧ s.fault.log = [] ∧
  s.clk.timeValid = false ∧ s.host.linkUp = false ∧ s.pwr.hostCap = 1500 ∧ s.pwr.trayCap = 1500 ∧
  (∀ off, s.reg off = regReset off) ∧ (∀ k, s.core k = {} ∧ s.bench k = {} ∧ (s.port k).st = .down ∧ (s.ctx k).st = .free) ∧
  (∀ a, sget 0 s.pool.mem a = 0) ∧ Canonical s

/-- Every step keeps the memories, the local stores and the instruction stores in canonical form. -/
def Obligations.StepKeepsCanonicalMemories : Prop :=
  ∀ s t : State, Canonical s → step s = .next t → Canonical t

/-- A step takes the queue's front command and leaves the rest, what has left the device stays as it left, and no
step takes back a fuse: a revoked slot stays revoked and the SVN never falls (R463, R471). -/
def Obligations.StepKeepsQueueOutputAndFuses : Prop :=
  (∀ s t : State, step s = .next t → FusesKept s t) ∧
  (∀ s t : State, step s = .next t → t.pending = s.pending.drop 1 ∧ s.out <+: t.out)
end
end

