-- ==== Sys2Proof/Laws/Sparse.lean ====
section
/-! SUPPORT. Laws of sparse maps and byte maps: read after write, and the canonical form. -/

set_option Elab.async false

namespace Sys2Proof.Machine

variable {α : Type}

theorem sget_sput_same (d : α) (m : Sparse α) (i : Nat) (v : α) : sget d (sput m i v) i = v := by
  induction m with
  | nil => simp [sput, sget]
  | cons e m ih =>
    obtain ⟨k, w⟩ := e
    simp only [sput]
    split
    · simp [sget]
    · split
      · simp [sget]
      · simp [sget, *]

theorem sget_sput_ne (d : α) (m : Sparse α) {i j : Nat} (v : α) (h : j ≠ i) :
    sget d (sput m i v) j = sget d m j := by
  induction m with
  | nil => simp [sput, sget, h]
  | cons e m ih =>
    obtain ⟨k, w⟩ := e
    simp only [sput]
    split
    · simp [sget, h]
    · split
      · subst_vars; simp [sget, h]
      · simp [sget, ih]

theorem sget_drop_same (d : α) (m : Sparse α) (i : Nat) :
    sget d (m.filter (fun e => decide (e.1 ≠ i))) i = d := by
  induction m with
  | nil => rfl
  | cons e m ih =>
    obtain ⟨k, w⟩ := e
    by_cases hk : k = i
    · simpa [hk] using ih
    · have : ¬ i = k := fun h => hk h.symm
      simpa [sget, hk, this] using ih

theorem sget_drop_ne (d : α) (m : Sparse α) {i j : Nat} (h : j ≠ i) :
    sget d (m.filter (fun e => decide (e.1 ≠ i))) j = sget d m j := by
  induction m with
  | nil => rfl
  | cons e m ih =>
    obtain ⟨k, w⟩ := e
    by_cases hk : k = i
    · subst hk; simp [sget, h]; simpa using ih
    · rw [List.filter_cons_of_pos (by simpa using hk)]; simp only [sget, ih]

section
variable [DecidableEq α]

/-- A read of the key written gives the value written. -/
@[simp] theorem sget_sset_same (d : α) (m : Sparse α) (i : Nat) (v : α) : sget d (sset d m i v) i = v := by
  unfold sset
  split
  · subst_vars; exact sget_drop_same _ m i
  · exact sget_sput_same d m i v

/-- A write leaves every other key alone. -/
theorem sget_sset_ne (d d' : α) (m : Sparse α) {i j : Nat} (v : α) (h : j ≠ i) :
    sget d' (sset d m i v) j = sget d' m j := by
  unfold sset
  split
  · exact sget_drop_ne d' m h
  · exact sget_sput_ne d' m v h

theorem sget_sset (d : α) (m : Sparse α) (i j : Nat) (v : α) :
    sget d (sset d m i v) j = if j = i then v else sget d m j := by
  split
  · subst_vars; simp
  · exact sget_sset_ne d d m v ‹_›

theorem sget_smod (d : α) (m : Sparse α) (i j : Nat) (f : α → α) :
    sget d (smod d m i f) j = if j = i then f (sget d m i) else sget d m j := sget_sset d m i j _

/-! ### The canonical form -/

theorem swfFrom_weaken (d : α) {lo lo' : Option Nat} {m : Sparse α}
    (h : swfFrom d lo m = true) (hl : ∀ k, lo.all (· < k) = true → lo'.all (· < k) = true) :
    swfFrom d lo' m = true := by
  cases m with
  | nil => rfl
  | cons e m =>
    obtain ⟨k, v⟩ := e
    simp only [swfFrom, Bool.and_eq_true, decide_eq_true_eq] at h ⊢
    exact ⟨⟨hl k h.1.1, h.1.2⟩, h.2⟩

theorem swfFrom_filter (d : α) (p : Nat × α → Bool) (m : Sparse α) (lo : Option Nat)
    (h : swfFrom d lo m = true) : swfFrom d lo (m.filter p) = true := by
  induction m generalizing lo with
  | nil => rfl
  | cons e m ih =>
    obtain ⟨k, v⟩ := e
    simp only [swfFrom, Bool.and_eq_true, decide_eq_true_eq] at h
    by_cases hp : p (k, v) = true
    · simp only [List.filter_cons, hp, if_true, swfFrom, Bool.and_eq_true, decide_eq_true_eq]
      exact ⟨h.1, ih _ h.2⟩
    · simp only [List.filter_cons, hp]
      refine swfFrom_weaken d (ih _ h.2) ?_
      intro j hj
      cases lo with
      | none => rfl
      | some l =>
        have h1 := h.1.1
        simp only [Option.all_some, decide_eq_true_eq] at h1 hj ⊢
        omega

theorem swfFrom_sput (d : α) (m : Sparse α) (i : Nat) (v : α) (hv : v ≠ d) (lo : Option Nat)
    (hlo : lo.all (· < i) = true) (h : swfFrom d lo m = true) : swfFrom d lo (sput m i v) = true := by
  induction m generalizing lo with
  | nil => simp [sput, swfFrom, hv]; simpa using hlo
  | cons e m ih =>
    obtain ⟨k, w⟩ := e
    simp only [swfFrom, Bool.and_eq_true, decide_eq_true_eq] at h
    simp only [sput]
    split
    · simp only [swfFrom, Bool.and_eq_true, decide_eq_true_eq]
      refine ⟨⟨hlo, by simpa using hv⟩, ⟨by simpa using ‹i < k›, h.1.2⟩, h.2⟩
    · split
      · subst_vars
        simp only [swfFrom, Bool.and_eq_true, decide_eq_true_eq]
        exact ⟨⟨hlo, by simpa using hv⟩, h.2⟩
      · simp only [swfFrom, Bool.and_eq_true, decide_eq_true_eq]
        refine ⟨h.1, ih _ ?_ h.2⟩
        simp only [Option.all_some, decide_eq_true_eq]; omega

/-- A write keeps the canonical form. -/
theorem swf_sset (d : α) (m : Sparse α) (i : Nat) (v : α) (h : swf d m = true) :
    swf d (sset d m i v) = true := by
  unfold sset
  split
  · exact swfFrom_filter d _ m _ h
  · exact swfFrom_sput d m i v ‹_› none rfl h

theorem swf_smod (d : α) (m : Sparse α) (i : Nat) (f : α → α) (h : swf d m = true) :
    swf d (smod d m i f) = true := swf_sset d m i _ h

theorem swf_sdropRange (d : α) (m : Sparse α) (lo hi : Nat) (h : swf d m = true) :
    swf d (sdropRange m lo hi) = true := swfFrom_filter d _ m _ h

end

/-! ### Byte maps -/

/-- A write of bytes keeps the canonical form. -/
theorem swf_mwrite (m : List Host.Cell) (a : Nat) (bs : List Byte) (h : swf 0 m = true) :
    swf 0 (mwrite m a bs) = true := by
  induction bs generalizing m a with
  | nil => exact h
  | cons b bs ih => exact ih _ _ (swf_sset 0 m a b h)

theorem swf_mwriteSome (m : List Host.Cell) (a : Nat) (bs : List (Option Byte)) (h : swf 0 m = true) :
    swf 0 (mwriteSome m a bs) = true := by
  induction bs generalizing m a with
  | nil => exact h
  | cons b bs ih =>
    cases b with
    | none => exact ih _ _ h
    | some b => exact ih _ _ (swf_sset 0 m a b h)

/-- A write leaves every byte outside it alone. -/
theorem sget_mwrite_out (m : List Host.Cell) (a j : Nat) (bs : List Byte) (h : j < a ∨ a + bs.length ≤ j) :
    sget 0 (mwrite m a bs) j = sget 0 m j := by
  induction bs generalizing m a with
  | nil => rfl
  | cons b bs ih =>
    simp only [List.length_cons] at h
    rw [mwrite, ih _ _ (by omega), sget_sset_ne _ _ _ _ (by omega)]

theorem sget_mwriteSome_out (m : List Host.Cell) (a j : Nat) (bs : List (Option Byte))
    (h : j < a ∨ a + bs.length ≤ j) : sget 0 (mwriteSome m a bs) j = sget 0 m j := by
  induction bs generalizing m a with
  | nil => rfl
  | cons b bs ih =>
    simp only [List.length_cons] at h
    cases b with
    | none => rw [mwriteSome, ih _ _ (by omega)]
    | some b => rw [mwriteSome, ih _ _ (by omega), sget_sset_ne _ _ _ _ (by omega)]

/-- A byte written reads as written. -/
theorem sget_mwrite_in (m : List Host.Cell) (a i : Nat) (bs : List Byte) (h : i < bs.length) :
    sget 0 (mwrite m a bs) (a + i) = bs.getD i 0 := by
  induction bs generalizing m a i with
  | nil => simp at h
  | cons b bs ih =>
    cases i with
    | zero =>
      rw [mwrite, Nat.add_zero, sget_mwrite_out _ _ _ _ (by omega)]; simp
    | succ i =>
      simp only [List.length_cons] at h
      rw [mwrite, show a + (i + 1) = (a + 1) + i by omega, ih _ _ _ (by omega)]; simp

/-- A byte given reads as given, a byte left out as before. -/
theorem sget_mwriteSome_in (m : List Host.Cell) (a i : Nat) (bs : List (Option Byte)) (h : i < bs.length) :
    sget 0 (mwriteSome m a bs) (a + i) = (bs.getD i none).getD (sget 0 m (a + i)) := by
  induction bs generalizing m a i with
  | nil => simp at h
  | cons b bs ih =>
    cases i with
    | zero =>
      cases b <;> rw [mwriteSome, Nat.add_zero, sget_mwriteSome_out _ _ _ _ (by omega)] <;> simp
    | succ i =>
      simp only [List.length_cons] at h
      cases b with
      | none => rw [mwriteSome, show a + (i + 1) = (a + 1) + i by omega, ih _ _ _ (by omega)]; simp
      | some b =>
        rw [mwriteSome, show a + (i + 1) = (a + 1) + i by omega, ih _ _ _ (by omega),
          sget_sset_ne _ _ _ _ (by omega)]; simp

/-- Bytes read back as written. -/
theorem mread_mwrite (m : List Host.Cell) (a : Nat) (bs : List Byte) :
    mread (mwrite m a bs) a bs.length = bs := by
  induction bs generalizing m a with
  | nil => rfl
  | cons b bs ih =>
    rw [List.length_cons, mread, mwrite, sget_mwrite_out _ _ _ _ (by omega), ih]; simp

end Sys2Proof.Machine
end

