-- ==== Sys2Proof/Laws/State.lean ====
section
/-! SUPPORT. Every update of one part of the state, field by field: what it sets and what it keeps. -/

namespace Sys2Proof.Machine

/-! ### emit -/

section
variable (s : State) (e : Emit)
@[simp] theorem State.emit_pending : (s.emit e).pending = s.pending := rfl
@[simp] theorem State.emit_freeCtr : (s.emit e).freeCtr = s.freeCtr := rfl
@[simp] theorem State.emit_out : (s.emit e).out = s.out ++ [e] := rfl
@[simp] theorem State.emit_clk : (s.emit e).clk = s.clk := rfl
@[simp] theorem State.emit_regs : (s.emit e).regs = s.regs := rfl
@[simp] theorem State.emit_latches : (s.emit e).latches = s.latches := rfl
@[simp] theorem State.emit_heldLow : (s.emit e).heldLow = s.heldLow := rfl
@[simp] theorem State.emit_sw : (s.emit e).sw = s.sw := rfl
@[simp] theorem State.emit_route : (s.emit e).route = s.route := rfl
@[simp] theorem State.emit_ports : (s.emit e).ports = s.ports := rfl
@[simp] theorem State.emit_lanes : (s.emit e).lanes = s.lanes := rfl
@[simp] theorem State.emit_coll : (s.emit e).coll = s.coll := rfl
@[simp] theorem State.emit_benches : (s.emit e).benches = s.benches := rfl
@[simp] theorem State.emit_cores : (s.emit e).cores = s.cores := rfl
@[simp] theorem State.emit_ls : (s.emit e).ls = s.ls := rfl
@[simp] theorem State.emit_is : (s.emit e).is = s.is := rfl
@[simp] theorem State.emit_badWords : (s.emit e).badWords = s.badWords := rfl
@[simp] theorem State.emit_ctxs : (s.emit e).ctxs = s.ctxs := rfl
@[simp] theorem State.emit_ctxCmd : (s.emit e).ctxCmd = s.ctxCmd := rfl
@[simp] theorem State.emit_ctxResult : (s.emit e).ctxResult = s.ctxResult := rfl
@[simp] theorem State.emit_launch : (s.emit e).launch = s.launch := rfl
@[simp] theorem State.emit_pool : (s.emit e).pool = s.pool := rfl
@[simp] theorem State.emit_rpl : (s.emit e).rpl = s.rpl := rfl
@[simp] theorem State.emit_recq : (s.emit e).recq = s.recq := rfl
@[simp] theorem State.emit_host : (s.emit e).host = s.host := rfl
@[simp] theorem State.emit_mgmt : (s.emit e).mgmt = s.mgmt := rfl
@[simp] theorem State.emit_fault : (s.emit e).fault = s.fault := rfl
@[simp] theorem State.emit_pwr : (s.emit e).pwr = s.pwr := rfl
@[simp] theorem State.emit_boot : (s.emit e).boot = s.boot := rfl
@[simp] theorem State.emit_pins : (s.emit e).pins = s.pins := rfl
@[simp] theorem State.emit_perf : (s.emit e).perf = s.perf := rfl
end

/-! ### setReg -/

section
variable (s : State) (o : Nat) (v : W64)
@[simp] theorem State.setReg_pending : (s.setReg o v).pending = s.pending := rfl
@[simp] theorem State.setReg_freeCtr : (s.setReg o v).freeCtr = s.freeCtr := rfl
@[simp] theorem State.setReg_out : (s.setReg o v).out = s.out := rfl
@[simp] theorem State.setReg_clk : (s.setReg o v).clk = s.clk := rfl
@[simp] theorem State.setReg_regs : (s.setReg o v).regs = sset (regReset o) s.regs o v := rfl
@[simp] theorem State.setReg_latches : (s.setReg o v).latches = s.latches := rfl
@[simp] theorem State.setReg_heldLow : (s.setReg o v).heldLow = s.heldLow := rfl
@[simp] theorem State.setReg_sw : (s.setReg o v).sw = s.sw := rfl
@[simp] theorem State.setReg_route : (s.setReg o v).route = s.route := rfl
@[simp] theorem State.setReg_ports : (s.setReg o v).ports = s.ports := rfl
@[simp] theorem State.setReg_lanes : (s.setReg o v).lanes = s.lanes := rfl
@[simp] theorem State.setReg_coll : (s.setReg o v).coll = s.coll := rfl
@[simp] theorem State.setReg_benches : (s.setReg o v).benches = s.benches := rfl
@[simp] theorem State.setReg_cores : (s.setReg o v).cores = s.cores := rfl
@[simp] theorem State.setReg_ls : (s.setReg o v).ls = s.ls := rfl
@[simp] theorem State.setReg_is : (s.setReg o v).is = s.is := rfl
@[simp] theorem State.setReg_badWords : (s.setReg o v).badWords = s.badWords := rfl
@[simp] theorem State.setReg_ctxs : (s.setReg o v).ctxs = s.ctxs := rfl
@[simp] theorem State.setReg_ctxCmd : (s.setReg o v).ctxCmd = s.ctxCmd := rfl
@[simp] theorem State.setReg_ctxResult : (s.setReg o v).ctxResult = s.ctxResult := rfl
@[simp] theorem State.setReg_launch : (s.setReg o v).launch = s.launch := rfl
@[simp] theorem State.setReg_pool : (s.setReg o v).pool = s.pool := rfl
@[simp] theorem State.setReg_rpl : (s.setReg o v).rpl = s.rpl := rfl
@[simp] theorem State.setReg_recq : (s.setReg o v).recq = s.recq := rfl
@[simp] theorem State.setReg_host : (s.setReg o v).host = s.host := rfl
@[simp] theorem State.setReg_mgmt : (s.setReg o v).mgmt = s.mgmt := rfl
@[simp] theorem State.setReg_fault : (s.setReg o v).fault = s.fault := rfl
@[simp] theorem State.setReg_pwr : (s.setReg o v).pwr = s.pwr := rfl
@[simp] theorem State.setReg_boot : (s.setReg o v).boot = s.boot := rfl
@[simp] theorem State.setReg_pins : (s.setReg o v).pins = s.pins := rfl
@[simp] theorem State.setReg_perf : (s.setReg o v).perf = s.perf := rfl
end

/-! ### modPort -/

section
variable (s : State) (k : Nat) (f : Port → Port)
@[simp] theorem State.modPort_pending : (s.modPort k f).pending = s.pending := rfl
@[simp] theorem State.modPort_freeCtr : (s.modPort k f).freeCtr = s.freeCtr := rfl
@[simp] theorem State.modPort_out : (s.modPort k f).out = s.out := rfl
@[simp] theorem State.modPort_clk : (s.modPort k f).clk = s.clk := rfl
@[simp] theorem State.modPort_regs : (s.modPort k f).regs = s.regs := rfl
@[simp] theorem State.modPort_latches : (s.modPort k f).latches = s.latches := rfl
@[simp] theorem State.modPort_heldLow : (s.modPort k f).heldLow = s.heldLow := rfl
@[simp] theorem State.modPort_sw : (s.modPort k f).sw = s.sw := rfl
@[simp] theorem State.modPort_route : (s.modPort k f).route = s.route := rfl
@[simp] theorem State.modPort_ports : (s.modPort k f).ports = smod {} s.ports k f := rfl
@[simp] theorem State.modPort_lanes : (s.modPort k f).lanes = s.lanes := rfl
@[simp] theorem State.modPort_coll : (s.modPort k f).coll = s.coll := rfl
@[simp] theorem State.modPort_benches : (s.modPort k f).benches = s.benches := rfl
@[simp] theorem State.modPort_cores : (s.modPort k f).cores = s.cores := rfl
@[simp] theorem State.modPort_ls : (s.modPort k f).ls = s.ls := rfl
@[simp] theorem State.modPort_is : (s.modPort k f).is = s.is := rfl
@[simp] theorem State.modPort_badWords : (s.modPort k f).badWords = s.badWords := rfl
@[simp] theorem State.modPort_ctxs : (s.modPort k f).ctxs = s.ctxs := rfl
@[simp] theorem State.modPort_ctxCmd : (s.modPort k f).ctxCmd = s.ctxCmd := rfl
@[simp] theorem State.modPort_ctxResult : (s.modPort k f).ctxResult = s.ctxResult := rfl
@[simp] theorem State.modPort_launch : (s.modPort k f).launch = s.launch := rfl
@[simp] theorem State.modPort_pool : (s.modPort k f).pool = s.pool := rfl
@[simp] theorem State.modPort_rpl : (s.modPort k f).rpl = s.rpl := rfl
@[simp] theorem State.modPort_recq : (s.modPort k f).recq = s.recq := rfl
@[simp] theorem State.modPort_host : (s.modPort k f).host = s.host := rfl
@[simp] theorem State.modPort_mgmt : (s.modPort k f).mgmt = s.mgmt := rfl
@[simp] theorem State.modPort_fault : (s.modPort k f).fault = s.fault := rfl
@[simp] theorem State.modPort_pwr : (s.modPort k f).pwr = s.pwr := rfl
@[simp] theorem State.modPort_boot : (s.modPort k f).boot = s.boot := rfl
@[simp] theorem State.modPort_pins : (s.modPort k f).pins = s.pins := rfl
@[simp] theorem State.modPort_perf : (s.modPort k f).perf = s.perf := rfl
end

/-! ### modLane -/

section
variable (s : State) (k : Nat) (f : Lane → Lane)
@[simp] theorem State.modLane_pending : (s.modLane k f).pending = s.pending := rfl
@[simp] theorem State.modLane_freeCtr : (s.modLane k f).freeCtr = s.freeCtr := rfl
@[simp] theorem State.modLane_out : (s.modLane k f).out = s.out := rfl
@[simp] theorem State.modLane_clk : (s.modLane k f).clk = s.clk := rfl
@[simp] theorem State.modLane_regs : (s.modLane k f).regs = s.regs := rfl
@[simp] theorem State.modLane_latches : (s.modLane k f).latches = s.latches := rfl
@[simp] theorem State.modLane_heldLow : (s.modLane k f).heldLow = s.heldLow := rfl
@[simp] theorem State.modLane_sw : (s.modLane k f).sw = s.sw := rfl
@[simp] theorem State.modLane_route : (s.modLane k f).route = s.route := rfl
@[simp] theorem State.modLane_ports : (s.modLane k f).ports = s.ports := rfl
@[simp] theorem State.modLane_lanes : (s.modLane k f).lanes = smod {} s.lanes k f := rfl
@[simp] theorem State.modLane_coll : (s.modLane k f).coll = s.coll := rfl
@[simp] theorem State.modLane_benches : (s.modLane k f).benches = s.benches := rfl
@[simp] theorem State.modLane_cores : (s.modLane k f).cores = s.cores := rfl
@[simp] theorem State.modLane_ls : (s.modLane k f).ls = s.ls := rfl
@[simp] theorem State.modLane_is : (s.modLane k f).is = s.is := rfl
@[simp] theorem State.modLane_badWords : (s.modLane k f).badWords = s.badWords := rfl
@[simp] theorem State.modLane_ctxs : (s.modLane k f).ctxs = s.ctxs := rfl
@[simp] theorem State.modLane_ctxCmd : (s.modLane k f).ctxCmd = s.ctxCmd := rfl
@[simp] theorem State.modLane_ctxResult : (s.modLane k f).ctxResult = s.ctxResult := rfl
@[simp] theorem State.modLane_launch : (s.modLane k f).launch = s.launch := rfl
@[simp] theorem State.modLane_pool : (s.modLane k f).pool = s.pool := rfl
@[simp] theorem State.modLane_rpl : (s.modLane k f).rpl = s.rpl := rfl
@[simp] theorem State.modLane_recq : (s.modLane k f).recq = s.recq := rfl
@[simp] theorem State.modLane_host : (s.modLane k f).host = s.host := rfl
@[simp] theorem State.modLane_mgmt : (s.modLane k f).mgmt = s.mgmt := rfl
@[simp] theorem State.modLane_fault : (s.modLane k f).fault = s.fault := rfl
@[simp] theorem State.modLane_pwr : (s.modLane k f).pwr = s.pwr := rfl
@[simp] theorem State.modLane_boot : (s.modLane k f).boot = s.boot := rfl
@[simp] theorem State.modLane_pins : (s.modLane k f).pins = s.pins := rfl
@[simp] theorem State.modLane_perf : (s.modLane k f).perf = s.perf := rfl
end

/-! ### modBench -/

section
variable (s : State) (k : Nat) (f : Bench → Bench)
@[simp] theorem State.modBench_pending : (s.modBench k f).pending = s.pending := rfl
@[simp] theorem State.modBench_freeCtr : (s.modBench k f).freeCtr = s.freeCtr := rfl
@[simp] theorem State.modBench_out : (s.modBench k f).out = s.out := rfl
@[simp] theorem State.modBench_clk : (s.modBench k f).clk = s.clk := rfl
@[simp] theorem State.modBench_regs : (s.modBench k f).regs = s.regs := rfl
@[simp] theorem State.modBench_latches : (s.modBench k f).latches = s.latches := rfl
@[simp] theorem State.modBench_heldLow : (s.modBench k f).heldLow = s.heldLow := rfl
@[simp] theorem State.modBench_sw : (s.modBench k f).sw = s.sw := rfl
@[simp] theorem State.modBench_route : (s.modBench k f).route = s.route := rfl
@[simp] theorem State.modBench_ports : (s.modBench k f).ports = s.ports := rfl
@[simp] theorem State.modBench_lanes : (s.modBench k f).lanes = s.lanes := rfl
@[simp] theorem State.modBench_coll : (s.modBench k f).coll = s.coll := rfl
@[simp] theorem State.modBench_benches : (s.modBench k f).benches = smod {} s.benches k f := rfl
@[simp] theorem State.modBench_cores : (s.modBench k f).cores = s.cores := rfl
@[simp] theorem State.modBench_ls : (s.modBench k f).ls = s.ls := rfl
@[simp] theorem State.modBench_is : (s.modBench k f).is = s.is := rfl
@[simp] theorem State.modBench_badWords : (s.modBench k f).badWords = s.badWords := rfl
@[simp] theorem State.modBench_ctxs : (s.modBench k f).ctxs = s.ctxs := rfl
@[simp] theorem State.modBench_ctxCmd : (s.modBench k f).ctxCmd = s.ctxCmd := rfl
@[simp] theorem State.modBench_ctxResult : (s.modBench k f).ctxResult = s.ctxResult := rfl
@[simp] theorem State.modBench_launch : (s.modBench k f).launch = s.launch := rfl
@[simp] theorem State.modBench_pool : (s.modBench k f).pool = s.pool := rfl
@[simp] theorem State.modBench_rpl : (s.modBench k f).rpl = s.rpl := rfl
@[simp] theorem State.modBench_recq : (s.modBench k f).recq = s.recq := rfl
@[simp] theorem State.modBench_host : (s.modBench k f).host = s.host := rfl
@[simp] theorem State.modBench_mgmt : (s.modBench k f).mgmt = s.mgmt := rfl
@[simp] theorem State.modBench_fault : (s.modBench k f).fault = s.fault := rfl
@[simp] theorem State.modBench_pwr : (s.modBench k f).pwr = s.pwr := rfl
@[simp] theorem State.modBench_boot : (s.modBench k f).boot = s.boot := rfl
@[simp] theorem State.modBench_pins : (s.modBench k f).pins = s.pins := rfl
@[simp] theorem State.modBench_perf : (s.modBench k f).perf = s.perf := rfl
end

/-! ### modCore -/

section
variable (s : State) (k : Nat) (f : Core → Core)
@[simp] theorem State.modCore_pending : (s.modCore k f).pending = s.pending := rfl
@[simp] theorem State.modCore_freeCtr : (s.modCore k f).freeCtr = s.freeCtr := rfl
@[simp] theorem State.modCore_out : (s.modCore k f).out = s.out := rfl
@[simp] theorem State.modCore_clk : (s.modCore k f).clk = s.clk := rfl
@[simp] theorem State.modCore_regs : (s.modCore k f).regs = s.regs := rfl
@[simp] theorem State.modCore_latches : (s.modCore k f).latches = s.latches := rfl
@[simp] theorem State.modCore_heldLow : (s.modCore k f).heldLow = s.heldLow := rfl
@[simp] theorem State.modCore_sw : (s.modCore k f).sw = s.sw := rfl
@[simp] theorem State.modCore_route : (s.modCore k f).route = s.route := rfl
@[simp] theorem State.modCore_ports : (s.modCore k f).ports = s.ports := rfl
@[simp] theorem State.modCore_lanes : (s.modCore k f).lanes = s.lanes := rfl
@[simp] theorem State.modCore_coll : (s.modCore k f).coll = s.coll := rfl
@[simp] theorem State.modCore_benches : (s.modCore k f).benches = s.benches := rfl
@[simp] theorem State.modCore_cores : (s.modCore k f).cores = smod {} s.cores k f := rfl
@[simp] theorem State.modCore_ls : (s.modCore k f).ls = s.ls := rfl
@[simp] theorem State.modCore_is : (s.modCore k f).is = s.is := rfl
@[simp] theorem State.modCore_badWords : (s.modCore k f).badWords = s.badWords := rfl
@[simp] theorem State.modCore_ctxs : (s.modCore k f).ctxs = s.ctxs := rfl
@[simp] theorem State.modCore_ctxCmd : (s.modCore k f).ctxCmd = s.ctxCmd := rfl
@[simp] theorem State.modCore_ctxResult : (s.modCore k f).ctxResult = s.ctxResult := rfl
@[simp] theorem State.modCore_launch : (s.modCore k f).launch = s.launch := rfl
@[simp] theorem State.modCore_pool : (s.modCore k f).pool = s.pool := rfl
@[simp] theorem State.modCore_rpl : (s.modCore k f).rpl = s.rpl := rfl
@[simp] theorem State.modCore_recq : (s.modCore k f).recq = s.recq := rfl
@[simp] theorem State.modCore_host : (s.modCore k f).host = s.host := rfl
@[simp] theorem State.modCore_mgmt : (s.modCore k f).mgmt = s.mgmt := rfl
@[simp] theorem State.modCore_fault : (s.modCore k f).fault = s.fault := rfl
@[simp] theorem State.modCore_pwr : (s.modCore k f).pwr = s.pwr := rfl
@[simp] theorem State.modCore_boot : (s.modCore k f).boot = s.boot := rfl
@[simp] theorem State.modCore_pins : (s.modCore k f).pins = s.pins := rfl
@[simp] theorem State.modCore_perf : (s.modCore k f).perf = s.perf := rfl
end

/-! ### modCtx -/

section
variable (s : State) (k : Nat) (f : Ctx → Ctx)
@[simp] theorem State.modCtx_pending : (s.modCtx k f).pending = s.pending := rfl
@[simp] theorem State.modCtx_freeCtr : (s.modCtx k f).freeCtr = s.freeCtr := rfl
@[simp] theorem State.modCtx_out : (s.modCtx k f).out = s.out := rfl
@[simp] theorem State.modCtx_clk : (s.modCtx k f).clk = s.clk := rfl
@[simp] theorem State.modCtx_regs : (s.modCtx k f).regs = s.regs := rfl
@[simp] theorem State.modCtx_latches : (s.modCtx k f).latches = s.latches := rfl
@[simp] theorem State.modCtx_heldLow : (s.modCtx k f).heldLow = s.heldLow := rfl
@[simp] theorem State.modCtx_sw : (s.modCtx k f).sw = s.sw := rfl
@[simp] theorem State.modCtx_route : (s.modCtx k f).route = s.route := rfl
@[simp] theorem State.modCtx_ports : (s.modCtx k f).ports = s.ports := rfl
@[simp] theorem State.modCtx_lanes : (s.modCtx k f).lanes = s.lanes := rfl
@[simp] theorem State.modCtx_coll : (s.modCtx k f).coll = s.coll := rfl
@[simp] theorem State.modCtx_benches : (s.modCtx k f).benches = s.benches := rfl
@[simp] theorem State.modCtx_cores : (s.modCtx k f).cores = s.cores := rfl
@[simp] theorem State.modCtx_ls : (s.modCtx k f).ls = s.ls := rfl
@[simp] theorem State.modCtx_is : (s.modCtx k f).is = s.is := rfl
@[simp] theorem State.modCtx_badWords : (s.modCtx k f).badWords = s.badWords := rfl
@[simp] theorem State.modCtx_ctxs : (s.modCtx k f).ctxs = smod {} s.ctxs k f := rfl
@[simp] theorem State.modCtx_ctxCmd : (s.modCtx k f).ctxCmd = s.ctxCmd := rfl
@[simp] theorem State.modCtx_ctxResult : (s.modCtx k f).ctxResult = s.ctxResult := rfl
@[simp] theorem State.modCtx_launch : (s.modCtx k f).launch = s.launch := rfl
@[simp] theorem State.modCtx_pool : (s.modCtx k f).pool = s.pool := rfl
@[simp] theorem State.modCtx_rpl : (s.modCtx k f).rpl = s.rpl := rfl
@[simp] theorem State.modCtx_recq : (s.modCtx k f).recq = s.recq := rfl
@[simp] theorem State.modCtx_host : (s.modCtx k f).host = s.host := rfl
@[simp] theorem State.modCtx_mgmt : (s.modCtx k f).mgmt = s.mgmt := rfl
@[simp] theorem State.modCtx_fault : (s.modCtx k f).fault = s.fault := rfl
@[simp] theorem State.modCtx_pwr : (s.modCtx k f).pwr = s.pwr := rfl
@[simp] theorem State.modCtx_boot : (s.modCtx k f).boot = s.boot := rfl
@[simp] theorem State.modCtx_pins : (s.modCtx k f).pins = s.pins := rfl
@[simp] theorem State.modCtx_perf : (s.modCtx k f).perf = s.perf := rfl
end

/-! ### modRpl -/

section
variable (s : State) (k : Nat) (f : Rpl → Rpl)
@[simp] theorem State.modRpl_pending : (s.modRpl k f).pending = s.pending := rfl
@[simp] theorem State.modRpl_freeCtr : (s.modRpl k f).freeCtr = s.freeCtr := rfl
@[simp] theorem State.modRpl_out : (s.modRpl k f).out = s.out := rfl
@[simp] theorem State.modRpl_clk : (s.modRpl k f).clk = s.clk := rfl
@[simp] theorem State.modRpl_regs : (s.modRpl k f).regs = s.regs := rfl
@[simp] theorem State.modRpl_latches : (s.modRpl k f).latches = s.latches := rfl
@[simp] theorem State.modRpl_heldLow : (s.modRpl k f).heldLow = s.heldLow := rfl
@[simp] theorem State.modRpl_sw : (s.modRpl k f).sw = s.sw := rfl
@[simp] theorem State.modRpl_route : (s.modRpl k f).route = s.route := rfl
@[simp] theorem State.modRpl_ports : (s.modRpl k f).ports = s.ports := rfl
@[simp] theorem State.modRpl_lanes : (s.modRpl k f).lanes = s.lanes := rfl
@[simp] theorem State.modRpl_coll : (s.modRpl k f).coll = s.coll := rfl
@[simp] theorem State.modRpl_benches : (s.modRpl k f).benches = s.benches := rfl
@[simp] theorem State.modRpl_cores : (s.modRpl k f).cores = s.cores := rfl
@[simp] theorem State.modRpl_ls : (s.modRpl k f).ls = s.ls := rfl
@[simp] theorem State.modRpl_is : (s.modRpl k f).is = s.is := rfl
@[simp] theorem State.modRpl_badWords : (s.modRpl k f).badWords = s.badWords := rfl
@[simp] theorem State.modRpl_ctxs : (s.modRpl k f).ctxs = s.ctxs := rfl
@[simp] theorem State.modRpl_ctxCmd : (s.modRpl k f).ctxCmd = s.ctxCmd := rfl
@[simp] theorem State.modRpl_ctxResult : (s.modRpl k f).ctxResult = s.ctxResult := rfl
@[simp] theorem State.modRpl_launch : (s.modRpl k f).launch = s.launch := rfl
@[simp] theorem State.modRpl_pool : (s.modRpl k f).pool = s.pool := rfl
@[simp] theorem State.modRpl_rpl : (s.modRpl k f).rpl = smod {} s.rpl k f := rfl
@[simp] theorem State.modRpl_recq : (s.modRpl k f).recq = s.recq := rfl
@[simp] theorem State.modRpl_host : (s.modRpl k f).host = s.host := rfl
@[simp] theorem State.modRpl_mgmt : (s.modRpl k f).mgmt = s.mgmt := rfl
@[simp] theorem State.modRpl_fault : (s.modRpl k f).fault = s.fault := rfl
@[simp] theorem State.modRpl_pwr : (s.modRpl k f).pwr = s.pwr := rfl
@[simp] theorem State.modRpl_boot : (s.modRpl k f).boot = s.boot := rfl
@[simp] theorem State.modRpl_pins : (s.modRpl k f).pins = s.pins := rfl
@[simp] theorem State.modRpl_perf : (s.modRpl k f).perf = s.perf := rfl
end

/-! ### modPwr -/

section
variable (s : State) (f : Power → Power)
@[simp] theorem State.modPwr_pending : (s.modPwr f).pending = s.pending := rfl
@[simp] theorem State.modPwr_freeCtr : (s.modPwr f).freeCtr = s.freeCtr := rfl
@[simp] theorem State.modPwr_out : (s.modPwr f).out = s.out := rfl
@[simp] theorem State.modPwr_clk : (s.modPwr f).clk = s.clk := rfl
@[simp] theorem State.modPwr_regs : (s.modPwr f).regs = s.regs := rfl
@[simp] theorem State.modPwr_latches : (s.modPwr f).latches = s.latches := rfl
@[simp] theorem State.modPwr_heldLow : (s.modPwr f).heldLow = s.heldLow := rfl
@[simp] theorem State.modPwr_sw : (s.modPwr f).sw = s.sw := rfl
@[simp] theorem State.modPwr_route : (s.modPwr f).route = s.route := rfl
@[simp] theorem State.modPwr_ports : (s.modPwr f).ports = s.ports := rfl
@[simp] theorem State.modPwr_lanes : (s.modPwr f).lanes = s.lanes := rfl
@[simp] theorem State.modPwr_coll : (s.modPwr f).coll = s.coll := rfl
@[simp] theorem State.modPwr_benches : (s.modPwr f).benches = s.benches := rfl
@[simp] theorem State.modPwr_cores : (s.modPwr f).cores = s.cores := rfl
@[simp] theorem State.modPwr_ls : (s.modPwr f).ls = s.ls := rfl
@[simp] theorem State.modPwr_is : (s.modPwr f).is = s.is := rfl
@[simp] theorem State.modPwr_badWords : (s.modPwr f).badWords = s.badWords := rfl
@[simp] theorem State.modPwr_ctxs : (s.modPwr f).ctxs = s.ctxs := rfl
@[simp] theorem State.modPwr_ctxCmd : (s.modPwr f).ctxCmd = s.ctxCmd := rfl
@[simp] theorem State.modPwr_ctxResult : (s.modPwr f).ctxResult = s.ctxResult := rfl
@[simp] theorem State.modPwr_launch : (s.modPwr f).launch = s.launch := rfl
@[simp] theorem State.modPwr_pool : (s.modPwr f).pool = s.pool := rfl
@[simp] theorem State.modPwr_rpl : (s.modPwr f).rpl = s.rpl := rfl
@[simp] theorem State.modPwr_recq : (s.modPwr f).recq = s.recq := rfl
@[simp] theorem State.modPwr_host : (s.modPwr f).host = s.host := rfl
@[simp] theorem State.modPwr_mgmt : (s.modPwr f).mgmt = s.mgmt := rfl
@[simp] theorem State.modPwr_fault : (s.modPwr f).fault = s.fault := rfl
@[simp] theorem State.modPwr_pwr : (s.modPwr f).pwr = f s.pwr := rfl
@[simp] theorem State.modPwr_boot : (s.modPwr f).boot = s.boot := rfl
@[simp] theorem State.modPwr_pins : (s.modPwr f).pins = s.pins := rfl
@[simp] theorem State.modPwr_perf : (s.modPwr f).perf = s.perf := rfl
end

/-! ### modFault -/

section
variable (s : State) (f : FaultUnit → FaultUnit)
@[simp] theorem State.modFault_pending : (s.modFault f).pending = s.pending := rfl
@[simp] theorem State.modFault_freeCtr : (s.modFault f).freeCtr = s.freeCtr := rfl
@[simp] theorem State.modFault_out : (s.modFault f).out = s.out := rfl
@[simp] theorem State.modFault_clk : (s.modFault f).clk = s.clk := rfl
@[simp] theorem State.modFault_regs : (s.modFault f).regs = s.regs := rfl
@[simp] theorem State.modFault_latches : (s.modFault f).latches = s.latches := rfl
@[simp] theorem State.modFault_heldLow : (s.modFault f).heldLow = s.heldLow := rfl
@[simp] theorem State.modFault_sw : (s.modFault f).sw = s.sw := rfl
@[simp] theorem State.modFault_route : (s.modFault f).route = s.route := rfl
@[simp] theorem State.modFault_ports : (s.modFault f).ports = s.ports := rfl
@[simp] theorem State.modFault_lanes : (s.modFault f).lanes = s.lanes := rfl
@[simp] theorem State.modFault_coll : (s.modFault f).coll = s.coll := rfl
@[simp] theorem State.modFault_benches : (s.modFault f).benches = s.benches := rfl
@[simp] theorem State.modFault_cores : (s.modFault f).cores = s.cores := rfl
@[simp] theorem State.modFault_ls : (s.modFault f).ls = s.ls := rfl
@[simp] theorem State.modFault_is : (s.modFault f).is = s.is := rfl
@[simp] theorem State.modFault_badWords : (s.modFault f).badWords = s.badWords := rfl
@[simp] theorem State.modFault_ctxs : (s.modFault f).ctxs = s.ctxs := rfl
@[simp] theorem State.modFault_ctxCmd : (s.modFault f).ctxCmd = s.ctxCmd := rfl
@[simp] theorem State.modFault_ctxResult : (s.modFault f).ctxResult = s.ctxResult := rfl
@[simp] theorem State.modFault_launch : (s.modFault f).launch = s.launch := rfl
@[simp] theorem State.modFault_pool : (s.modFault f).pool = s.pool := rfl
@[simp] theorem State.modFault_rpl : (s.modFault f).rpl = s.rpl := rfl
@[simp] theorem State.modFault_recq : (s.modFault f).recq = s.recq := rfl
@[simp] theorem State.modFault_host : (s.modFault f).host = s.host := rfl
@[simp] theorem State.modFault_mgmt : (s.modFault f).mgmt = s.mgmt := rfl
@[simp] theorem State.modFault_fault : (s.modFault f).fault = f s.fault := rfl
@[simp] theorem State.modFault_pwr : (s.modFault f).pwr = s.pwr := rfl
@[simp] theorem State.modFault_boot : (s.modFault f).boot = s.boot := rfl
@[simp] theorem State.modFault_pins : (s.modFault f).pins = s.pins := rfl
@[simp] theorem State.modFault_perf : (s.modFault f).perf = s.perf := rfl
end

/-! ### modHost -/

section
variable (s : State) (f : HostIf → HostIf)
@[simp] theorem State.modHost_pending : (s.modHost f).pending = s.pending := rfl
@[simp] theorem State.modHost_freeCtr : (s.modHost f).freeCtr = s.freeCtr := rfl
@[simp] theorem State.modHost_out : (s.modHost f).out = s.out := rfl
@[simp] theorem State.modHost_clk : (s.modHost f).clk = s.clk := rfl
@[simp] theorem State.modHost_regs : (s.modHost f).regs = s.regs := rfl
@[simp] theorem State.modHost_latches : (s.modHost f).latches = s.latches := rfl
@[simp] theorem State.modHost_heldLow : (s.modHost f).heldLow = s.heldLow := rfl
@[simp] theorem State.modHost_sw : (s.modHost f).sw = s.sw := rfl
@[simp] theorem State.modHost_route : (s.modHost f).route = s.route := rfl
@[simp] theorem State.modHost_ports : (s.modHost f).ports = s.ports := rfl
@[simp] theorem State.modHost_lanes : (s.modHost f).lanes = s.lanes := rfl
@[simp] theorem State.modHost_coll : (s.modHost f).coll = s.coll := rfl
@[simp] theorem State.modHost_benches : (s.modHost f).benches = s.benches := rfl
@[simp] theorem State.modHost_cores : (s.modHost f).cores = s.cores := rfl
@[simp] theorem State.modHost_ls : (s.modHost f).ls = s.ls := rfl
@[simp] theorem State.modHost_is : (s.modHost f).is = s.is := rfl
@[simp] theorem State.modHost_badWords : (s.modHost f).badWords = s.badWords := rfl
@[simp] theorem State.modHost_ctxs : (s.modHost f).ctxs = s.ctxs := rfl
@[simp] theorem State.modHost_ctxCmd : (s.modHost f).ctxCmd = s.ctxCmd := rfl
@[simp] theorem State.modHost_ctxResult : (s.modHost f).ctxResult = s.ctxResult := rfl
@[simp] theorem State.modHost_launch : (s.modHost f).launch = s.launch := rfl
@[simp] theorem State.modHost_pool : (s.modHost f).pool = s.pool := rfl
@[simp] theorem State.modHost_rpl : (s.modHost f).rpl = s.rpl := rfl
@[simp] theorem State.modHost_recq : (s.modHost f).recq = s.recq := rfl
@[simp] theorem State.modHost_host : (s.modHost f).host = f s.host := rfl
@[simp] theorem State.modHost_mgmt : (s.modHost f).mgmt = s.mgmt := rfl
@[simp] theorem State.modHost_fault : (s.modHost f).fault = s.fault := rfl
@[simp] theorem State.modHost_pwr : (s.modHost f).pwr = s.pwr := rfl
@[simp] theorem State.modHost_boot : (s.modHost f).boot = s.boot := rfl
@[simp] theorem State.modHost_pins : (s.modHost f).pins = s.pins := rfl
@[simp] theorem State.modHost_perf : (s.modHost f).perf = s.perf := rfl
end

/-! ### modMgmt -/

section
variable (s : State) (f : Mgmt → Mgmt)
@[simp] theorem State.modMgmt_pending : (s.modMgmt f).pending = s.pending := rfl
@[simp] theorem State.modMgmt_freeCtr : (s.modMgmt f).freeCtr = s.freeCtr := rfl
@[simp] theorem State.modMgmt_out : (s.modMgmt f).out = s.out := rfl
@[simp] theorem State.modMgmt_clk : (s.modMgmt f).clk = s.clk := rfl
@[simp] theorem State.modMgmt_regs : (s.modMgmt f).regs = s.regs := rfl
@[simp] theorem State.modMgmt_latches : (s.modMgmt f).latches = s.latches := rfl
@[simp] theorem State.modMgmt_heldLow : (s.modMgmt f).heldLow = s.heldLow := rfl
@[simp] theorem State.modMgmt_sw : (s.modMgmt f).sw = s.sw := rfl
@[simp] theorem State.modMgmt_route : (s.modMgmt f).route = s.route := rfl
@[simp] theorem State.modMgmt_ports : (s.modMgmt f).ports = s.ports := rfl
@[simp] theorem State.modMgmt_lanes : (s.modMgmt f).lanes = s.lanes := rfl
@[simp] theorem State.modMgmt_coll : (s.modMgmt f).coll = s.coll := rfl
@[simp] theorem State.modMgmt_benches : (s.modMgmt f).benches = s.benches := rfl
@[simp] theorem State.modMgmt_cores : (s.modMgmt f).cores = s.cores := rfl
@[simp] theorem State.modMgmt_ls : (s.modMgmt f).ls = s.ls := rfl
@[simp] theorem State.modMgmt_is : (s.modMgmt f).is = s.is := rfl
@[simp] theorem State.modMgmt_badWords : (s.modMgmt f).badWords = s.badWords := rfl
@[simp] theorem State.modMgmt_ctxs : (s.modMgmt f).ctxs = s.ctxs := rfl
@[simp] theorem State.modMgmt_ctxCmd : (s.modMgmt f).ctxCmd = s.ctxCmd := rfl
@[simp] theorem State.modMgmt_ctxResult : (s.modMgmt f).ctxResult = s.ctxResult := rfl
@[simp] theorem State.modMgmt_launch : (s.modMgmt f).launch = s.launch := rfl
@[simp] theorem State.modMgmt_pool : (s.modMgmt f).pool = s.pool := rfl
@[simp] theorem State.modMgmt_rpl : (s.modMgmt f).rpl = s.rpl := rfl
@[simp] theorem State.modMgmt_recq : (s.modMgmt f).recq = s.recq := rfl
@[simp] theorem State.modMgmt_host : (s.modMgmt f).host = s.host := rfl
@[simp] theorem State.modMgmt_mgmt : (s.modMgmt f).mgmt = f s.mgmt := rfl
@[simp] theorem State.modMgmt_fault : (s.modMgmt f).fault = s.fault := rfl
@[simp] theorem State.modMgmt_pwr : (s.modMgmt f).pwr = s.pwr := rfl
@[simp] theorem State.modMgmt_boot : (s.modMgmt f).boot = s.boot := rfl
@[simp] theorem State.modMgmt_pins : (s.modMgmt f).pins = s.pins := rfl
@[simp] theorem State.modMgmt_perf : (s.modMgmt f).perf = s.perf := rfl
end

/-! ### modBoot -/

section
variable (s : State) (f : Boot → Boot)
@[simp] theorem State.modBoot_pending : (s.modBoot f).pending = s.pending := rfl
@[simp] theorem State.modBoot_freeCtr : (s.modBoot f).freeCtr = s.freeCtr := rfl
@[simp] theorem State.modBoot_out : (s.modBoot f).out = s.out := rfl
@[simp] theorem State.modBoot_clk : (s.modBoot f).clk = s.clk := rfl
@[simp] theorem State.modBoot_regs : (s.modBoot f).regs = s.regs := rfl
@[simp] theorem State.modBoot_latches : (s.modBoot f).latches = s.latches := rfl
@[simp] theorem State.modBoot_heldLow : (s.modBoot f).heldLow = s.heldLow := rfl
@[simp] theorem State.modBoot_sw : (s.modBoot f).sw = s.sw := rfl
@[simp] theorem State.modBoot_route : (s.modBoot f).route = s.route := rfl
@[simp] theorem State.modBoot_ports : (s.modBoot f).ports = s.ports := rfl
@[simp] theorem State.modBoot_lanes : (s.modBoot f).lanes = s.lanes := rfl
@[simp] theorem State.modBoot_coll : (s.modBoot f).coll = s.coll := rfl
@[simp] theorem State.modBoot_benches : (s.modBoot f).benches = s.benches := rfl
@[simp] theorem State.modBoot_cores : (s.modBoot f).cores = s.cores := rfl
@[simp] theorem State.modBoot_ls : (s.modBoot f).ls = s.ls := rfl
@[simp] theorem State.modBoot_is : (s.modBoot f).is = s.is := rfl
@[simp] theorem State.modBoot_badWords : (s.modBoot f).badWords = s.badWords := rfl
@[simp] theorem State.modBoot_ctxs : (s.modBoot f).ctxs = s.ctxs := rfl
@[simp] theorem State.modBoot_ctxCmd : (s.modBoot f).ctxCmd = s.ctxCmd := rfl
@[simp] theorem State.modBoot_ctxResult : (s.modBoot f).ctxResult = s.ctxResult := rfl
@[simp] theorem State.modBoot_launch : (s.modBoot f).launch = s.launch := rfl
@[simp] theorem State.modBoot_pool : (s.modBoot f).pool = s.pool := rfl
@[simp] theorem State.modBoot_rpl : (s.modBoot f).rpl = s.rpl := rfl
@[simp] theorem State.modBoot_recq : (s.modBoot f).recq = s.recq := rfl
@[simp] theorem State.modBoot_host : (s.modBoot f).host = s.host := rfl
@[simp] theorem State.modBoot_mgmt : (s.modBoot f).mgmt = s.mgmt := rfl
@[simp] theorem State.modBoot_fault : (s.modBoot f).fault = s.fault := rfl
@[simp] theorem State.modBoot_pwr : (s.modBoot f).pwr = s.pwr := rfl
@[simp] theorem State.modBoot_boot : (s.modBoot f).boot = f s.boot := rfl
@[simp] theorem State.modBoot_pins : (s.modBoot f).pins = s.pins := rfl
@[simp] theorem State.modBoot_perf : (s.modBoot f).perf = s.perf := rfl
end

/-! ### modClk -/

section
variable (s : State) (f : Clock → Clock)
@[simp] theorem State.modClk_pending : (s.modClk f).pending = s.pending := rfl
@[simp] theorem State.modClk_freeCtr : (s.modClk f).freeCtr = s.freeCtr := rfl
@[simp] theorem State.modClk_out : (s.modClk f).out = s.out := rfl
@[simp] theorem State.modClk_clk : (s.modClk f).clk = f s.clk := rfl
@[simp] theorem State.modClk_regs : (s.modClk f).regs = s.regs := rfl
@[simp] theorem State.modClk_latches : (s.modClk f).latches = s.latches := rfl
@[simp] theorem State.modClk_heldLow : (s.modClk f).heldLow = s.heldLow := rfl
@[simp] theorem State.modClk_sw : (s.modClk f).sw = s.sw := rfl
@[simp] theorem State.modClk_route : (s.modClk f).route = s.route := rfl
@[simp] theorem State.modClk_ports : (s.modClk f).ports = s.ports := rfl
@[simp] theorem State.modClk_lanes : (s.modClk f).lanes = s.lanes := rfl
@[simp] theorem State.modClk_coll : (s.modClk f).coll = s.coll := rfl
@[simp] theorem State.modClk_benches : (s.modClk f).benches = s.benches := rfl
@[simp] theorem State.modClk_cores : (s.modClk f).cores = s.cores := rfl
@[simp] theorem State.modClk_ls : (s.modClk f).ls = s.ls := rfl
@[simp] theorem State.modClk_is : (s.modClk f).is = s.is := rfl
@[simp] theorem State.modClk_badWords : (s.modClk f).badWords = s.badWords := rfl
@[simp] theorem State.modClk_ctxs : (s.modClk f).ctxs = s.ctxs := rfl
@[simp] theorem State.modClk_ctxCmd : (s.modClk f).ctxCmd = s.ctxCmd := rfl
@[simp] theorem State.modClk_ctxResult : (s.modClk f).ctxResult = s.ctxResult := rfl
@[simp] theorem State.modClk_launch : (s.modClk f).launch = s.launch := rfl
@[simp] theorem State.modClk_pool : (s.modClk f).pool = s.pool := rfl
@[simp] theorem State.modClk_rpl : (s.modClk f).rpl = s.rpl := rfl
@[simp] theorem State.modClk_recq : (s.modClk f).recq = s.recq := rfl
@[simp] theorem State.modClk_host : (s.modClk f).host = s.host := rfl
@[simp] theorem State.modClk_mgmt : (s.modClk f).mgmt = s.mgmt := rfl
@[simp] theorem State.modClk_fault : (s.modClk f).fault = s.fault := rfl
@[simp] theorem State.modClk_pwr : (s.modClk f).pwr = s.pwr := rfl
@[simp] theorem State.modClk_boot : (s.modClk f).boot = s.boot := rfl
@[simp] theorem State.modClk_pins : (s.modClk f).pins = s.pins := rfl
@[simp] theorem State.modClk_perf : (s.modClk f).perf = s.perf := rfl
end

/-! ### modColl -/

section
variable (s : State) (f : Coll → Coll)
@[simp] theorem State.modColl_pending : (s.modColl f).pending = s.pending := rfl
@[simp] theorem State.modColl_freeCtr : (s.modColl f).freeCtr = s.freeCtr := rfl
@[simp] theorem State.modColl_out : (s.modColl f).out = s.out := rfl
@[simp] theorem State.modColl_clk : (s.modColl f).clk = s.clk := rfl
@[simp] theorem State.modColl_regs : (s.modColl f).regs = s.regs := rfl
@[simp] theorem State.modColl_latches : (s.modColl f).latches = s.latches := rfl
@[simp] theorem State.modColl_heldLow : (s.modColl f).heldLow = s.heldLow := rfl
@[simp] theorem State.modColl_sw : (s.modColl f).sw = s.sw := rfl
@[simp] theorem State.modColl_route : (s.modColl f).route = s.route := rfl
@[simp] theorem State.modColl_ports : (s.modColl f).ports = s.ports := rfl
@[simp] theorem State.modColl_lanes : (s.modColl f).lanes = s.lanes := rfl
@[simp] theorem State.modColl_coll : (s.modColl f).coll = f s.coll := rfl
@[simp] theorem State.modColl_benches : (s.modColl f).benches = s.benches := rfl
@[simp] theorem State.modColl_cores : (s.modColl f).cores = s.cores := rfl
@[simp] theorem State.modColl_ls : (s.modColl f).ls = s.ls := rfl
@[simp] theorem State.modColl_is : (s.modColl f).is = s.is := rfl
@[simp] theorem State.modColl_badWords : (s.modColl f).badWords = s.badWords := rfl
@[simp] theorem State.modColl_ctxs : (s.modColl f).ctxs = s.ctxs := rfl
@[simp] theorem State.modColl_ctxCmd : (s.modColl f).ctxCmd = s.ctxCmd := rfl
@[simp] theorem State.modColl_ctxResult : (s.modColl f).ctxResult = s.ctxResult := rfl
@[simp] theorem State.modColl_launch : (s.modColl f).launch = s.launch := rfl
@[simp] theorem State.modColl_pool : (s.modColl f).pool = s.pool := rfl
@[simp] theorem State.modColl_rpl : (s.modColl f).rpl = s.rpl := rfl
@[simp] theorem State.modColl_recq : (s.modColl f).recq = s.recq := rfl
@[simp] theorem State.modColl_host : (s.modColl f).host = s.host := rfl
@[simp] theorem State.modColl_mgmt : (s.modColl f).mgmt = s.mgmt := rfl
@[simp] theorem State.modColl_fault : (s.modColl f).fault = s.fault := rfl
@[simp] theorem State.modColl_pwr : (s.modColl f).pwr = s.pwr := rfl
@[simp] theorem State.modColl_boot : (s.modColl f).boot = s.boot := rfl
@[simp] theorem State.modColl_pins : (s.modColl f).pins = s.pins := rfl
@[simp] theorem State.modColl_perf : (s.modColl f).perf = s.perf := rfl
end

/-! ### modInst -/

section
variable (s : State) (k : InstKey) (f : Inst → Inst)
@[simp] theorem State.modInst_pending : (s.modInst k f).pending = s.pending := rfl
@[simp] theorem State.modInst_freeCtr : (s.modInst k f).freeCtr = s.freeCtr := rfl
@[simp] theorem State.modInst_out : (s.modInst k f).out = s.out := rfl
@[simp] theorem State.modInst_clk : (s.modInst k f).clk = s.clk := rfl
@[simp] theorem State.modInst_regs : (s.modInst k f).regs = s.regs := rfl
@[simp] theorem State.modInst_latches : (s.modInst k f).latches = s.latches := rfl
@[simp] theorem State.modInst_heldLow : (s.modInst k f).heldLow = s.heldLow := rfl
@[simp] theorem State.modInst_sw : (s.modInst k f).sw = s.sw := rfl
@[simp] theorem State.modInst_route : (s.modInst k f).route = s.route := rfl
@[simp] theorem State.modInst_ports : (s.modInst k f).ports = s.ports := rfl
@[simp] theorem State.modInst_lanes : (s.modInst k f).lanes = s.lanes := rfl
@[simp] theorem State.modInst_benches : (s.modInst k f).benches = s.benches := rfl
@[simp] theorem State.modInst_cores : (s.modInst k f).cores = s.cores := rfl
@[simp] theorem State.modInst_ls : (s.modInst k f).ls = s.ls := rfl
@[simp] theorem State.modInst_is : (s.modInst k f).is = s.is := rfl
@[simp] theorem State.modInst_badWords : (s.modInst k f).badWords = s.badWords := rfl
@[simp] theorem State.modInst_ctxs : (s.modInst k f).ctxs = s.ctxs := rfl
@[simp] theorem State.modInst_ctxCmd : (s.modInst k f).ctxCmd = s.ctxCmd := rfl
@[simp] theorem State.modInst_ctxResult : (s.modInst k f).ctxResult = s.ctxResult := rfl
@[simp] theorem State.modInst_launch : (s.modInst k f).launch = s.launch := rfl
@[simp] theorem State.modInst_pool : (s.modInst k f).pool = s.pool := rfl
@[simp] theorem State.modInst_rpl : (s.modInst k f).rpl = s.rpl := rfl
@[simp] theorem State.modInst_recq : (s.modInst k f).recq = s.recq := rfl
@[simp] theorem State.modInst_host : (s.modInst k f).host = s.host := rfl
@[simp] theorem State.modInst_mgmt : (s.modInst k f).mgmt = s.mgmt := rfl
@[simp] theorem State.modInst_fault : (s.modInst k f).fault = s.fault := rfl
@[simp] theorem State.modInst_pwr : (s.modInst k f).pwr = s.pwr := rfl
@[simp] theorem State.modInst_boot : (s.modInst k f).boot = s.boot := rfl
@[simp] theorem State.modInst_pins : (s.modInst k f).pins = s.pins := rfl
@[simp] theorem State.modInst_perf : (s.modInst k f).perf = s.perf := rfl
end

/-! ### modRoute -/

section
variable (s : State) (f : Route → Route)
@[simp] theorem State.modRoute_pending : (s.modRoute f).pending = s.pending := rfl
@[simp] theorem State.modRoute_freeCtr : (s.modRoute f).freeCtr = s.freeCtr := rfl
@[simp] theorem State.modRoute_out : (s.modRoute f).out = s.out := rfl
@[simp] theorem State.modRoute_clk : (s.modRoute f).clk = s.clk := rfl
@[simp] theorem State.modRoute_regs : (s.modRoute f).regs = s.regs := rfl
@[simp] theorem State.modRoute_latches : (s.modRoute f).latches = s.latches := rfl
@[simp] theorem State.modRoute_heldLow : (s.modRoute f).heldLow = s.heldLow := rfl
@[simp] theorem State.modRoute_sw : (s.modRoute f).sw = s.sw := rfl
@[simp] theorem State.modRoute_route : (s.modRoute f).route = f s.route := rfl
@[simp] theorem State.modRoute_ports : (s.modRoute f).ports = s.ports := rfl
@[simp] theorem State.modRoute_lanes : (s.modRoute f).lanes = s.lanes := rfl
@[simp] theorem State.modRoute_coll : (s.modRoute f).coll = s.coll := rfl
@[simp] theorem State.modRoute_benches : (s.modRoute f).benches = s.benches := rfl
@[simp] theorem State.modRoute_cores : (s.modRoute f).cores = s.cores := rfl
@[simp] theorem State.modRoute_ls : (s.modRoute f).ls = s.ls := rfl
@[simp] theorem State.modRoute_is : (s.modRoute f).is = s.is := rfl
@[simp] theorem State.modRoute_badWords : (s.modRoute f).badWords = s.badWords := rfl
@[simp] theorem State.modRoute_ctxs : (s.modRoute f).ctxs = s.ctxs := rfl
@[simp] theorem State.modRoute_ctxCmd : (s.modRoute f).ctxCmd = s.ctxCmd := rfl
@[simp] theorem State.modRoute_ctxResult : (s.modRoute f).ctxResult = s.ctxResult := rfl
@[simp] theorem State.modRoute_launch : (s.modRoute f).launch = s.launch := rfl
@[simp] theorem State.modRoute_pool : (s.modRoute f).pool = s.pool := rfl
@[simp] theorem State.modRoute_rpl : (s.modRoute f).rpl = s.rpl := rfl
@[simp] theorem State.modRoute_recq : (s.modRoute f).recq = s.recq := rfl
@[simp] theorem State.modRoute_host : (s.modRoute f).host = s.host := rfl
@[simp] theorem State.modRoute_mgmt : (s.modRoute f).mgmt = s.mgmt := rfl
@[simp] theorem State.modRoute_fault : (s.modRoute f).fault = s.fault := rfl
@[simp] theorem State.modRoute_pwr : (s.modRoute f).pwr = s.pwr := rfl
@[simp] theorem State.modRoute_boot : (s.modRoute f).boot = s.boot := rfl
@[simp] theorem State.modRoute_pins : (s.modRoute f).pins = s.pins := rfl
@[simp] theorem State.modRoute_perf : (s.modRoute f).perf = s.perf := rfl
end

/-! ### modPool -/

section
variable (s : State) (f : Pool → Pool)
@[simp] theorem State.modPool_pending : (s.modPool f).pending = s.pending := rfl
@[simp] theorem State.modPool_freeCtr : (s.modPool f).freeCtr = s.freeCtr := rfl
@[simp] theorem State.modPool_out : (s.modPool f).out = s.out := rfl
@[simp] theorem State.modPool_clk : (s.modPool f).clk = s.clk := rfl
@[simp] theorem State.modPool_regs : (s.modPool f).regs = s.regs := rfl
@[simp] theorem State.modPool_latches : (s.modPool f).latches = s.latches := rfl
@[simp] theorem State.modPool_heldLow : (s.modPool f).heldLow = s.heldLow := rfl
@[simp] theorem State.modPool_sw : (s.modPool f).sw = s.sw := rfl
@[simp] theorem State.modPool_route : (s.modPool f).route = s.route := rfl
@[simp] theorem State.modPool_ports : (s.modPool f).ports = s.ports := rfl
@[simp] theorem State.modPool_lanes : (s.modPool f).lanes = s.lanes := rfl
@[simp] theorem State.modPool_coll : (s.modPool f).coll = s.coll := rfl
@[simp] theorem State.modPool_benches : (s.modPool f).benches = s.benches := rfl
@[simp] theorem State.modPool_cores : (s.modPool f).cores = s.cores := rfl
@[simp] theorem State.modPool_ls : (s.modPool f).ls = s.ls := rfl
@[simp] theorem State.modPool_is : (s.modPool f).is = s.is := rfl
@[simp] theorem State.modPool_badWords : (s.modPool f).badWords = s.badWords := rfl
@[simp] theorem State.modPool_ctxs : (s.modPool f).ctxs = s.ctxs := rfl
@[simp] theorem State.modPool_ctxCmd : (s.modPool f).ctxCmd = s.ctxCmd := rfl
@[simp] theorem State.modPool_ctxResult : (s.modPool f).ctxResult = s.ctxResult := rfl
@[simp] theorem State.modPool_launch : (s.modPool f).launch = s.launch := rfl
@[simp] theorem State.modPool_pool : (s.modPool f).pool = f s.pool := rfl
@[simp] theorem State.modPool_rpl : (s.modPool f).rpl = s.rpl := rfl
@[simp] theorem State.modPool_recq : (s.modPool f).recq = s.recq := rfl
@[simp] theorem State.modPool_host : (s.modPool f).host = s.host := rfl
@[simp] theorem State.modPool_mgmt : (s.modPool f).mgmt = s.mgmt := rfl
@[simp] theorem State.modPool_fault : (s.modPool f).fault = s.fault := rfl
@[simp] theorem State.modPool_pwr : (s.modPool f).pwr = s.pwr := rfl
@[simp] theorem State.modPool_boot : (s.modPool f).boot = s.boot := rfl
@[simp] theorem State.modPool_pins : (s.modPool f).pins = s.pins := rfl
@[simp] theorem State.modPool_perf : (s.modPool f).perf = s.perf := rfl
end

/-! ### modMem -/

section
variable (s : State) (k : Nat) (f : MemCtl → MemCtl)
@[simp] theorem State.modMem_pending : (s.modMem k f).pending = s.pending := rfl
@[simp] theorem State.modMem_freeCtr : (s.modMem k f).freeCtr = s.freeCtr := rfl
@[simp] theorem State.modMem_out : (s.modMem k f).out = s.out := rfl
@[simp] theorem State.modMem_clk : (s.modMem k f).clk = s.clk := rfl
@[simp] theorem State.modMem_regs : (s.modMem k f).regs = s.regs := rfl
@[simp] theorem State.modMem_latches : (s.modMem k f).latches = s.latches := rfl
@[simp] theorem State.modMem_heldLow : (s.modMem k f).heldLow = s.heldLow := rfl
@[simp] theorem State.modMem_sw : (s.modMem k f).sw = s.sw := rfl
@[simp] theorem State.modMem_route : (s.modMem k f).route = s.route := rfl
@[simp] theorem State.modMem_ports : (s.modMem k f).ports = s.ports := rfl
@[simp] theorem State.modMem_lanes : (s.modMem k f).lanes = s.lanes := rfl
@[simp] theorem State.modMem_coll : (s.modMem k f).coll = s.coll := rfl
@[simp] theorem State.modMem_benches : (s.modMem k f).benches = s.benches := rfl
@[simp] theorem State.modMem_cores : (s.modMem k f).cores = s.cores := rfl
@[simp] theorem State.modMem_ls : (s.modMem k f).ls = s.ls := rfl
@[simp] theorem State.modMem_is : (s.modMem k f).is = s.is := rfl
@[simp] theorem State.modMem_badWords : (s.modMem k f).badWords = s.badWords := rfl
@[simp] theorem State.modMem_ctxs : (s.modMem k f).ctxs = s.ctxs := rfl
@[simp] theorem State.modMem_ctxCmd : (s.modMem k f).ctxCmd = s.ctxCmd := rfl
@[simp] theorem State.modMem_ctxResult : (s.modMem k f).ctxResult = s.ctxResult := rfl
@[simp] theorem State.modMem_launch : (s.modMem k f).launch = s.launch := rfl
@[simp] theorem State.modMem_rpl : (s.modMem k f).rpl = s.rpl := rfl
@[simp] theorem State.modMem_recq : (s.modMem k f).recq = s.recq := rfl
@[simp] theorem State.modMem_host : (s.modMem k f).host = s.host := rfl
@[simp] theorem State.modMem_mgmt : (s.modMem k f).mgmt = s.mgmt := rfl
@[simp] theorem State.modMem_fault : (s.modMem k f).fault = s.fault := rfl
@[simp] theorem State.modMem_pwr : (s.modMem k f).pwr = s.pwr := rfl
@[simp] theorem State.modMem_boot : (s.modMem k f).boot = s.boot := rfl
@[simp] theorem State.modMem_pins : (s.modMem k f).pins = s.pins := rfl
@[simp] theorem State.modMem_perf : (s.modMem k f).perf = s.perf := rfl
end

/-! ### modLaunch -/

section
variable (s : State) (f : Launch → Launch)
@[simp] theorem State.modLaunch_pending : (s.modLaunch f).pending = s.pending := rfl
@[simp] theorem State.modLaunch_freeCtr : (s.modLaunch f).freeCtr = s.freeCtr := rfl
@[simp] theorem State.modLaunch_out : (s.modLaunch f).out = s.out := rfl
@[simp] theorem State.modLaunch_clk : (s.modLaunch f).clk = s.clk := rfl
@[simp] theorem State.modLaunch_regs : (s.modLaunch f).regs = s.regs := rfl
@[simp] theorem State.modLaunch_latches : (s.modLaunch f).latches = s.latches := rfl
@[simp] theorem State.modLaunch_heldLow : (s.modLaunch f).heldLow = s.heldLow := rfl
@[simp] theorem State.modLaunch_sw : (s.modLaunch f).sw = s.sw := rfl
@[simp] theorem State.modLaunch_route : (s.modLaunch f).route = s.route := rfl
@[simp] theorem State.modLaunch_ports : (s.modLaunch f).ports = s.ports := rfl
@[simp] theorem State.modLaunch_lanes : (s.modLaunch f).lanes = s.lanes := rfl
@[simp] theorem State.modLaunch_coll : (s.modLaunch f).coll = s.coll := rfl
@[simp] theorem State.modLaunch_benches : (s.modLaunch f).benches = s.benches := rfl
@[simp] theorem State.modLaunch_cores : (s.modLaunch f).cores = s.cores := rfl
@[simp] theorem State.modLaunch_ls : (s.modLaunch f).ls = s.ls := rfl
@[simp] theorem State.modLaunch_is : (s.modLaunch f).is = s.is := rfl
@[simp] theorem State.modLaunch_badWords : (s.modLaunch f).badWords = s.badWords := rfl
@[simp] theorem State.modLaunch_ctxs : (s.modLaunch f).ctxs = s.ctxs := rfl
@[simp] theorem State.modLaunch_ctxCmd : (s.modLaunch f).ctxCmd = s.ctxCmd := rfl
@[simp] theorem State.modLaunch_ctxResult : (s.modLaunch f).ctxResult = s.ctxResult := rfl
@[simp] theorem State.modLaunch_launch : (s.modLaunch f).launch = f s.launch := rfl
@[simp] theorem State.modLaunch_pool : (s.modLaunch f).pool = s.pool := rfl
@[simp] theorem State.modLaunch_rpl : (s.modLaunch f).rpl = s.rpl := rfl
@[simp] theorem State.modLaunch_recq : (s.modLaunch f).recq = s.recq := rfl
@[simp] theorem State.modLaunch_host : (s.modLaunch f).host = s.host := rfl
@[simp] theorem State.modLaunch_mgmt : (s.modLaunch f).mgmt = s.mgmt := rfl
@[simp] theorem State.modLaunch_fault : (s.modLaunch f).fault = s.fault := rfl
@[simp] theorem State.modLaunch_pwr : (s.modLaunch f).pwr = s.pwr := rfl
@[simp] theorem State.modLaunch_boot : (s.modLaunch f).boot = s.boot := rfl
@[simp] theorem State.modLaunch_pins : (s.modLaunch f).pins = s.pins := rfl
@[simp] theorem State.modLaunch_perf : (s.modLaunch f).perf = s.perf := rfl
end

/-! ### modSw -/

section
variable (s : State) (f : Switch → Switch)
@[simp] theorem State.modSw_pending : (s.modSw f).pending = s.pending := rfl
@[simp] theorem State.modSw_freeCtr : (s.modSw f).freeCtr = s.freeCtr := rfl
@[simp] theorem State.modSw_out : (s.modSw f).out = s.out := rfl
@[simp] theorem State.modSw_clk : (s.modSw f).clk = s.clk := rfl
@[simp] theorem State.modSw_regs : (s.modSw f).regs = s.regs := rfl
@[simp] theorem State.modSw_latches : (s.modSw f).latches = s.latches := rfl
@[simp] theorem State.modSw_heldLow : (s.modSw f).heldLow = s.heldLow := rfl
@[simp] theorem State.modSw_sw : (s.modSw f).sw = f s.sw := rfl
@[simp] theorem State.modSw_route : (s.modSw f).route = s.route := rfl
@[simp] theorem State.modSw_ports : (s.modSw f).ports = s.ports := rfl
@[simp] theorem State.modSw_lanes : (s.modSw f).lanes = s.lanes := rfl
@[simp] theorem State.modSw_coll : (s.modSw f).coll = s.coll := rfl
@[simp] theorem State.modSw_benches : (s.modSw f).benches = s.benches := rfl
@[simp] theorem State.modSw_cores : (s.modSw f).cores = s.cores := rfl
@[simp] theorem State.modSw_ls : (s.modSw f).ls = s.ls := rfl
@[simp] theorem State.modSw_is : (s.modSw f).is = s.is := rfl
@[simp] theorem State.modSw_badWords : (s.modSw f).badWords = s.badWords := rfl
@[simp] theorem State.modSw_ctxs : (s.modSw f).ctxs = s.ctxs := rfl
@[simp] theorem State.modSw_ctxCmd : (s.modSw f).ctxCmd = s.ctxCmd := rfl
@[simp] theorem State.modSw_ctxResult : (s.modSw f).ctxResult = s.ctxResult := rfl
@[simp] theorem State.modSw_launch : (s.modSw f).launch = s.launch := rfl
@[simp] theorem State.modSw_pool : (s.modSw f).pool = s.pool := rfl
@[simp] theorem State.modSw_rpl : (s.modSw f).rpl = s.rpl := rfl
@[simp] theorem State.modSw_recq : (s.modSw f).recq = s.recq := rfl
@[simp] theorem State.modSw_host : (s.modSw f).host = s.host := rfl
@[simp] theorem State.modSw_mgmt : (s.modSw f).mgmt = s.mgmt := rfl
@[simp] theorem State.modSw_fault : (s.modSw f).fault = s.fault := rfl
@[simp] theorem State.modSw_pwr : (s.modSw f).pwr = s.pwr := rfl
@[simp] theorem State.modSw_boot : (s.modSw f).boot = s.boot := rfl
@[simp] theorem State.modSw_pins : (s.modSw f).pins = s.pins := rfl
@[simp] theorem State.modSw_perf : (s.modSw f).perf = s.perf := rfl
end

/-! ### bumpBy -/

section
variable (s : State) (o n : Nat)
@[simp] theorem State.bumpBy_pending : (s.bumpBy o n).pending = s.pending := rfl
@[simp] theorem State.bumpBy_freeCtr : (s.bumpBy o n).freeCtr = s.freeCtr := rfl
@[simp] theorem State.bumpBy_out : (s.bumpBy o n).out = s.out := rfl
@[simp] theorem State.bumpBy_clk : (s.bumpBy o n).clk = s.clk := rfl
@[simp] theorem State.bumpBy_latches : (s.bumpBy o n).latches = s.latches := rfl
@[simp] theorem State.bumpBy_heldLow : (s.bumpBy o n).heldLow = s.heldLow := rfl
@[simp] theorem State.bumpBy_sw : (s.bumpBy o n).sw = s.sw := rfl
@[simp] theorem State.bumpBy_route : (s.bumpBy o n).route = s.route := rfl
@[simp] theorem State.bumpBy_ports : (s.bumpBy o n).ports = s.ports := rfl
@[simp] theorem State.bumpBy_lanes : (s.bumpBy o n).lanes = s.lanes := rfl
@[simp] theorem State.bumpBy_coll : (s.bumpBy o n).coll = s.coll := rfl
@[simp] theorem State.bumpBy_benches : (s.bumpBy o n).benches = s.benches := rfl
@[simp] theorem State.bumpBy_cores : (s.bumpBy o n).cores = s.cores := rfl
@[simp] theorem State.bumpBy_ls : (s.bumpBy o n).ls = s.ls := rfl
@[simp] theorem State.bumpBy_is : (s.bumpBy o n).is = s.is := rfl
@[simp] theorem State.bumpBy_badWords : (s.bumpBy o n).badWords = s.badWords := rfl
@[simp] theorem State.bumpBy_ctxs : (s.bumpBy o n).ctxs = s.ctxs := rfl
@[simp] theorem State.bumpBy_ctxCmd : (s.bumpBy o n).ctxCmd = s.ctxCmd := rfl
@[simp] theorem State.bumpBy_ctxResult : (s.bumpBy o n).ctxResult = s.ctxResult := rfl
@[simp] theorem State.bumpBy_launch : (s.bumpBy o n).launch = s.launch := rfl
@[simp] theorem State.bumpBy_pool : (s.bumpBy o n).pool = s.pool := rfl
@[simp] theorem State.bumpBy_rpl : (s.bumpBy o n).rpl = s.rpl := rfl
@[simp] theorem State.bumpBy_recq : (s.bumpBy o n).recq = s.recq := rfl
@[simp] theorem State.bumpBy_host : (s.bumpBy o n).host = s.host := rfl
@[simp] theorem State.bumpBy_mgmt : (s.bumpBy o n).mgmt = s.mgmt := rfl
@[simp] theorem State.bumpBy_fault : (s.bumpBy o n).fault = s.fault := rfl
@[simp] theorem State.bumpBy_pwr : (s.bumpBy o n).pwr = s.pwr := rfl
@[simp] theorem State.bumpBy_boot : (s.bumpBy o n).boot = s.boot := rfl
@[simp] theorem State.bumpBy_pins : (s.bumpBy o n).pins = s.pins := rfl
@[simp] theorem State.bumpBy_perf : (s.bumpBy o n).perf = s.perf := rfl
end

/-! ### bump -/

section
variable (s : State) (o : Nat)
@[simp] theorem State.bump_pending : (s.bump o).pending = s.pending := rfl
@[simp] theorem State.bump_freeCtr : (s.bump o).freeCtr = s.freeCtr := rfl
@[simp] theorem State.bump_out : (s.bump o).out = s.out := rfl
@[simp] theorem State.bump_clk : (s.bump o).clk = s.clk := rfl
@[simp] theorem State.bump_latches : (s.bump o).latches = s.latches := rfl
@[simp] theorem State.bump_heldLow : (s.bump o).heldLow = s.heldLow := rfl
@[simp] theorem State.bump_sw : (s.bump o).sw = s.sw := rfl
@[simp] theorem State.bump_route : (s.bump o).route = s.route := rfl
@[simp] theorem State.bump_ports : (s.bump o).ports = s.ports := rfl
@[simp] theorem State.bump_lanes : (s.bump o).lanes = s.lanes := rfl
@[simp] theorem State.bump_coll : (s.bump o).coll = s.coll := rfl
@[simp] theorem State.bump_benches : (s.bump o).benches = s.benches := rfl
@[simp] theorem State.bump_cores : (s.bump o).cores = s.cores := rfl
@[simp] theorem State.bump_ls : (s.bump o).ls = s.ls := rfl
@[simp] theorem State.bump_is : (s.bump o).is = s.is := rfl
@[simp] theorem State.bump_badWords : (s.bump o).badWords = s.badWords := rfl
@[simp] theorem State.bump_ctxs : (s.bump o).ctxs = s.ctxs := rfl
@[simp] theorem State.bump_ctxCmd : (s.bump o).ctxCmd = s.ctxCmd := rfl
@[simp] theorem State.bump_ctxResult : (s.bump o).ctxResult = s.ctxResult := rfl
@[simp] theorem State.bump_launch : (s.bump o).launch = s.launch := rfl
@[simp] theorem State.bump_pool : (s.bump o).pool = s.pool := rfl
@[simp] theorem State.bump_rpl : (s.bump o).rpl = s.rpl := rfl
@[simp] theorem State.bump_recq : (s.bump o).recq = s.recq := rfl
@[simp] theorem State.bump_host : (s.bump o).host = s.host := rfl
@[simp] theorem State.bump_mgmt : (s.bump o).mgmt = s.mgmt := rfl
@[simp] theorem State.bump_fault : (s.bump o).fault = s.fault := rfl
@[simp] theorem State.bump_pwr : (s.bump o).pwr = s.pwr := rfl
@[simp] theorem State.bump_boot : (s.bump o).boot = s.boot := rfl
@[simp] theorem State.bump_pins : (s.bump o).pins = s.pins := rfl
@[simp] theorem State.bump_perf : (s.bump o).perf = s.perf := rfl
end

/-! ### bump64 -/

section
variable (s : State) (o n : Nat)
@[simp] theorem State.bump64_pending : (s.bump64 o n).pending = s.pending := rfl
@[simp] theorem State.bump64_freeCtr : (s.bump64 o n).freeCtr = s.freeCtr := rfl
@[simp] theorem State.bump64_out : (s.bump64 o n).out = s.out := rfl
@[simp] theorem State.bump64_clk : (s.bump64 o n).clk = s.clk := rfl
@[simp] theorem State.bump64_latches : (s.bump64 o n).latches = s.latches := rfl
@[simp] theorem State.bump64_heldLow : (s.bump64 o n).heldLow = s.heldLow := rfl
@[simp] theorem State.bump64_sw : (s.bump64 o n).sw = s.sw := rfl
@[simp] theorem State.bump64_route : (s.bump64 o n).route = s.route := rfl
@[simp] theorem State.bump64_ports : (s.bump64 o n).ports = s.ports := rfl
@[simp] theorem State.bump64_lanes : (s.bump64 o n).lanes = s.lanes := rfl
@[simp] theorem State.bump64_coll : (s.bump64 o n).coll = s.coll := rfl
@[simp] theorem State.bump64_benches : (s.bump64 o n).benches = s.benches := rfl
@[simp] theorem State.bump64_cores : (s.bump64 o n).cores = s.cores := rfl
@[simp] theorem State.bump64_ls : (s.bump64 o n).ls = s.ls := rfl
@[simp] theorem State.bump64_is : (s.bump64 o n).is = s.is := rfl
@[simp] theorem State.bump64_badWords : (s.bump64 o n).badWords = s.badWords := rfl
@[simp] theorem State.bump64_ctxs : (s.bump64 o n).ctxs = s.ctxs := rfl
@[simp] theorem State.bump64_ctxCmd : (s.bump64 o n).ctxCmd = s.ctxCmd := rfl
@[simp] theorem State.bump64_ctxResult : (s.bump64 o n).ctxResult = s.ctxResult := rfl
@[simp] theorem State.bump64_launch : (s.bump64 o n).launch = s.launch := rfl
@[simp] theorem State.bump64_pool : (s.bump64 o n).pool = s.pool := rfl
@[simp] theorem State.bump64_rpl : (s.bump64 o n).rpl = s.rpl := rfl
@[simp] theorem State.bump64_recq : (s.bump64 o n).recq = s.recq := rfl
@[simp] theorem State.bump64_host : (s.bump64 o n).host = s.host := rfl
@[simp] theorem State.bump64_mgmt : (s.bump64 o n).mgmt = s.mgmt := rfl
@[simp] theorem State.bump64_fault : (s.bump64 o n).fault = s.fault := rfl
@[simp] theorem State.bump64_pwr : (s.bump64 o n).pwr = s.pwr := rfl
@[simp] theorem State.bump64_boot : (s.bump64 o n).boot = s.boot := rfl
@[simp] theorem State.bump64_pins : (s.bump64 o n).pins = s.pins := rfl
@[simp] theorem State.bump64_perf : (s.bump64 o n).perf = s.perf := rfl
end

/-! ### Reading back -/

theorem State.port_modPort (s : State) (k j : Nat) (f : Port → Port) :
    (s.modPort k f).port j = if j = k then f (s.port k) else s.port j :=
  sget_smod ({} : Port) s.ports k j f
@[simp] theorem State.port_modPort_same (s : State) (k : Nat) (f : Port → Port) :
    (s.modPort k f).port k = f (s.port k) := by rw [State.port_modPort, if_pos rfl]
theorem State.lane_modLane (s : State) (k j : Nat) (f : Lane → Lane) :
    (s.modLane k f).lane j = if j = k then f (s.lane k) else s.lane j :=
  sget_smod ({} : Lane) s.lanes k j f
@[simp] theorem State.lane_modLane_same (s : State) (k : Nat) (f : Lane → Lane) :
    (s.modLane k f).lane k = f (s.lane k) := by rw [State.lane_modLane, if_pos rfl]
theorem State.bench_modBench (s : State) (k j : Nat) (f : Bench → Bench) :
    (s.modBench k f).bench j = if j = k then f (s.bench k) else s.bench j :=
  sget_smod ({} : Bench) s.benches k j f
@[simp] theorem State.bench_modBench_same (s : State) (k : Nat) (f : Bench → Bench) :
    (s.modBench k f).bench k = f (s.bench k) := by rw [State.bench_modBench, if_pos rfl]
theorem State.core_modCore (s : State) (k j : Nat) (f : Core → Core) :
    (s.modCore k f).core j = if j = k then f (s.core k) else s.core j :=
  sget_smod ({} : Core) s.cores k j f
@[simp] theorem State.core_modCore_same (s : State) (k : Nat) (f : Core → Core) :
    (s.modCore k f).core k = f (s.core k) := by rw [State.core_modCore, if_pos rfl]
theorem State.ctx_modCtx (s : State) (k j : Nat) (f : Ctx → Ctx) :
    (s.modCtx k f).ctx j = if j = k then f (s.ctx k) else s.ctx j :=
  sget_smod ({} : Ctx) s.ctxs k j f
@[simp] theorem State.ctx_modCtx_same (s : State) (k : Nat) (f : Ctx → Ctx) :
    (s.modCtx k f).ctx k = f (s.ctx k) := by rw [State.ctx_modCtx, if_pos rfl]
/-- A register set reads as set. -/
@[simp] theorem State.reg_setReg_same (s : State) (o : Nat) (v : W64) : (s.setReg o v).reg o = v :=
  sget_sset_same _ _ _ _
/-- Setting a register leaves every other alone. -/
theorem State.reg_setReg_ne (s : State) {o j : Nat} (v : W64) (h : j ≠ o) : (s.setReg o v).reg j = s.reg j :=
  sget_sset_ne _ _ _ _ h
theorem State.reg_setReg (s : State) (o j : Nat) (v : W64) :
    (s.setReg o v).reg j = if j = o then v else s.reg j := by
  split
  · subst_vars; simp
  · exact State.reg_setReg_ne s v ‹_›
@[simp] theorem State.reg_emit (s : State) (e : Emit) (j : Nat) : (s.emit e).reg j = s.reg j := rfl
@[simp] theorem State.port_emit (s : State) (e : Emit) (j : Nat) : (s.emit e).port j = s.port j := rfl
@[simp] theorem State.lane_emit (s : State) (e : Emit) (j : Nat) : (s.emit e).lane j = s.lane j := rfl
@[simp] theorem State.bench_emit (s : State) (e : Emit) (j : Nat) : (s.emit e).bench j = s.bench j := rfl
@[simp] theorem State.core_emit (s : State) (e : Emit) (j : Nat) : (s.emit e).core j = s.core j := rfl
@[simp] theorem State.ctx_emit (s : State) (e : Emit) (j : Nat) : (s.emit e).ctx j = s.ctx j := rfl
@[simp] theorem State.port_setReg (s : State) (o : Nat) (v : W64) (j : Nat) : (s.setReg o v).port j = s.port j := rfl
@[simp] theorem State.lane_setReg (s : State) (o : Nat) (v : W64) (j : Nat) : (s.setReg o v).lane j = s.lane j := rfl
@[simp] theorem State.bench_setReg (s : State) (o : Nat) (v : W64) (j : Nat) : (s.setReg o v).bench j = s.bench j := rfl
@[simp] theorem State.core_setReg (s : State) (o : Nat) (v : W64) (j : Nat) : (s.setReg o v).core j = s.core j := rfl
@[simp] theorem State.ctx_setReg (s : State) (o : Nat) (v : W64) (j : Nat) : (s.setReg o v).ctx j = s.ctx j := rfl
@[simp] theorem State.reg_modPort (s : State) (k : Nat) (f : Port → Port) (j : Nat) : (s.modPort k f).reg j = s.reg j := rfl
@[simp] theorem State.lane_modPort (s : State) (k : Nat) (f : Port → Port) (j : Nat) : (s.modPort k f).lane j = s.lane j := rfl
@[simp] theorem State.bench_modPort (s : State) (k : Nat) (f : Port → Port) (j : Nat) : (s.modPort k f).bench j = s.bench j := rfl
@[simp] theorem State.core_modPort (s : State) (k : Nat) (f : Port → Port) (j : Nat) : (s.modPort k f).core j = s.core j := rfl
@[simp] theorem State.ctx_modPort (s : State) (k : Nat) (f : Port → Port) (j : Nat) : (s.modPort k f).ctx j = s.ctx j := rfl
@[simp] theorem State.reg_modLane (s : State) (k : Nat) (f : Lane → Lane) (j : Nat) : (s.modLane k f).reg j = s.reg j := rfl
@[simp] theorem State.port_modLane (s : State) (k : Nat) (f : Lane → Lane) (j : Nat) : (s.modLane k f).port j = s.port j := rfl
@[simp] theorem State.bench_modLane (s : State) (k : Nat) (f : Lane → Lane) (j : Nat) : (s.modLane k f).bench j = s.bench j := rfl
@[simp] theorem State.core_modLane (s : State) (k : Nat) (f : Lane → Lane) (j : Nat) : (s.modLane k f).core j = s.core j := rfl
@[simp] theorem State.ctx_modLane (s : State) (k : Nat) (f : Lane → Lane) (j : Nat) : (s.modLane k f).ctx j = s.ctx j := rfl
@[simp] theorem State.reg_modBench (s : State) (k : Nat) (f : Bench → Bench) (j : Nat) : (s.modBench k f).reg j = s.reg j := rfl
@[simp] theorem State.port_modBench (s : State) (k : Nat) (f : Bench → Bench) (j : Nat) : (s.modBench k f).port j = s.port j := rfl
@[simp] theorem State.lane_modBench (s : State) (k : Nat) (f : Bench → Bench) (j : Nat) : (s.modBench k f).lane j = s.lane j := rfl
@[simp] theorem State.core_modBench (s : State) (k : Nat) (f : Bench → Bench) (j : Nat) : (s.modBench k f).core j = s.core j := rfl
@[simp] theorem State.ctx_modBench (s : State) (k : Nat) (f : Bench → Bench) (j : Nat) : (s.modBench k f).ctx j = s.ctx j := rfl
@[simp] theorem State.reg_modCore (s : State) (k : Nat) (f : Core → Core) (j : Nat) : (s.modCore k f).reg j = s.reg j := rfl
@[simp] theorem State.port_modCore (s : State) (k : Nat) (f : Core → Core) (j : Nat) : (s.modCore k f).port j = s.port j := rfl
@[simp] theorem State.lane_modCore (s : State) (k : Nat) (f : Core → Core) (j : Nat) : (s.modCore k f).lane j = s.lane j := rfl
@[simp] theorem State.bench_modCore (s : State) (k : Nat) (f : Core → Core) (j : Nat) : (s.modCore k f).bench j = s.bench j := rfl
@[simp] theorem State.ctx_modCore (s : State) (k : Nat) (f : Core → Core) (j : Nat) : (s.modCore k f).ctx j = s.ctx j := rfl
@[simp] theorem State.reg_modCtx (s : State) (k : Nat) (f : Ctx → Ctx) (j : Nat) : (s.modCtx k f).reg j = s.reg j := rfl
@[simp] theorem State.port_modCtx (s : State) (k : Nat) (f : Ctx → Ctx) (j : Nat) : (s.modCtx k f).port j = s.port j := rfl
@[simp] theorem State.lane_modCtx (s : State) (k : Nat) (f : Ctx → Ctx) (j : Nat) : (s.modCtx k f).lane j = s.lane j := rfl
@[simp] theorem State.bench_modCtx (s : State) (k : Nat) (f : Ctx → Ctx) (j : Nat) : (s.modCtx k f).bench j = s.bench j := rfl
@[simp] theorem State.core_modCtx (s : State) (k : Nat) (f : Ctx → Ctx) (j : Nat) : (s.modCtx k f).core j = s.core j := rfl
@[simp] theorem State.reg_modRpl (s : State) (k : Nat) (f : Rpl → Rpl) (j : Nat) : (s.modRpl k f).reg j = s.reg j := rfl
@[simp] theorem State.port_modRpl (s : State) (k : Nat) (f : Rpl → Rpl) (j : Nat) : (s.modRpl k f).port j = s.port j := rfl
@[simp] theorem State.lane_modRpl (s : State) (k : Nat) (f : Rpl → Rpl) (j : Nat) : (s.modRpl k f).lane j = s.lane j := rfl
@[simp] theorem State.bench_modRpl (s : State) (k : Nat) (f : Rpl → Rpl) (j : Nat) : (s.modRpl k f).bench j = s.bench j := rfl
@[simp] theorem State.core_modRpl (s : State) (k : Nat) (f : Rpl → Rpl) (j : Nat) : (s.modRpl k f).core j = s.core j := rfl
@[simp] theorem State.ctx_modRpl (s : State) (k : Nat) (f : Rpl → Rpl) (j : Nat) : (s.modRpl k f).ctx j = s.ctx j := rfl
@[simp] theorem State.reg_modPwr (s : State) (f : Power → Power) (j : Nat) : (s.modPwr f).reg j = s.reg j := rfl
@[simp] theorem State.port_modPwr (s : State) (f : Power → Power) (j : Nat) : (s.modPwr f).port j = s.port j := rfl
@[simp] theorem State.lane_modPwr (s : State) (f : Power → Power) (j : Nat) : (s.modPwr f).lane j = s.lane j := rfl
@[simp] theorem State.bench_modPwr (s : State) (f : Power → Power) (j : Nat) : (s.modPwr f).bench j = s.bench j := rfl
@[simp] theorem State.core_modPwr (s : State) (f : Power → Power) (j : Nat) : (s.modPwr f).core j = s.core j := rfl
@[simp] theorem State.ctx_modPwr (s : State) (f : Power → Power) (j : Nat) : (s.modPwr f).ctx j = s.ctx j := rfl
@[simp] theorem State.reg_modFault (s : State) (f : FaultUnit → FaultUnit) (j : Nat) : (s.modFault f).reg j = s.reg j := rfl
@[simp] theorem State.port_modFault (s : State) (f : FaultUnit → FaultUnit) (j : Nat) : (s.modFault f).port j = s.port j := rfl
@[simp] theorem State.lane_modFault (s : State) (f : FaultUnit → FaultUnit) (j : Nat) : (s.modFault f).lane j = s.lane j := rfl
@[simp] theorem State.bench_modFault (s : State) (f : FaultUnit → FaultUnit) (j : Nat) : (s.modFault f).bench j = s.bench j := rfl
@[simp] theorem State.core_modFault (s : State) (f : FaultUnit → FaultUnit) (j : Nat) : (s.modFault f).core j = s.core j := rfl
@[simp] theorem State.ctx_modFault (s : State) (f : FaultUnit → FaultUnit) (j : Nat) : (s.modFault f).ctx j = s.ctx j := rfl
@[simp] theorem State.reg_modHost (s : State) (f : HostIf → HostIf) (j : Nat) : (s.modHost f).reg j = s.reg j := rfl
@[simp] theorem State.port_modHost (s : State) (f : HostIf → HostIf) (j : Nat) : (s.modHost f).port j = s.port j := rfl
@[simp] theorem State.lane_modHost (s : State) (f : HostIf → HostIf) (j : Nat) : (s.modHost f).lane j = s.lane j := rfl
@[simp] theorem State.bench_modHost (s : State) (f : HostIf → HostIf) (j : Nat) : (s.modHost f).bench j = s.bench j := rfl
@[simp] theorem State.core_modHost (s : State) (f : HostIf → HostIf) (j : Nat) : (s.modHost f).core j = s.core j := rfl
@[simp] theorem State.ctx_modHost (s : State) (f : HostIf → HostIf) (j : Nat) : (s.modHost f).ctx j = s.ctx j := rfl
@[simp] theorem State.reg_modMgmt (s : State) (f : Mgmt → Mgmt) (j : Nat) : (s.modMgmt f).reg j = s.reg j := rfl
@[simp] theorem State.port_modMgmt (s : State) (f : Mgmt → Mgmt) (j : Nat) : (s.modMgmt f).port j = s.port j := rfl
@[simp] theorem State.lane_modMgmt (s : State) (f : Mgmt → Mgmt) (j : Nat) : (s.modMgmt f).lane j = s.lane j := rfl
@[simp] theorem State.bench_modMgmt (s : State) (f : Mgmt → Mgmt) (j : Nat) : (s.modMgmt f).bench j = s.bench j := rfl
@[simp] theorem State.core_modMgmt (s : State) (f : Mgmt → Mgmt) (j : Nat) : (s.modMgmt f).core j = s.core j := rfl
@[simp] theorem State.ctx_modMgmt (s : State) (f : Mgmt → Mgmt) (j : Nat) : (s.modMgmt f).ctx j = s.ctx j := rfl
@[simp] theorem State.reg_modBoot (s : State) (f : Boot → Boot) (j : Nat) : (s.modBoot f).reg j = s.reg j := rfl
@[simp] theorem State.port_modBoot (s : State) (f : Boot → Boot) (j : Nat) : (s.modBoot f).port j = s.port j := rfl
@[simp] theorem State.lane_modBoot (s : State) (f : Boot → Boot) (j : Nat) : (s.modBoot f).lane j = s.lane j := rfl
@[simp] theorem State.bench_modBoot (s : State) (f : Boot → Boot) (j : Nat) : (s.modBoot f).bench j = s.bench j := rfl
@[simp] theorem State.core_modBoot (s : State) (f : Boot → Boot) (j : Nat) : (s.modBoot f).core j = s.core j := rfl
@[simp] theorem State.ctx_modBoot (s : State) (f : Boot → Boot) (j : Nat) : (s.modBoot f).ctx j = s.ctx j := rfl
@[simp] theorem State.reg_modClk (s : State) (f : Clock → Clock) (j : Nat) : (s.modClk f).reg j = s.reg j := rfl
@[simp] theorem State.port_modClk (s : State) (f : Clock → Clock) (j : Nat) : (s.modClk f).port j = s.port j := rfl
@[simp] theorem State.lane_modClk (s : State) (f : Clock → Clock) (j : Nat) : (s.modClk f).lane j = s.lane j := rfl
@[simp] theorem State.bench_modClk (s : State) (f : Clock → Clock) (j : Nat) : (s.modClk f).bench j = s.bench j := rfl
@[simp] theorem State.core_modClk (s : State) (f : Clock → Clock) (j : Nat) : (s.modClk f).core j = s.core j := rfl
@[simp] theorem State.ctx_modClk (s : State) (f : Clock → Clock) (j : Nat) : (s.modClk f).ctx j = s.ctx j := rfl
@[simp] theorem State.reg_modColl (s : State) (f : Coll → Coll) (j : Nat) : (s.modColl f).reg j = s.reg j := rfl
@[simp] theorem State.port_modColl (s : State) (f : Coll → Coll) (j : Nat) : (s.modColl f).port j = s.port j := rfl
@[simp] theorem State.lane_modColl (s : State) (f : Coll → Coll) (j : Nat) : (s.modColl f).lane j = s.lane j := rfl
@[simp] theorem State.bench_modColl (s : State) (f : Coll → Coll) (j : Nat) : (s.modColl f).bench j = s.bench j := rfl
@[simp] theorem State.core_modColl (s : State) (f : Coll → Coll) (j : Nat) : (s.modColl f).core j = s.core j := rfl
@[simp] theorem State.ctx_modColl (s : State) (f : Coll → Coll) (j : Nat) : (s.modColl f).ctx j = s.ctx j := rfl
@[simp] theorem State.reg_modInst (s : State) (k : InstKey) (f : Inst → Inst) (j : Nat) : (s.modInst k f).reg j = s.reg j := rfl
@[simp] theorem State.port_modInst (s : State) (k : InstKey) (f : Inst → Inst) (j : Nat) : (s.modInst k f).port j = s.port j := rfl
@[simp] theorem State.lane_modInst (s : State) (k : InstKey) (f : Inst → Inst) (j : Nat) : (s.modInst k f).lane j = s.lane j := rfl
@[simp] theorem State.bench_modInst (s : State) (k : InstKey) (f : Inst → Inst) (j : Nat) : (s.modInst k f).bench j = s.bench j := rfl
@[simp] theorem State.core_modInst (s : State) (k : InstKey) (f : Inst → Inst) (j : Nat) : (s.modInst k f).core j = s.core j := rfl
@[simp] theorem State.ctx_modInst (s : State) (k : InstKey) (f : Inst → Inst) (j : Nat) : (s.modInst k f).ctx j = s.ctx j := rfl
@[simp] theorem State.reg_modRoute (s : State) (f : Route → Route) (j : Nat) : (s.modRoute f).reg j = s.reg j := rfl
@[simp] theorem State.port_modRoute (s : State) (f : Route → Route) (j : Nat) : (s.modRoute f).port j = s.port j := rfl
@[simp] theorem State.lane_modRoute (s : State) (f : Route → Route) (j : Nat) : (s.modRoute f).lane j = s.lane j := rfl
@[simp] theorem State.bench_modRoute (s : State) (f : Route → Route) (j : Nat) : (s.modRoute f).bench j = s.bench j := rfl
@[simp] theorem State.core_modRoute (s : State) (f : Route → Route) (j : Nat) : (s.modRoute f).core j = s.core j := rfl
@[simp] theorem State.ctx_modRoute (s : State) (f : Route → Route) (j : Nat) : (s.modRoute f).ctx j = s.ctx j := rfl
@[simp] theorem State.reg_modPool (s : State) (f : Pool → Pool) (j : Nat) : (s.modPool f).reg j = s.reg j := rfl
@[simp] theorem State.port_modPool (s : State) (f : Pool → Pool) (j : Nat) : (s.modPool f).port j = s.port j := rfl
@[simp] theorem State.lane_modPool (s : State) (f : Pool → Pool) (j : Nat) : (s.modPool f).lane j = s.lane j := rfl
@[simp] theorem State.bench_modPool (s : State) (f : Pool → Pool) (j : Nat) : (s.modPool f).bench j = s.bench j := rfl
@[simp] theorem State.core_modPool (s : State) (f : Pool → Pool) (j : Nat) : (s.modPool f).core j = s.core j := rfl
@[simp] theorem State.ctx_modPool (s : State) (f : Pool → Pool) (j : Nat) : (s.modPool f).ctx j = s.ctx j := rfl
@[simp] theorem State.reg_modMem (s : State) (k : Nat) (f : MemCtl → MemCtl) (j : Nat) : (s.modMem k f).reg j = s.reg j := rfl
@[simp] theorem State.port_modMem (s : State) (k : Nat) (f : MemCtl → MemCtl) (j : Nat) : (s.modMem k f).port j = s.port j := rfl
@[simp] theorem State.lane_modMem (s : State) (k : Nat) (f : MemCtl → MemCtl) (j : Nat) : (s.modMem k f).lane j = s.lane j := rfl
@[simp] theorem State.bench_modMem (s : State) (k : Nat) (f : MemCtl → MemCtl) (j : Nat) : (s.modMem k f).bench j = s.bench j := rfl
@[simp] theorem State.core_modMem (s : State) (k : Nat) (f : MemCtl → MemCtl) (j : Nat) : (s.modMem k f).core j = s.core j := rfl
@[simp] theorem State.ctx_modMem (s : State) (k : Nat) (f : MemCtl → MemCtl) (j : Nat) : (s.modMem k f).ctx j = s.ctx j := rfl
@[simp] theorem State.reg_modLaunch (s : State) (f : Launch → Launch) (j : Nat) : (s.modLaunch f).reg j = s.reg j := rfl
@[simp] theorem State.port_modLaunch (s : State) (f : Launch → Launch) (j : Nat) : (s.modLaunch f).port j = s.port j := rfl
@[simp] theorem State.lane_modLaunch (s : State) (f : Launch → Launch) (j : Nat) : (s.modLaunch f).lane j = s.lane j := rfl
@[simp] theorem State.bench_modLaunch (s : State) (f : Launch → Launch) (j : Nat) : (s.modLaunch f).bench j = s.bench j := rfl
@[simp] theorem State.core_modLaunch (s : State) (f : Launch → Launch) (j : Nat) : (s.modLaunch f).core j = s.core j := rfl
@[simp] theorem State.ctx_modLaunch (s : State) (f : Launch → Launch) (j : Nat) : (s.modLaunch f).ctx j = s.ctx j := rfl
@[simp] theorem State.reg_modSw (s : State) (f : Switch → Switch) (j : Nat) : (s.modSw f).reg j = s.reg j := rfl
@[simp] theorem State.port_modSw (s : State) (f : Switch → Switch) (j : Nat) : (s.modSw f).port j = s.port j := rfl
@[simp] theorem State.lane_modSw (s : State) (f : Switch → Switch) (j : Nat) : (s.modSw f).lane j = s.lane j := rfl
@[simp] theorem State.bench_modSw (s : State) (f : Switch → Switch) (j : Nat) : (s.modSw f).bench j = s.bench j := rfl
@[simp] theorem State.core_modSw (s : State) (f : Switch → Switch) (j : Nat) : (s.modSw f).core j = s.core j := rfl
@[simp] theorem State.ctx_modSw (s : State) (f : Switch → Switch) (j : Nat) : (s.modSw f).ctx j = s.ctx j := rfl
@[simp] theorem State.port_bumpBy (s : State) (o n : Nat) (j : Nat) : (s.bumpBy o n).port j = s.port j := rfl
@[simp] theorem State.lane_bumpBy (s : State) (o n : Nat) (j : Nat) : (s.bumpBy o n).lane j = s.lane j := rfl
@[simp] theorem State.bench_bumpBy (s : State) (o n : Nat) (j : Nat) : (s.bumpBy o n).bench j = s.bench j := rfl
@[simp] theorem State.core_bumpBy (s : State) (o n : Nat) (j : Nat) : (s.bumpBy o n).core j = s.core j := rfl
@[simp] theorem State.ctx_bumpBy (s : State) (o n : Nat) (j : Nat) : (s.bumpBy o n).ctx j = s.ctx j := rfl
@[simp] theorem State.port_bump (s : State) (o : Nat) (j : Nat) : (s.bump o).port j = s.port j := rfl
@[simp] theorem State.lane_bump (s : State) (o : Nat) (j : Nat) : (s.bump o).lane j = s.lane j := rfl
@[simp] theorem State.bench_bump (s : State) (o : Nat) (j : Nat) : (s.bump o).bench j = s.bench j := rfl
@[simp] theorem State.core_bump (s : State) (o : Nat) (j : Nat) : (s.bump o).core j = s.core j := rfl
@[simp] theorem State.ctx_bump (s : State) (o : Nat) (j : Nat) : (s.bump o).ctx j = s.ctx j := rfl
@[simp] theorem State.port_bump64 (s : State) (o n : Nat) (j : Nat) : (s.bump64 o n).port j = s.port j := rfl
@[simp] theorem State.lane_bump64 (s : State) (o n : Nat) (j : Nat) : (s.bump64 o n).lane j = s.lane j := rfl
@[simp] theorem State.bench_bump64 (s : State) (o n : Nat) (j : Nat) : (s.bump64 o n).bench j = s.bench j := rfl
@[simp] theorem State.core_bump64 (s : State) (o n : Nat) (j : Nat) : (s.bump64 o n).core j = s.core j := rfl
@[simp] theorem State.ctx_bump64 (s : State) (o n : Nat) (j : Nat) : (s.bump64 o n).ctx j = s.ctx j := rfl

end Sys2Proof.Machine
end

