-- ==== Sys2Proof/Laws/Core.lean ====
section
/-! SUPPORT. What issuing, retiring, raising and counting can do, once each. -/

set_option Elab.async false

namespace Sys2Proof.Machine

/-! ### Counters -/

/-- A counter changes registers alone. -/
theorem State.addCnt_eq (s : State) (blk k n : Nat) :
    s.addCnt blk k n = { s with regs := (s.addCnt blk k n).regs } := by
  unfold State.addCnt; dsimp only; split <;> rfl

theorem State.addCnt_reg (s : State) (blk k n j : Nat) (h1 : j ≠ Reg.cnt blk k) (h2 : j ≠ Reg.ovf blk) :
    (s.addCnt blk k n).reg j = s.reg j := by
  unfold State.addCnt; dsimp only
  split
  · rw [State.reg_setReg_ne _ _ h2, State.reg_setReg_ne _ _ h1]
  · rw [State.reg_setReg_ne _ _ h1]

theorem foldl_regs (f : State → Nat → State) (hf : ∀ s k, f s k = { s with regs := (f s k).regs })
    (l : List Nat) (s : State) : l.foldl f s = { s with regs := (l.foldl f s).regs } := by
  induction l generalizing s with
  | nil => rfl
  | cons k l ih =>
    rw [List.foldl_cons, ih (f s k)]
    rw [hf s k]

/-- An event counted changes registers alone. -/
theorem State.countEv_eq (s : State) (blk code n : Nat) (vc l : Option Nat) :
    s.countEv blk code n vc l = { s with regs := (s.countEv blk code n vc l).regs } := by
  unfold State.countEv
  apply foldl_regs
  intro s k
  dsimp only
  split <;> split <;> (try split) <;> first | exact State.addCnt_eq _ _ _ _ | rfl

/-- An event counted changes no register but the block's counters and its overflow bits. -/
theorem State.countEv_reg (s : State) (blk code n : Nat) (vc l : Option Nat) (j : Nat)
    (h1 : ∀ k < 8, j ≠ Reg.cnt blk k) (h2 : j ≠ Reg.ovf blk) :
    (s.countEv blk code n vc l).reg j = s.reg j := by
  unfold State.countEv
  suffices h : ∀ (ks : List Nat), (∀ k ∈ ks, k < 8) → ∀ (f : State → Nat → State),
      (∀ s, ∀ k < 8, (f s k).reg j = s.reg j) → (ks.foldl f s).reg j = s.reg j by
    apply h (List.range 8) (by simp)
    intro s k hk
    dsimp only
    split <;> split <;> (try split) <;> first | exact State.addCnt_reg _ _ _ _ _ (h1 k hk) h2 | rfl
  intro ks
  induction ks generalizing s with
  | nil => intro _ f _; rfl
  | cons k ks ih =>
    intro hks f hf
    rw [List.foldl_cons, ih (f s k) (fun x hx => hks x (by simp [hx])) f hf]
    exact hf s k (hks k (by simp))

theorem State.countEv_reg_out (s : State) (b code n : Nat) (vc l : Option Nat) (j : Nat) (h : ¬ benchCounter b j) :
    (s.countEv (128 + b) code n vc l).reg j = s.reg j := by
  apply State.countEv_reg
  · intro k hk e; apply h; unfold benchCounter Reg.cnt at *; omega
  · intro e; apply h; unfold benchCounter Reg.ovf at *; omega

section
variable (s : State) (blk code n : Nat) (vc l : Option Nat)
@[simp] theorem State.countEv_pending : (s.countEv blk code n vc l).pending = s.pending := by rw [State.countEv_eq]
@[simp] theorem State.countEv_freeCtr : (s.countEv blk code n vc l).freeCtr = s.freeCtr := by rw [State.countEv_eq]
@[simp] theorem State.countEv_out : (s.countEv blk code n vc l).out = s.out := by rw [State.countEv_eq]
@[simp] theorem State.countEv_clk : (s.countEv blk code n vc l).clk = s.clk := by rw [State.countEv_eq]
@[simp] theorem State.countEv_latches : (s.countEv blk code n vc l).latches = s.latches := by rw [State.countEv_eq]
@[simp] theorem State.countEv_heldLow : (s.countEv blk code n vc l).heldLow = s.heldLow := by rw [State.countEv_eq]
@[simp] theorem State.countEv_sw : (s.countEv blk code n vc l).sw = s.sw := by rw [State.countEv_eq]
@[simp] theorem State.countEv_route : (s.countEv blk code n vc l).route = s.route := by rw [State.countEv_eq]
@[simp] theorem State.countEv_ports : (s.countEv blk code n vc l).ports = s.ports := by rw [State.countEv_eq]
@[simp] theorem State.countEv_lanes : (s.countEv blk code n vc l).lanes = s.lanes := by rw [State.countEv_eq]
@[simp] theorem State.countEv_coll : (s.countEv blk code n vc l).coll = s.coll := by rw [State.countEv_eq]
@[simp] theorem State.countEv_benches : (s.countEv blk code n vc l).benches = s.benches := by rw [State.countEv_eq]
@[simp] theorem State.countEv_cores : (s.countEv blk code n vc l).cores = s.cores := by rw [State.countEv_eq]
@[simp] theorem State.countEv_ls : (s.countEv blk code n vc l).ls = s.ls := by rw [State.countEv_eq]
@[simp] theorem State.countEv_is : (s.countEv blk code n vc l).is = s.is := by rw [State.countEv_eq]
@[simp] theorem State.countEv_badWords : (s.countEv blk code n vc l).badWords = s.badWords := by rw [State.countEv_eq]
@[simp] theorem State.countEv_ctxs : (s.countEv blk code n vc l).ctxs = s.ctxs := by rw [State.countEv_eq]
@[simp] theorem State.countEv_ctxCmd : (s.countEv blk code n vc l).ctxCmd = s.ctxCmd := by rw [State.countEv_eq]
@[simp] theorem State.countEv_ctxResult : (s.countEv blk code n vc l).ctxResult = s.ctxResult := by rw [State.countEv_eq]
@[simp] theorem State.countEv_launch : (s.countEv blk code n vc l).launch = s.launch := by rw [State.countEv_eq]
@[simp] theorem State.countEv_pool : (s.countEv blk code n vc l).pool = s.pool := by rw [State.countEv_eq]
@[simp] theorem State.countEv_rpl : (s.countEv blk code n vc l).rpl = s.rpl := by rw [State.countEv_eq]
@[simp] theorem State.countEv_recq : (s.countEv blk code n vc l).recq = s.recq := by rw [State.countEv_eq]
@[simp] theorem State.countEv_host : (s.countEv blk code n vc l).host = s.host := by rw [State.countEv_eq]
@[simp] theorem State.countEv_mgmt : (s.countEv blk code n vc l).mgmt = s.mgmt := by rw [State.countEv_eq]
@[simp] theorem State.countEv_fault : (s.countEv blk code n vc l).fault = s.fault := by rw [State.countEv_eq]
@[simp] theorem State.countEv_pwr : (s.countEv blk code n vc l).pwr = s.pwr := by rw [State.countEv_eq]
@[simp] theorem State.countEv_boot : (s.countEv blk code n vc l).boot = s.boot := by rw [State.countEv_eq]
@[simp] theorem State.countEv_pins : (s.countEv blk code n vc l).pins = s.pins := by rw [State.countEv_eq]
@[simp] theorem State.countEv_perf : (s.countEv blk code n vc l).perf = s.perf := by rw [State.countEv_eq]
@[simp] theorem State.countEv_core (k : Nat) : (s.countEv blk code n vc l).core k = s.core k := by
  rw [State.countEv_eq]; rfl
@[simp] theorem State.countEv_bench (k : Nat) : (s.countEv blk code n vc l).bench k = s.bench k := by
  rw [State.countEv_eq]; rfl
@[simp] theorem State.countEv_port (k : Nat) : (s.countEv blk code n vc l).port k = s.port k := by
  rw [State.countEv_eq]; rfl
@[simp] theorem State.countEv_lane (k : Nat) : (s.countEv blk code n vc l).lane k = s.lane k := by
  rw [State.countEv_eq]; rfl
@[simp] theorem State.countEv_ctx (k : Nat) : (s.countEv blk code n vc l).ctx k = s.ctx k := by
  rw [State.countEv_eq]; rfl
@[simp] theorem State.countEv_now : (s.countEv blk code n vc l).now = s.now := by rw [State.countEv_eq]; rfl
end

/-! ### Issue -/

theorem issueOf_of_issues {s : State} {b : Fin 100} {c : Fin 8} {w : W64} {fam op : Nat}
    (h : Issues s b c w fam op) : s.issueOf b c fam op = some w := by
  have r := h.ready
  simp [State.issueOf, State.coreRuns, r.powered, r.awake, r.unheld, r.running, r.inImage, r.readable, r.word, r.legal,
    r.free, h.fam, h.op]

/-- A fetch changes the count of corrected errors and the errors it corrected (R196). -/
theorem State.fetched_eq (s : State) (b : Fin 100) (c : Fin 8) :
    s.fetched b c = { s with regs := (s.fetched b c).regs, badWords := (s.fetched b c).badWords } := by
  unfold State.fetched; dsimp only; split <;> rfl

/-- A fetch of a word without a corrected error changes nothing. -/
theorem State.fetched_clean (s : State) (b : Fin 100) (c : Fin 8)
    (h : s.badIn 3 (coreNo b c) (8 * (s.core (coreNo b c)).pc.toNat) 8 true = []) : s.fetched b c = s := by
  unfold State.fetched; simp [h]

/-- A fetch counts in IS_CE alone. -/
theorem State.fetched_reg (s : State) (b : Fin 100) (c : Fin 8) (off : Nat) (h : off ≠ Reg.isCe b) :
    (s.fetched b c).reg off = s.reg off := by
  unfold State.fetched; dsimp only
  split
  · rfl
  · exact State.reg_setReg_ne _ _ h

section
variable (s : State) (b : Fin 100) (c : Fin 8)
@[simp] theorem State.fetched_core (k : Nat) : (s.fetched b c).core k = s.core k := by rw [State.fetched_eq]; rfl
@[simp] theorem State.fetched_bench (k : Nat) : (s.fetched b c).bench k = s.bench k := by rw [State.fetched_eq]; rfl
@[simp] theorem State.fetched_ctx (k : Nat) : (s.fetched b c).ctx k = s.ctx k := by rw [State.fetched_eq]; rfl
@[simp] theorem State.fetched_now : (s.fetched b c).now = s.now := by rw [State.fetched_eq]; rfl
@[simp] theorem State.fetched_ls : (s.fetched b c).ls = s.ls := by rw [State.fetched_eq]
@[simp] theorem State.fetched_is : (s.fetched b c).is = s.is := by rw [State.fetched_eq]
@[simp] theorem State.fetched_pool : (s.fetched b c).pool = s.pool := by rw [State.fetched_eq]
@[simp] theorem State.fetched_coll : (s.fetched b c).coll = s.coll := by rw [State.fetched_eq]
@[simp] theorem State.fetched_ctxs : (s.fetched b c).ctxs = s.ctxs := by rw [State.fetched_eq]
@[simp] theorem State.fetched_launch : (s.fetched b c).launch = s.launch := by rw [State.fetched_eq]
@[simp] theorem State.fetched_rpl : (s.fetched b c).rpl = s.rpl := by rw [State.fetched_eq]
@[simp] theorem State.fetched_clk : (s.fetched b c).clk = s.clk := by rw [State.fetched_eq]
@[simp] theorem State.fetched_boot : (s.fetched b c).boot = s.boot := by rw [State.fetched_eq]
@[simp] theorem State.fetched_pending : (s.fetched b c).pending = s.pending := by rw [State.fetched_eq]
@[simp] theorem State.fetched_out : (s.fetched b c).out = s.out := by rw [State.fetched_eq]
end

/-- A core instruction whose guard holds has its effect. -/
theorem coreExec_fires {s : State} {b : Fin 100} {c : Fin 8} {w : W64} {fam op : Nat}
    (h : Fires s b c w fam op) (f : W64 → State → State) :
    coreExec b c fam op f s = .next (f w (s.fetched b c)) := by
  simp [coreExec, issueOf_of_issues h.issues, h.guard]

/-- A core instruction whose guard is 0 retires without an effect (R221). -/
theorem coreExec_masked {s : State} {b : Fin 100} {c : Fin 8} {w : W64} {fam op : Nat}
    (h : Issues s b c w fam op) (hg : (s.core (coreNo b c)).guard w = false) (f : W64 → State → State) :
    coreExec b c fam op f s = .next ((s.fetched b c).retire b c id) := by
  simp [coreExec, issueOf_of_issues h, hg]

/-- A lane-wise instruction that issues has its effect. -/
theorem laneExec_issues {s : State} {b : Fin 100} {c : Fin 8} {w : W64} {fam op : Nat}
    (h : Issues s b c w fam op) (f : W64 → State → State) :
    laneExec b c fam op f s = .next (f w (s.fetched b c)) := by
  simp [laneExec, issueOf_of_issues h]

/-! ### Retirement -/

/-- What retiring changes. -/
theorem State.retire_eq (s : State) (b : Fin 100) (c : Fin 8) (f : Core → Core) :
    s.retire b c f = { s with
      cores := (s.retire b c f).cores, benches := (s.retire b c f).benches, regs := (s.retire b c f).regs } := by
  unfold State.retire State.retired
  rw [State.countEv_eq]
  rfl

/-- The core after it retires: `f` keeps the program counter. -/
theorem State.retire_core (s : State) (b : Fin 100) (c : Fin 8) (f : Core → Core)
    (hp : (f (s.core (coreNo b c))).pc = (s.core (coreNo b c)).pc) :
    (s.retire b c f).core (coreNo b c) = (s.core (coreNo b c)).after (f (s.core (coreNo b c))) := by
  unfold State.retire State.retired
  rw [State.core_modBench, State.countEv_core, State.core_modCore_same]
  simp [Core.after, Core.nextPc, hp]

theorem State.retired_keeps (s : State) (b : Fin 100) (c : Fin 8) (f : Core → Core) :
    Keeps s ((s.modCore (coreNo b c) f).retired b) b c := by
  unfold State.retired
  constructor
  · constructor
    · intro k hk
      rw [State.core_modBench, State.countEv_core, State.core_modCore, if_neg hk]
    · intro i hi
      rw [State.bench_modBench, if_neg hi, State.countEv_bench]; rfl
    · intro off ho
      rw [State.reg_modBench, State.countEv_reg_out _ _ _ _ _ _ _ ho, State.reg_modCore]
  · rw [State.bench_modBench_same, State.countEv_bench]; rfl

theorem State.retire_keeps (s : State) (b : Fin 100) (c : Fin 8) (f : Core → Core) : Keeps s (s.retire b c f) b c :=
  s.retired_keeps b c _

theorem State.retire_only (s : State) (b : Fin 100) (c : Fin 8) (f : Core → Core) : OnlyCore s (s.retire b c f) b c :=
  ⟨s.retire_keeps b c f, s.retire_eq b c f⟩

/-- What retiring with a jump changes. -/
theorem State.retireTo_only (s : State) (b : Fin 100) (c : Fin 8) (f : Core → Core) (pc : Nat) :
    OnlyCore s (s.retireTo b c f pc) b c := by
  refine ⟨s.retired_keeps b c _, ?_⟩
  unfold State.retireTo State.retired
  rw [State.countEv_eq]
  rfl

theorem State.retireTo_core (s : State) (b : Fin 100) (c : Fin 8) (f : Core → Core) (pc : Nat) :
    (s.retireTo b c f pc).core (coreNo b c) = (f (s.core (coreNo b c))).jumpsTo pc := by
  unfold State.retireTo State.retired
  rw [State.core_modBench, State.countEv_core, State.core_modCore_same]
  rfl

/-- Counting an event of the bench before retiring leaves the same frame. -/
theorem OnlyCore.of_count {s t : State} {b : Fin 100} {c : Fin 8} (code n : Nat)
    (h : OnlyCore (s.countEv (128 + b.val) code n) t b c) : OnlyCore s t b c := by
  have he := State.countEv_eq s (128 + b.val) code n none none
  obtain ⟨⟨⟨h1, h3, h4⟩, h2⟩, h5⟩ := h
  refine ⟨⟨⟨?_, ?_, ?_⟩, ?_⟩, ?_⟩
  · intro k hk; rw [h1 k hk, he]; rfl
  · intro i hi; rw [h3 i hi, he]; rfl
  · intro off ho; rw [h4 off ho, State.countEv_reg_out _ _ _ _ _ _ _ ho]
  · rw [h2, he]; rfl
  · rw [h5, he]

/-! ### Registers of a core (R194) -/

@[simp] theorem Core.setS_pc (x : Core) (n : Nat) (v : W64) : (x.setS n v).pc = x.pc := by
  unfold Core.setS; split <;> rfl
@[simp] theorem Core.setV_pc (x : Core) (n : Nat) (v : W512) : (x.setV n v).pc = x.pc := rfl
@[simp] theorem Core.setP_pc (x : Core) (n : Nat) (v : W64) : (x.setP n v).pc = x.pc := by
  unfold Core.setP; split <;> rfl

end Sys2Proof.Machine
end

