-- ==== Sys2Proof/Laws/Exec.lean ====
section
/-! SUPPORT. The meaning of every command, by name. -/

set_option Elab.async false

namespace Sys2Proof.Machine

@[simp] theorem exec_powerUp (s : State) :
    exec (.powerUp) s = execPowerUp s := rfl
@[simp] theorem exec_powerOnResetRelease (s : State) :
    exec (.powerOnResetRelease) s = execPowerOnResetRelease s := rfl
@[simp] theorem exec_powerRemoval (s : State) :
    exec (.powerRemoval) s = execPowerRemoval s := rfl
@[simp] theorem exec_railFault (s : State) :
    exec (.railFault) s = execRailFault s := rfl
@[simp] theorem exec_railFaultRecovery (s : State) :
    exec (.railFaultRecovery) s = execRailFaultRecovery s := rfl
@[simp] theorem exec_fabRefclkLoss (s : State) :
    exec (.fabRefclkLoss) s = execFabRefclkLoss s := rfl
@[simp] theorem exec_fabRefclkReturn (s : State) :
    exec (.fabRefclkReturn) s = execFabRefclkReturn s := rfl
@[simp] theorem exec_cxlRefclkLoss (s : State) :
    exec (.cxlRefclkLoss) s = execCxlRefclkLoss s := rfl
@[simp] theorem exec_registerWrite r off len en v (s : State) :
    exec (.registerWrite r off len en v) s = execRegisterWrite r off len en v s := rfl
@[simp] theorem exec_readClear r off (s : State) :
    exec (.readClear r off) s = execReadClear r off s := rfl
@[simp] theorem exec_unassignedOffsetAccess r off wr (s : State) :
    exec (.unassignedOffsetAccess r off wr) s = execUnassignedOffsetAccess r off wr s := rfl
@[simp] theorem exec_lowWordRead r off (s : State) :
    exec (.lowWordRead r off) s = execLowWordRead r off s := rfl
@[simp] theorem exec_highWordRead r off (s : State) :
    exec (.highWordRead r off) s = execHighWordRead r off s := rfl
@[simp] theorem exec_lowWordWrite r off v (s : State) :
    exec (.lowWordWrite r off v) s = execLowWordWrite r off v s := rfl
@[simp] theorem exec_highWordWrite r off v (s : State) :
    exec (.highWordWrite r off v) s = execHighWordWrite r off v s := rfl
@[simp] theorem exec_heldLowWordExpiry r (s : State) :
    exec (.heldLowWordExpiry r) s = execHeldLowWordExpiry r s := rfl
@[simp] theorem exec_lockWrite r l v (s : State) :
    exec (.lockWrite r l v) s = execLockWrite r l v s := rfl
@[simp] theorem exec_ownCoordWrite r v (s : State) :
    exec (.ownCoordWrite r v) s = execOwnCoordWrite r v s := rfl
@[simp] theorem exec_headerComplete lp h (s : State) :
    exec (.headerComplete lp h) s = execHeaderComplete lp h s := rfl
@[simp] theorem exec_packetEnd lp body (s : State) :
    exec (.packetEnd lp body) s = execPacketEnd lp body s := rfl
@[simp] theorem exec_vc5MsgTimeout b src chan k (s : State) :
    exec (.vc5MsgTimeout b src chan k) s = execVc5MsgTimeout b src chan k s := rfl
@[simp] theorem exec_cellArrival lp x (s : State) :
    exec (.cellArrival lp x) s = execCellArrival lp x s := rfl
@[simp] theorem exec_reasmTimeout src vc unit (s : State) :
    exec (.reasmTimeout src vc unit) s = execReasmTimeout src vc unit s := rfl
@[simp] theorem exec_egressSelect lp obs (s : State) :
    exec (.egressSelect lp obs) s = execEgressSelect lp obs s := rfl
@[simp] theorem exec_staleDrop lp vc (s : State) :
    exec (.staleDrop lp vc) s = execStaleDrop lp vc s := rfl
@[simp] theorem exec_ctAbort lp got (s : State) :
    exec (.ctAbort lp got) s = execCtAbort lp got s := rfl
@[simp] theorem exec_bufferAudit bad (s : State) :
    exec (.bufferAudit bad) s = execBufferAudit bad s := rfl
@[simp] theorem exec_internalWriterResume (s : State) :
    exec (.internalWriterResume) s = execInternalWriterResume s := rfl
@[simp] theorem exec_creditLimitWrite r lp term vc v (s : State) :
    exec (.creditLimitWrite r lp term vc v) s = execCreditLimitWrite r lp term vc v s := rfl
@[simp] theorem exec_swapArm r (s : State) :
    exec (.swapArm r) s = execSwapArm r s := rfl
@[simp] theorem exec_swapCancel r (s : State) :
    exec (.swapCancel r) s = execSwapCancel r s := rfl
@[simp] theorem exec_swapCopy r (s : State) :
    exec (.swapCopy r) s = execSwapCopy r s := rfl
@[simp] theorem exec_copyComplete (s : State) :
    exec (.copyComplete) s = execCopyComplete s := rfl
@[simp] theorem exec_tableBankSwap (s : State) :
    exec (.tableBankSwap) s = execTableBankSwap s := rfl
@[simp] theorem exec_tableCommit r v (s : State) :
    exec (.tableCommit r v) s = execTableCommit r v s := rfl
@[simp] theorem exec_tableSweep bad ce (s : State) :
    exec (.tableSweep bad ce) s = execTableSweep bad ce s := rfl
@[simp] theorem exec_rejoinHoldEnd lp (s : State) :
    exec (.rejoinHoldEnd lp) s = execRejoinHoldEnd lp s := rfl
@[simp] theorem exec_contribArrival obs (s : State) :
    exec (.contribArrival obs) s = execContribArrival obs s := rfl
@[simp] theorem exec_openArrival (s : State) :
    exec (.openArrival) s = execOpenArrival s := rfl
@[simp] theorem exec_countArrival (s : State) :
    exec (.countArrival) s = execCountArrival s := rfl
@[simp] theorem exec_partialArrival obs (s : State) :
    exec (.partialArrival obs) s = execPartialArrival obs s := rfl
@[simp] theorem exec_upperResultArrival (s : State) :
    exec (.upperResultArrival) s = execUpperResultArrival s := rfl
@[simp] theorem exec_upperStatusArrival (s : State) :
    exec (.upperStatusArrival) s = execUpperStatusArrival s := rfl
@[simp] theorem exec_adderTake b obs (s : State) :
    exec (.adderTake b obs) s = execAdderTake b obs s := rfl
@[simp] theorem exec_resultWriteComplete k chunk (s : State) :
    exec (.resultWriteComplete k chunk) s = execResultWriteComplete k chunk s := rfl
@[simp] theorem exec_instanceTimeout k (s : State) :
    exec (.instanceTimeout k) s = execInstanceTimeout k s := rfl
@[simp] theorem exec_tombHoldExpiry k (s : State) :
    exec (.tombHoldExpiry k) s = execTombHoldExpiry k s := rfl
@[simp] theorem exec_twinHoldExpiry k chunk (s : State) :
    exec (.twinHoldExpiry k chunk) s = execTwinHoldExpiry k chunk s := rfl
@[simp] theorem exec_collEnWrite r v (s : State) :
    exec (.collEnWrite r v) s = execCollEnWrite r v s := rfl
@[simp] theorem exec_spillBaseWrite r v (s : State) :
    exec (.spillBaseWrite r v) s = execSpillBaseWrite r v s := rfl
@[simp] theorem exec_dmaDescriptorExecute b (s : State) :
    exec (.dmaDescriptorExecute b) s = execDmaDescriptorExecute b s := rfl
@[simp] theorem exec_dmaComplete b c (s : State) :
    exec (.dmaComplete b c) s = execDmaComplete b c s := rfl
@[simp] theorem exec_itemStart b c (s : State) :
    exec (.itemStart b c) s = execItemStart b c s := rfl
@[simp] theorem exec_steal id thief (s : State) :
    exec (.steal id thief) s = execSteal id thief s := rfl
@[simp] theorem exec_wardenRestart (s : State) :
    exec (.wardenRestart) s = execWardenRestart s := rfl
@[simp] theorem exec_benchSleep b demand (s : State) :
    exec (.benchSleep b demand) s = execBenchSleep b demand s := rfl
@[simp] theorem exec_benchWakeComplete b (s : State) :
    exec (.benchWakeComplete b) s = execBenchWakeComplete b s := rfl
@[simp] theorem exec_clockRampComplete b (s : State) :
    exec (.clockRampComplete b) s = execClockRampComplete b s := rfl
@[simp] theorem exec_blockWakeComplete blk (s : State) :
    exec (.blockWakeComplete blk) s = execBlockWakeComplete blk s := rfl
@[simp] theorem exec_holdAwakeWrite r b v (s : State) :
    exec (.holdAwakeWrite r b v) s = execHoldAwakeWrite r b v s := rfl
@[simp] theorem exec_instructionIllegal b c (s : State) :
    exec (.instructionIllegal b c) s = execInstructionIllegal b c s := rfl
@[simp] theorem exec_fetchBeyondLoadLimit b c (s : State) :
    exec (.fetchBeyondLoadLimit b c) s = execFetchBeyondLoadLimit b c s := rfl
@[simp] theorem exec_add b c (s : State) :
    exec (.add b c) s = execAdd b c s := rfl
@[simp] theorem exec_sub b c (s : State) :
    exec (.sub b c) s = execSub b c s := rfl
@[simp] theorem exec_and b c (s : State) :
    exec (.and b c) s = execAnd b c s := rfl
@[simp] theorem exec_or b c (s : State) :
    exec (.or b c) s = execOr b c s := rfl
@[simp] theorem exec_xor b c (s : State) :
    exec (.xor b c) s = execXor b c s := rfl
@[simp] theorem exec_shl b c (s : State) :
    exec (.shl b c) s = execShl b c s := rfl
@[simp] theorem exec_shr b c (s : State) :
    exec (.shr b c) s = execShr b c s := rfl
@[simp] theorem exec_sra b c (s : State) :
    exec (.sra b c) s = execSra b c s := rfl
@[simp] theorem exec_slt b c (s : State) :
    exec (.slt b c) s = execSlt b c s := rfl
@[simp] theorem exec_sltu b c (s : State) :
    exec (.sltu b c) s = execSltu b c s := rfl
@[simp] theorem exec_seq b c (s : State) :
    exec (.seq b c) s = execSeq b c s := rfl
@[simp] theorem exec_min b c (s : State) :
    exec (.min b c) s = execMin b c s := rfl
@[simp] theorem exec_max b c (s : State) :
    exec (.max b c) s = execMax b c s := rfl
@[simp] theorem exec_minu b c (s : State) :
    exec (.minu b c) s = execMinu b c s := rfl
@[simp] theorem exec_maxu b c (s : State) :
    exec (.maxu b c) s = execMaxu b c s := rfl
@[simp] theorem exec_mul b c (s : State) :
    exec (.mul b c) s = execMul b c s := rfl
@[simp] theorem exec_mulhs b c (s : State) :
    exec (.mulhs b c) s = execMulhs b c s := rfl
@[simp] theorem exec_mulhu b c (s : State) :
    exec (.mulhu b c) s = execMulhu b c s := rfl
@[simp] theorem exec_div b c (s : State) :
    exec (.div b c) s = execDiv b c s := rfl
@[simp] theorem exec_divu b c (s : State) :
    exec (.divu b c) s = execDivu b c s := rfl
@[simp] theorem exec_rem b c (s : State) :
    exec (.rem b c) s = execRem b c s := rfl
@[simp] theorem exec_remu b c (s : State) :
    exec (.remu b c) s = execRemu b c s := rfl
@[simp] theorem exec_popc b c (s : State) :
    exec (.popc b c) s = execPopc b c s := rfl
@[simp] theorem exec_clz b c (s : State) :
    exec (.clz b c) s = execClz b c s := rfl
@[simp] theorem exec_ctz b c (s : State) :
    exec (.ctz b c) s = execCtz b c s := rfl
@[simp] theorem exec_addi b c (s : State) :
    exec (.addi b c) s = execAddi b c s := rfl
@[simp] theorem exec_andi b c (s : State) :
    exec (.andi b c) s = execAndi b c s := rfl
@[simp] theorem exec_ori b c (s : State) :
    exec (.ori b c) s = execOri b c s := rfl
@[simp] theorem exec_xori b c (s : State) :
    exec (.xori b c) s = execXori b c s := rfl
@[simp] theorem exec_shli b c (s : State) :
    exec (.shli b c) s = execShli b c s := rfl
@[simp] theorem exec_shri b c (s : State) :
    exec (.shri b c) s = execShri b c s := rfl
@[simp] theorem exec_srai b c (s : State) :
    exec (.srai b c) s = execSrai b c s := rfl
@[simp] theorem exec_slti b c (s : State) :
    exec (.slti b c) s = execSlti b c s := rfl
@[simp] theorem exec_li b c (s : State) :
    exec (.li b c) s = execLi b c s := rfl
@[simp] theorem exec_lih b c (s : State) :
    exec (.lih b c) s = execLih b c s := rfl
@[simp] theorem exec_vadd b c (s : State) :
    exec (.vadd b c) s = execVadd b c s := rfl
@[simp] theorem exec_vsub b c (s : State) :
    exec (.vsub b c) s = execVsub b c s := rfl
@[simp] theorem exec_vmul b c (s : State) :
    exec (.vmul b c) s = execVmul b c s := rfl
@[simp] theorem exec_vfma b c (s : State) :
    exec (.vfma b c) s = execVfma b c s := rfl
@[simp] theorem exec_vmin b c (s : State) :
    exec (.vmin b c) s = execVmin b c s := rfl
@[simp] theorem exec_vmax b c (s : State) :
    exec (.vmax b c) s = execVmax b c s := rfl
@[simp] theorem exec_vadds b c (s : State) :
    exec (.vadds b c) s = execVadds b c s := rfl
@[simp] theorem exec_vsubs b c (s : State) :
    exec (.vsubs b c) s = execVsubs b c s := rfl
@[simp] theorem exec_vand b c (s : State) :
    exec (.vand b c) s = execVand b c s := rfl
@[simp] theorem exec_vor b c (s : State) :
    exec (.vor b c) s = execVor b c s := rfl
@[simp] theorem exec_vxor b c (s : State) :
    exec (.vxor b c) s = execVxor b c s := rfl
@[simp] theorem exec_vshl b c (s : State) :
    exec (.vshl b c) s = execVshl b c s := rfl
@[simp] theorem exec_vshr b c (s : State) :
    exec (.vshr b c) s = execVshr b c s := rfl
@[simp] theorem exec_vsra b c (s : State) :
    exec (.vsra b c) s = execVsra b c s := rfl
@[simp] theorem exec_vabs b c (s : State) :
    exec (.vabs b c) s = execVabs b c s := rfl
@[simp] theorem exec_vneg b c (s : State) :
    exec (.vneg b c) s = execVneg b c s := rfl
@[simp] theorem exec_vcvt b c (s : State) :
    exec (.vcvt b c) s = execVcvt b c s := rfl
@[simp] theorem exec_vcmp b c (s : State) :
    exec (.vcmp b c) s = execVcmp b c s := rfl
@[simp] theorem exec_vbcast b c (s : State) :
    exec (.vbcast b c) s = execVbcast b c s := rfl
@[simp] theorem exec_vext b c (s : State) :
    exec (.vext b c) s = execVext b c s := rfl
@[simp] theorem exec_vins b c (s : State) :
    exec (.vins b c) s = execVins b c s := rfl
@[simp] theorem exec_vperm b c (s : State) :
    exec (.vperm b c) s = execVperm b c s := rfl
@[simp] theorem exec_vrsum b c (s : State) :
    exec (.vrsum b c) s = execVrsum b c s := rfl
@[simp] theorem exec_vmov b c (s : State) :
    exec (.vmov b c) s = execVmov b c s := rfl
@[simp] theorem exec_pand b c (s : State) :
    exec (.pand b c) s = execPand b c s := rfl
@[simp] theorem exec_por b c (s : State) :
    exec (.por b c) s = execPor b c s := rfl
@[simp] theorem exec_pxor b c (s : State) :
    exec (.pxor b c) s = execPxor b c s := rfl
@[simp] theorem exec_pandn b c (s : State) :
    exec (.pandn b c) s = execPandn b c s := rfl
@[simp] theorem exec_pnot b c (s : State) :
    exec (.pnot b c) s = execPnot b c s := rfl
@[simp] theorem exec_pfroms b c (s : State) :
    exec (.pfroms b c) s = execPfroms b c s := rfl
@[simp] theorem exec_ptos b c (s : State) :
    exec (.ptos b c) s = execPtos b c s := rfl
@[simp] theorem exec_pcnt b c (s : State) :
    exec (.pcnt b c) s = execPcnt b c s := rfl
@[simp] theorem exec_pfirst b c (s : State) :
    exec (.pfirst b c) s = execPfirst b c s := rfl
@[simp] theorem exec_ld b c (s : State) :
    exec (.ld b c) s = execLd b c s := rfl
@[simp] theorem exec_lds b c (s : State) :
    exec (.lds b c) s = execLds b c s := rfl
@[simp] theorem exec_st b c (s : State) :
    exec (.st b c) s = execSt b c s := rfl
@[simp] theorem exec_vld b c (s : State) :
    exec (.vld b c) s = execVld b c s := rfl
@[simp] theorem exec_vst b c (s : State) :
    exec (.vst b c) s = execVst b c s := rfl
@[simp] theorem exec_aadd b c (s : State) :
    exec (.aadd b c) s = execAadd b c s := rfl
@[simp] theorem exec_aaddf b c (s : State) :
    exec (.aaddf b c) s = execAaddf b c s := rfl
@[simp] theorem exec_acas b c (s : State) :
    exec (.acas b c) s = execAcas b c s := rfl
@[simp] theorem exec_fence b c (s : State) :
    exec (.fence b c) s = execFence b c s := rfl
@[simp] theorem exec_fenceComplete b c (s : State) :
    exec (.fenceComplete b c) s = execFenceComplete b c s := rfl
@[simp] theorem exec_dmaq b c (s : State) :
    exec (.dmaq b c) s = execDmaq b c s := rfl
@[simp] theorem exec_poolAccessReturn b c k obs (s : State) :
    exec (.poolAccessReturn b c k obs) s = execPoolAccessReturn b c k obs s := rfl
@[simp] theorem exec_coreStallRelease b c (s : State) :
    exec (.coreStallRelease b c) s = execCoreStallRelease b c s := rfl
@[simp] theorem exec_nop b c (s : State) :
    exec (.nop b c) s = execNop b c s := rfl
@[simp] theorem exec_jmp b c (s : State) :
    exec (.jmp b c) s = execJmp b c s := rfl
@[simp] theorem exec_jal b c (s : State) :
    exec (.jal b c) s = execJal b c s := rfl
@[simp] theorem exec_jr b c (s : State) :
    exec (.jr b c) s = execJr b c s := rfl
@[simp] theorem exec_beqz b c (s : State) :
    exec (.beqz b c) s = execBeqz b c s := rfl
@[simp] theorem exec_bnez b c (s : State) :
    exec (.bnez b c) s = execBnez b c s := rfl
@[simp] theorem exec_endProg b c (s : State) :
    exec (.endProg b c) s = execEndProg b c s := rfl
@[simp] theorem exec_post b c (s : State) :
    exec (.post b c) s = execPost b c s := rfl
@[simp] theorem exec_tinc b c (s : State) :
    exec (.tinc b c) s = execTinc b c s := rfl
@[simp] theorem exec_tset b c (s : State) :
    exec (.tset b c) s = execTset b c s := rfl
@[simp] theorem exec_trd b c (s : State) :
    exec (.trd b c) s = execTrd b c s := rfl
@[simp] theorem exec_twait b c (s : State) :
    exec (.twait b c) s = execTwait b c s := rfl
@[simp] theorem exec_twaitReached b c (s : State) :
    exec (.twaitReached b c) s = execTwaitReached b c s := rfl
@[simp] theorem exec_twaitTimeout b c (s : State) :
    exec (.twaitTimeout b c) s = execTwaitTimeout b c s := rfl
@[simp] theorem exec_rdsr b c (s : State) :
    exec (.rdsr b c) s = execRdsr b c s := rfl
@[simp] theorem exec_ctrrd b c (s : State) :
    exec (.ctrrd b c) s = execCtrrd b c s := rfl
@[simp] theorem exec_rdreg b c (s : State) :
    exec (.rdreg b c) s = execRdreg b c s := rfl
@[simp] theorem exec_wrreg b c (s : State) :
    exec (.wrreg b c) s = execWrreg b c s := rfl
@[simp] theorem exec_send b c (s : State) :
    exec (.send b c) s = execSend b c s := rfl
@[simp] theorem exec_sendQueueRoom b c (s : State) :
    exec (.sendQueueRoom b c) s = execSendQueueRoom b c s := rfl
@[simp] theorem exec_sendqDepart b (s : State) :
    exec (.sendqDepart b) s = execSendqDepart b s := rfl
@[simp] theorem exec_recv b c (s : State) :
    exec (.recv b c) s = execRecv b c s := rfl
@[simp] theorem exec_recvh b c (s : State) :
    exec (.recvh b c) s = execRecvh b c s := rfl
@[simp] theorem exec_recvDeliver b c (s : State) :
    exec (.recvDeliver b c) s = execRecvDeliver b c s := rfl
@[simp] theorem exec_recvTimeout b c (s : State) :
    exec (.recvTimeout b c) s = execRecvTimeout b c s := rfl
@[simp] theorem exec_drop b c (s : State) :
    exec (.drop b c) s = execDrop b c s := rfl
@[simp] theorem exec_contrib b c (s : State) :
    exec (.contrib b c) s = execContrib b c s := rfl
@[simp] theorem exec_dqcontrib b c (s : State) :
    exec (.dqcontrib b c) s = execDqcontrib b c s := rfl
@[simp] theorem exec_scontrib b c (s : State) :
    exec (.scontrib b c) s = execScontrib b c s := rfl
@[simp] theorem exec_copen b c (s : State) :
    exec (.copen b c) s = execCopen b c s := rfl
@[simp] theorem exec_contribIssueResume b c (s : State) :
    exec (.contribIssueResume b c) s = execContribIssueResume b c s := rfl
@[simp] theorem exec_ctake b c (s : State) :
    exec (.ctake b c) s = execCtake b c s := rfl
@[simp] theorem exec_ctakeDeliver b c (s : State) :
    exec (.ctakeDeliver b c) s = execCtakeDeliver b c s := rfl
@[simp] theorem exec_ctakeTimeout b c (s : State) :
    exec (.ctakeTimeout b c) s = execCtakeTimeout b c s := rfl
@[simp] theorem exec_finalChunk b c (s : State) :
    exec (.finalChunk b c) s = execFinalChunk b c s := rfl
@[simp] theorem exec_dispatch b c (s : State) :
    exec (.dispatch b c) s = execDispatch b c s := rfl
@[simp] theorem exec_cinfo b c (s : State) :
    exec (.cinfo b c) s = execCinfo b c s := rfl
@[simp] theorem exec_contextCreate r id (s : State) :
    exec (.contextCreate r id) s = execContextCreate r id s := rfl
@[simp] theorem exec_contextCreateComplete (s : State) :
    exec (.contextCreateComplete) s = execContextCreateComplete s := rfl
@[simp] theorem exec_teardown r id (s : State) :
    exec (.teardown r id) s = execTeardown r id s := rfl
@[simp] theorem exec_teardownComplete id (s : State) :
    exec (.teardownComplete id) s = execTeardownComplete id s := rfl
@[simp] theorem exec_restingExpiry id (s : State) :
    exec (.restingExpiry id) s = execRestingExpiry id s := rfl
@[simp] theorem exec_seqEnWrite r v (s : State) :
    exec (.seqEnWrite r v) s = execSeqEnWrite r v s := rfl
@[simp] theorem exec_ltBaseWrite r v (s : State) :
    exec (.ltBaseWrite r v) s = execLtBaseWrite r v s := rfl
@[simp] theorem exec_ltSweep (s : State) :
    exec (.ltSweep) s = execLtSweep s := rfl
@[simp] theorem exec_launchWake idx (s : State) :
    exec (.launchWake idx) s = execLaunchWake idx s := rfl
@[simp] theorem exec_imageLoadComplete idx (s : State) :
    exec (.imageLoadComplete idx) s = execImageLoadComplete idx s := rfl
@[simp] theorem exec_launchTake (s : State) :
    exec (.launchTake) s = execLaunchTake s := rfl
@[simp] theorem exec_launchStart (s : State) :
    exec (.launchStart) s = execLaunchStart s := rfl
@[simp] theorem exec_ftimeSet r v (s : State) :
    exec (.ftimeSet r v) s = execFtimeSet r v s := rfl
@[simp] theorem exec_timeRequestSend (s : State) :
    exec (.timeRequestSend) s = execTimeRequestSend s := rfl
@[simp] theorem exec_timeRequestArrival (s : State) :
    exec (.timeRequestArrival) s = execTimeRequestArrival s := rfl
@[simp] theorem exec_timeResponseArrival (s : State) :
    exec (.timeResponseArrival) s = execTimeResponseArrival s := rfl
@[simp] theorem exec_timeRequestTimeout (s : State) :
    exec (.timeRequestTimeout) s = execTimeRequestTimeout s := rfl
@[simp] theorem exec_ftimeCompare (s : State) :
    exec (.ftimeCompare) s = execFtimeCompare s := rfl
@[simp] theorem exec_windowWrite r v (s : State) :
    exec (.windowWrite r v) s = execWindowWrite r v s := rfl
@[simp] theorem exec_poolRead (s : State) :
    exec (.poolRead) s = execPoolRead s := rfl
@[simp] theorem exec_poolWrite (s : State) :
    exec (.poolWrite) s = execPoolWrite s := rfl
@[simp] theorem exec_poolAadd64 (s : State) :
    exec (.poolAadd64) s = execPoolAadd64 s := rfl
@[simp] theorem exec_poolAaddf32 (s : State) :
    exec (.poolAaddf32) s = execPoolAaddf32 s := rfl
@[simp] theorem exec_poolCas64 (s : State) :
    exec (.poolCas64) s = execPoolCas64 s := rfl
@[simp] theorem exec_poolMcread (s : State) :
    exec (.poolMcread) s = execPoolMcread s := rfl
@[simp] theorem exec_poolAccessPerformed k obs (s : State) :
    exec (.poolAccessPerformed k obs) s = execPoolAccessPerformed k obs s := rfl
@[simp] theorem exec_cacheFillComplete id w blk obs (s : State) :
    exec (.cacheFillComplete id w blk obs) s = execCacheFillComplete id w blk obs s := rfl
@[simp] theorem exec_prefetchFillComplete id w blk obs (s : State) :
    exec (.prefetchFillComplete id w blk obs) s = execPrefetchFillComplete id w blk obs s := rfl
@[simp] theorem exec_cacheWritebackComplete id w (s : State) :
    exec (.cacheWritebackComplete id w) s = execCacheWritebackComplete id w s := rfl
@[simp] theorem exec_patrolScrub m obs (s : State) :
    exec (.patrolScrub m obs) s = execPatrolScrub m obs s := rfl
@[simp] theorem exec_selfRefreshEntry m (s : State) :
    exec (.selfRefreshEntry m) s = execSelfRefreshEntry m s := rfl
@[simp] theorem exec_selfRefreshScrubWake m (s : State) :
    exec (.selfRefreshScrubWake m) s = execSelfRefreshScrubWake m s := rfl
@[simp] theorem exec_hostMemRead addr len obs (s : State) :
    exec (.hostMemRead addr len obs) s = execHostMemRead addr len obs s := rfl
@[simp] theorem exec_hostMemWrite addr data (s : State) :
    exec (.hostMemWrite addr data) s = execHostMemWrite addr data s := rfl
@[simp] theorem exec_hostMemSpecRead addr (s : State) :
    exec (.hostMemSpecRead addr) s = execHostMemSpecRead addr s := rfl
@[simp] theorem exec_hostPcieAtomic cas addr x y (s : State) :
    exec (.hostPcieAtomic cas addr x y) s = execHostPcieAtomic cas addr x y s := rfl
@[simp] theorem exec_gpfFlush (s : State) :
    exec (.gpfFlush) s = execGpfFlush s := rfl
@[simp] theorem exec_rplRecordStart r id outEn (s : State) :
    exec (.rplRecordStart r id outEn) s = execRplRecordStart r id outEn s := rfl
@[simp] theorem exec_rplReplayStart r id outEn (s : State) :
    exec (.rplReplayStart r id outEn) s = execRplReplayStart r id outEn s := rfl
@[simp] theorem exec_rplStop r id outEn (s : State) :
    exec (.rplStop r id outEn) s = execRplStop r id outEn s := rfl
@[simp] theorem exec_recqStallRelease (s : State) :
    exec (.recqStallRelease) s = execRecqStallRelease s := rfl
@[simp] theorem exec_replayLaunchStart id (s : State) :
    exec (.replayLaunchStart id) s = execReplayLaunchStart id s := rfl
@[simp] theorem exec_laneFrameReceived n w2 bits (s : State) :
    exec (.laneFrameReceived n w2 bits) s = execLaneFrameReceived n w2 bits s := rfl
@[simp] theorem exec_commaLoss n w2 (s : State) :
    exec (.commaLoss n w2) s = execCommaLoss n w2 s := rfl
@[simp] theorem exec_laneFrameTransmit n (s : State) :
    exec (.laneFrameTransmit n) s = execLaneFrameTransmit n s := rfl
@[simp] theorem exec_linkBlockReceived n (s : State) :
    exec (.linkBlockReceived n) s = execLinkBlockReceived n s := rfl
@[simp] theorem exec_credit lp ws (s : State) :
    exec (.credit lp ws) s = execCredit lp ws s := rfl
@[simp] theorem exec_ack lp w (s : State) :
    exec (.ack lp w) s = execAck lp w s := rfl
@[simp] theorem exec_nak lp w (s : State) :
    exec (.nak lp w) s = execNak lp w s := rfl
@[simp] theorem exec_sleep lp w (s : State) :
    exec (.sleep lp w) s = execSleep lp w s := rfl
@[simp] theorem exec_spareSwap lp w (s : State) :
    exec (.spareSwap lp w) s = execSpareSwap lp w s := rfl
@[simp] theorem exec_swapEcho lp w (s : State) :
    exec (.swapEcho lp w) s = execSwapEcho lp w s := rfl
@[simp] theorem exec_linkUp lp ws (s : State) :
    exec (.linkUp lp ws) s = execLinkUp lp ws s := rfl
@[simp] theorem exec_ackSend lp (s : State) :
    exec (.ackSend lp) s = execAckSend lp s := rfl
@[simp] theorem exec_creditSend lp (s : State) :
    exec (.creditSend lp) s = execCreditSend lp s := rfl
@[simp] theorem exec_replayTimeout lp (s : State) :
    exec (.replayTimeout lp) s = execReplayTimeout lp s := rfl
@[simp] theorem exec_portAdminUp r lp v (s : State) :
    exec (.portAdminUp r lp v) s = execPortAdminUp r lp v s := rfl
@[simp] theorem exec_portAdminDown r lp v (s : State) :
    exec (.portAdminDown r lp v) s = execPortAdminDown r lp v s := rfl
@[simp] theorem exec_noLight t (s : State) :
    exec (.noLight t) s = execNoLight t s := rfl
@[simp] theorem exec_trainingRecordReceived n rec freq (s : State) :
    exec (.trainingRecordReceived n rec freq) s = execTrainingRecordReceived n rec freq s := rfl
@[simp] theorem exec_nativeModeSwitch t skewUi (s : State) :
    exec (.nativeModeSwitch t skewUi) s = execNativeModeSwitch t skewUi s := rfl
@[simp] theorem exec_txEqComplete n w2 eyes (s : State) :
    exec (.txEqComplete n w2 eyes) s = execTxEqComplete n w2 eyes s := rfl
@[simp] theorem exec_trainTimeout t (s : State) :
    exec (.trainTimeout t) s = execTrainTimeout t s := rfl
@[simp] theorem exec_fastRetrain r lp (s : State) :
    exec (.fastRetrain r lp) s = execFastRetrain r lp s := rfl
@[simp] theorem exec_fastRetrainComplete lp ok (s : State) :
    exec (.fastRetrainComplete lp ok) s = execFastRetrainComplete lp ok s := rfl
@[simp] theorem exec_portCmdSpareSwap r lp pos (s : State) :
    exec (.portCmdSpareSwap r lp pos) s = execPortCmdSpareSwap r lp pos s := rfl
@[simp] theorem exec_portCmdSpareBack r lp pos (s : State) :
    exec (.portCmdSpareBack r lp pos) s = execPortCmdSpareBack r lp pos s := rfl
@[simp] theorem exec_spareUeThreshold n (s : State) :
    exec (.spareUeThreshold n) s = execSpareUeThreshold n s := rfl
@[simp] theorem exec_spareSwapComplete lp (s : State) :
    exec (.spareSwapComplete lp) s = execSpareSwapComplete lp s := rfl
@[simp] theorem exec_portCfgWrite r p v (s : State) :
    exec (.portCfgWrite r p v) s = execPortCfgWrite r p v s := rfl
@[simp] theorem exec_eyeScanStart r n v (s : State) :
    exec (.eyeScanStart r n v) s = execEyeScanStart r n v s := rfl
@[simp] theorem exec_eyeScanDone n errs (s : State) :
    exec (.eyeScanDone n errs) s = execEyeScanDone n errs s := rfl
@[simp] theorem exec_prbsCtrlWrite r n v (s : State) :
    exec (.prbsCtrlWrite r n v) s = execPrbsCtrlWrite r n v s := rfl
@[simp] theorem exec_injCtrlWrite r n v (s : State) :
    exec (.injCtrlWrite r n v) s = execInjCtrlWrite r n v s := rfl
@[simp] theorem exec_txDozeEntry lp demand (s : State) :
    exec (.txDozeEntry lp demand) s = execTxDozeEntry lp demand s := rfl
@[simp] theorem exec_txNapEntry lp demand (s : State) :
    exec (.txNapEntry lp demand) s = execTxNapEntry lp demand s := rfl
@[simp] theorem exec_txSleepForceWrite r lp v (s : State) :
    exec (.txSleepForceWrite r lp v) s = execTxSleepForceWrite r lp v s := rfl
@[simp] theorem exec_txWake lp (s : State) :
    exec (.txWake lp) s = execTxWake lp s := rfl
@[simp] theorem exec_hostLinkTrained cxl width speed (s : State) :
    exec (.hostLinkTrained cxl width speed) s = execHostLinkTrained cxl width speed s := rfl
@[simp] theorem exec_hostLinkDown (s : State) :
    exec (.hostLinkDown) s = execHostLinkDown s := rfl
@[simp] theorem exec_perstNAssert hot (s : State) :
    exec (.perstNAssert hot) s = execPerstNAssert hot s := rfl
@[simp] theorem exec_functionLevelReset (s : State) :
    exec (.functionLevelReset) s = execFunctionLevelReset s := rfl
@[simp] theorem exec_hdmDecoderCommit k d (s : State) :
    exec (.hdmDecoderCommit k d) s = execHdmDecoderCommit k d s := rfl
@[simp] theorem exec_getEventRecords inp (s : State) :
    exec (.getEventRecords inp) s = execGetEventRecords inp s := rfl
@[simp] theorem exec_clearEventRecords inp (s : State) :
    exec (.clearEventRecords inp) s = execClearEventRecords inp s := rfl
@[simp] theorem exec_getEventInterruptPolicy inp (s : State) :
    exec (.getEventInterruptPolicy inp) s = execGetEventInterruptPolicy inp s := rfl
@[simp] theorem exec_setEventInterruptPolicy inp (s : State) :
    exec (.setEventInterruptPolicy inp) s = execSetEventInterruptPolicy inp s := rfl
@[simp] theorem exec_getFwInfo inp (s : State) :
    exec (.getFwInfo inp) s = execGetFwInfo inp s := rfl
@[simp] theorem exec_transferFw inp (s : State) :
    exec (.transferFw inp) s = execTransferFw inp s := rfl
@[simp] theorem exec_transferFwComplete (s : State) :
    exec (.transferFwComplete) s = execTransferFwComplete s := rfl
@[simp] theorem exec_activateFw inp (s : State) :
    exec (.activateFw inp) s = execActivateFw inp s := rfl
@[simp] theorem exec_getTimestamp inp (s : State) :
    exec (.getTimestamp inp) s = execGetTimestamp inp s := rfl
@[simp] theorem exec_setTimestamp inp (s : State) :
    exec (.setTimestamp inp) s = execSetTimestamp inp s := rfl
@[simp] theorem exec_getSupportedLogs inp (s : State) :
    exec (.getSupportedLogs inp) s = execGetSupportedLogs inp s := rfl
@[simp] theorem exec_getLog inp (s : State) :
    exec (.getLog inp) s = execGetLog inp s := rfl
@[simp] theorem exec_identifyMemoryDevice inp (s : State) :
    exec (.identifyMemoryDevice inp) s = execIdentifyMemoryDevice inp s := rfl
@[simp] theorem exec_getHealthInfo inp (s : State) :
    exec (.getHealthInfo inp) s = execGetHealthInfo inp s := rfl
@[simp] theorem exec_getPoisonList inp (s : State) :
    exec (.getPoisonList inp) s = execGetPoisonList inp s := rfl
@[simp] theorem exec_injectPoison inp (s : State) :
    exec (.injectPoison inp) s = execInjectPoison inp s := rfl
@[simp] theorem exec_clearPoison inp (s : State) :
    exec (.clearPoison inp) s = execClearPoison inp s := rfl
@[simp] theorem exec_mboxUnsupported op inp (s : State) :
    exec (.mboxUnsupported op inp) s = execMboxUnsupported op inp s := rfl
@[simp] theorem exec_getDeviceInfo inp (s : State) :
    exec (.getDeviceInfo inp) s = execGetDeviceInfo inp s := rfl
@[simp] theorem exec_getFaultLog inp (s : State) :
    exec (.getFaultLog inp) s = execGetFaultLog inp s := rfl
@[simp] theorem exec_getDumpInfo inp (s : State) :
    exec (.getDumpInfo inp) s = execGetDumpInfo inp s := rfl
@[simp] theorem exec_setPowerCap inp (s : State) :
    exec (.setPowerCap inp) s = execSetPowerCap inp s := rfl
@[simp] theorem exec_getPowerStatus inp (s : State) :
    exec (.getPowerStatus inp) s = execGetPowerStatus inp s := rfl
@[simp] theorem exec_lehrTrigger inp (s : State) :
    exec (.lehrTrigger inp) s = execLehrTrigger inp s := rfl
@[simp] theorem exec_spdmMessage inp (s : State) :
    exec (.spdmMessage inp) s = execSpdmMessage inp s := rfl
@[simp] theorem exec_getLinkSummary inp (s : State) :
    exec (.getLinkSummary inp) s = execGetLinkSummary inp s := rfl
@[simp] theorem exec_clearOutOfService inp (s : State) :
    exec (.clearOutOfService inp) s = execClearOutOfService inp s := rfl
@[simp] theorem exec_smbusFallback (s : State) :
    exec (.smbusFallback) s = execSmbusFallback s := rfl
@[simp] theorem exec_mctpMessage t eid msgType body (s : State) :
    exec (.mctpMessage t eid msgType body) s = execMctpMessage t eid msgType body s := rfl
@[simp] theorem exec_pldmSensorRead sensor (s : State) :
    exec (.pldmSensorRead sensor) s = execPldmSensorRead sensor s := rfl
@[simp] theorem exec_pldmSetPowerCap w (s : State) :
    exec (.pldmSetPowerCap w) s = execPldmSetPowerCap w s := rfl
@[simp] theorem exec_pldmFirmwareUpdate img step (s : State) :
    exec (.pldmFirmwareUpdate img step) s = execPldmFirmwareUpdate img step s := rfl
@[simp] theorem exec_pldmSelectBootImage img (s : State) :
    exec (.pldmSelectBootImage img) s = execPldmSelectBootImage img s := rfl
@[simp] theorem exec_pldmClearOutOfService (s : State) :
    exec (.pldmClearOutOfService) s = execPldmClearOutOfService s := rfl
@[simp] theorem exec_pldmLehrTrigger (s : State) :
    exec (.pldmLehrTrigger) s = execPldmLehrTrigger s := rfl
@[simp] theorem exec_leakClear (s : State) :
    exec (.leakClear) s = execLeakClear s := rfl
@[simp] theorem exec_spiHoldOffAssert (s : State) :
    exec (.spiHoldOffAssert) s = execSpiHoldOffAssert s := rfl
@[simp] theorem exec_spiHoldOffRelease (s : State) :
    exec (.spiHoldOffRelease) s = execSpiHoldOffRelease s := rfl
@[simp] theorem exec_computeReset src (s : State) :
    exec (.computeReset src) s = execComputeReset src s := rfl
@[simp] theorem exec_fullDeviceRecovery src (s : State) :
    exec (.fullDeviceRecovery src) s = execFullDeviceRecovery src s := rfl
@[simp] theorem exec_benchHangCheck b (s : State) :
    exec (.benchHangCheck b) s = execBenchHangCheck b s := rfl
@[simp] theorem exec_portHangCheck lp (s : State) :
    exec (.portHangCheck lp) s = execPortHangCheck lp s := rfl
@[simp] theorem exec_memHangCheck m (s : State) :
    exec (.memHangCheck m) s = execMemHangCheck m s := rfl
@[simp] theorem exec_stewardWatchdogExpiry (s : State) :
    exec (.stewardWatchdogExpiry) s = execStewardWatchdogExpiry s := rfl
@[simp] theorem exec_stewardRestartComplete (s : State) :
    exec (.stewardRestartComplete) s = execStewardRestartComplete s := rfl
@[simp] theorem exec_resultSlotPoisonEnd k (s : State) :
    exec (.resultSlotPoisonEnd k) s = execResultSlotPoisonEnd k s := rfl
@[simp] theorem exec_powerControlInterval watts est (s : State) :
    exec (.powerControlInterval watts est) s = execPowerControlInterval watts est s := rfl
@[simp] theorem exec_capWindowEnd avgW (s : State) :
    exec (.capWindowEnd avgW) s = execCapWindowEnd avgW s := rfl
@[simp] theorem exec_pwrCapNRecognised (s : State) :
    exec (.pwrCapNRecognised) s = execPwrCapNRecognised s := rfl
@[simp] theorem exec_capFloorEnd (s : State) :
    exec (.capFloorEnd) s = execCapFloorEnd s := rfl
@[simp] theorem exec_shelfAlertNAssert (s : State) :
    exec (.shelfAlertNAssert) s = execShelfAlertNAssert s := rfl
@[simp] theorem exec_shelfCapRelease (s : State) :
    exec (.shelfCapRelease) s = execShelfCapRelease s := rfl
@[simp] theorem exec_flowPulseEdge (s : State) :
    exec (.flowPulseEdge) s = execFlowPulseEdge s := rfl
@[simp] theorem exec_flowLoss (s : State) :
    exec (.flowLoss) s = execFlowLoss s := rfl
@[simp] theorem exec_leakSenseEdge rising (s : State) :
    exec (.leakSenseEdge rising) s = execLeakSenseEdge rising s := rfl
@[simp] theorem exec_leakWet (s : State) :
    exec (.leakWet) s = execLeakWet s := rfl
@[simp] theorem exec_leakSensorFailed (s : State) :
    exec (.leakSensorFailed) s = execLeakSensorFailed s := rfl
@[simp] theorem exec_thermalSample temps (s : State) :
    exec (.thermalSample temps) s = execThermalSample temps s := rfl
@[simp] theorem exec_thermalTrip (s : State) :
    exec (.thermalTrip) s = execThermalTrip s := rfl
@[simp] theorem exec_governorUpdate (s : State) :
    exec (.governorUpdate) s = execGovernorUpdate s := rfl
@[simp] theorem exec_stewardStageWrite k value claim (s : State) :
    exec (.stewardStageWrite k value claim) s = execStewardStageWrite k value claim s := rfl
@[simp] theorem exec_stewardClaimExpiry k (s : State) :
    exec (.stewardClaimExpiry k) s = execStewardClaimExpiry k s := rfl
@[simp] theorem exec_timingMarginWarning d (s : State) :
    exec (.timingMarginWarning d) s = execTimingMarginWarning d s := rfl
@[simp] theorem exec_fmaxCtrlWrite r v (s : State) :
    exec (.fmaxCtrlWrite r v) s = execFmaxCtrlWrite r v s := rfl
@[simp] theorem exec_lehrIntervalExpiry (s : State) :
    exec (.lehrIntervalExpiry) s = execLehrIntervalExpiry s := rfl
@[simp] theorem exec_lehrStart r v (s : State) :
    exec (.lehrStart r v) s = execLehrStart r v s := rfl
@[simp] theorem exec_lehrStepComplete m (s : State) :
    exec (.lehrStepComplete m) s = execLehrStepComplete m s := rfl
@[simp] theorem exec_memoryRetrainWindow m (s : State) :
    exec (.memoryRetrainWindow m) s = execMemoryRetrainWindow m s := rfl
@[simp] theorem exec_flashHeaderReadComplete obs (s : State) :
    exec (.flashHeaderReadComplete obs) s = execFlashHeaderReadComplete obs s := rfl
@[simp] theorem exec_flashBodyReadComplete obs (s : State) :
    exec (.flashBodyReadComplete obs) s = execFlashBodyReadComplete obs s := rfl
@[simp] theorem exec_hostReady (s : State) :
    exec (.hostReady) s = execHostReady s := rfl
@[simp] theorem exec_memoryTrainingComplete (s : State) :
    exec (.memoryTrainingComplete) s = execMemoryTrainingComplete s := rfl
@[simp] theorem exec_bootReady (s : State) :
    exec (.bootReady) s = execBootReady s := rfl
@[simp] theorem exec_debugChallengeRead (s : State) :
    exec (.debugChallengeRead) s = execDebugChallengeRead s := rfl
@[simp] theorem exec_debugTokenWrite token (s : State) :
    exec (.debugTokenWrite token) s = execDebugTokenWrite token s := rfl
@[simp] theorem exec_getVersion t req (s : State) :
    exec (.getVersion t req) s = execGetVersion t req s := rfl
@[simp] theorem exec_getCapabilities t req (s : State) :
    exec (.getCapabilities t req) s = execGetCapabilities t req s := rfl
@[simp] theorem exec_negotiateAlgorithms t req (s : State) :
    exec (.negotiateAlgorithms t req) s = execNegotiateAlgorithms t req s := rfl
@[simp] theorem exec_getDigests t req (s : State) :
    exec (.getDigests t req) s = execGetDigests t req s := rfl
@[simp] theorem exec_getCertificate t req (s : State) :
    exec (.getCertificate t req) s = execGetCertificate t req s := rfl
@[simp] theorem exec_challenge t req (s : State) :
    exec (.challenge t req) s = execChallenge t req s := rfl
@[simp] theorem exec_getMeasurements t req (s : State) :
    exec (.getMeasurements t req) s = execGetMeasurements t req s := rfl
@[simp] theorem exec_chunkSend t req (s : State) :
    exec (.chunkSend t req) s = execChunkSend t req s := rfl
@[simp] theorem exec_chunkGet t req (s : State) :
    exec (.chunkGet t req) s = execChunkGet t req s := rfl
@[simp] theorem exec_spdmUnsupported t req (s : State) :
    exec (.spdmUnsupported t req) s = execSpdmUnsupported t req s := rfl
@[simp] theorem exec_signatureComplete t (s : State) :
    exec (.signatureComplete t) s = execSignatureComplete t s := rfl
@[simp] theorem exec_evselWrite r blk k v (s : State) :
    exec (.evselWrite r blk k v) s = execEvselWrite r blk k v s := rfl
@[simp] theorem exec_cntWrite r blk k v (s : State) :
    exec (.cntWrite r blk k v) s = execCntWrite r blk k v s := rfl
@[simp] theorem exec_bwCtrlWrite r p v (s : State) :
    exec (.bwCtrlWrite r p v) s = execBwCtrlWrite r p v s := rfl
@[simp] theorem exec_bwWindowEnd p (s : State) :
    exec (.bwWindowEnd p) s = execBwWindowEnd p s := rfl
@[simp] theorem exec_computeResetComplete (s : State) :
    exec (.computeResetComplete) s = execComputeResetComplete s := rfl
@[simp] theorem exec_fullDeviceRecoveryComplete (s : State) :
    exec (.fullDeviceRecoveryComplete) s = execFullDeviceRecoveryComplete s := rfl
@[simp] theorem exec_controlStateSweep cls idx (s : State) :
    exec (.controlStateSweep cls idx) s = execControlStateSweep cls idx s := rfl
@[simp] theorem exec_cruciblePatrolScrub b line obs (s : State) :
    exec (.cruciblePatrolScrub b line obs) s = execCruciblePatrolScrub b line obs s := rfl
@[simp] theorem exec_stewardMemoryUe (s : State) :
    exec (.stewardMemoryUe) s = execStewardMemoryUe s := rfl
@[simp] theorem exec_sensorSupervisionArm (s : State) :
    exec (.sensorSupervisionArm) s = execSensorSupervisionArm s := rfl
@[simp] theorem exec_perstNDeassert (s : State) :
    exec (.perstNDeassert) s = execPerstNDeassert s := rfl
@[simp] theorem exec_spareCfgWrite r n v (s : State) :
    exec (.spareCfgWrite r n v) s = execSpareCfgWrite r n v s := rfl
@[simp] theorem exec_prbsCheckerLock n w2 bits (s : State) :
    exec (.prbsCheckerLock n w2 bits) s = execPrbsCheckerLock n w2 bits s := rfl
@[simp] theorem exec_flashHoldTimeout (s : State) :
    exec (.flashHoldTimeout) s = execFlashHoldTimeout s := rfl

end Sys2Proof.Machine
end

