-- ==== Sys2Proof/Laws/Lanes.lean ====
section
/-! SUPPORT. Vectors by lanes: the lane read back is the lane written. -/

set_option Elab.async false

namespace Sys2Proof.Machine

/-- The number that fields of `w` bits spell, the first lowest. -/
def lanesNum (w : Nat) : List Nat → Nat
  | [] => 0
  | x :: xs => x % 2 ^ w + 2 ^ w * lanesNum w xs

theorem pack_lanes (w : Nat) (xs : List Nat) (k a : Nat) :
    ((xs.zipIdx k).map (fun p => (w * p.2, p.1 % 2 ^ w))).foldl (fun a f => a + f.2 * 2 ^ f.1) a
      = a + 2 ^ (w * k) * lanesNum w xs := by
  induction xs generalizing k a with
  | nil => simp [lanesNum]
  | cons x xs ih =>
    rw [List.zipIdx_cons, List.map_cons, List.foldl_cons, ih, lanesNum]
    rw [Nat.mul_add w k 1, Nat.mul_one, Nat.pow_add]
    ring

theorem lanesNum_lt (w : Nat) (xs : List Nat) : lanesNum w xs < 2 ^ (w * xs.length) := by
  induction xs with
  | nil => simp [lanesNum]
  | cons x xs ih =>
    rw [lanesNum, List.length_cons, Nat.mul_add, Nat.mul_one, Nat.pow_add]
    have h : x % 2 ^ w < 2 ^ w := Nat.mod_lt _ (Nat.two_pow_pos w)
    nlinarith [Nat.two_pow_pos w]

theorem lanesNum_lane (w : Nat) (xs : List Nat) (i : Nat) :
    lanesNum w xs / 2 ^ (w * i) % 2 ^ w = xs.getD i 0 % 2 ^ w := by
  induction xs generalizing i with
  | nil => simp [lanesNum]
  | cons x xs ih =>
    have h : x % 2 ^ w < 2 ^ w := Nat.mod_lt _ (Nat.two_pow_pos w)
    cases i with
    | zero => simp [lanesNum, Nat.add_mul_mod_self_left]
    | succ i =>
      rw [lanesNum, Nat.mul_add, Nat.mul_one, Nat.add_comm (w * i) w, Nat.pow_add, ← Nat.div_div_eq_div_mul,
        Nat.add_mul_div_left _ _ (Nat.two_pow_pos w), Nat.div_eq_of_lt h, Nat.zero_add, ih]
      simp

/-- Lane `i` of a vector made of lanes. -/
theorem vLane_ofLanes (w : Nat) (xs : List Nat) (i : Nat) (h : w * xs.length ≤ 512) :
    vLane w (ofLanes w xs) i = xs.getD i 0 % 2 ^ w := by
  unfold vLane ofLanes fld pack
  rw [pack_lanes]
  simp only [Nat.mul_zero, Nat.pow_zero, Nat.zero_add, Nat.one_mul]
  rw [BitVec.toNat_ofNat, Nat.mod_eq_of_lt (Nat.lt_of_lt_of_le (lanesNum_lt w xs) (Nat.pow_le_pow_right (by omega) h)),
    lanesNum_lane]

theorem vLane_lt (w : Nat) (v : W512) (i : Nat) : vLane w v i < 2 ^ w := Nat.mod_lt _ (Nat.two_pow_pos w)

/-- Lane `i` of a masked result. -/
theorem vLane_maskLanes (w : Nat) (p : W64) (old : W512) (f : Nat → Nat) (i : Nat) (hi : i < 512 / w) :
    vLane w (maskLanes w p old f) i = if laneOn w p i then f i % 2 ^ w else vLane w old i := by
  unfold maskLanes
  rw [vLane_ofLanes]
  · rw [List.getD_eq_getElem _ _ (by simpa using hi)]
    simp only [List.getElem_map, List.getElem_range]
    split
    · rfl
    · exact Nat.mod_eq_of_lt (vLane_lt w old i)
  · simp only [List.length_map, List.length_range]
    exact Nat.mul_div_le 512 w

theorem lanesNum_testBit (g : Nat) (xs : List Nat) (q r : Nat) (hr : r < g) :
    (lanesNum g xs).testBit (g * q + r) = (xs.getD q 0).testBit r := by
  have h := lanesNum_lane g xs q
  have h2 := congrArg (fun n => n.testBit r) h
  simp only [Nat.testBit_mod_two_pow, Nat.testBit_div_two_pow, hr, decide_true, Bool.true_and] at h2
  rw [← h2, Nat.add_comm]

/-- Bit `j` of a comparison's predicate: the result of its lane group (R227). -/
theorem getLsbD_predLanes (g : Nat) (hg : 0 < g) (h64 : g * (64 / g) = 64) (p : W64) (f : Nat → Bool) (j : Nat)
    (hj : j < 64) :
    (predLanes (8 * g) p f).getLsbD j = (laneOn (8 * g) p (j / g) && f (j / g)) := by
  unfold predLanes pack w64
  have e : (List.range (512 / (8 * g))).map (fun i =>
      (i * (8 * g) / 8, if laneOn (8 * g) p i && f i then 2 ^ (8 * g / 8) - 1 else 0)) =
    ((((List.range (64 / g)).map (fun i => if laneOn (8 * g) p i && f i then 2 ^ g - 1 else 0)).zipIdx 0).map
      (fun q => (g * q.2, q.1 % 2 ^ g))) := by
    rw [show 512 / (8 * g) = 64 / g from by rw [← Nat.div_div_eq_div_mul]]
    apply List.ext_getElem
    · simp
    · intro i h1 h2
      simp only [List.getElem_map, List.getElem_range, List.getElem_zipIdx, Nat.zero_add]
      rw [Nat.mul_div_right g (by omega : 0 < 8)]
      have e1 : i * (8 * g) / 8 = g * i := by
        rw [show i * (8 * g) = 8 * (g * i) by ring, Nat.mul_div_right _ (by omega)]
      rw [e1]
      congr 1
      split
      · rw [Nat.mod_eq_of_lt]; have := Nat.two_pow_pos g; omega
      · simp
  rw [e, pack_lanes]
  simp only [Nat.mul_zero, Nat.pow_zero, Nat.zero_add, Nat.one_mul]
  rw [BitVec.getLsbD_ofNat, decide_eq_true hj, Bool.true_and]
  have hr : j % g < g := Nat.mod_lt _ hg
  have hq : j / g < 64 / g := by
    rw [Nat.div_lt_iff_lt_mul hg, Nat.mul_comm, h64]; exact hj
  conv => lhs; rw [← Nat.div_add_mod j g]
  rw [lanesNum_testBit _ _ _ _ hr, List.getD_eq_getElem _ _ (by simpa using hq)]
  simp only [List.getElem_map, List.getElem_range]
  split
  · rename_i h; rw [h, Nat.testBit_two_pow_sub_one, decide_eq_true hr]
  · rename_i h; simp only [Nat.zero_testBit]; simpa using h

/-- The lane widths of the permitted types (R225). -/
theorem laneW_cases {t : Nat} (h : vecTypes.contains t = true) : laneW t = 8 ∨ laneW t = 16 ∨ laneW t = 32 := by
  simp only [vecTypes, List.contains_eq_mem, List.mem_cons, List.not_mem_nil, or_false, decide_eq_true_eq] at h
  rcases h with rfl | rfl | rfl | rfl | rfl | rfl | rfl | rfl <;> decide

end Sys2Proof.Machine
end

