-- ==== Sys2Proof/Laws/Power.lean ====
section
/-! SUPPORT. What a live step of the voltage does to its range. -/

namespace Sys2Proof.Machine

/-- One more live step leaves the range whatever the factory voltage is (R432, R458). -/
theorem Power.atTop_eq (p : Power) (k bin : Nat) :
    p.atTop k bin = decide (40 < sget 0 p.guard k + (sget 0 p.live k : Nat) + 1) := by
  unfold Power.atTop Power.floorV
  apply decide_eq_decide.2
  omega

end Sys2Proof.Machine
end

