-- ==== Sys2Proof/Laws/Registers.lean ====
section
/-! SUPPORT. What the common rules of register access do (R7-R11, R493-R500): an undisturbed access,
an accepted write, a refused write. -/

set_option Elab.async false

namespace Sys2Proof.Machine

theorem touch_clear {s : State} {r : Requester} (h : Clear s r) (off : Nat) : s.touch r off = s := by
  have hf : s.latches.filter (fun l => !decide (l.1 = r) || decide (l.2.1 = off)) = s.latches := by
    apply List.filter_eq_self.mpr
    intro l hl
    simp [h.latch l hl]
  have hn : s.heldLow.find? (fun h => decide (h.1 = r)) = none := by
    apply List.find?_eq_none.mpr
    intro x hx
    simp [h.low x hx]
  simp only [State.touch, hf, hn]

/-- A write that the common rules accept is what its handler does. -/
theorem writeVia_writable {s : State} {r : Requester} {off : Nat} {v : W64} (hc : Clear s r) (hw : Writable s off v)
    (f : WriteFn) (raw : Bool) : s.writeVia r off v f raw = (f s v).getD (s.ignored r off false) := by
  obtain ⟨w, hf, h1, h2, h3, h4⟩ := hw.row
  simp only [State.writeVia, hc.writes, touch_clear hc, hf, State.writeRow, hw.open_, hw.present, h1, h2, h3, h4]
  cases raw <;> cases h : f s v <;> simp [h]

theorem writeCmd_writable {s : State} {r : Requester} {off : Nat} {v : W64} (hc : Clear s r) (hw : Writable s off v)
    (f : WriteFn) (raw : Bool) {t : State} (hf : f s v = some t) : writeCmd s r off v f raw = .next t := by
  simp [writeCmd, writeVia_writable hc hw, hf]

/-- A write to a register that is read-only, locked, absent or reset changes the ignored count alone. -/
theorem writeVia_refused {s : State} {r : Requester} {off : Nat} {v : W64} {w : RegRow} (hc : Clear s r)
    (hf : findReg off = some w)
    (h : s.resetBlocks off = true ∨ s.absentReg off = true ∨ w.acc = .ro ∨ w.acc = .rc ∨ w.lock.any s.lockBit = true)
    (f : WriteFn) (raw : Bool) : s.writeVia r off v f raw = s.ignored r off false := by
  simp only [State.writeVia, hc.writes, touch_clear hc, hf, State.writeRow]
  rcases h with h | h | h | h | h <;> simp [h]

theorem ignored_reg_ne (s : State) (r : Requester) (off : Nat) (read : Bool) {o : Nat} (h1 : o ≠ Reg.ignoredWrites)
    (h2 : o ≠ Reg.ignoredOffset) : (s.ignored r off read).reg o = s.reg o := by
  rw [State.ignored, State.bump, State.bumpBy, State.reg_setReg_ne _ _ h2, State.reg_setReg_ne _ _ h1]

theorem ignored_only (s : State) (r : Requester) (off : Nat) (read : Bool) :
    s.ignored r off read = { s with regs := (s.ignored r off read).regs } := by
  simp only [State.ignored, State.bump, State.bumpBy, State.setReg]

theorem ignored_writes (s : State) (r : Requester) (off : Nat) (read : Bool) :
    (s.ignored r off read).regN Reg.ignoredWrites = min (s.regN Reg.ignoredWrites + 1) 0xFFFFFFFF := by
  have h : Reg.ignoredWrites ≠ Reg.ignoredOffset := by decide
  rw [State.regN, State.ignored, State.reg_setReg_ne _ _ h, State.bump, State.bumpBy, State.reg_setReg_same,
    w64, BitVec.toNat_ofNat]
  omega

end Sys2Proof.Machine
end

