-- ==== Sys2Proof/Tests/Slice0.lean ====
section
/-! SUPPORT. The author's own tests: ill-formed commands that `wellFormed` refuses, words written out from
the spec's encodings, states that meet the hypotheses of the claims, and single steps at the edges. -/

set_option Elab.async false

namespace Sys2Proof.Tests

open Sys2Proof Sys2Proof.Machine

/-! ### Well-formed commands: one ill-formed term for each check -/

theorem test_wf_offset : (Instr.registerWrite (.warden 0) 0x4000000 4 0xF 0).wellFormed = false := by decide
theorem test_wf_offset_range : (Instr.readClear .host ⟨0x5000000, 4, 0xF⟩).wellFormed = false := by decide
theorem test_wf_low_word : (Instr.lowWordRead .host 0x104).wellFormed = false := by decide
theorem test_wf_high_word : (Instr.highWordWrite .host 0x108 0).wellFormed = false := by decide
theorem test_wf_cell : (Instr.cellArrival 0 ⟨⟨0, 0, 0, []⟩, .clean⟩).wellFormed = false := by decide
theorem test_wf_frame : (Instr.laneFrameReceived 0 false [true]).wellFormed = false := by decide
theorem test_wf_record : (Instr.trainingRecordReceived 0 [] 0).wellFormed = false := by decide
theorem test_wf_eyes : (Instr.txEqComplete 0 false []).wellFormed = false := by decide
theorem test_wf_read_length : (Instr.hostMemRead 0 0 .clean).wellFormed = false := by decide
theorem test_wf_write_length : (Instr.hostMemWrite 0 []).wellFormed = false := by decide
theorem test_wf_decoder : (Instr.hdmDecoderCommit 0 ⟨0, 0, 0, 16, 0, false, true⟩).wellFormed = false := by decide
theorem test_wf_input : (Instr.getLog (List.replicate 4097 0)).wellFormed = false := by decide +kernel
theorem test_wf_estimate : (Instr.powerControlInterval 0 ⟨[], [], 0, 0, 0⟩).wellFormed = false := by decide
theorem test_wf_temps : (Instr.thermalSample []).wellFormed = false := by decide
theorem test_wf_lehr_lane : (Instr.lehrStepComplete ⟨[], [528], [], [], []⟩).wellFormed = false := by decide
theorem test_wf_lehr_refresh : (Instr.lehrStepComplete ⟨[], [], [], [5], []⟩).wellFormed = false := by decide
theorem test_wf_accepts : (Instr.registerWrite .host 0x30 4 0xF 0).wellFormed = true ∧
    (Instr.thermalSample (List.replicate 48 400)).wellFormed = true := by decide

/-! ### Words of the instruction set (R215-R217 and the chapters' worked words) -/

/-- vadd v4, v4, v2, fp32 as chapter 8 spells it. -/
theorem test_word_vadd : legal 0x1010420800000000 = true ∧ iFam 0x1010420800000000 = 1 ∧ iOp 0x1010420800000000 = 0x01 ∧
    iD 0x1010420800000000 = 4 ∧ iA 0x1010420800000000 = 4 ∧ iB 0x1010420800000000 = 2 := by decide +kernel
/-- twait s5, t7, s6, s0 as chapter 8 spells it. -/
theorem test_word_twait : legal 0x6130530000000007 = true ∧ iFam 0x6130530000000007 = 6 ∧ iOp 0x6130530000000007 = 0x13 ∧
    iD 0x6130530000000007 = 5 ∧ iA 0x6130530000000007 = 6 ∧ iImm 0x6130530000000007 = 7 := by decide +kernel
/-- The SCONTRIB word of chapter 9: D 17, A 19, B 18, C 16, TYPE 1. -/
theorem test_word_scontrib : legal 0x503119CA02000000 = true ∧ iFam 0x503119CA02000000 = 5 ∧
    iOp 0x503119CA02000000 = 0x03 := by decide +kernel
/-- A reserved opcode of the scalar family, and ADD with RND set, are no legal encoding (R218, R223). -/
theorem test_word_illegal : legal 0x0000000000000000 = false ∧ legal 0x0010000000800000 = false := by decide +kernel

/-! ### States -/

/-- A device that is READY, with its link and mailbox open, at 20 s. -/
def up : State := {
  clk := { aonNs := 20000000000, ftime := 5000, ftimeB := 5000, timeValid := true },
  host := { linkUp := true, perst := false, configAt := some 0, mboxReady := true, memActive := true },
  mgmt := { mctpReady := true }, fault := { stewardUp := true },
  boot := { stage := .step 9, seedPresent := true, keyPresent := true } }

/-- A word in REG format. -/
def regWord (fam op pg d a b c : Nat) : W64 :=
  w64 (fam * 2 ^ 60 + op * 2 ^ 52 + pg * 2 ^ 49 + d * 2 ^ 44 + a * 2 ^ 39 + b * 2 ^ 34 + c * 2 ^ 29)
/-- A word with an immediate. -/
def immWord (fam op pg d a imm : Nat) : W64 :=
  w64 (fam * 2 ^ 60 + op * 2 ^ 52 + pg * 2 ^ 49 + d * 2 ^ 44 + a * 2 ^ 39 + imm)

/-- Core 0 of bench 0 with registers `x` about to issue `w`. -/
def coreAt (w : W64) (x : Core := {}) (b : Bench := {}) : State := { up with
  benches := [(0, { b with st := .awake })], cores := [(0, { x with run := .running, loadLimit := 8192 })],
  is := mwrite [] 0 (leBytes 8 w.toNat) }

/-- The core waits, with its word, for `k`. -/
def waitAt (k : WaitKind) (w : W64) (dl : Option Nat) (x : Core := {}) (b : Bench := {}) : State := { up with
  benches := [(0, { b with st := .awake })],
  cores := [(0, { x with run := .waiting, loadLimit := 8192, wait := some ⟨k, w, dl⟩ })] }

/-- Everything `Issues` asks, as one check; and `Fires`. -/
def issuesB (s : State) (b : Fin 100) (c : Fin 8) (w : W64) (fam op : Nat) : Bool :=
  s.powered && decide ((s.bench b).st = .awake) && !s.benchHeld b && decide ((s.core (coreNo b c)).run = .running) &&
  !(s.core (coreNo b c)).beyond && !s.fetchBad b c && decide (s.fetchWord b c = w) && legal w &&
  !(s.core (coreNo b c)).hazard w && decide (iFam w = fam ∧ iOp w = op)
def firesB (s : State) (b : Fin 100) (c : Fin 8) (w : W64) (fam op : Nat) : Bool :=
  issuesB s b c w fam op && (s.core (coreNo b c)).guard w

theorem issues_of {s : State} {b : Fin 100} {c : Fin 8} {w : W64} {fam op : Nat} (h : issuesB s b c w fam op = true) :
    Issues s b c w fam op := by
  simp only [issuesB, Bool.and_eq_true, Bool.not_eq_true', decide_eq_true_eq] at h
  obtain ⟨⟨⟨⟨⟨⟨⟨⟨⟨h1, h2⟩, h0⟩, h3⟩, h4⟩, h5⟩, h6⟩, h7⟩, h8⟩, h9, h10⟩ := h
  exact ⟨⟨h1, h2, h0, h3, h4, h5, h6, h7, h8⟩, h9, h10⟩

theorem fires_of {s : State} {b : Fin 100} {c : Fin 8} {w : W64} {fam op : Nat} (h : firesB s b c w fam op = true) :
    Fires s b c w fam op := by
  simp only [firesB, Bool.and_eq_true] at h
  exact ⟨issues_of h.1, h.2⟩

/-! ### The instructions: each opcode issues somewhere -/

/-- Opcodes of a family, each with a legal word. -/
def opWords : List (Nat × Nat × W64) :=
  ((List.range' 1 0x19).map (fun o => (0, o, regWord 0 o 0 1 2 (if 0x17 ≤ o then 0 else 3) 0))) ++
  ((List.range' 0x20 8).map (fun o => (0, o, immWord 0 o 0 1 2 5))) ++ [(0, 0x28, immWord 0 0x28 0 1 0 5), (0, 0x29, immWord 0 0x29 0 1 2 5)] ++
  ((List.range' 1 4).map (fun o => (2, o, regWord 2 o 0 1 2 3 0))) ++ [(2, 5, regWord 2 5 0 1 2 0 0), (2, 6, regWord 2 6 0 1 2 0 0),
    (2, 7, regWord 2 7 0 1 2 0 0), (2, 8, regWord 2 8 0 1 2 0 0), (2, 9, regWord 2 9 0 1 2 0 0)]

/-- ADD to LIH and PAND to PFIRST all issue (the claims ScalarOperations and LaneAndPredicateOperations). -/
theorem wit_scalar_and_predicate : opWords.all (fun e => firesB (coreAt e.2.2) 0 0 e.2.2 e.1 e.2.1) = true := by decide +kernel
theorem wit_ScalarOperations : Fires (coreAt (regWord 0 0x13 0 1 2 3 0)) 0 0 (regWord 0 0x13 0 1 2 3 0) 0 0x13 :=
  fires_of (by decide +kernel)

/-- Guarded off by p1 = 0 (R221). -/
theorem wit_GuardedOffHasNoEffect : Issues (coreAt (regWord 0 1 1 1 2 3 0)) 0 0 (regWord 0 1 1 1 2 3 0) 0 1 ∧
    ((coreAt (regWord 0 1 1 1 2 3 0)).core 0).guard (regWord 0 1 1 1 2 3 0) = false :=
  ⟨issues_of (by decide +kernel), by decide +kernel⟩

/-! ### States that meet the hypotheses of the claims: cores -/

theorem wit_LaneAndPredicateOperations : Issues (coreAt (regWord 1 1 0 1 2 3 0)) 0 0 (regWord 1 1 0 1 2 3 0) 1 1 :=
  issues_of (by decide +kernel)
theorem wit_LaneMovesAndSelections : [0x04, 0x05, 0x06, 0x13, 0x16].all (fun o =>
    let w := regWord 1 o 0 1 2 (if o = 0x13 then 0 else 3) (if o = 0x04 then 4 else 0) + w64 ((if o = 0x16 then intTypes.headD 0 else 0) * 2 ^ 25)
    issuesB (coreAt w) 0 0 w 1 o) = true := by decide +kernel
/-- Narrowing FP32 to BF16 into part 1, a compare, VEXT and VRSUM. -/
theorem wit_LaneConversionsAndReductions : issuesB (coreAt (regWord 1 0x11 0 1 2 1 0 + 0x2000000)) 0 0
      (regWord 1 0x11 0 1 2 1 0 + 0x2000000) 1 0x11 = true ∧
    issuesB (coreAt (regWord 1 0x12 0 1 2 3 1)) 0 0 (regWord 1 0x12 0 1 2 3 1) 1 0x12 = true ∧
    issuesB (coreAt (regWord 1 0x17 0 1 2 0 0)) 0 0 (regWord 1 0x17 0 1 2 0 0) 1 0x17 = true ∧
    firesB (coreAt (regWord 1 0x14 0 1 2 3 0)) 0 0 (regWord 1 0x14 0 1 2 3 0) 1 0x14 = true := by decide +kernel

/-- LD of 8 bytes at the top of the local store, 0x3FFF8, and 8 bytes above it. -/
def ldTop : W64 := immWord 3 0x01 0 1 2 0 + w64 (3 * 2 ^ 32)
theorem wit_LoadsFromOwnStores : firesB (coreAt ldTop { sreg := [(2, 0x3FFF8)] }) 0 0 ldTop 3 0x01 = true ∧
    iSpace ldTop ≠ 2 ∧ (coreAt ldTop).spaceCheck 0 0 (iSpace ldTop) 0x3FFF8 8 false false = 0 ∧
    memAddr ((coreAt ldTop { sreg := [(2, 0x3FFF8)] }).core 0) ldTop = 0x3FFF8 ∧
    (coreAt ldTop).badCount 0 0 0 0x3FFF8 8 false = 0 := by decide +kernel
theorem test_ls_range : (coreAt ldTop).spaceCheck 0 0 0 0x40000 8 false false = 0x06 ∧
    (coreAt ldTop).spaceCheck 0 0 0 0x3FFFC 8 false false = 0x05 := by decide +kernel

def stTop : W64 := regWord 3 0x03 0 0 2 3 0 + w64 (3 * 2 ^ 32)
theorem wit_StoresToOwnStores : firesB (coreAt stTop { sreg := [(2, 0x3FFF8), (3, 0x1122)] }) 0 0 stTop 3 0x03 = true ∧
    (coreAt stTop).spaceCheck 0 0 (iSpace stTop) 0x3FFF8 8 true false = 0 := by decide +kernel

/-- A context with a readable and writable direct window over the first 4 KiB of Loam, owning bench 0. -/
def ctxAt (s : State) : State := { s with
  ctxs := [(1, { st := .opened, perms := 15, benchSet := 1 })] }
def aadd : W64 := regWord 3 0x06 0 1 2 3 0 + w64 (3 * 2 ^ 32 + 2 * 2 ^ 30)
def aaddf : W64 := regWord 3 0x07 0 1 2 3 0 + w64 (2 * 2 ^ 32 + 2 * 2 ^ 30)
theorem wit_atomics : firesB (coreAt aadd) 0 0 aadd 3 0x06 = true ∧ firesB (coreAt aaddf) 0 0 aaddf 3 0x07 = true ∧
    firesB (coreAt (regWord 3 0x08 0 1 2 3 4)) 0 0 (regWord 3 0x08 0 1 2 3 4) 3 0x08 = true := by decide +kernel

theorem wit_FencesQueuesAndStalls : firesB (coreAt (regWord 3 0x09 0 0 0 0 0)) 0 0 (regWord 3 0x09 0 0 0 0 0) 3 0x09 = true ∧
    ((coreAt (regWord 3 0x09 0 0 0 0 0)).core 0).outs = [] ∧
    (waitAt .fence (regWord 3 0x09 0 0 0 0 0) none).waitsFor 0 0 .fence = some ⟨.fence, regWord 3 0x09 0 0 0 0 0, none⟩ ∧
    firesB (coreAt (regWord 3 0x0A 0 0 2 0 0)) 0 0 (regWord 3 0x0A 0 0 2 0 0) 3 0x0A = true ∧ lsCheck 0 32 = 0 := by decide +kernel

theorem wit_ControlTransfers : [(0x01, regWord 6 1 0 0 0 0 0), (0x02, immWord 6 2 0 0 0 8191), (0x03, immWord 6 3 0 1 0 8191),
    (0x04, regWord 6 4 0 0 2 0 0), (0x05, immWord 6 5 0 0 2 7), (0x06, immWord 6 6 0 0 2 7)].all (fun e =>
      firesB (coreAt e.2) 0 0 e.2 6 e.1) = true := by decide +kernel
theorem wit_TalliesPostsAndWaits : [(0x10, immWord 6 0x10 0 0 2 63), (0x11, immWord 6 0x11 0 0 2 63), (0x12, immWord 6 0x12 0 1 0 63),
    (0x08, regWord 6 8 0 0 2 3 0), (0x13, immWord 6 0x13 0 5 6 7)].all (fun e => firesB (coreAt e.2) 0 0 e.2 6 e.1) = true := by
  decide +kernel
/-- T − X of 2^31 − 1 has been reached, and of 2^31 has not (R236). -/
theorem test_serial_order : serialReached 0x7FFFFFFF 0 ∧ ¬ serialReached 0x80000000 0 := by
  unfold serialReached; decide +kernel
theorem wit_twait_ends : (waitAt .tally (immWord 6 0x13 0 5 6 7) (some 5000)).waitsFor 0 0 .tally =
    some ⟨.tally, immWord 6 0x13 0 5 6 7, some 5000⟩ ∧ 5000 ≤ (up.clk.ftime).toNat := by decide +kernel
theorem wit_CoresRaiseExceptions : (coreAt 0).coreRuns 0 0 = true ∧ legal ((coreAt 0).fetchWord 0 0) = false ∧
    ((coreAt 0).core 0).beyond = false ∧ (coreAt 0).fetchBad 0 0 = false ∧
    ((coreAt 0 { pc := 8191, pastEnd := true }).core 0).beyond = true := by decide +kernel
theorem wit_ItemsEndAndStart : firesB (coreAt (regWord 6 7 0 0 0 0 0)) 0 0 (regWord 6 7 0 0 0 0 0) 6 0x07 = true ∧
    ({ up with
      benches := [(0, { st := .awake, launch := some 1, items := [{ entry := 5, arg := 9 }] })],
      launch := { runs := [{ num := 1, idx := 0, ws := [], ctx := 1, benches := [0], started := true }] } } : State).runOn 0 =
      some { num := 1, idx := 0, ws := [], ctx := 1, benches := [0], started := true } := by decide +kernel
theorem wit_SpecialRegisters : [(0x01, immWord 7 1 0 1 0 0), (0x02, regWord 7 2 0 1 2 0 0), (0x10, regWord 7 0x10 0 1 2 0 0),
    (0x11, regWord 7 0x11 0 0 2 3 0)].all (fun e => firesB (coreAt e.2) 0 0 e.2 7 e.1) = true := by decide +kernel
theorem wit_Unlogged : Unlogged (coreAt 0) 0 := by
  intro x h; revert h; revert x; decide +kernel

/-! ### Communicate and fused -/

theorem wit_SendsQueuePackets : firesB (coreAt (regWord 4 1 0 1 2 3 4)) 0 0 (regWord 4 1 0 1 2 3 4) 4 0x01 = true ∧
    firesB (coreAt (regWord 5 7 0 1 2 3 4)) 0 0 (regWord 5 7 0 1 2 3 4) 5 0x07 = true := by decide +kernel
def inbound : Inbound := { pkt := { h := ⟨0, 0, 0x00010001, 0⟩, payload := [7] }, lp := none }
theorem wit_ReceivesTakePackets : firesB (coreAt (regWord 4 2 0 1 2 3 4) {} { recvQ := [inbound] }) 0 0 (regWord 4 2 0 1 2 3 4) 4 0x02 = true ∧
    firesB (coreAt (regWord 4 3 0 1 2 0 4)) 0 0 (regWord 4 3 0 1 2 0 4) 4 0x03 = true ∧
    firesB (coreAt (regWord 4 4 0 1 0 0 0)) 0 0 (regWord 4 4 0 1 0 0 0) 4 0x04 = true ∧ hPoison inbound.pkt.h = false ∧
    recvSize inbound.pkt = (recvBytes inbound.pkt).length := by decide +kernel
theorem wit_CoresContribute : [(1, regWord 5 1 0 1 2 3 4), (2, regWord 5 2 0 1 2 3 4 + w64 (5 * 2 ^ 25)), (3, regWord 5 3 0 1 2 3 4), (4, regWord 5 4 0 1 2 0 0),
    (5, regWord 5 5 0 1 2 0 4), (6, regWord 5 6 0 1 2 3 4), (8, immWord 5 8 0 1 0 3)].map (fun e => firesB (coreAt e.2) 0 0 e.2 5 e.1) =
      [true, true, true, true, true, true, true] := by decide +kernel

/-! ### The pool as a core sees it -/

/-- The state that a command answers. -/
def nx (i : Instr) (s : State) : State := match exec i s with | .next t => t | _ => s

/-- Context 1 holds bench 0 and a direct, writable window over the first 2 MiB of Loam; every controller is awake. -/
def pooled (s : State) : State := { s with
  ctxs := [(1, { st := .opened, perms := 15, benchSet := 1, collBase := 0x10000, ltCount := 4 })],
  pool := { s.pool with windows := [(winKey 1 0 0, 9), (winKey 1 0 2, 1)],
                        ctl := (List.range 28).map (fun k => (k, { st := .active, refresh := 1 })) } }

/-- Word of family 3 on space 2. -/
def poolWord (op sz : Nat) : W64 := regWord 3 op 0 1 2 3 0 + w64 (sz * 2 ^ 32 + 2 * 2 ^ 30)
def poolCore : Core := { sreg := [(2, 0x1000), (3, 5)] }

theorem wit_PoolAccessesBecomeOutstanding : [(1, immWord 3 1 0 1 2 0 + w64 (3 * 2 ^ 32 + 2 * 2 ^ 30)),
    (3, poolWord 3 3 - w64 (2 ^ 44)), (6, aadd), (7, aaddf)].all (fun e =>
      let s := pooled (coreAt e.2 poolCore)
      firesB s 0 0 e.2 3 e.1 && iSpace e.2 == 2 && s.spaceCheck 0 0 2 0x1000 8 true true == 0 &&
      memAddr poolCore e.2 == 0x1000 && poolCore.outs == []) = true := by decide +kernel

/-- Outstanding AADD of 5 at 0x1000, which holds 7. -/
def addOut : State :=
  let s := pooled (coreAt 0 { outs := [{ op := 6, addr := 0x1000, size := 8, dest := 1, x := 5, y := 0, data := [], mask := [] }] })
  { s with pool := { s.pool with mem := [(0x1000, 7)] } }
theorem wit_PoolReturnsAccess : addOut.powered = true ∧ addOut.memAwake 0x1000 8 = true ∧ addOut.resident 0x1000 8 = true ∧
    addOut.ueLines 0x1000 8 = [] ∧ addOut.poolAhead 0x1000 8 {} = false ∧ ((nx (.poolAccessReturn 0 0 0 .clean) addOut).core 0).s 1 = 7 ∧
    (nx (.poolAccessReturn 0 0 0 .clean) addOut).memRead 0x1000 8 = leBytes 8 12 := by decide +kernel

/-! ### Collectives, chunk programs, DMA and benches -/

/-- A sum of INT32 over 2 members, one chunk of one element; `flags` are further bits of word 0. -/
def entryWords (flags : Nat) : List W32 :=
  [w32 (1 + 2 ^ 5 * 12 + 2 ^ 9 * 12 + flags), 2, w32 (1 + 2 ^ 16), 1, 0, w32 (3 + 2 ^ 12 * 100), 0, 0, 0, 0, 0, 0, 0, 0, 0, 0]
def key1 : InstKey := ⟨0x1000, 0, 5⟩
/-- Context 1 with that entry as its entry 0, COLL_EN 1, and quota. -/
def collAt (flags : Nat) (s : State) : State :=
  let t := pooled s
  { t with
    ctxs := [(1, { st := .opened, perms := 15, benchSet := 1, collBase := 0x10000, crucibleQuota := 1000 })]
    regs := sset 0 t.regs Reg.collCtrl 1
    pool := { t.pool with mem := mwrite [] 0x10000 ((entryWords flags).flatMap (fun w => leBytes 4 w.toNat)) } }
/-- Its running instance. -/
def inst1 (flags : Nat) : Inst :=
  { key := key1, st := .running, entry := entryWords flags, total := 1, owners := [0], openedAt := 19000000000 }
/-- A message of the instance from member `m`. -/
def msg1 (s : State) (flags stype m : Nat) (vc : Nat := 2) (n : Nat := 1) (elems : List Byte := [9, 0, 0, 0]) (total : Nat := 1)
    (aux : W32 := 0) (k : InstKey := key1) (poison : Bool := false) : Inbound :=
  { pkt := mkPacket { s.collHdr k (s.ownUnit unitColl) false vc 0 with poison := poison }
      (subOf k stype 0 m n (digest (entryOf (entryWords flags)) total 5) aux ++ elems), lp := none }
def arr (s : State) (m : Inbound) (is : List Inst) : State := { s with coll := { insts := is, inq := [m] } }

/-- The conditions of the arrival claims, as checks. -/
def arrivesB (s : State) (stype : Nat) (m : Inbound) : Bool :=
  s.powered && decide (s.coll.inq = [m] ∧ m.core = none ∧ 24 ≤ m.pkt.payload.length ∧ (collMsgOf m).stype = stype)
theorem arrives_of {s : State} {st : Nat} {m : Inbound} (h : arrivesB s st m = true) : Arrives s st m [] := by
  simp only [arrivesB, Bool.and_eq_true, decide_eq_true_eq] at h
  exact ⟨h.1, h.2.1, h.2.2.1, h.2.2.2.1, h.2.2.2.2⟩

def passesB (s : State) (q : CollMsg) : Bool :=
  let c := s.ctx (handleCtx q.key.handle)
  decide (c.st = .opened ∧ c.fenced = false ∧ s.fault.oos = false ∧ s.collEn = true ∧ q.key.gen = c.gen ∧
    q.part = c.part.toNat ∧ s.recording (handleCtx q.key.handle) = false ∧ s.replaying (handleCtx q.key.handle) = false)
theorem passes_of {s : State} {q : CollMsg} (h : passesB s q = true) : ContextPasses s q := by
  obtain ⟨a, b, c, d, e, f, g⟩ := of_decide_eq_true h
  exact ⟨a, b, c, d, e, f, g⟩

def agreesB (x : Entry) (total : Nat) (ms : List W32) (q : CollMsg) : Bool :=
  decide (q.dg = digest x total q.key.step ∧ (x.mtabEn = true → ms.getD q.member 0 = q.src) ∧ q.poison = false)
theorem agrees_of {x : Entry} {n : Nat} {ms : List W32} {q : CollMsg} (h : agreesB x n ms q = true) : Agrees x n ms q := by
  obtain ⟨a, b, c⟩ := of_decide_eq_true h
  exact ⟨a, b, c⟩

def acceptedB (s : State) (q : CollMsg) (i : Inst) : Bool :=
  passesB s q && agreesB i.ent (digestOver i) i.members q && decide (s.inst? q.key = some i ∧ i.st = .running ∧ i.ent.valid = true ∧
    ContribForm i.ent i.total (i.offsets.getD q.member 0) (sget 0 i.counts q.member) (sget 0 (i.chunk q.chunk).recv q.member) q ∧
    (q.chunk < i.slots ∨ i.written.contains (q.chunk - i.slots) = true) ∧ i.written.contains q.chunk = false ∧
    (i.ent.varsize = false → (i.chunk q.chunk).seen.contains q.member = false))
theorem accepted_of {s : State} {q : CollMsg} {i : Inst} (h : acceptedB s q i = true) : Accepted s q i := by
  simp only [acceptedB, Bool.and_eq_true, decide_eq_true_eq] at h
  obtain ⟨⟨a, b⟩, c, d, e, f, g, k, l⟩ := h
  exact ⟨passes_of a, c, d, e, f, agrees_of b, g, k, l⟩

def newRecordB (s : State) (q : CollMsg) (total : Nat) : Bool :=
  let x := tableEntry s q.key.handle
  let c := handleCtx q.key.handle
  passesB s q && agreesB x total (s.memberTable x) q && decide (s.inst? q.key = none ∧ s.ueLines (s.entryAddr q.key.handle) 64 = [] ∧
    x.valid = true ∧ entryInvalid x (s.ownersOf c).length = false ∧
    (x.mtabEn = true → (s.findWin c x.mtab (4 * x.members)).isSome = true ∧ s.ueLines x.mtab (4 * x.members) = []) ∧
    s.coll.insts.length < 16384)
theorem newRecord_of {s : State} {q : CollMsg} {n : Nat} (h : newRecordB s q n = true) : NewRecord s q n := by
  simp only [newRecordB, Bool.and_eq_true, decide_eq_true_eq] at h
  obtain ⟨⟨a, b⟩, c, d, e, f, g, k⟩ := h
  exact ⟨passes_of a, c, d, e, f, g, agrees_of b, k⟩

def newStepB (s : State) (q : CollMsg) (sp : Bool) : Bool :=
  let x := tableEntry s q.key.handle
  newRecordB s q x.total && decide (x.varsize = false ∧ if x.frit = true then s.fritUsed < 64 ∧ sp = false
    else s.place x x.total (s.ownersOf (handleCtx q.key.handle)) (handleCtx q.key.handle) = some sp)
theorem newStep_of {s : State} {q : CollMsg} {sp : Bool} (h : newStepB s q sp = true) : NewStep s q sp := by
  simp only [newStepB, Bool.and_eq_true, decide_eq_true_eq] at h
  exact ⟨newRecord_of h.1, h.2.1, h.2.2⟩

def roomB (s : State) (q : CollMsg) : Bool :=
  (s.targetBenches q).all (fun b => decide (s.adderDepth b + cdiv (20 + q.payload.length) 256 ≤ 512) &&
    (List.range 8).all (fun k => (s.core (b * 8 + k)).wait.all (fun w => decide (w.kind ≠ .contrib))))
theorem room_of {s : State} {q : CollMsg} (h : roomB s q = true) : RoomFor s q := by
  intro b hb
  have h' := List.all_eq_true.1 h b hb
  simp only [Bool.and_eq_true, decide_eq_true_eq, List.all_eq_true, List.mem_range] at h'
  refine ⟨h'.1, fun k hk w hw => ?_⟩
  have := h'.2 k hk
  simpa [hw] using this

/-- Contributions that a running instance takes: one of a plain instance, a PARTIAL, and one of a frit instance. -/
def flagsF : Nat := 2 ^ 20 + 2 ^ 14
def instF (c : Chunk) : Inst := { inst1 flagsF with frit := true, chunks := [c] }
theorem wit_arrival_steered :
    let s := collAt 0 up
    let m := msg1 s 0 0 1
    let a := arr s m [inst1 0]
    Arrives a 0 m [] ∧ Accepted a (collMsgOf m) (inst1 0) ∧ RoomFor a (collMsgOf m) ∧
    ((nx (.contribArrival .clean) a).bench 0).adderQ = [contribOf (collMsgOf m) (inst1 0).ent] ∧
    ((nx (.contribArrival .clean) a).inst? key1).map (fun j => (j.chunk 0).seen) = some [1] :=
  ⟨arrives_of (by decide +kernel), accepted_of (by decide +kernel), room_of (by decide +kernel), by decide +kernel, by decide +kernel⟩
theorem wit_arrival_partial :
    let s := collAt 0 up
    let m := msg1 s 0 stPartial 1 2 1 (List.replicate 8 3)
    let a := arr s m [inst1 0]
    Arrives a stPartial m [] ∧ Accepted a (collMsgOf m) (inst1 0) ∧ RoomFor a (collMsgOf m) ∧
    ((nx (.partialArrival .clean) a).bench 0).adderQ.length = 1 :=
  ⟨arrives_of (by decide +kernel), accepted_of (by decide +kernel), room_of (by decide +kernel), by decide +kernel⟩
theorem wit_arrival_frit :
    let s := collAt flagsF up
    let m := msg1 s flagsF 0 1 1
    let i := instF { idx := 0 }
    let j := instF { idx := 0, seen := [0], main := { applied := [0] } }
    Arrives (arr s m [i]) 0 m [] ∧ Accepted (arr s m [i]) (collMsgOf m) i ∧ Accepted (arr s m [j]) (collMsgOf m) j ∧
    i.sideComplete 0 (takeInto i.ent true (contribOf (collMsgOf m) i.ent) (i.chunk 0).main) = false ∧
    j.sideComplete 0 (takeInto j.ent true (contribOf (collMsgOf m) j.ent) (j.chunk 0).main) = true ∧
    ((nx (.contribArrival .clean) (arr s m [j])).inst? key1).map (fun x => x.finalised) = some [0] :=
  ⟨arrives_of (by decide +kernel), accepted_of (by decide +kernel), accepted_of (by decide +kernel), by decide +kernel,
    by decide +kernel, by decide +kernel⟩
/-- A member seen before: only DUP_CONTRIB changes (R128). -/
theorem wit_arrival_duplicate :
    let s := collAt 0 up
    let m := msg1 s 0 0 1
    let i := { inst1 0 with chunks := [{ idx := 0, seen := [1] }] }
    let a := arr s m [i]
    ContextPasses a (collMsgOf m) ∧ Agrees i.ent (digestOver i) i.members (collMsgOf m) ∧ WholeElems i.ent (collMsgOf m) ∧
    (nx (.contribArrival .clean) a).coll.insts = a.coll.insts ∧ (nx (.contribArrival .clean) a).regN Reg.dupContrib = 1 :=
  ⟨passes_of (by decide +kernel), agrees_of (by decide +kernel), by decide +kernel, by decide +kernel, by decide +kernel⟩
theorem wit_arrival_opens :
    let s := collAt 0 up
    let m := msg1 s 0 stOpen 0 2 0 []
    let c := msg1 s 0 0 1
    Arrives (arr s m []) stOpen m [] ∧ NewStep (arr s m []) (collMsgOf m) false ∧ NewStep (arr s c []) (collMsgOf c) false ∧
    RoomFor (arr s c []) (collMsgOf c) ∧ (arr s m []).memAwake (s.entryAddr key1.handle) 64 = true ∧
    ContribForm (tableEntry s key1.handle) (tableEntry s key1.handle).total 0 0 0 (collMsgOf c) ∧
    ((nx .openArrival (arr s m [])).inst? key1).isSome = true ∧
    ((nx (.contribArrival .clean) (arr s c [])).bench 0).adderQ.length = 1 ∧
    ContextPasses (arr s m [inst1 0]) (collMsgOf m) ∧ Agrees (inst1 0).ent 1 [] (collMsgOf m) ∧
    (nx .openArrival (arr s m [inst1 0])).coll.insts = [inst1 0] :=
  ⟨arrives_of (by decide +kernel), newStep_of (by decide +kernel), newStep_of (by decide +kernel), room_of (by decide +kernel),
    by decide +kernel, by decide +kernel, by decide +kernel, by decide +kernel, passes_of (by decide +kernel),
    agrees_of (by decide +kernel), by decide +kernel⟩
/-- COUNT messages of member 1: the first, one held, and the last of two members (R143). -/
def flagsV : Nat := 2 ^ 21
def instV (got : List Nat) : Inst :=
  { inst1 flagsV with st := .counting, total := 0, memberChunks := got.map (fun k => (k, 1)), counts := got.map (fun k => (k, 1)) }
theorem wit_arrival_counts :
    let s := collAt flagsV up
    let m := msg1 s flagsV stCount 1 1 0 [] 0 1
    let q := collMsgOf m
    Arrives (arr s m []) stCount m [] ∧ ContextPasses (arr s m []) q ∧ NewRecord (arr s m []) q 0 ∧ (arr s m []).fritUsed < 64 ∧
    Agrees (instV [0]).ent 0 (instV [0]).members q ∧ sget 0 (instV [0]).memberChunks q.member = 0 ∧ swf 0 (instV [0]).memberChunks = true ∧
    ((arr s m [instV [0]]).place (instV [0]).ent 2 ((arr s m [instV [0]]).ownersOf (instV [0]).ctx) (instV [0]).ctx).isSome = true ∧
    ((nx .countArrival (arr s m [])).inst? key1).map (fun j => (j.st, sget 0 j.counts 1)) = some (.counting, 1) ∧
    ((nx .countArrival (arr s m [instV []])).inst? key1).map (fun j => (j.st, sget 0 j.counts 1)) = some (.counting, 1) ∧
    ((nx .countArrival (arr s m [instV [0]])).inst? key1).map (fun j => (j.st, j.total, j.offsets)) = some (.running, 2, [0, 1]) :=
  ⟨arrives_of (by decide +kernel), passes_of (by decide +kernel), newRecord_of (by decide +kernel), by decide +kernel,
    agrees_of (by decide +kernel), by decide +kernel⟩
/-- The upper tier's handle 7 and its answers (R137). -/
def instU (done : List Nat) : Inst :=
  { inst1 (2 ^ 23) with entry := (entryWords (2 ^ 23)).set 7 7, chunks := [{ idx := 0, sent := true }], written := [0], upperDone := done }
theorem wit_arrival_upper :
    let s := collAt 0 up
    let k : InstKey := ⟨7, 0, 5⟩
    let m := msg1 s 0 stResult 0 3 1 [9, 0, 0, 0] 1 0 k
    let e := msg1 s 0 stStatus 0 3 0 [] 1 8 k
    let i := instU []
    Arrives (arr s m [i]) stResult m [] ∧ (arr s m [i]).upperMatch (collMsgOf m) = some i ∧ (arr s m []).upperMatch (collMsgOf m) = none ∧
    Arrives (arr s e [i]) stStatus e [] ∧ (arr s e [i]).upperMatch (collMsgOf e) = some i ∧ (arr s m [i]).recording i.ctx = false ∧
    ((nx .upperResultArrival (arr s m [i])).inst? key1).map (fun j => (j.st, j.upperDone)) = some (.complete, [0]) ∧
    (nx .upperResultArrival (arr s m [])).regN Reg.upperOrphan = 1 ∧
    ((nx .upperStatusArrival (arr s e [i])).inst? key1).map (fun j => (j.st, j.code)) = some (.poisoned, 8) :=
  ⟨arrives_of (by decide +kernel), by decide +kernel, by decide +kernel, arrives_of (by decide +kernel), by decide +kernel⟩

theorem wit_arrival_upper_poison :
    let m := msg1 (collAt 0 up) 0 stResult 0 3 1 [9, 0, 0, 0] 1 0 ⟨7, 0, 5⟩ true
    Arrives (arr (collAt 0 up) m [instU []]) stResult m [] ∧
    ((nx .upperResultArrival (arr (collAt 0 up) m [instU []])).inst? key1).map (fun j => (j.st, j.code)) = some (.poisoned, 0x07) :=
  ⟨arrives_of (by decide +kernel), by decide +kernel⟩

/-- A contribution of member 1 at bench 0. -/
def contrib1 : Contribution :=
  { key := key1, chunk := 0, member := 1, ecount := 1, first := 0, isPartial := false, elems := [9, 0, 0, 0], sub := [], src := 0,
    core := none, twin := false }
def queued (i : Inst) : State :=
  let s := collAt 0 up
  { s with coll := { insts := [i] }, benches := [(0, { st := .awake, adderQ := [contrib1] })] }
theorem wit_CollectiveProgress :
    let s := queued (inst1 0)
    s.powered = true ∧ s.fenceActive = false ∧ s.adderNext 0 = .take contrib1 ∧
    ((nx (.adderTake 0 .clean) s).bench 0).adderQ = [] ∧
    ((nx (.adderTake 0 .clean) s).inst? key1).map (fun j => ((j.chunk 0).side false).applied) = some [1] := by decide +kernel
theorem wit_instance_ends :
    let i := { inst1 0 with chunks := [{ idx := 0, sent := true }] }
    let s := queued i
    s.writeHeld key1 0 = false ∧ ((nx (.resultWriteComplete key1 0) s).inst? key1).map (·.written) = some [0] ∧
    i.openedAt + i.timeoutNs ≤ s.now ∧ ((nx (.instanceTimeout key1) s).inst? key1).map (fun j => (j.st, j.code)) = some (.abandoned, 0x08) ∧
    (nx (.tombHoldExpiry key1) (queued { i with st := .complete, tombAt := 0 })).inst? key1 = none := by decide +kernel
theorem wit_twin :
    let i := { inst1 0 with twinClaim := 0x40, chunks := [{ idx := 0, twin := { result := some ([9], 19999998500) } }] }
    ((nx (.twinHoldExpiry key1 0) (queued i)).inst? key1).map (·.primClaim) = some 0 := by decide +kernel
/-- 1 ns before the 1.5 µs of R147 the primary keeps its claim. -/
theorem test_twin_early :
    let i := { inst1 0 with twinClaim := 0x40, chunks := [{ idx := 0, twin := { result := some ([9], 19999998501) } }] }
    ((nx (.twinHoldExpiry key1 0) (queued i)).inst? key1).map (·.primClaim) = some 0x80 := by decide +kernel

/-- Core 0 bound to chunk 0 about to issue `w`. -/
def bound (w : W64) (x : Core) (q : List Contribution := [contrib1]) : State :=
  let s := collAt (2 ^ 22) (coreAt w { x with bound := some (key1, 0) } { adderQ := q })
  { s with coll := { insts := [inst1 (2 ^ 22)] } }
theorem wit_ChunkProgramsReduce :
    let w := regWord 5 5 0 1 2 0 4
    let s := bound w { sreg := [(4, 0x100)] }
    s.boundRec 0 0 = some (inst1 (2 ^ 22), 0) ∧ firesB s 0 0 w 5 0x05 = true ∧ s.ctakeHead 0 (inst1 (2 ^ 22)) 0 = some contrib1 ∧
    lsCheck 0x100 (s.ctakeBytes 0 0) = 0 ∧ s.badCount 0 0 0 0x100 4 false = 0 ∧
    (nx (.ctake 0 0) s).spaceBytes 0 0 0 0x100 4 = [9, 0, 0, 0] ∧
    ((nx (.ctake 0 0) s).core 0).s 1 = w64 (256 + 2 ^ 20) := by decide +kernel
theorem wit_ctake_waits :
    let w := regWord 5 5 0 1 2 0 4
    let s := bound w { sreg := [(2, 50), (4, 0x100)] } []
    s.ctakeHead 0 (inst1 (2 ^ 22)) 0 = none ∧ (inst1 (2 ^ 22)).sideComplete 0 (sideOf (inst1 (2 ^ 22)) 0 0) = false ∧
    ((nx (.ctake 0 0) s).core 0).wait = some ⟨.ctake, w, some 5050⟩ := by decide +kernel
theorem wit_final :
    let w := regWord 5 6 0 1 2 3 4 + w64 (12 * 2 ^ 25)
    let s := bound w { sreg := [(2, 0x500001000), (3, 2 ^ 24), (4, 0x100)] }
    firesB s 0 0 w 5 0x06 = true ∧ s.finalCode 0 0 w 0x500001000 0x1000000 = 0 ∧
    ((nx (.finalChunk 0 0) s).core 0).bound = none ∧ ((nx (.finalChunk 0 0) s).core 0).pc = 1 ∧
    ((nx (.finalChunk 0 0) s).inst? key1).map (·.finalised.contains 0) = some true := by decide +kernel
theorem wit_cinfo :
    let w := immWord 5 8 0 1 0 3
    firesB (bound w { statusRec := 7 }) 0 0 w 5 0x08 = true ∧
    ((nx (.cinfo 0 0) (bound w { statusRec := 7 })).core 0).s 1 = 7 ∧
    ((nx (.cinfo 0 0) (bound w { statusRec := 7 })).core 0).statusRec = 0 := by decide +kernel
/-- The conditions on a core's contribution, as checks. -/
def mayB (s : State) (b : Fin 100) (h : BitVec 20) : Bool :=
  decide (b.val ≠ 99 ∧ s.coreCtx b = some (handleCtx h) ∧ (s.ctx (handleCtx h)).st = .opened ∧ (s.ctx (handleCtx h)).fenced = false ∧
    s.collEn = true ∧ s.ueLines (s.entryAddr h) 64 = [] ∧ (tableEntry s h).valid = true ∧
    entryInvalid (tableEntry s h) (s.ownersOf (handleCtx h)).length = false)
theorem may_of {s : State} {b : Fin 100} {h : BitVec 20} (e : mayB s b h = true) : MayContribute s b h := by
  obtain ⟨a, b, c, d, e, f, g, i⟩ := of_decide_eq_true e
  exact ⟨a, b, c, d, e, f, g, i⟩
def contributesB (s : State) (b : Fin 100) (c : Fin 8) (w : W64) : Bool :=
  let x := s.core (coreNo b c)
  let n := fld (x.s (iB w)) 24 16
  let y := tableEntry s (coHandle (x.s (iA w)))
  mayB s b (coHandle (x.s (iA w))) && decide (lsCheck (x.s (iC w)) (elemBytes (iType w) n) = 0 ∧
    s.badCount b c 0 (x.s (iC w)).toNat (elemBytes (iType w) n) false = 0 ∧ fld (x.s (iB w)) 40 24 = 0 ∧ n ≠ 0 ∧
    elemBytes y.etype n ≤ (if y.frit then 256 else 8168) ∧ (isMx y.etype = true ∨ (iOp w = 2 ∧ isMx (iType w) = true) → n % 32 = 0) ∧
    (iOp w = 2 → isMx y.etype = false))
theorem contributes_of {s : State} {b : Fin 100} {c : Fin 8} {w : W64} (e : contributesB s b c w = true) : Contributes s b c w := by
  simp only [contributesB, Bool.and_eq_true, decide_eq_true_eq] at e
  exact ⟨may_of e.1, e.2.1, e.2.2.1, e.2.2.2.1, e.2.2.2.2.1, e.2.2.2.2.2.1, e.2.2.2.2.2.2.1, e.2.2.2.2.2.2.2⟩

/-- Core 0 about to contribute member 0's element of INT32, with opcode `op` of type `ty`. -/
def giveWord (op ty : Nat) : W64 := regWord 5 op 0 1 2 3 4 + w64 (ty * 2 ^ 25)
def giving (flags : Nat) (w : W64) (is : List Inst) (q : List Contribution := []) (n : Nat := 1) : State :=
  let s := collAt flags (coreAt w { sreg := [(1, 0x3F800000), (2, 0x500001000), (3, w64 (n * 2 ^ 24)), (4, 0x100)] } { adderQ := q })
  { s with coll := { insts := is } }
theorem wit_CoresContribute_fire : [(0x01, 12, 1), (0x02, 5, 32), (0x03, 1, 1)].all (fun e =>
    let s := giving 0 (giveWord e.1 e.2.1) [] [] e.2.2
    firesB s 0 0 (giveWord e.1 e.2.1) 5 e.1 && contributesB s 0 0 (giveWord e.1 e.2.1)) =
      true := by decide +kernel
theorem wit_Contributes :
    let w := giveWord 1 12
    let s := giving 0 w [inst1 0]
    let n := giving 0 w []
    let f := giving flagsF w []
    let q := fun (s : State) => collMsgOf (coreContribution s 0 0 w)
    Fires s 0 0 w 5 0x01 ∧ Contributes s 0 0 w ∧ Accepted s (q s) (inst1 0) ∧ Contributes n 0 0 w ∧ NewStep n (q n) false ∧
    Contributes f 0 0 w ∧ s.adderRoom 0 1 = true ∧
    ContribForm (tableEntry n key1.handle) (tableEntry n key1.handle).total 0 0 0 (q n) ∧
    ((nx (.contrib 0 0) s).bench 0).adderQ.length = 1 ∧ ((nx (.contrib 0 0) n).inst? key1).isSome = true ∧
    ((nx (.contrib 0 0) n).core 0).s 1 = 0 ∧
    (nx (.contrib 0 0) f).coll.inq.map (fun m => (m.core, (collMsgOf m).key)) = [(some (0, 0), key1)] :=
  ⟨fires_of (by decide +kernel), contributes_of (by decide +kernel), accepted_of (by decide +kernel), contributes_of (by decide +kernel),
    newStep_of (by decide +kernel), contributes_of (by decide +kernel), by decide +kernel⟩
/-- Its bench's queue is full: the core waits, and goes on when there is room (R199, R256). -/
theorem wit_contrib_waits :
    let w := giveWord 1 12
    let s := giving 0 w [inst1 0] (List.replicate 512 contrib1)
    let t := { giving 0 w [inst1 0] with cores := [(0, { (giving 0 w []).core 0 with run := .waiting, wait := some ⟨.contrib, w, none⟩ })] }
    Contributes s 0 0 w ∧ (s.targetBenches (collMsgOf (coreContribution s 0 0 w))).contains 0 = true ∧ s.adderRoom 0 1 = false ∧
    ((nx (.contrib 0 0) s).core 0).wait = some ⟨.contrib, w, none⟩ ∧ t.waitsFor 0 0 .contrib = some ⟨.contrib, w, none⟩ ∧
    Contributes t 0 0 w ∧ ((nx (.contribIssueResume 0 0) t).bench 0).adderQ.length = 1 :=
  ⟨contributes_of (by decide +kernel), by decide +kernel, by decide +kernel, by decide +kernel, by decide +kernel,
    contributes_of (by decide +kernel), by decide +kernel⟩
theorem wit_copen :
    let w := regWord 5 4 0 1 2 0 0
    let s := giving 0 w []
    let q := collMsgOf (s.coreMsg 0 0 0x500001000 stOpen 0 0 [])
    Fires s 0 0 w 5 0x04 ∧ MayContribute s 0 key1.handle ∧ NewStep s q false ∧ q.member < (tableEntry s key1.handle).members ∧
    ((nx (.copen 0 0) s).inst? key1).isSome = true ∧ ContextPasses (giving 0 w [inst1 0]) q ∧
    ((nx (.copen 0 0) (giving 0 w [inst1 0])).core 0).statusRec ≠ 0 :=
  ⟨fires_of (by decide +kernel), may_of (by decide +kernel), newStep_of (by decide +kernel), by decide +kernel, by decide +kernel,
    passes_of (by decide +kernel), by decide +kernel⟩

theorem wit_copen_waits :
    let w := regWord 5 4 0 1 2 0 0
    let m := (giving 0 w []).coreMsg 0 0 0x500001000 stOpen 0 0 []
    let s := { giving 0 w [] with coll := { (giving 0 w []).coll with inq := [m] } }
    Fires s 0 0 w 5 0x04 ∧ MayContribute s 0 key1.handle ∧ (∃ j ∈ s.coll.inq, j.core = m.core) ∧
    (nx (.copen 0 0) s).coll.inq = [m, m] :=
  ⟨fires_of (by decide +kernel), may_of (by decide +kernel), by decide +kernel, by decide +kernel⟩

/-- A transfer of 64 bytes from 0x1000 of the pool to 0x40 of the local store, tally 5. -/
def desc : DmaDesc := ⟨[w32 (1 + 2 ^ 4 * 5), 64, 0x1000, 0, 0x40, 0, 0, 0]⟩
def dmaQueued (d : DmaDesc) : State :=
  let s := pooled (coreAt 0 { dmaQ := [d] })
  { s with pool := { s.pool with mem := [(0x1001, 7)] } }
def dmaRunning : State := pooled (coreAt 0 {} { dmaActive := [(0, (desc, {}))] })
theorem wit_DmaTransfers : (dmaQueued desc).dmaCode 0 0 desc = 0 ∧ dSpaces desc 0 = some (.pool, .store 0) ∧
    ((nx (.dmaDescriptorExecute 0) (dmaQueued desc)).bench 0).dmaActive.map (fun e => (e.1, e.2.1)) = [(0, desc)] ∧
    ((nx (.dmaDescriptorExecute 0) (dmaQueued desc)).bench 0).dmaTurn = 1 ∧
    (nx (.dmaDescriptorExecute 0) (dmaQueued ⟨[1, 0, 0x1000, 0, 0x40, 0, 0, 0]⟩)).tally 0 0 = 1 ∧
    dmaRunning.dmaSrcBad 0 0 .pool 0x1000 64 = none ∧ dmaRunning.memAwake 0x1000 64 = true ∧ dmaRunning.resident 0x1000 64 = true ∧
    (nx (.dmaComplete 0 0) { dmaRunning with pool := { dmaRunning.pool with mem := [(0x1001, 7)] } }).spaceBytes 0 0 0 0x40 3 = [0, 7, 0] ∧
    (nx (.dmaComplete 0 0) dmaRunning).tally 0 5 = 1 := by decide +kernel

def idleBench : State := { up with benches := [(0, { st := .awake, tallies := [(3, 9)] })], freeCtr := 4 }
theorem wit_BenchesSleepAndWake : idleBench.benchIdle 0 = true ∧ ((nx (.benchSleep 0 false) idleBench).bench 0).st = .asleep ∧
    ((nx (.benchSleep 0 false) idleBench).bench 0).tallies = [(3, 9)] ∧
    ((nx (.benchSleep 0 true) idleBench).bench 0).st = .awake ∧ (nx (.benchSleep 0 true) idleBench).regN (Reg.wakeRace 0) = 1 ∧
    ((nx (.benchWakeComplete 0) { up with benches := [(0, { st := .waking })] }).bench 0).st = .awake ∧
    ((nx (.clockRampComplete 0) { up with benches := [(0, { halfRate := true, wokeAt := 19999980000 })] }).bench 0).halfRate = false := by
  decide +kernel
def wardenDown (n : Nat) : State :=
  { up with fault := { up.fault with wardenOwed := true, wardenRestarts := List.replicate n 1 } }
/-- The eighth restart in 600 s still runs; the ninth is held (R193). -/
theorem wit_wardenRestart : (nx .wardenRestart (wardenDown 7)).fault.wardenHeld = false ∧
    (nx .wardenRestart (wardenDown 8)).fault.wardenHeld = true := by
  decide +kernel

/-! ### Registers, tables and contexts -/

/-- `Writable`, as one check; `up` holds no low word and no latch, so every requester is `Clear`. -/
def writableB (s : State) (off : Nat) (v : W64) : Bool :=
  s.powered && !s.resetBlocks off && !s.absentReg off && (match findReg off with
    | some w => w.acc != .ro && w.acc != .rc && !w.lock.any s.lockBit && w64 (v.toNat &&& w.mask) == v
    | none => false)
theorem writable_of {s : State} {off : Nat} {v : W64} (h : writableB s off v = true) : Writable s off v := by
  simp only [writableB, Bool.and_eq_true, Bool.not_eq_true'] at h
  obtain ⟨⟨⟨h1, h2⟩, h3⟩, h4⟩ := h
  refine ⟨h1, h2, h3, ?_⟩
  split at h4
  · rename_i w hw
    simp only [Bool.and_eq_true, bne_iff_ne, Bool.not_eq_true', beq_iff_eq] at h4
    exact ⟨w, hw, h4.1.1.1, h4.1.1.2, h4.1.2, h4.2⟩
  · cases h4
theorem wit_Clear (r : Requester) (h : r ≠ .debug) : Clear up r := by
  refine ⟨fun _ h => (by cases h), fun _ h => (by cases h), ?_, ?_⟩ <;> cases r <;> first | exact absurd rfl h | rfl
/-- A debug port at level 2, the identity erased. -/
def unlocked : State := { up with boot := { up.boot with debugLevel := 2, keyPresent := false, seedPresent := false, identityErased := true } }
theorem wit_Clear_debug : Clear unlocked .debug :=
  ⟨fun _ h => (by cases h), fun _ h => (by cases h), by decide, by decide⟩

theorem wit_plainRegs : plainRegs.all (fun off => writableB up off 0) = true := by decide +kernel
theorem wit_RegisterAccesses : Writable up 0x30 0xFFFF := writable_of (by decide +kernel)
/-- The IGNORED record of R505: a host's write to a read-only offset. -/
theorem test_ignored : (nx (.registerWrite .host 0 4 0xF 1) up).regN Reg.ignoredWrites = 1 ∧
    ((findReg 0).map (fun w => (w.wide, decide (w.acc = .ro)))) = some (false, true) ∧
    (nx (.unassignedOffsetAccess .host 0x3FFFFFC false) up).out = [.readData .host 0x3FFFFFC 0] ∧ findReg 0x3FFFFFC = none := by decide +kernel
/-- A low word read latches the high word, which one read gives; a low word is held for 1 µs (R7, R494). -/
theorem wit_two_words : (wideAt (Reg.expectId 0)).isSome = true ∧
    (nx (.highWordWrite .host (Reg.expectId 0 + 4) 1) (nx (.lowWordWrite .host (Reg.expectId 0) 2) up)).reg (Reg.expectId 0) = 0x100000002 ∧
    (nx (.heldLowWordExpiry .host) { up with heldLow := [(.host, Reg.expectId 0, 2, 19999998999)] }).regN Reg.ignoredWrites = 1 ∧
    (nx (.highWordRead .host (Reg.expectId 0 + 4)) { up with latches := [(.host, Reg.expectId 0, 6)] }).out =
      [.readData .host (Reg.expectId 0 + 4) 6] := by decide +kernel

theorem wit_RegisterSettings : writableB up Reg.scLock 1 = true ∧ writableB up Reg.rtLock 1 = true ∧ writableB up Reg.globalLock 1 = true ∧
    writableB up Reg.ownCoord 0x1F000 = true ∧ writableB up (xcredOff 4 2) 0 = true ∧ writableB up (tcredOff 4 2) 0 = true ∧
    writableB up (Reg.injCtrl 7) 9 = true ∧ writableB up (Reg.eyeCtrl 7) (w64 (10 * 2 ^ 16 + 1)) = true ∧
    writableB up (Reg.prbsCtrl 7) 1 = true ∧ up.laneFree 7 = true ∧ writableB up (Reg.spareCfg 512) 8 = true ∧
    writableB up (Reg.bwCtrl 5) 20 = true ∧ writableB up Reg.ltBase 0x400000 = true ∧ writableB up Reg.spillBase 0x40000000 = true ∧
    writableB up Reg.collCtrl 0 = true ∧ writableB up Reg.ltCtrl 0 = true ∧ writableB up (Reg.benchCtrl 5) 1 = true ∧
    writableB up Reg.fmaxCtrl 4 = true ∧ writableB up Reg.lehrCtrl (w64 (24 * 16 + 2)) = true ∧ writableB up (Reg.portCfg 4) 0 = true ∧
    writableB up (Reg.cnt 128 3) 0xFFFFFFFFFFFF = true := by decide +kernel
theorem test_settings : (nx (.lockWrite .host .sc 1) up).reg Reg.scLock = 1 ∧ (nx (.lockWrite .host .sc 0) (nx (.lockWrite .host .sc 1) up)).reg Reg.scLock = 1 ∧
    (nx (.fmaxCtrlWrite .host 4) up).pwr.benchBin = 4 ∧ (nx (.fmaxCtrlWrite .host 5) up).regN Reg.ignoredWrites = 1 ∧
    (nx (.lehrStart .host 0x182) up).pwr.lehrStep = 1 ∧ (nx (.prbsCtrlWrite .host 7 1) up).reg (Reg.prbsCtrl 7) = 1 ∧
    ((nx (.prbsCtrlWrite .host 7 1) up).lane 7).st = .test ∧ (nx (.ownCoordWrite .host 0x0001F000) up).regN Reg.ignoredWrites = 0 ∧
    (nx (.ownCoordWrite .host 0x0001EF00) up).regN Reg.ignoredWrites = 1 ∧ (nx (.cntWrite .host 128 3 7) up).reg (Reg.cnt 128 3) = 7 ∧
    (nx (.evselWrite .host 128 3 0x147) up).reg (Reg.evsel 128 3) = 0x147 := by decide +kernel

/-- An armed swap that is due, and a copy in progress. -/
theorem wit_RouteTables : writableB up Reg.swapCmd 1 = true ∧ writableB up Reg.swapCmd 2 = true ∧ writableB up Reg.swapCmd 4 = true ∧
    (nx (.swapArm .host) { up with regs := [(Reg.swapAt, 6000)] }).route.swap = 1 ∧
    (nx (.swapArm .host) { up with regs := [(Reg.swapAt, 5000)] }).route.swap = 3 ∧
    (nx .tableBankSwap { up with regs := [(Reg.swapAt, 5000)], route := { swap := 1 } }).route.activeBank = true ∧
    (nx (.swapCopy .host) { up with route := { tbl := [(entryAddr false 0 1, 9)] } }).tblWord true 0 1 0 = 9 ∧
    (nx (.tableCommit .host 0x100) { up with regs := sset 0 [] (Reg.stage 0) 3 }).tblWord false 0 1 0 = 3 &&& entryMask 0 0 ∧
    (nx (.rejoinHoldEnd 5) { up with route := { rejoin := [(5, 0)] } }).route.rejoin = [] ∧
    (nx (.tableSweep [⟨false, 0, 1⟩] 0) up).fault.log.map (fun e => (e.cls, e.action)) = [(0x08, 2)] := by decide +kernel

def createStaged : State := { up with regs := sset 0 up.regs 0x2000 1 }
theorem wit_ContextsAndWindows : writableB up Reg.ctxCmd 0x101 = true ∧ writableB up Reg.winCmd 1 = true ∧
    (nx (.restingExpiry 1) { up with ctxs := [(1, { st := .resting, gen := 3 })] }).ctx 1 = { st := .free, gen := 3 } ∧
    ((nx (.teardown .host 1) (pooled up)).ctx 1).st = .closing ∧
    ((nx (.teardownComplete 1) { up with ctxs := [(1, { st := .closing })] }).ctx 1).gen = 1 ∧
    (nx .contextCreateComplete { up with ctxs := [(1, { st := .opened, gen := 2 })], ctxCmd := some ⟨1⟩ }).ctxResult = 0x02010000 := by
  decide +kernel

/-! ### Launches, fabric time, replay -/

/-- Entry 0 of the launch table: context 1, bench 0, ENTRY 8, ARG0 77, COUNT 4000. -/
def ltWords (n : Nat) : List W64 := [w64 (1 + 2 ^ 16 + 8 * 2 ^ 32), 1, 0, w64 n, 77, 0, 0, 0]
def launchable (n : Nat) : State :=
  let s := pooled up
  { s with
    ctxs := [(1, { st := .opened, perms := 15, benchSet := 1, ltFirst := 0, ltCount := 4 })]
    regs := sset 0 (sset 0 s.regs Reg.ltCtrl 1) Reg.ltBase 0x400000
    benches := [(0, { st := .awake })]
    pool := { s.pool with mem := mwrite [] 0x400000 ((ltWords n).flatMap (fun w => leBytes 8 w.toNat)) } }
def listed0 (n : Nat) : State := { launchable n with launch := { listed := [{ idx := 0, ws := ltWords n }] } }
theorem wit_LaunchesRun : (launchable 4000).scanning = true ∧ (launchable 4000).sweepIdx = [0] ∧
    (nx .ltSweep (launchable 4000)).launch.listed = [{ idx := 0, ws := ltWords 4000 }] ∧
    (listed0 4000).dueEntry = some { idx := 0, ws := ltWords 4000 } ∧ (listed0 4000).takeCode 0 (ltWords 4000) = 0 ∧
    (listed0 4000).recRoom 1 64 = true ∧ ((nx .launchTake (listed0 4000)).core 7).pc = 8 ∧
    ((nx .launchTake (listed0 4000)).core 7).s 1 = 77 ∧ ((nx .launchTake (listed0 4000)).core 7).run = .running ∧
    (nx .launchTake (listed0 4000)).regN Reg.launches = 1 := by decide +kernel
theorem wit_launch_wakes : ((nx (.launchWake 0) { listed0 6000 with benches := [] }).bench 0).st = .waking ∧
    (nx .launchTake { listed0 4000 with ctxs := [] }).regN Reg.launchRefused = 1 := by decide +kernel
/-- A taken launch whose image of 16 instructions is at 0x2000 waits for it, then starts. -/
def run0 (img : Nat) (w : Bool) : Run :=
  { num := 4, idx := 0, ws := [w64 (1 + 2 ^ 16 + 8 * 2 ^ 32), 1, 0, 0, 77, 0, w64 (0x2000 + img * 2 ^ 48), 0], ctx := 1,
    benches := [0], waitsImage := w }
theorem wit_launch_starts :
    let s := { launchable 0 with launch := { runs := [run0 16 true] } }
    s.runBlocked (run0 16 true) = false ∧ (s.findWin 1 0x2000 128).isSome = true ∧ s.meetsUe 0x2000 128 false = false ∧
    ((nx (.imageLoadComplete 0) s).core 3).loadLimit = 16 ∧
    (({ launchable 0 with launch := { runs := [run0 0 false] } } : State).canStart (run0 0 false)) = true ∧
    ((nx .launchStart { launchable 0 with launch := { runs := [run0 0 false] } }).core 3).pc = 8 := by decide +kernel

/-- The root's time is set once (R279); a request out since 10 µs counts (R281). -/
theorem wit_FabricTime : writableB { up with clk := { up.clk with timeValid := false } } Reg.ftimeSet 9 = true ∧
    up.clk.ftime = up.clk.ftimeB ∧
    (nx .timeRequestTimeout { up with clk := { up.clk with reqOut := some (1, 2, 19999990000) } }).clk.lostRun = 1 ∧
    (nx .timeRequestTimeout { up with clk := { up.clk with reqOut := some (1, 2, 19999990001) } }).clk.lostRun = 0 ∧
    (nx .ftimeCompare { up with clk := { up.clk with ftimeB := 1 } }).fault.deferred = [(2, 0x13, 0)] := by decide +kernel
def timePkt (kind : Nat) (rest : List Byte) : Inbound :=
  { pkt := { h := mkHdr { dest := 0, src := 0x20000, len := 48, vc := 0, mc := false, part := 0, chan := 0, seq := 0, hop := 1 }, payload := [byte kind, 0] ++ rest }, lp := none, arrivedAt := 5000 }
/-- A response to request 7, sent at 4000: the offset is half of (4600 − 4000) + (4640 − 5000) ns, in 1/16 ns. -/
def respond : State := { up with
  regs := [(Reg.timeCtrl, 2)]
  clk := { up.clk with reqOut := some (7, 4000, 0) }
  sw := { ctlIn := [timePkt 2 (leBytes 2 7 ++ leBytes 4 0 ++ leBytes 8 4000 ++ leBytes 8 4600 ++ leBytes 8 4640 ++ leBytes 8 1 ++ leBytes 8 0)] } }
theorem wit_time_response : timePacket 2 (respond.sw.ctlIn.headD (timePkt 0 [])).pkt = true ∧
    (nx .timeResponseArrival respond).clk.lastOffset = 1920 ∧ (nx .timeResponseArrival respond).clk.slew = 1920 * 4096 ∧
    (nx .timeResponseArrival respond).clk.reqOut = none := by decide +kernel

/-- A source whose port 0 is ACTIVE sends its due request; a superseded one counts when its 10 µs pass (R281, R283). -/
theorem wit_time_request :
    let s := { up with regs := [(Reg.timeCtrl, 2)], ports := [(0, { st := .active })] }
    s.isSource = true ∧ s.portActive s.srcPort = true ∧ s.clk.lastReqAt + s.timePeriod ≤ s.now ∧ (s.internalCharge 2 [0] 0).isSome = true ∧
    (nx .timeRequestTimeout { up with clk := { up.clk with reqOld := [19999990000], reqOut := some (1, 2, 19999999999) } }).clk.lostRun = 1 ∧
    timePacket 1 (timePkt 1 []).pkt = true ∧ timePacket 1 (timePkt 3 []).pkt = false ∧ timePacket 2 (timePkt 3 []).pkt = false ∧
    (nx .timeRequestArrival { up with sw := { ctlIn := [timePkt 3 []] } }).regN Reg.timeBad = 1 := by decide +kernel

/-- A recording that stops writes its STOP record; the record queue drains. -/
def rplSet (st : RplState) : State :=
  let s := pooled up
  { s with rpl := [(1, { st := st, used := 96, rseq := 1 })], regs := sset 0 (sset 0 s.regs (Reg.rplCtrl 1) 1) (0x8000 + 0x40 + 8) 0x8000 }
theorem wit_RecordsAndReplays : (rplSet .recording).recording 1 = true ∧ writableB (rplSet .recording) (Reg.rplCtrl 1) 0 = true ∧
    ((nx (.rplStop .host 1 false) (rplSet .recording)).rplOf 1).st = .stopped ∧
    ((nx (.rplStop .host 1 false) (rplSet .replaying)).rplOf 1).st = .stopped ∧
    (rplSet .idle).memAwake 0x40 2 = true ∧
    (nx .recqStallRelease { rplSet .idle with recq := [(1, 0x40, [1, 2])] }).memRead 0x40 2 = [1, 2] ∧
    (nx .recqStallRelease { up with recq := [(1, 0x40, [1, 2])] }).recq.length = 1 ∧
    ((nx (.rplRecordStart .host 1 false) (rplSet .idle)).rplOf 1).st = .refused := by decide +kernel

/-- Context 1 with a log of 64 KiB that holds `bs` from its byte `at_`. -/
def logged (at_ : Nat) (bs : List Byte) (x : Rpl) : State :=
  let s := (pooled up).setReg Reg.benchCommonCtrl 0
  { s with
    regs := sset 0 (sset 0 s.regs (Reg.logBase 1) 0x400000000) (Reg.logSize 1) 16
    benches := [(0, { st := .awake })]
    rpl := [(1, x)]
    pool := { s.pool with
      windows := [(winKey 1 0 0, 11), (winKey 1 0 1, 0x2000), (winKey 1 0 2, 1)]
      mem := mwrite [] (0x400000000 + at_) bs } }
theorem wit_record_start : (logged 0 [] {}).recording 1 = false ∧ (logged 0 [] {}).rplCode 1 1 = 0 ∧
    ((nx (.rplRecordStart .host 1 true) (logged 0 [] {})).rplOf 1).rseq = 1 := by decide +kernel
def launchRec : List Byte := recBytes 0 1 recColl 0 0 (List.replicate 64 0) ++ recBytes 0 2 recColl 1 7 ((ltWords 0).flatMap (fun w => leBytes 8 w.toNat))
def replaying0 : State := logged 0 launchRec { st := .replaying, mode := 2, used := 96, rseq := 1, consumed := [0] }
theorem wit_replay_launch : ((nx (.replayLaunchStart 1) replaying0).rplOf 1).consumed = [0, 1] := by decide +kernel
theorem wit_replay_perm :
    ((nx (.replayLaunchStart 1) { replaying0 with ctxs := [(1, { st := .opened, benchSet := 2 })] }).rplOf 1).code = 0x06 := by
  decide +kernel

/-! ### Packets and cells -/

/-- NODE 240 of rack 0 and plane 0, with logical ports 0 and 4 ACTIVE toward fabric partners; node 5 is reached by
port block 1. -/
def netUp (p : Port := {}) : State := { up with
  regs := sset 0 (sset 0 [] Reg.ownCoord 0xF000) Reg.devStatus 1
  ports := [(0, { st := .active, partnerFabric := true }), (4, { p with st := .active, partnerFabric := true })]
  route := { tbl := sset 0 (sset 0 [] (entryAddr false 1 5) 2) (entryAddr false 1 5 + 16) 4 } }
def hdrTo (dest : W32) (vc len : Nat) : Hdr := mkHdr { dest := dest, src := 0xF100, len := len, vc := vc, hop := 3 }
theorem wit_PacketsArrive : (netUp.ingressCheck 0 (checkReqOf (hdrTo 0xF000 0 8))).isNone = true ∧ netUp.isOwn 0xF000 = true ∧
    (nx (.headerComplete 0 (hdrTo 0xF000 0 8)) netUp).arrivalOn 0 =
      some { h := hdrTo 0xF000 0 8, decision := .own 0, beganAt := 20000000000 } ∧
    (netUp.routePkt (routeReqOf (hdrTo 0x500 0 8)) (some 0)).1 = .go [4] none false ∧
    ((nx (.headerComplete 0 (hdrTo 0x500 0 8)) netUp).arrivalOn 0).map (·.decision) = some (.forward [4] none false) ∧
    ((nx (.headerComplete 0 (hdrTo 0xF000 1 8)) netUp).arrivalOn 0).map (·.decision) = some .discard := by decide +kernel
def arriving (dest : W32) (vc : Nat) (pl : List Byte) (d : Decision) : State × List Byte :=
  let p := mkPacket { dest := dest, src := 0xF100, len := 0, vc := vc, hop := 3 } pl
  ({ netUp with sw := { arrivals := [(0, { h := p.h, decision := d })] } }, pl ++ leBytes 4 p.crc.toNat)
theorem wit_packet_ends :
    let a := arriving 0xF000 0 [1, 2, 3, 4] (.own 0)
    let b := arriving 0xF001 2 [1, 2, 3, 4] (.own 1)
    let c := arriving 0x500 0 [1, 2, 3, 4] (.forward [4] none false)
    let d := arriving 0xF010 7 [1, 2, 3, 4] (.own 16)
    (nx (.packetEnd 0 ⟨a.2, .clean⟩) a.1).sw.ctlIn.map (·.pkt.payload) = [[1, 2, 3, 4]] ∧
    (nx (.packetEnd 0 ⟨b.2, .clean⟩) b.1).coll.inq.map (·.pkt.payload) = [[1, 2, 3, 4]] ∧
    (nx (.packetEnd 0 ⟨c.2, .clean⟩) c.1).queue 4 0 = [0] ∧
    (nx (.packetEnd 0 ⟨[1], .clean⟩) c.1).regN (Reg.lenMismatch 0) = 1 ∧ (nx (.packetEnd 0 ⟨[1], .clean⟩) c.1).queue 4 0 = [] ∧
    unitAccepts 16 7 = true ∧ checkCrc (packetOf (mkPacket { dest := 0xF000, src := 0xF100, len := 0, vc := 0, hop := 3 } [1, 2, 3, 4]).h a.2) = .good ∧
    netUp.portActive 4 = true ∧ (nx (.packetEnd 0 ⟨c.2, .clean⟩) { c.1 with ports := [(0, { st := .active })] }).regN Reg.portDownDrop = 1 ∧
    ((nx (.packetEnd 0 ⟨d.2, .clean⟩) { d.1 with ctxs := [(1, { st := .opened, benchSet := 1 })] }).bench 0).recvQ.length = 1 := by
  decide +kernel

/-- The first of two cells of a VC0 packet of 60 bytes. -/
def cell0 (dest : W32) : GrainCell :=
  let h := hdrTo dest 0 60
  { dest := dest, src := 0xF100, ctrl := w32 (2 ^ 19 + 3 * 2 ^ 13),
    payload := leBytes 4 h.w2.toNat ++ leBytes 4 h.w3.toNat ++ List.replicate 44 0 }
theorem wit_CellsArrive : (netUp.ingressCheck 0 (checkReqOfCell (cell0 0xF000))).isNone = true ∧ cFirst (cell0 0xF000) = true ∧
    cLast (cell0 0xF000) = false ∧ (cell0 0xF000).payload.length = 52 ∧ cIndex (cell0 0xF000) = 0 ∧
    (let w2 := w32 (u32 (cell0 0xF000).payload 0)
     fld w2 14 3 = cVc (cell0 0xF000) ∧ fld w2 23 8 = cPart (cell0 0xF000) ∧ bit w2 19 = false ∧ fld w2 0 14 = 60 ∧ bit w2 20 = false) ∧
    netUp.reasmOpen = 0 ∧ netUp.sw.reasmWait = [] ∧
    ((netUp.countRx 0 0 1 64).routePkt (routeReqOfCell (cell0 0x500)) (some 0)).1 = .go [4] none false ∧
    (nx (.cellArrival 0 ⟨(cell0 0xF000), .clean⟩) netUp).sw.reasm.map (fun m => (m.next, m.unit, m.lastAt)) = [(1, 0, 20000000000)] ∧
    (nx (.cellArrival 0 ⟨(cell0 0x500), .clean⟩) netUp).queue 4 0 = [0] ∧ (nx (.cellArrival 0 ⟨(cell0 0x500), .clean⟩) netUp).sw.reasm = [] := by
  decide +kernel
/-- A message without a cell for 100 µs is abandoned, and 1 ns earlier is not (R61). -/
def openMsg (at_ : Nat) : State := { netUp with
  sw := { reasm := [{ src := 5, vc := 0, unit := 0, lp := 0, dest := 0xF000, part := 0, mc := false, next := 1, poison := false, hop := 1,
                      stream := [], lastAt := at_ }] } }
theorem test_reasm_timeout : (nx (.reasmTimeout 5 0 0) (openMsg 19999900000)).regN (Reg.reasmTimeout 0) = 1 ∧
    (nx (.reasmTimeout 5 0 0) (openMsg 19999900000)).sw.reasm = [] ∧
    (nx (.reasmTimeout 5 0 0) (openMsg 19999900001)).sw.reasm.length = 1 := by decide +kernel
theorem test_vc5_timeout : (nx (.vc5MsgTimeout 0 7 1 0) { up with
      benches := [(0, { msgs := [{ src := 7, chan := 1, range := none, pkts := [], lastAt := 0 }] })] }).regN Reg.msgTimeoutDrop = 1 := by
  decide +kernel

/-- A VC0 packet of 28 bytes stored for logical port 4, whose partner has given credit. -/
def storedOut (at_ : Nat) : State :=
  let p := mkPacket { dest := 0x500, src := 0xF100, len := 0, vc := 0, hop := 3 } [1, 2, 3, 4, 5, 6, 7, 8]
  let s := netUp
  { s with sw := {
    stored := [{ id := 0, item := .packet p, granules := 1, charge := .headroom 0 0, refs := 1, storedAt := at_ }]
    nextId := 1, queues := sset [] [] (4 * 8) [0]
    txAcct := [(akey 4 0 false, { advertised := true, limit := 16 })] } }
theorem wit_PacketsLeave : (storedOut 19999999000).eligible 4 0 = true ∧ (0 : Int) ≤ (storedOut 19999999000).capNow 4 0 ∧
    (storedOut 19999999000).canSend 4 = true ∧ ((storedOut 19999999000).arbitrate 4).1 = some 0 ∧
    (nx (.egressSelect 4 .clean) (storedOut 19999999000)).queue 4 0 = [] ∧
    (nx (.egressSelect 4 .clean) (storedOut 19999999000)).out.length = 1 ∧
    ((nx (.egressSelect 4 .clean) (storedOut 19999999000)).port 4).txQ.length = 1 ∧
    ((nx (.egressSelect 4 .clean) (storedOut 19999999000)).txAcct 4 0 false).charged = 1 ∧
    (nx (.egressSelect 4 .clean) netUp) = netUp := by decide +kernel
theorem wit_stale_and_audit : ((storedOut 0).frontOf 4 0).map (fun x => (x.id, x.arriving, (storedOut 0).isStale x)) = some (0, false, true) ∧
    (nx (.bufferAudit 3) { up with regs := [(Reg.scCtrl, 16)] }).sw.quar = 3 ∧
    (nx (.bufferAudit 3) { up with regs := [(Reg.scCtrl, 16)] }).fault.log.map (fun e => (e.cls, e.action)) = [(0x06, 2)] := by
  decide +kernel

/-- A packet cut through for 10 µs, one that this device holds, and a head whose queue goes to VC1 (R27, R75, R82). -/
def cutting (at_ : Nat) : State :=
  let p := mkPacket { dest := 0x500, src := 0xF100, len := 0, vc := 0, hop := 3 } [1, 2, 3, 4]
  { netUp with sw := {
    stored := [{ id := 0, item := .packet p, granules := 1, charge := .headroom 0 0, refs := 1, headOut := [4], arriving := true }]
    nextId := 1, queues := sset [] [] (4 * 8) [0]
    arrivals := [(0, { h := p.h, decision := .forward [4] none false, ct := some 0, beganAt := at_ })] } }
theorem wit_cut_through_ends : ((cutting 19999990000).stored? 0).isSome = true ∧
    (nx (.ctAbort 0 []) (cutting 19999990000)).regN Reg.ctAbort = 1 ∧ (nx (.ctAbort 0 []) (cutting 19999990000)).queue 4 0 = [] ∧
    (nx (.ctAbort 0 []) (cutting 19999990001)).regN Reg.ctAbort = 0 := by decide +kernel
theorem wit_held_write :
    let p := mkPacket { dest := 0x500, src := 0xF000, len := 0, vc := 0, hop := 3 } [1, 2, 3, 4]
    let s := { netUp with sw := { held := [{ writer := .answer, pkt := p }] } }
    (s.tryInternal .answer p).isSome = true ∧ (({ s with sw := { s.sw with held := [] } } : State).tryInternal .answer p).map (·.2) = some none ∧
    (nx .internalWriterResume s).sw.held = [] := by decide +kernel

/-! ### The pool, the host -/

/-- A POOL request of context 1, generation 0: POP, address 0x1000, LEN 8. -/
def poolReq (pop gen : Nat) (data : List Byte) : Inbound :=
  { pkt := mkPacket { dest := 0xF002, src := 0x500, len := 0, vc := 6, seq := 4 }
      (leBytes 4 (pop + 2 ^ 8 + 2 ^ 16 * gen) ++ leBytes 4 (if 2 ≤ pop ∧ pop ≤ 4 then 0 else 8) ++ leBytes 8 0x1000 ++ data), lp := none }
def asked (i : Inbound) : State :=
  let s := pooled up
  { s with regs := sset 0 s.regs Reg.poolCtrl 1, pool := { s.pool with inq := [i], mem := [(0x1000, 7)] } }
def performed (i : Inbound) : State :=
  let s := asked i
  nx (.poolAccessPerformed 0 .clean) { s with pool := { s.pool with inq := [], inflight := [poolOpOf i.pkt none] } }
theorem wit_PoolRequests : ((asked (poolReq 0 0 [])).poolCode (poolReq 0 0 []).pkt (poolOpOf (poolReq 0 0 []).pkt none)).1 = 0 ∧
    (nx .poolRead (asked (poolReq 0 0 []))).pool.inflight =
      [{ poolOpOf (poolReq 0 0 []).pkt none with reach := (poolReq 0 0 []).reach }] ∧
    (nx .poolRead (asked (poolReq 0 1 []))).regN Reg.reqRefused = 1 ∧ (nx .poolRead (asked (poolReq 0 1 []))).pool.inflight = [] := by
  decide +kernel
/-- Requests that fail each check in turn: short, generation, PART, form, address, POISON; and what follows them for atomics
(R299, R300, R307). -/
theorem wit_pool_refusals :
    let code := fun (i : Inbound) => ((asked i).poolCode i.pkt (poolOpOf i.pkt none)).1
    let ok := poolReq 2 0 (leBytes 8 5)
    let bad := fun (h : Hdr → Hdr) => code { ok with pkt := { ok.pkt with h := h ok.pkt.h } }
    (nx .poolRead (asked { ok with pkt := { ok.pkt with payload := [2] } })).regN Reg.reqRefused = 1 ∧
    code (poolReq 2 1 (leBytes 8 5)) = Code.genStale ∧ code (poolReq 2 0 [5]) = Code.lenErr ∧ code (poolReq 6 0 []) = Code.lenErr ∧
    code { ok with pkt := { ok.pkt with payload := (ok.pkt.payload.set 12 1) } } = Code.addr ∧
    bad (fun h => { h with w2 := h.w2 ||| 0x200000 }) = Code.poison ∧ bad (fun h => { h with w2 := h.w2 ||| 0x800000 }) = Code.perm ∧ code ok = 0 ∧
    ((asked ok).pool.results.find? (resultKey ok.pkt.h)) = none ∧ (asked ok).resultsFull = false := by decide +kernel
/-- A result table that is full of entries just made (R307). -/
theorem wit_results_full :
    let e : ResultEntry := { src := 1, chan := 0, seq := 0, ctx := 1, pop := 2, addr := 0, code := 0, old := 0, madeAt := 20000000000 }
    let s := { asked (poolReq 2 0 (leBytes 8 5)) with pool := { (asked (poolReq 2 0 (leBytes 8 5))).pool with results := List.replicate 65536 e } }
    s.resultsFull = true ∧ s.pool.results.find? (resultKey (poolReq 2 0 (leBytes 8 5)).pkt.h) = none := by
  constructor
  · simp only [State.resultsFull, State.protected, List.filter_replicate]
    rw [if_pos (by decide +kernel), List.length_replicate, decide_eq_true_eq]
    exact Nat.le_add_right _ _
  · rw [List.find?_eq_none]
    intro x h
    rw [List.eq_of_mem_replicate h]
    decide +kernel
theorem wit_PoolAccessesPerformed : (performed (poolReq 0 0 [])).pool.mem = [(0x1000, 7)] ∧
    (performed (poolReq 1 0 [1, 2, 3, 4, 5, 6, 7, 8])).memRead 0x1000 8 = [1, 2, 3, 4, 5, 6, 7, 8] ∧
    (performed (poolReq 2 0 (leBytes 8 5))).memRead 0x1000 8 = leBytes 8 12 ∧
    (performed (poolReq 2 0 (leBytes 8 5))).pool.results.map (fun e => (e.src, e.old, e.addr)) = [(0x500, 7, 0x1000)] ∧
    (performed (poolReq 4 0 (leBytes 8 7 ++ leBytes 8 9))).memRead 0x1000 8 = leBytes 8 9 := by decide +kernel

/-- A cached Subsoil window at block 0x400000000 / 4096 of context 1 with 2 MiB of backing. -/
def cachedAt (x : CacheWin) : State :=
  let s := pooled up
  { s with pool := { s.pool with windows := [(winKey 1 0 0, 15), (winKey 1 0 1, 0x40000), (winKey 1 0 2, 1), (winKey 1 0 3, 1)], cache := [x] } }
theorem wit_PoolUpkeep :
    let s := cachedAt { ctx := 1, win := 0, filling := [5], prefetching := [6] }
    ((nx (.cacheFillComplete 1 0 5 .clean) s).cacheWin 1 0).blocks.map (·.blk) = [5] ∧
    ((nx (.cacheFillComplete 1 0 5 .clean) s).cacheWin 1 0).filling = [] ∧
    ((nx (.prefetchFillComplete 1 0 6 .clean) s).cacheWin 1 0).blocks.map (·.prefetched) = [true] ∧
    (nx (.prefetchFillComplete 1 0 6 .clean) s).regN Reg.pfFills = 1 := by decide +kernel
theorem wit_memory_upkeep :
    let s := { pooled up with regs := sset 0 [] Reg.poolCtrl 3 }
    memOf (s.memCtl 0).scrubPos = 0 ∧ inPool (s.memCtl 0).scrubPos 64 = true ∧
    ((nx (.patrolScrub 0 .clean) s).memCtl 0).scrubPos = (nextLine 0 0).1 ∧ s.memPending 3 = false ∧
    ((nx (.selfRefreshEntry 3) s).memCtl 3).st = .selfRefresh ∧
    ((nx (.selfRefreshScrubWake 3) (nx (.selfRefreshEntry 3) s)).memCtl 3).st = .waking ∧
    (nx (.resultSlotPoisonEnd 0) { s with pool := { s.pool with results :=
      [{ src := 0, chan := 0, seq := 0, ctx := 1, pop := 2, addr := 0, code := 0, old := 0, madeAt := 0, poisoned := true }] } }).pool.results = [] := by decide +kernel
/-- A write-back that ends, and one whose controllers sleep. -/
theorem wit_writeback :
    let s := pooled up
    let f : Flush := { ctx := 1, win := 0, ws := [], blks := [{ blk := 5 }], startedAt := 0 }
    let p := { s.pool with flushing := [f] }
    (nx (.cacheWritebackComplete 1 0) { s with pool := p }).pool.flushing = [] ∧
    ((nx (.cacheWritebackComplete 1 0) { s with pool := { p with
      ctl := (List.range 28).map (fun k => (k, { st := .selfRefresh })) } }).memCtl 3).st = .waking := by decide +kernel

/-- A PCIe host reads, writes and adds at 0x1000; 2^47 is in neither tier. -/
def hosted : State := { pooled up with pool := { (pooled up).pool with mem := [(0x1000, 7)] } }
theorem wit_HostAccesses : hosted.hostOpen = true ∧ hosted.hostAddr 0x1000 8 = some 0x1000 ∧ hosted.badLines 0x1000 8 = [] ∧
    (nx (.hostMemRead 0x1000 2 .clean) hosted).out = [.hostData 0x1000 [7, 0] false none] ∧
    (nx (.hostMemWrite 0x1000 [none, some 5]) hosted).memRead 0x1000 2 = [7, 5] ∧
    inPool (2 ^ 47) 8 = false ∧ (nx (.hostMemRead (2 ^ 47) 8 .clean) hosted).out = [.hostRefused (2 ^ 47)] ∧
    (nx (.hostMemRead 0x1000 1 .clean) { hosted with host := { hosted.host with memActive := false } }).out =
      [.hostData 0x1000 [0xFF] true none] ∧
    (nx (.hostPcieAtomic false 0x1000 5 0) hosted).memRead 0x1000 8 = leBytes 8 12 ∧
    (nx (.hostPcieAtomic true 0x1000 5 9) hosted).memRead 0x1000 8 = leBytes 8 7 ∧
    (nx (.hostPcieAtomic true 0x1000 7 9) hosted).memRead 0x1000 8 = leBytes 8 9 := by decide +kernel
theorem wit_HostLink :
    let d := { up with host := { linkUp := false, perst := false, fenced := true, msixPending := [3], msixMasked := [] } }
    (nx (.hostLinkTrained true 16 4) d).host.linkUp = true ∧ (nx (.hostLinkTrained true 16 4) d).out = [.msix 3] ∧
    (nx .hostLinkDown up).host.fenced = true ∧ (nx .hostLinkDown up).regN Reg.hostLinkDowns = 1 ∧
    (nx (.perstNAssert false) up).host.perst = true ∧ (nx .perstNDeassert (nx (.perstNAssert false) up)).host.configAt = some 20100000000 ∧
    up.host.dec0 = none ∧ up.host.commitBad 0 ⟨0, 0, 0, 16, 0, false, true⟩ = true ∧
    (nx (.hdmDecoderCommit 0 ⟨0, 0, 0, 16, 0, false, true⟩) up).host.err0 = true := by decide +kernel

/-! ### Ports and links -/

def port0 (p : Port) : State := { up with
  ports := [(0, p)], regs := sset 0 (sset 0 [] (Reg.portCtrl 0 0) 1) Reg.devStatus 1
  lanes := (List.range 4).map (fun n => (n, { st := .training, shutter := true, fadami := true, rxCaps := 1 })) }
/-- A port whose two SWITCH_AT frames are known and due (R367 step 4). -/
def switching : Port := { st := .training, trainStep := 3, switchAt := some 0, ownSwitch := some 0 }
theorem wit_PortsTrain : writableB up (Reg.portCtrl 0 0) 1 = true ∧ up.adminUp 0 = false ∧ up.portLanes 0 = [0, 1, 2, 3] ∧
    (let n := { up with regs := [(Reg.devStatus, 1)] }
     ((nx (.portAdminUp .host 0 1) n).port 0).st = .training ∧ ((nx (.portAdminUp .host 0 1) n).lane 3).shutter = true) ∧
    ((nx (.portAdminUp .host 0 1) up).port 0).st = .down ∧ (nx (.portAdminUp .host 0 1) up).reg (Reg.portCtrl 0 0) = 0 ∧
    ((nx (.portAdminDown .host 0 0) (port0 { st := .active })).port 0).st = .down ∧
    ((nx (.noLight 0) (port0 { st := .training, trainStep := 1, trainAt := 0 })).port 0).reason = 1 ∧
    ((nx (.trainTimeout 0) (port0 { st := .training, trainStep := 3, trainAt := 0 })).port 0).reason = 2 ∧
    (port0 switching).goesNative 0 = true ∧ (port0 switching).switchDue 0 = true ∧
    ((nx (.nativeModeSwitch 0 4096) (port0 switching)).port 0).fadami = false ∧
    ((nx (.nativeModeSwitch 0 4097) (port0 switching)).port 0).reason = 4 := by decide +kernel
theorem wit_port_equalises :
    let s := { port0 { st := .training, trainStep := 4 } with lanes := (List.range 4).map (fun n => (n, { st := .locked, shutter := true })) }
    s.laneOwner 1 = some (0, 1) ∧ s.eqLock 1 false = false ∧ bestEye [] = none ∧
    ((nx (.txEqComplete 1 false []) s).port 0).reason = 7 := by decide +kernel
/-- LINK_UP: 16 CREDIT words; here one of 5 units for VC0's transit account. -/
theorem wit_link_up :
    let s := port0 { st := .training, trainStep := 6 }
    ((nx (.linkUp 0 [0x50010]) s).port 0).st = .active ∧ ((nx (.linkUp 0 [0x50010]) s).lane 2).st = .inUse ∧
    (nx (.linkUp 0 [0x50010]) s).txAcct 0 0 false = { advertised := true, limit := 5 } ∧
    (nx (.linkUp 0 [0x50010]) s).route.rejoin = [(0, 20000000000)] := by decide +kernel

def act (p : Port) : State := { port0 { p with st := .active } with
  lanes := (List.range 4).map (fun n => (n, { st := .inUse, shutter := true, ready := true })) }
theorem wit_PortsSleepAndSpare : writableB (act {}) (Reg.portCmd 0 0) 1 = true ∧
    ((nx (.fastRetrain .host 0) (act {})).port 0).retraining = true ∧ ((nx (.fastRetrain .host 0) (act {})).port 0).st = .active ∧
    ((nx (.fastRetrainComplete 0 true) (act { retraining := true })).port 0).retraining = false ∧
    ((nx (.fastRetrainComplete 0 false) (act { retraining := true })).port 0).st = .failed ∧
    (act {}).txIdleFor 0 ((act {}).regN (Reg.dozeIdle 0)) = true ∧
    ((nx (.txDozeEntry 0 false) (act {})).port 0).tx = .doze ∧ (nx (.txDozeEntry 0 true) (act {})).regN (Reg.sleepRace 0) = 1 ∧
    (nx (.txDozeEntry 0 false) (act {})).out = [.control 0 [0x104]] ∧
    ((nx (.blockWakeComplete (.laneTx 0)) (act { tx := .nap, txWakeAt := some 20000000000 })).port 0).tx = .active := by decide +kernel
/-- A forced sleep, with and without a demand, and the wakes from each sleep (R375). -/
theorem wit_forced_sleep : writableB (act {}) (Reg.portCtrl 0 0) 3 = true ∧ (act {}).adminUp 0 = true ∧ (act {}).txDemand 0 = false ∧
    bit ((act {}).reg Reg.devStatus) 0 = true ∧ (nx (.txSleepForceWrite .host 0 3) (act {})).out = [.control 0 [0x104]] ∧
    (act { ackOwed := true }).txDemand 0 = true ∧
    (nx (.txSleepForceWrite .host 0 3) (act { ackOwed := true })).regN (Reg.sleepRace 0) = 1 ∧
    ((nx (.txWake 0) (act { tx := .nap, ackOwed := true })).port 0).txWakeAt = some 20000001500 ∧
    ((nx (.txWake 0) (act { tx := .off, ackOwed := true })).port 0).retraining = true := by decide +kernel
/-- The standby spare of port block 0 takes the place of lane 1. -/
def spared (p : Port) : State :=
  let s := act p
  { s with lanes := s.lanes ++ [(512, { st := .standby, shutter := true, partnerId := w64 (coordHash 0).toNat })], regs := sset 0 s.regs (Reg.spareCfg 512) 8 }
theorem wit_spare_swap : writableB (spared {}) (Reg.portCmd 0 0) 6 = true ∧ (spared {}).canSwap 0 1 false = true ∧
    ((nx (.portCmdSpareSwap .host 0 1) (spared {})).port 0).holdFrom = some ((({} : Port).cutControl 4 0).txBlk) ∧
    (let t := nx (.spareSwapComplete 0) (spared { swap := some { pos := 1, back := false, partnerAt := some 3 }, holdFrom := some 0 })
     (t.lane 1).st = .faulty ∧ (t.lane 512).serves = some 1 ∧ (t.lane 512).st = .inUse ∧ (t.port 0).swap = none) := by decide +kernel

/-- The other ends of a replacement: SPARE_SWAP and its echo, the return, and the threshold of R377. -/
theorem wit_spare_messages : (act {}).lportExists 0 = true ∧ (spared {}).canSwap 0 1 false = true ∧
    ((nx (.spareSwap 0 0x30105) (spared {})).port 0).swap.map (fun x => (x.pos, x.back)) = some (1, false) ∧
    ((nx (.swapEcho 0 0x30106) (spared { swap := some { pos := 1, back := false } })).port 0).swap.map (·.partnerAt) = some (some 3) ∧
    (let s := { spared {} with
       regs := sset 0 (spared {}).regs (Reg.spareThresh 0) 1
       lanes := (1, { st := .inUse, shutter := true, ready := true, ueTimes := [19999999000, 19999999001] }) :: (spared {}).lanes }
     s.laneOwner 1 = some (0, 1) ∧ (s.standbyFor 0).isSome = true ∧ s.replaced ((s.lanesOf 0).getD 1 0) = false ∧
     ((nx (.spareUeThreshold 1) s).port 0).swap.map (·.pos) = some 1) := by decide +kernel

def kept (l : BitVec 12) : Replayable := ⟨l, [1]⟩
theorem wit_LinkRetryAndCredit : (act {}).lportExists 0 = true ∧ (act {}).canSend 0 = true ∧
    ((nx (.ack 0 (w32 (2 + 2 ^ 8 * 6))) (act { replay := [kept 5, kept 6, kept 7] })).port 0).replay = [kept 6, kept 7] ∧
    ((nx (.nak 0 (w32 (3 + 2 ^ 8 * 5))) (act { replay := [kept 5] })).port 0).txQ = [(some 5, [1])] ∧
    (nx (.nak 0 (w32 (3 + 2 ^ 8 * 5))) (act { replay := [kept 5] })).regN (Reg.replays 0) = 1 ∧
    ((nx (.replayTimeout 0) (act { replay := [kept 5] })).port 0).txQ = [(some 5, [1])] ∧
    ((nx (.credit 0 [w32 (3 * 2 ^ 16)]) (act {})).txAcct 0 0 false).returned = 3 ∧
    (nx (.ackSend 0) (act { ackOwed := true, rxLseq := 9 })).out = [.control 0 [w32 (2 + 256 * 9)]] ∧
    (nx (.creditSend 0) { act {} with sw := { rxAcct := [(akey 0 0 false, { granted := true, returned := 2 })] } }).out =
      [.control 0 [1, w32 (2 * 2 ^ 16)]] ∧
    ((nx (.sleep 0 (w32 (4 + 2 ^ 8 * 2))) (act {})).port 0).rx = .nap := by decide +kernel
/-- An ACK of the item before the oldest outstanding one frees nothing; the 16th replay in a row is not another (R359, R360). -/
theorem test_ack_edge : ((nx (.ack 0 (w32 (2 + 2 ^ 8 * 5))) (act { replay := [kept 5, kept 6] })).port 0).replay = [kept 5, kept 6] ∧
    ((nx (.nak 0 (w32 (3 + 2 ^ 8 * 5))) (act { replay := [kept 5], replayRun := 15 })).port 0).st ≠ .active ∨
    ((nx (.nak 0 (w32 (3 + 2 ^ 8 * 5))) (act { replay := [kept 5], replayRun := 15 })).port 0).retraining = true := by decide +kernel

/-- Lane 1 of an ACTIVE port. -/
def laneAt' (l : Lane) : State := { act {} with lanes := [(1, l)] }
theorem wit_LanesCarryFrames :
    (nx (.commaLoss 1 false) (laneAt' { st := .inUse, w1 := { lock := true } })).regN (Reg.commaLoss 1) = 1 ∧
    ((nx (.commaLoss 1 false) (laneAt' { st := .inUse, w1 := { lock := true } })).lane 1).w1.lock = false ∧
    (laneAt' { st := .inUse, rxBytes := List.replicate 264 (0, false) }).carries 1 = true ∧
    (nx (.linkBlockReceived 1) (laneAt' { st := .inUse, rxBytes := List.replicate 264 (0, true) })).regN (Reg.blockBad 0) = 1 ∧
    ((nx (.linkBlockReceived 1) (laneAt' { st := .inUse, rxBytes := List.replicate 264 (0, true) })).lane 1).rxBytes = [] ∧
    (nx (.eyeScanDone 1 7) (laneAt' { eyeBusy := true })).reg (Reg.eyeErrs 1) = 7 ∧
    ((nx (.eyeScanDone 1 7) (laneAt' { eyeBusy := true })).lane 1).eyeDone = true := by decide +kernel
/-- Frames: a comma in place, a missed one, the first comma of a search, and none (R348). -/
def frame0 : List Bool := dataComma ++ List.replicate 32704 false
theorem findComma_at_once {x : Bool} {xs : List Bool} (h : (x :: xs).take 64 = dataComma) : findComma (x :: xs) = some (x :: xs) := by
  rw [findComma, if_pos (Or.inl h)]
theorem frame0_comma : frame0.take 64 = dataComma := List.take_left (l₁ := dataComma)
theorem frame0_length : frame0.length = 32768 := by
  rw [frame0, List.length_append, List.length_replicate]; decide
theorem silence_no_comma : ¬ ((List.replicate 32768 false).take 64 = dataComma ∨ (List.replicate 32768 false).take 64 = idleComma) := by
  rw [List.take_replicate]; decide
theorem silence_length : (List.replicate 32768 false).length = 32768 := List.length_replicate
theorem frame0_found : findComma frame0 = some frame0 := by
  have e : ∀ l, findComma (dataComma ++ l) = some (dataComma ++ l) := fun l => findComma_at_once (List.take_left (l₁ := dataComma))
  exact e _
theorem wit_frames : frame0.length = 32768 ∧ frame0.take 64 = dataComma ∧
    ¬ ((List.replicate 32768 false).take 64 = dataComma ∨ (List.replicate 32768 false).take 64 = idleComma) ∧
    (List.replicate 32768 false).length = 32768 ∧ findComma frame0 = some frame0 :=
  ⟨frame0_length, frame0_comma, silence_no_comma, silence_length, frame0_found⟩
theorem wit_no_comma : findComma (List.replicate 200 false) = none := by decide +kernel
/-- A lane in test, a locked checker, and a block in order (R353, R372). -/
theorem wit_lane_checks :
    let t := { laneAt' { st := .test, w1 := { prbsLock := true } } with regs := [(Reg.prbsCtrl 1, 5)] }
    fld (t.reg (Reg.prbsCtrl 1)) 0 2 = 1 ∧ fld (t.reg (Reg.prbsCtrl 1)) 2 2 = 1 ∧ fld (t.reg (Reg.injCtrl 1)) 0 2 = 0 ∧
    (nx (.prbsCheckerLock 1 false [true, false]) t).reg (Reg.prbsBitsW1 1) = 2 := by decide +kernel
theorem u32_after (z : List Byte) (x : W32) (h : z.length = 260) : u32 (z ++ leBytes 4 x.toNat) 260 = x.toNat := by
  have hb : ∀ n : Nat, (byte n).toNat = n % 256 := fun n => by simp [byte]
  have hx := x.isLt
  simp only [u32, slice, ← h, List.drop_left, leBytes, List.take, List.length, List.replicate, ofLe, hb, List.append_nil,
    Nat.sub_self]
  omega
theorem wit_block_in_order : ∀ z : List Byte, z.length = 260 →
    ¬ ((crc32c ((z ++ leBytes 4 (crc32c z).toNat).take 260)).toNat ≠ u32 (z ++ leBytes 4 (crc32c z).toNat) 260) := by
  intro z h
  rw [u32_after z _ h, List.take_left' h]
  exact fun e => e rfl

/-! ### The mailbox, the tray controller, attestation -/

theorem wit_MailboxReports : up.mboxOpen = true ∧ mailboxRow (.getTimestamp [1]) = some (0x0300, false) ∧
    (nx (.getTimestamp [1]) up).out = [.mailbox 0x0300 0x0016 []] ∧ 0x0500 ∉ mboxOpcodes ∧
    (nx (.mboxUnsupported 0x0500 []) up).out = [.mailbox 0x0500 0x0003 []] ∧
    (nx (.getEventInterruptPolicy []) up).out = [.mailbox 0x0102 0 [0, 0, 0, 0]] ∧
    (nx (.getTimestamp []) up).out = [.mailbox 0x0300 0 (zeros 8)] ∧ (nx (.getTimestamp []) up).regN Reg.mboxCmds = 1 ∧
    (nx (.clearOutOfService []) up).out = [.mailbox 0xC050 0 [0x06]] ∧
    up.host.logs[3]?.isSome = true ∧ (nx (.getEventRecords [4]) up).out = [.mailbox 0x0100 0x0002 []] := by decide +kernel
/-- GET_FAULT_LOG of 127 entries is the most that is answered (R396). -/
theorem test_fault_log_count :
    ((nx (.getFaultLog (leBytes 4 0 ++ leBytes 4 127)) up).out.map (fun e => match e with | .mailbox _ r o => (r, o.length) | _ => (1, 0))) =
      [(0, 1 + 127 * 32)] := by decide +kernel
theorem wit_MailboxActs : (nx (.setEventInterruptPolicy [1, 0, 0, 0]) up).host.policy = [1, 0, 0, 0] ∧
    (nx (.setTimestamp (leBytes 8 5)) up).host.timestampBase = 5 ∧
    (nx (.setPowerCap (leBytes 4 400)) up).pwr.hostCap = 400 ∧ (nx (.setPowerCap (leBytes 4 399)) up).pwr.hostCap = 1500 ∧
    (nx (.setPowerCap (leBytes 4 1900)) up).pwr.hostCap = 1900 ∧ (nx (.setPowerCap (leBytes 4 1901)) up).pwr.hostCap = 1500 ∧
    (nx (.injectPoison (zeros 8)) up).pool.poisoned = [] ∧
    (nx (.injectPoison (zeros 8)) { up with regs := [(Reg.faultCtrl, 1)] }).pool.poisoned = [0] ∧
    (nx (.clearPoison (zeros 8 ++ List.replicate 64 3)) up).memRead 0 2 = [3, 3] ∧ (nx (.lehrTrigger []) up).pwr.lehrStep = 1 ∧
    (nx (.activateFw [1, 2]) up).boot.primary = true ∧
    (nx .transferFwComplete { up with host := { up.host with background := some (true, 0, [7], true) } }).mgmt.flashB.header = [7] := by
  decide +kernel

theorem wit_Sideband : up.pldmUp = true ∧ (nx (.pldmSetPowerCap 400) up).pwr.trayCap = 400 ∧ (nx (.pldmSetPowerCap 399) up).pwr.trayCap = 1500 ∧
    (nx (.pldmSensorRead .power) up).out = [.pldm 0 (zeros 4)] ∧
    (nx (.pldmFirmwareUpdate true .start) up).mgmt.fwTransfer = some (true, true) ∧
    (nx (.pldmFirmwareUpdate true (.part 0 [5])) (nx (.pldmFirmwareUpdate true .start) up)).mgmt.flashB.header = [5] ∧
    (nx (.mctpMessage .i3c 0 0 [0x81, 1, 0, 9]) up).mgmt.eid = 9 ∧
    (nx (.mctpMessage .i3c 0 0 [0x81, 1, 0, 9]) up).out = [.mctp .i3c [1, 1, 0, 0, 9, 0]] ∧
    (nx (.mctpMessage .vdm 0 0 [0x80, 6]) up).out = [.mctp .vdm [0, 6, 5]] ∧
    (nx .leakClear { up with pwr := { leak := .dry, leakLatched := true } }).pwr.leakLatched = false ∧
    (nx .spiHoldOffAssert up).mgmt.spiHeld = true ∧ (nx .spiHoldOffRelease (nx .spiHoldOffAssert up)).mgmt.spiHeld = false ∧
    (nx .smbusFallback up).mgmt.smbus = true ∧
    (nx .flashHoldTimeout { up with
      mgmt := { spiHeld := true, spiHeldAt := 0 }, clk := { aonNs := 60000000001 },
      boot := { stage := .step 3, fallback := true } }).boot.stage = .recovery := by decide +kernel
/-- The tray controller writes flash while it holds the pins; what waited is written to both chip selects at the release, a
full area of records being erased first (R401, R464, R468, R469). -/
theorem wit_flash_pins :
    let e := flashRecord 5 (zeros 248)
    let full : Flash := { recs := List.replicate 1024 [] }
    let s := { up with mgmt := { up.mgmt with spiHeld := true, flashB := full, recWaiting := [[7]], ledgerWaiting := [e] } }
    (nx (.pldmFirmwareUpdate false (.direct 0 [5])) s).mgmt.flashA.header = [5] ∧
    (nx .spiHoldOffRelease s).mgmt.flashA.recs = [[7]] ∧ (nx .spiHoldOffRelease s).mgmt.flashB.recs = [[7]] ∧
    (nx .spiHoldOffRelease s).mgmt.flashB.ledger.getD 5 [] = e ∧ u32 e 0 % 4096 = 5 := by decide +kernel

/-- A host link connection that has agreed version, capabilities and algorithms. -/
def spdmUp' (c : Spdm) : State := { up with mgmt := { up.mgmt with i3c := c } }
theorem wit_SecureSession : up.spdmUp .i3c = true ∧ up.host.mboxBusy = none ∧
    (nx (.getVersion .i3c [0x10, 0x84, 0, 0]) up).out = [.spdm .i3c [0x10, 0x04, 0, 0, 0, 1, 0x00, 0x12]] ∧
    ((nx (.getVersion .i3c [0x10, 0x84, 0, 0]) up).spdm .i3c).version = true ∧
    (nx (.getCapabilities .i3c [0x12, 0xE1, 0, 0]) up).out = [.spdm .i3c [0x12, 0x7F, 4, 0]] ∧
    (nx (.getDigests .i3c [0x12, 0x81, 0, 0]) up).out = [.spdm .i3c [0x12, 0x7F, 4, 0]] ∧
    (spdmUp' { algorithms := true }).engineBusy = false ∧
    (nx (.chunkGet .i3c [0x12, 0x86, 0, 0, 0, 0, 0, 0]) (spdmUp' { algorithms := true, large := [1, 2] })).out =
      [.spdm .i3c ([0x12, 0x06, 1, 0, 0, 0, 0, 0] ++ leBytes 4 2 ++ leBytes 4 2 ++ [1, 2])] ∧
    spdmReqOf [0x12, 0xFF, 0, 0] = none ∧ (nx (.spdmUnsupported .i3c [0x12, 0xFF, 0, 0]) up).out = [.spdm .i3c [0x12, 0x7F, 7, 0]] ∧
    up.spdmUp .mailbox = true ∧ (nx (.spdmUnsupported .mailbox [0x12, 0xFF, 0, 0]) up).out = [.mailbox 0xC030 0 [0, 0x12, 0x7F, 7, 0]] := by
  decide +kernel
/-- A signature that ends after the key pair was erased answers Unspecified, over the mailbox in SPDM_MESSAGE's output. -/
theorem wit_signature :
    let s := { up with
      mgmt := { up.mgmt with mbox := { signing := some ([1], [2]) } }, host := { up.host with mboxBusy := some 0xC030 },
      boot := { up.boot with keyPresent := false } }
    (nx (.signatureComplete .mailbox) s).out = [.mailbox 0xC030 0 [0, 0x12, 0x7F, 5, 0]] ∧
    (nx (.signatureComplete .mailbox) s).host.mboxBusy = none ∧ (s.spdm .mailbox).signing = some ([1], [2]) ∧
    up.boot.keyPresent = true := by decide +kernel

/-! ### Faults and resets -/

/-- Bench 0 has run a launch without progress since 0. -/
def hung (c : Core) : State := { up with
  benches := [(0, { st := .awake, launch := some 1 })], cores := [(0, c)]
  launch := { runs := [{ num := 1, idx := 0, ws := [], ctx := 1, benches := [0], started := true }] } }
theorem wit_FaultsReported : (hung { run := .running }).benchChecked 0 = true ∧
    (nx (.benchHangCheck 0) (hung { run := .running })).regN Reg.benchHangs = 1 ∧
    (nx (.benchHangCheck 0) (hung { run := .running })).fault.deferred = [(1, 0x18, 0)] ∧
    (nx (.benchHangCheck 0) (hung { run := .waiting, wait := some ⟨.tally, 0, none⟩ })).launch.runs = [] ∧
    (nx (.controlStateSweep .switchState 0) up).fault.deferred = [(2, 0x09, 0)] ∧
    (nx (.controlStateSweep .collState 0) up).fault.deferred = [(1, 0x10, 0)] ∧
    (nx (.cruciblePatrolScrub 4 0 (.corrected 0)) up).regN (Reg.crCe 4) = 1 ∧
    (nx (.cruciblePatrolScrub 4 0 (.uncorrectable 0)) up).fault.log.map (·.cls) = [0x0F] ∧
    (nx .stewardWatchdogExpiry up).fault.stewardUp = false ∧ (nx .stewardWatchdogExpiry up).regN Reg.stewardRestarts = 1 ∧
    up.hostReached = true := by decide +kernel
/-- Bench 0's hang checks: a core in RECV while an item waits is a program hang (R412). -/
theorem wit_prog_hang :
    let s := hung { run := .waiting, wait := some ⟨.recv, 0, none⟩ }
    s.benchChecked 0 = false ∧ (s.modBench 0 (fun x => { x with items := [{ entry := 0, arg := 0 }] })).benchChecked 0 = true ∧
    (s.modBench 0 (fun x => { x with items := [{ entry := 0, arg := 0 }] })).progHung 0 = false := by decide +kernel
/-- A steward whose firmware has the digest of boot, one that restarts before host-ready, and a reset of memory it resumes. -/
theorem wit_steward_back :
    let h : List Byte := up.boot.header
    let s : State := { up with fault := {}, boot := { up.boot with measured := measureImage h up.boot.body } }
    s.copyOk = true ∧ s.hostReached = true ∧ s.fault.stewardUp = false ∧
    ({ s with boot := { s.boot with stage := .step 4 } } : State).hostReached = false := by
  refine ⟨?_, by decide, by decide, by decide⟩
  simp only [State.copyOk, measureImage, List.getD_cons_succ, List.getD_cons_zero, decide_true]
theorem wit_mem_hang :
    let s := { pooled up with pool := { (pooled up).pool with inflight := [poolOpOf (poolReq 0 0 []).pkt none] } }
    let m := (memsOf 0x1000 8).headD 0
    s.memPending m = true ∧ (nx (.memHangCheck (Fin.ofNat 28 m)) s).regN Reg.memHangs = 1 := by decide +kernel
theorem wit_port_hang : ((storedOut 0).portStalledFrom 4).isSome = true ∧
    (nx (.portHangCheck 4) (storedOut 0)).fault.deferred = [(2, 0x1A, 1)] ∧
    (nx (.portHangCheck 4) { storedOut 0 with sw := { (storedOut 0).sw with txAcct := [] } }).regN Reg.partnerStalls = 1 := by decide +kernel

theorem wit_ResetsRun : writableB up Reg.resetCmd 1 = true ∧ writableB up Reg.resetCmd 2 = true ∧ up.ready = true ∧ up.escalates 1 = false ∧
    ((nx (.computeReset (.cmd .host)) up).fault.reset.map (fun r => (r.level, r.startedAt))) = some (1, 20000000000) := by
  decide +kernel
/-- Two compute resets within 600 s make the third put the device out of service, but not in TEST_MODE (R420, R421). -/
def twice (test : W64) : State := { up with regs := sset 0 (sset 0 (sset 0 [] Reg.faultCtrl test) Reg.crHist0 5) Reg.crHist1 4 }
theorem wit_escalation : (twice 0).escalates 1 = true ∧ (nx (.computeReset (.cmd .host)) (twice 0)).fault.oos = true ∧
    (twice 1).escalates 1 = false := by decide +kernel
/-- The clear of out of service leaves a port with ADMIN_UP 0 DOWN (R417, R423). -/
theorem wit_oos_clear :
    let s := { port0 { st := .outOfService } with fault := { up.fault with oos := true }, regs := [(Reg.portCtrl 0 0, 0)] }
    s.adminUp 0 = false ∧ s.ready = true ∧ s.fault.oos = true ∧ s.mgmt.mctpReady = true ∧ s.lportExists 0 = true ∧
    ((s.recoverPort 0).port 0).st = .down := by decide +kernel
theorem wit_reset_completes :
    let s := { up with fault := { up.fault with reset := some { level := 1, startedAt := 0 } }, ls := [(5, 1)], coll := { insts := [inst1 0] } }
    (nx .computeResetComplete s).ls = [] ∧
    ((nx .fullDeviceRecoveryComplete { s with fault := { s.fault with reset := some { level := 2, startedAt := 0 } } }).memCtl 3).st = .active := by decide +kernel

/-! ### Power, supervision, ageing -/

def est : PowerEstimate := ⟨[1600, 1550, 1500, 1450, 1400], [], 0, 0, 0⟩
/-- The limit is 1,500 W: bin 2 is the lowest whose power meets it. -/
theorem wit_PowerCaps : up.powerLimit = 1500 ∧ up.pwr.capFloor = false ∧ (nx (.powerControlInterval 1555 est) up).pwr.benchBin = 2 ∧
    (nx (.powerControlInterval 1555 est) up).pwr.loamPct = 100 ∧
    (nx (.capWindowEnd 1500) up).pwr.capDeficit = false ∧ (nx (.capWindowEnd 1501) up).regN Reg.capDeficitMj = 10 ∧
    (nx (.capWindowEnd 1500) { up with pwr := { samples := [1700] } }).pwr.capFloor = false ∧
    (nx (.capWindowEnd 1500) { up with pwr := { samples := [1701] } }).pwr.capFloor = true ∧
    (nx .pwrCapNRecognised up).pwr.benchBin = 4 ∧
    (nx .capFloorEnd { up with pwr := { capFloor := true, capFloorUntil := 20000000000 } }).pwr.capFloor = false ∧
    (nx .capFloorEnd { up with pwr := { capFloor := true, capFloorUntil := 20000000001 } }).pwr.capFloor = true ∧
    (nx .shelfAlertNAssert up).pwr.shelf = true ∧ (nx .shelfCapRelease (nx .shelfAlertNAssert up)).pwr.shelf = false := by decide +kernel
/-- 50 ms without a pulse is flow loss, 1 ns less is not (R444); 20 ms low is wet (R445). -/
theorem wit_Supervision : up.aonUp = true ∧ (nx .flowPulseEdge up).pwr.flowArmed = true ∧
    (nx .flowLoss { up with pwr := { flowArmed := true, flowLast := 19950000000 } }).pwr.flowLoss = true ∧
    (nx .flowLoss { up with pwr := { flowArmed := true, flowLast := 19950000001 } }).pwr.flowLoss = false ∧
    (nx .leakWet { up with pwr := { leak := .dry, leakLine := false, leakEdgeAt := 19980000000 } }).pwr.leak = .wet ∧
    (nx .leakWet { up with pwr := { leak := .dry, leakLine := false, leakEdgeAt := 19980000001 } }).pwr.leak = .dry ∧
    (nx (.leakSenseEdge false) up).pwr.leakEdgeAt = 20000000000 ∧
    (nx (.leakSenseEdge true) { up with pwr := { leakLine := false } }).pwr.leakRise = 20000000000 ∧
    (nx .leakSensorFailed { up with pwr := { leak := .dry } }).pwr.leak = .failed ∧ (nx .sensorSupervisionArm up).pwr.leak = .dry ∧
    (nx (.stewardStageWrite 1 900 0x41) up).pwr.preq = 900 ∧
    ((nx (.stewardStageWrite 1 900 0x40) up).fault.log.map (·.cls)) = [0x28] ∧
    ((nx (.stewardClaimExpiry 1) { up with pwr := { request := { sVal := 900, sClaim := 0x41, sAt := 19996000000 } } }).pwr.stage 1).sClaim = 0 := by
  decide +kernel
/-- 115 °C is 1,840 sixteenths. -/
theorem wit_thermal : (nx .thermalTrip { up with pwr := { tj := 1840 } }).powered = false ∧ (nx .thermalTrip { up with pwr := { tj := 1839 } }).powered = true := by decide +kernel
def lehrAt (n : Nat) : State := { up with pwr := { lehrStep := n, guard := [(3, 41)], lehrDue := [5] } }
def noMeasure : LehrMeasure := ⟨[], [], [], [], []⟩
theorem wit_margin : up.pwr.atTop 3 0 = false ∧ (Power.atTop { guard := [(3, 39)] } 3 0) = false ∧
    (Power.atTop { guard := [(3, 40)] } 3 0) = true := by
  simp only [Power.atTop_eq]
  decide
theorem wit_Ageing :
    (nx .lehrIntervalExpiry { up with regs := [(Reg.lehrCtrl, w64 (1 + 16 * 24))], clk := { aonNs := 24 * 3600000000000 } }).pwr.lehrStep = 1 ∧
    (nx (.lehrStepComplete noMeasure) (lehrAt 1)).pwr.lehrStep = 2 ∧ (nx (.lehrStepComplete noMeasure) (lehrAt 2)).pwr.lehrStep = 3 ∧
    sget 0 (nx (.lehrStepComplete noMeasure) (lehrAt 3)).pwr.ageBin 3 = 1 ∧
    (nx (.lehrStepComplete ⟨[], [7], [], [], []⟩) (lehrAt 4)).pwr.eqStale = [7] ∧
    ((nx (.lehrStepComplete noMeasure) (lehrAt 5)).memCtl 3).refresh = 1 ∧
    (nx (.memoryRetrainWindow 5) (lehrAt 6)).pwr.lehrDue = [] ∧
    (nx (.lehrStepComplete noMeasure) { lehrAt 6 with pwr := { lehrStep := 6 } }).pwr.lehrStep = 7 ∧
    (nx (.lehrStepComplete noMeasure) (lehrAt 7)).pwr.passGain = 1 ∧ (nx (.lehrStepComplete noMeasure) (lehrAt 7)).mgmt.flashB.ledger.length = 1 := by
  decide +kernel

/-! ### Supplies, boot, debug, the whole machine -/

theorem wit_SuppliesAndClocks : State.reset.pwr.railsUp = true ∧ State.reset.boot.stage = .inert ∧
    (nx .powerOnResetRelease State.reset).boot.stage = .step 3 ∧ (nx .powerOnResetRelease State.reset).aonUp = true ∧
    (nx .powerRemoval up).aonUp = false ∧ (nx .powerUp (nx .powerRemoval up)).pwr.railsUp = true ∧
    (nx .railFault up).powered = false ∧ (nx .railFault up).boot.seedPresent = true ∧ (nx .railFaultRecovery (nx .railFault up)).powered = true ∧
    (nx .fabRefclkReturn (nx .fabRefclkLoss up)).clk.fabRef = true ∧ (nx .cxlRefclkLoss up).host.fenced = true ∧
    ((nx (.blockWakeComplete (.memory 3)) { up with pool := { ctl := [(3, { st := .waking })] } }).memCtl 3).st = .active := by decide +kernel

/-- A rail fault abandons a compute reset that was counted as it began (R513). -/
theorem wit_rail_uncount :
    let r : ResetRun := { level := 1, startedAt := 0, step := 4, counted := [1], lostCr := 7 }
    let s := (({ up with fault := { up.fault with reset := some r } } : State).setReg Reg.crHist1 9).setReg Reg.computeResets 3
    (nx .railFault s).reg Reg.crHist0 = 9 ∧ (nx .railFault s).reg Reg.crHist1 = 7 ∧ (nx .railFault s).regN Reg.computeResets = 2 := by
  decide +kernel

def bootAt (n : Nat) : State := { up with fault := { stewardUp := true }, host := {}, boot := { stage := .step n, header := List.replicate 30048 0 } }
theorem wit_BootAndDebug : headerFormatOk (flashRead (up.imageFlash false).header 0 30048) = false ∧
    (nx (.flashHeaderReadComplete .complete) (bootAt 3)).boot.reasonA = 2 ∧ (nx (.flashHeaderReadComplete .failed) (bootAt 3)).boot.reasonA = 9 ∧
    (nx (.flashHeaderReadComplete .failed) (bootAt 3)).boot.image = true ∧ (nx (.flashBodyReadComplete .failed) (bootAt 4)).boot.reasonA = 9 ∧
    (nx .hostReady (bootAt 5)).boot.stage = .step 7 ∧ (nx .hostReady (bootAt 5)).mgmt.mctpReady = true ∧
    (nx .memoryTrainingComplete (bootAt 7)).boot.stage = .step 8 ∧ (nx .memoryTrainingComplete (bootAt 7)).host.memActive = true := by
  decide +kernel
theorem wit_boot_ready : (nx .bootReady { bootAt 8 with fault := { stewardUp := true } }).boot.stage = .step 9 := by decide +kernel
theorem wit_debug : (nx .debugChallengeRead up).boot.nonce.isSome = true ∧ up.boot.nonce = none ∧ up.boot.lockout = false := by decide +kernel
/-- Without a challenge outstanding no token passes (R480). -/
theorem wit_debug_token : up.tokenOk [] = false := by
  unfold State.tokenOk
  rw [show up.boot.nonce = none from rfl]
  simp only [reduceCtorEq, decide_false, Bool.and_false, Bool.false_and]

/-- The inert device after reset: every command but those of the always-on domain is without effect. -/
theorem wit_EveryCommandCompletes : State.reset.powered = false ∧ alwaysOn (.ltSweep) = false ∧ nx .ltSweep State.reset = State.reset := by
  decide +kernel
theorem wit_Canonical : Canonical State.reset := ⟨by decide, by decide, by decide⟩
theorem wit_Canonical_up : Canonical hosted := ⟨by decide +kernel, by decide +kernel, by decide +kernel⟩
theorem wit_step : ∃ t, step { State.reset with pending := [.powerOnResetRelease] } = .next t ∧ t.pending = [] ∧ t.boot.stage = .step 3 :=
  ⟨nx .powerOnResetRelease State.reset, rfl, by decide +kernel, by decide +kernel⟩
theorem wit_idle : up.pending = [] ∧ up.aonUp = true ∧ up.recq = [] ∧ up.launch.runs = [] ∧ State.reset.aonUp = false ∧
    (nx .railFault up).aonUp = true ∧ (nx .railFault up).powered = false := by decide +kernel

/-! ### Further witnesses -/

/-- A context whose benches 0 to 2 run one launch with stealing, and hold these items. -/
def stealing (i1 i2 : List WorkItem) : State := { up with
  ctxs := [(1, { st := .opened, perms := 15, benchSet := 7 })]
  benches := [(0, { st := .awake, launch := some 1 }), (1, { st := .awake, launch := some 1, items := i1 }),
    (2, { st := .awake, launch := some 1, items := i2 })]
  launch := { runs := [{ num := 1, idx := 0, ws := [], ctx := 1, benches := [0, 1, 2], started := true, dba := true }] } }
def item0 : WorkItem := { entry := 5, arg := 9 }
def chunkItem : WorkItem := { entry := 6, arg := 0, chunk := some (key1, 0) }
/-- The fullest of several benches loses an item, the lowest of equals; its chunk programs stay (R203). -/
theorem wit_steal :
    let t := nx (.steal 1 0) (stealing [item0] [chunkItem, item0])
    let u := nx (.steal 1 0) (stealing [item0, item0] [item0, item0])
    (t.bench 2).items = [chunkItem] ∧ (t.bench 1).items = [item0] ∧ (t.bench 0).items.length = 1 ∧
    (u.bench 1).items = [item0] ∧ (u.bench 2).items.length = 2 ∧ u.regN (Reg.stealsOut 1) = 1 ∧ u.regN (Reg.stealsIn 0) = 1 := by
  decide +kernel
/-- A read by the warden of an asleep bench's register leaves it asleep; its write wakes the bench (R496, R208). -/
def wardenAt (w : W64) (off v : W64) : State := { up with
  benches := [(0, { st := .asleep }), (99, { st := .awake })]
  cores := [(792, { run := .running, loadLimit := 8192, sreg := [(2, off), (3, v)] })]
  is := mwrite [] (792 * 65536) (leBytes 8 w.toNat) }
theorem wit_warden_registers :
    let r := regWord 7 0x10 0 1 2 0 0
    let w := regWord 7 0x11 0 0 2 3 0
    firesB (wardenAt r 0x2000000 0) 99 0 r 7 0x10 = true ∧ firesB (wardenAt w 0x2000000 1) 99 0 w 7 0x11 = true ∧
    ((nx (.rdreg 99 0) (wardenAt r 0x2000000 0)).bench 0).st = .asleep ∧
    ((nx (.wrreg 99 0) (wardenAt w 0x2000000 1)).bench 0).st = .waking := by decide +kernel
/-- Counters are written by the host and by WRREG alone (R490). -/
theorem wit_counter_writers : writableB up (Reg.evsel 128 3) 0 = true ∧ eventListed (blkType 128) 0 = true ∧
    (nx (.cntWrite .host 128 3 7) up).reg (Reg.cnt 128 3) = 7 ∧ (nx (.cntWrite .tray 128 3 7) up).reg (Reg.cnt 128 3) = 0 ∧
    (nx (.cntWrite .steward 128 3 7) up).regN Reg.ignoredWrites = 1 := by decide +kernel
/-- Both ends start the swap of one lane: each answers the other (R377). LINK_UP is answered once by the end that has heard
nothing yet, and a repeat to one that has is not (R367). -/
theorem wit_swap_both :
    let x : SpareSwap := { pos := 1, back := false, partnerAt := none }
    let s := spared { swap := some x, holdFrom := some 0 }
    let w : W32 := w32 (pack [(0, 5), (8, 1), (16, 3)])
    s.clk.fabRef = true ∧ s.lportExists 0 = true ∧ (s.port 0).rxItems = [] ∧
    ((nx (.spareSwap 0 w) s).port 0).swap.map (·.partnerAt) = some (some 3) ∧ (nx (.spareSwap 0 w) s).out.length = 1 ∧
    (nx (.linkUp 0 []) (act {})).out.length = 1 ∧ nx (.linkUp 0 []) (act { peerUp := true }) = act { peerUp := true } := by
  decide +kernel

end Sys2Proof.Tests
end

/-! ### Every command completes (R2, R449, R511-R514) -/

section
namespace Sys2Proof.Machine

/-- An outcome that is a next state. -/
def Completes (x : Host.Outcome State Fault Refusal) : Prop := ∃ t, x = .next t

theorem Completes.next (t : State) : Completes (.next t) := ⟨t, rfl⟩

theorem Completes.ite {p : Prop} [Decidable p] {x y : Host.Outcome State Fault Refusal} (hx : Completes x)
    (hy : Completes y) : Completes (if p then x else y) := by
  split
  · exact hx
  · exact hy

section
variable (s : State) (b : Fin 100) (c : Fin 8)

theorem coreExec_completes (fam op : Nat) (f : W64 → State → State) : Completes (coreExec b c fam op f s) := by
  unfold coreExec
  split
  · exact .next _
  · exact .ite (.next _) (.next _)

theorem laneExec_completes (fam op : Nat) (f : W64 → State → State) : Completes (laneExec b c fam op f s) := by
  unfold laneExec
  split <;> exact .next _

theorem mboxCmd_completes (op : BitVec 16) (ok : Bool) (f : State → BitVec 16 × List Byte × State) :
    Completes (mboxCmd op ok f s) :=
  .ite (.next _) (.ite (.next _) (.next _))

theorem spdmCmd_completes (t : Transport) (req : List Byte) (k : Option SpdmReq) : Completes (spdmCmd t req k s) :=
  .ite (.next _) (.next _)

theorem ctlRun_completes (lp : Nat) (ws : List W32) (f : State → State) : Completes (ctlRun lp ws f s) := by
  refine .ite (.next _) ?_
  split <;> exact .next _

theorem poolTake_completes (pop : Nat) : Completes (poolTake pop s) := by
  refine .ite (.next _) ?_
  split
  · exact .next _
  · exact .ite (.next _) (.next _)

theorem collTake_completes (row : Nat) (f : State → CollMsg → State) : Completes (collTake row f s) :=
  .ite (.next _) (.next _)

theorem resetCmd_completes (level : Nat) (src : ResetSource) : Completes (resetCmd level src s) := by
  cases src
  case cmd r => exact .next _
  case fault => exact .ite (.next _) (.next _)
  case steward => exact .ite (.next _) (.ite (.next _) (.next _))
  case tray => exact .ite (.next _) (.ite (.next _) (.next _))

theorem readCmd_completes (r : Requester) (off : Nat) (x : W64 × State) : Completes (readCmd s r off x) :=
  .ite (.next _) (.next _)

theorem fwStep_completes (img : Bool) (step : FwStep) : Completes (s.fwStep img step) := by
  cases step
  case direct => exact .next _
  case start => exact .ite (.next _) (.ite (.next _) (.next _))
  case part => exact .ite (.next _) (.next _)
  case activate => exact .ite (.next _) (.next _)
  case cancel => exact .ite (.next _) (.next _)

theorem sendqDepartGo_completes (t : State) (p : Packet) : Completes (execSendqDepart.go b t s p) := by
  unfold execSendqDepart.go
  split <;> exact .next _

end

theorem execLowWordRead_completes (r : Requester) (off : Nat) (s : State) : Completes (execLowWordRead r off s) := by
  unfold execLowWordRead
  split
  · exact .next _
  · exact readCmd_completes ..

theorem execHighWordRead_completes (r : Requester) (off : Nat) (s : State) : Completes (execHighWordRead r off s) := by
  unfold execHighWordRead
  split
  · exact .next _
  · exact readCmd_completes ..

theorem execSendqDepart_completes (b : Fin 100) (s : State) : Completes (execSendqDepart b s) := by
  refine .ite (.next _) ?_
  dsimp only
  split
  · exact .next _
  · split
    · refine .ite (sendqDepartGo_completes ..) (.ite (.next _) (.ite (.next _) ?_))
      split <;> exact .next _
    · exact sendqDepartGo_completes ..

theorem execCoreStallRelease_completes (b : Fin 100) (c : Fin 8) (s : State) :
    Completes (execCoreStallRelease b c s) := by
  unfold execCoreStallRelease
  split
  · exact .next _
  · exact .ite (.next _) (.ite (.next _) (.ite (.next _) (.ite (.next _) (.ite (.next _) (.ite (.next _)
      (.ite (.next _) (.next _)))))))

/-- What follows the draw of the header stays a name while the header is taken apart: else the kernel would compute the
CRC of the packet. -/
theorem execTimeRequestSend_completes (s : State) : Completes (execTimeRequestSend s) := by
  unfold execTimeRequestSend
  refine .ite (.next _) ?_
  extract_lets u seq
  generalize hF : (fun (h : HdrFields) (t : State) => (_ : Host.Outcome State Fault Refusal)) = send
  revert send
  refine id fun send hF => ?_
  suffices h : ∀ h t, Completes (send h t) by exact h _ _
  intro h t
  rw [← hF]
  beta_reduce
  extract_lets p
  split <;> exact .next _

theorem execReplayLaunchStart_completes (id : Fin 256) (s : State) : Completes (execReplayLaunchStart id s) := by
  refine .ite (.next _) ?_
  split
  · exact .ite (.next _) (.next _)
  · refine .ite (.next _) (.ite (.next _) (.ite (.next _) (.ite (.next _) ?_)))
    exact .ite (.next _) (.next _)

theorem execLinkBlockReceived_completes (n : Fin 528) (s : State) : Completes (execLinkBlockReceived n s) := by
  refine .ite (.next _) ?_
  split
  · exact .next _
  · exact .ite (.next _) (.ite (.next _) (.ite (.next _) (.next _)))

theorem execTrainingRecordReceived_completes (n : Fin 528) (rec : List Byte) (freq : W32) (s : State) :
    Completes (execTrainingRecordReceived n rec freq s) := by
  refine .ite (.next _) (.ite (.next _) ?_)
  extract_lets t fresh
  generalize (if fresh = true then t.expectCheck n else (false, t)) = x
  obtain ⟨bad, u⟩ := x
  dsimp -zeta only
  split
  · exact .next _
  · exact .next _
  · exact .ite (.next _) (.ite (.next _) (.ite (.next _) (.ite (.next _) (.ite (.next _) (.next _)))))

theorem execPldmFirmwareUpdate_completes (img : Bool) (step : FwStep) (s : State) :
    Completes (execPldmFirmwareUpdate img step s) := by
  unfold execPldmFirmwareUpdate
  split
  · exact .ite (.next _) (.next _)
  · exact .ite (fwStep_completes ..) (.next _)

/-- No arm of `exec` faults and none refuses: by the operation that the commands of a family share, by the conditions
that stand before a command's effect, and for the rest by the cases that the command tells apart. -/
theorem exec_completes (c : Instr) (s : State) : Completes (exec c s) := by
  cases c <;> dsimp only [exec]
  -- Instructions of a core.
  case vext | pfroms | ld | lds | st | aadd | aaddf | acas | fence | dmaq | nop | jmp | jal | jr | endProg | post |
    tinc | tset | trd | twait | rdsr | ctrrd | rdreg | wrreg | send | recv | recvh | drop | contrib | dqcontrib |
    scontrib | copen | ctake | finalChunk | dispatch | cinfo =>
    exact coreExec_completes ..
  case add | sub | and | or | xor | shl | shr | sra | slt | sltu | seq | min | max | minu | maxu | mul | mulhs |
    mulhu | div | divu | rem | remu =>
    show Completes (scalarBin _ _ _ _ s)
    exact coreExec_completes ..
  case popc | clz | ctz | addi | andi | ori | xori | shli | shri | srai | slti | li | lih =>
    show Completes (scalarImm _ _ _ _ s)
    exact coreExec_completes ..
  case pand | por | pxor | pandn | pnot =>
    show Completes (predBin _ _ _ _ s)
    exact coreExec_completes ..
  case ptos | pcnt | pfirst =>
    show Completes (predToS _ _ _ _ s)
    exact coreExec_completes ..
  case beqz | bnez =>
    show Completes (branch _ _ _ _ s)
    exact coreExec_completes ..
  case vfma | vcvt | vcmp | vbcast | vins | vperm | vrsum | vld | vst =>
    exact laneExec_completes ..
  case vadd | vsub | vmul | vmin | vmax | vadds | vsubs | vand | vor | vxor =>
    show Completes (vecBin _ _ _ _ s)
    exact laneExec_completes ..
  case vshl | vshr | vsra =>
    show Completes (vecShift _ _ _ _ s)
    exact laneExec_completes ..
  case vabs | vneg | vmov =>
    show Completes (vecUn _ _ _ _ s)
    exact laneExec_completes ..
  -- Writes of one register, and requests that share one operation.
  case lockWrite | ownCoordWrite | creditLimitWrite | swapArm | swapCancel | swapCopy | collEnWrite | spillBaseWrite |
    holdAwakeWrite | contextCreate | teardown | seqEnWrite | ltBaseWrite | ftimeSet | windowWrite | rplRecordStart |
    rplReplayStart | rplStop | portAdminUp | portAdminDown | fastRetrain | portCmdSpareSwap | portCmdSpareBack |
    portCfgWrite | eyeScanStart | prbsCtrlWrite | injCtrlWrite | txSleepForceWrite | fmaxCtrlWrite | lehrStart |
    evselWrite | cntWrite | bwCtrlWrite | spareCfgWrite =>
    exact .next _
  case getEventRecords | clearEventRecords | setEventInterruptPolicy | transferFw | activateFw | setTimestamp |
    getLog | injectPoison | clearPoison | getDeviceInfo | getFaultLog | getDumpInfo | setPowerCap | getPowerStatus |
    lehrTrigger | getLinkSummary | clearOutOfService =>
    exact mboxCmd_completes ..
  case getEventInterruptPolicy | getFwInfo | getTimestamp | getSupportedLogs | identifyMemoryDevice | getHealthInfo |
    getPoisonList =>
    show Completes (mboxRead _ _ _ s)
    exact mboxCmd_completes ..
  case getVersion | getCapabilities | negotiateAlgorithms | getDigests | getCertificate | challenge | getMeasurements |
    chunkSend | chunkGet | spdmUnsupported =>
    exact spdmCmd_completes ..
  case credit | ack | nak | sleep | spareSwap | swapEcho | linkUp =>
    exact ctlRun_completes ..
  case poolRead | poolWrite | poolAadd64 | poolAaddf32 | poolCas64 | poolMcread =>
    exact poolTake_completes ..
  case contribArrival | openArrival | countArrival | partialArrival | upperResultArrival | upperStatusArrival =>
    exact collTake_completes ..
  case computeReset | fullDeviceRecovery =>
    exact resetCmd_completes ..
  -- Commands that only conditions precede, by their number.
  case powerRemoval | fabRefclkLoss | tableCommit | hostMemSpecRead | gpfFlush | perstNAssert =>
    exact .next _
  case powerUp | powerOnResetRelease | railFault | railFaultRecovery | fabRefclkReturn | cxlRefclkLoss |
    unassignedOffsetAccess | heldLowWordExpiry | copyComplete | tableSweep | benchWakeComplete | clockRampComplete |
    fetchBeyondLoadLimit | restingExpiry | ftimeCompare | poolAccessPerformed | recqStallRelease | commaLoss |
    ackSend | hostLinkTrained | hostLinkDown | functionLevelReset | hdmDecoderCommit | spdmMessage | smbusFallback |
    pldmSelectBootImage | pldmLehrTrigger | spiHoldOffAssert | memHangCheck | stewardWatchdogExpiry |
    powerControlInterval | capWindowEnd | pwrCapNRecognised | capFloorEnd | shelfAlertNAssert | shelfCapRelease |
    flowPulseEdge | flowLoss | leakWet | leakSensorFailed | thermalSample | thermalTrip | governorUpdate |
    stewardClaimExpiry | lehrIntervalExpiry | memoryRetrainWindow | bootReady | debugChallengeRead | stewardMemoryUe |
    sensorSupervisionArm | perstNDeassert | prbsCheckerLock | flashHoldTimeout =>
    exact .ite (.next _) (.next _)
  case headerComplete | bufferAudit | tableBankSwap | wardenRestart | benchSleep | teardownComplete | patrolScrub |
    selfRefreshEntry | selfRefreshScrubWake | creditSend | replayTimeout | eyeScanDone | txDozeEntry | txNapEntry |
    mboxUnsupported | pldmSensorRead | pldmSetPowerCap | pldmClearOutOfService | leakClear | leakSenseEdge |
    stewardStageWrite | hostReady | debugTokenWrite | bwWindowEnd =>
    exact .ite (.next _) (.ite (.next _) (.next _))
  case instructionIllegal | ltSweep | cacheFillComplete | stewardRestartComplete | timingMarginWarning =>
    exact .ite (.next _) (.ite (.next _) (.ite (.next _) (.next _)))
  case hostPcieAtomic | fastRetrainComplete | mctpMessage =>
    exact .ite (.next _) (.ite (.next _) (.ite (.next _) (.ite (.next _) (.next _))))
  case benchHangCheck =>
    exact .ite (.next _) (.ite (.ite (.next _) (.next _)) (.next _))
  case noLight =>
    exact .ite (.next _) (.ite (.ite (.next _) (.next _)) (.ite (.next _) (.next _)))
  case registerWrite =>
    exact .ite (.next _) (.ite (.next _) (.ite (.next _) (.ite (.next _) (.ite (.next _) (.next _)))))
  -- Commands with a lemma of their own.
  case timeRequestSend => exact execTimeRequestSend_completes ..
  case trainingRecordReceived => exact execTrainingRecordReceived_completes ..
  case sendqDepart => exact execSendqDepart_completes ..
  case replayLaunchStart => exact execReplayLaunchStart_completes ..
  case linkBlockReceived => exact execLinkBlockReceived_completes ..
  case coreStallRelease => exact execCoreStallRelease_completes ..
  case pldmFirmwareUpdate => exact execPldmFirmwareUpdate_completes ..
  case lowWordRead => exact execLowWordRead_completes ..
  case highWordRead => exact execHighWordRead_completes ..
  -- The others, by their cases.
  all_goals
    simp only [execReadClear, execLowWordWrite, execHighWordWrite, execPacketEnd, execVc5MsgTimeout, execCellArrival,
      execReasmTimeout, execEgressSelect, execStaleDrop, execCtAbort, execInternalWriterResume, execRejoinHoldEnd,
      execAdderTake, execResultWriteComplete, execInstanceTimeout, execTombHoldExpiry, execTwinHoldExpiry,
      execDmaDescriptorExecute, execDmaComplete, execItemStart, execSteal, execBlockWakeComplete, execFenceComplete,
      execPoolAccessReturn, execTwaitReached, execTwaitTimeout, execSendQueueRoom, execRecvDeliver, execRecvTimeout,
      execContribIssueResume, execCtakeDeliver, execCtakeTimeout, execContextCreateComplete, execLaunchWake,
      execImageLoadComplete, execLaunchTake, execLaunchStart, execTimeRequestArrival, execTimeResponseArrival,
      execTimeRequestTimeout, execPrefetchFillComplete, execCacheWritebackComplete, execHostMemRead, execHostMemWrite,
      execLaneFrameReceived, execLaneFrameTransmit, execNativeModeSwitch, execTxEqComplete, execTrainTimeout,
      execSpareUeThreshold, execSpareSwapComplete, execTxWake, execTransferFwComplete, execSpiHoldOffRelease,
      execPortHangCheck, execResultSlotPoisonEnd, execLehrStepComplete, execFlashHeaderReadComplete,
      execFlashBodyReadComplete, execMemoryTrainingComplete, execSignatureComplete, execComputeResetComplete,
      execFullDeviceRecoveryComplete, execControlStateSweep, execCruciblePatrolScrub]
    (repeat' split) <;> exact .next _

/-! ### A device that does not run: its gates are shut -/

section
variable {s : State} (h : s.powered = false)
include h

theorem clocked_unpowered : s.clocked = false := by simp [State.clocked, h]

theorem canSend_unpowered (lp : Nat) : s.canSend lp = false := by simp [State.canSend, clocked_unpowered h]

theorem reaches_unpowered (r : Requester) (write : Bool) : s.reaches r write = false := by simp [State.reaches, h]

theorem hostOpen_unpowered : s.hostOpen = false := by simp [State.hostOpen, reaches_unpowered h]

theorem mboxOpen_unpowered : s.mboxOpen = false := by simp [State.mboxOpen, hostOpen_unpowered h]

theorem spdmUp_unpowered (t : Transport) : s.spdmUp t = false := by simp [State.spdmUp, h]

theorem pldmUp_unpowered : s.pldmUp = false := by simp [State.pldmUp, h]

theorem flashReady_unpowered : s.flashReady = false := by simp [State.flashReady, h]

theorem coreRuns_unpowered (b : Fin 100) (c : Fin 8) : s.coreRuns b c = false := by simp [State.coreRuns, h]

theorem issueOf_unpowered (b : Fin 100) (c : Fin 8) (fam op : Nat) : s.issueOf b c fam op = none := by
  simp [State.issueOf, coreRuns_unpowered h]

theorem waitsFor_unpowered (b : Fin 100) (c : Fin 8) (k : WaitKind) : s.waitsFor b c k = none := by
  simp [State.waitsFor, h]

theorem recvWaiter_unpowered (b : Fin 100) (c : Fin 8) : s.recvWaiter b c = none := by
  simp [State.recvWaiter, waitsFor_unpowered h]

theorem writeVia_unpowered (r : Requester) (start : Nat) (v : W64) (f : WriteFn) (raw : Bool) (acc : Nat) :
    s.writeVia r start v f raw acc = s := by
  simp [State.writeVia, reaches_unpowered h]

theorem writeCommit_unpowered (r : Requester) (v : W64) : s.writeCommit r v = s := by
  simp [State.writeCommit, writeVia_unpowered h, reaches_unpowered h]

theorem hostRead_unpowered (off : Nat) : s.hostRead off = s := by
  simp [State.hostRead, State.hostRetry, reaches_unpowered h, h]

theorem hostWrite_unpowered (off : Nat) (v : W32) : s.hostWrite off v = s := by
  simp [State.hostWrite, State.hostRetry, reaches_unpowered h, h]

theorem hostReads_unpowered (f : Nat → Nat) (is : List Nat) : is.foldl (fun s i => s.hostRead (f i)) s = s := by
  induction is with
  | nil => rfl
  | cons i is ih => rw [List.foldl_cons, hostRead_unpowered h, ih]

theorem debugRead_unpowered (off : Nat) : s.debugRead off = s := by simp [State.debugRead, h]

theorem debugWrite_unpowered (off : Nat) (v : W32) : s.debugWrite off v = s := by
  simp [State.debugWrite, reaches_unpowered h]

/-! ### What the commands share does nothing -/

theorem coreExec_unpowered (b : Fin 100) (c : Fin 8) (fam op : Nat) (f : W64 → State → State) :
    coreExec b c fam op f s = .next s := by
  simp [coreExec, issueOf_unpowered h]

theorem laneExec_unpowered (b : Fin 100) (c : Fin 8) (fam op : Nat) (f : W64 → State → State) :
    laneExec b c fam op f s = .next s := by
  simp [laneExec, issueOf_unpowered h]

theorem writeCmd_unpowered (r : Requester) (start : Nat) (v : W64) (f : WriteFn) (raw : Bool) :
    writeCmd s r start v f raw = .next s := by
  rw [writeCmd, writeVia_unpowered h]

theorem mboxCmd_unpowered (op : BitVec 16) (ok : Bool) (f : State → BitVec 16 × List Byte × State) :
    mboxCmd op ok f s = .next s := by
  simp [mboxCmd, mboxOpen_unpowered h]

theorem spdmCmd_unpowered (t : Transport) (req : List Byte) (k : Option SpdmReq) : spdmCmd t req k s = .next s := by
  simp [spdmCmd, spdmUp_unpowered h]

theorem ctlRun_unpowered (lp : Nat) (ws : List W32) (f : State → State) : ctlRun lp ws f s = .next s := by
  simp [ctlRun, clocked_unpowered h]

theorem poolTake_unpowered (pop : Nat) : poolTake pop s = .next s := by simp [poolTake, h]

theorem collTake_unpowered (row : Nat) (f : State → CollMsg → State) : collTake row f s = .next s := by
  simp [collTake, h]

theorem resetCmd_unpowered (level : Nat) (src : ResetSource) : resetCmd level src s = .next s := by
  cases src
  case cmd r => exact writeCmd_unpowered h ..
  all_goals simp [resetCmd, h]

theorem readCmd_unpowered (r : Requester) (off : Nat) (x : W64 × State) : readCmd s r off x = .next s := by
  simp [readCmd, reaches_unpowered h]

theorem execRegisterWrite_unpowered (r : Requester) (off len : Nat) (en : BitVec 4) (v : W64) :
    execRegisterWrite r off len en v s = .next s := by
  simp [execRegisterWrite, hostWrite_unpowered h, debugWrite_unpowered h, reaches_unpowered h]

theorem execReadClear_unpowered (r : Requester) (a : ReadAt) : execReadClear r a s = .next s := by
  simp [execReadClear, hostReads_unpowered h, debugRead_unpowered h, reaches_unpowered h]

end

/-- A device that does not run performs the commands of its always-on domain alone: every other command is behind a gate
that is shut. -/
theorem exec_unpowered (c : Instr) (s : State) (h : s.powered = false) (ha : alwaysOn c = false) :
    exec c s = .next s := by
  cases c <;> dsimp only [exec]
  -- Commands of the always-on domain.
  case powerUp | powerOnResetRelease | powerRemoval | railFault | railFaultRecovery | fabRefclkLoss | fabRefclkReturn |
    cxlRefclkLoss | restingExpiry | perstNAssert | spiHoldOffAssert | spiHoldOffRelease | flowPulseEdge | flowLoss |
    leakSenseEdge | leakWet | leakSensorFailed | thermalSample | thermalTrip | governorUpdate | stewardClaimExpiry |
    sensorSupervisionArm | perstNDeassert =>
    cases ha
  case pldmFirmwareUpdate img step =>
    cases step
    case direct => cases ha
    all_goals exact if_neg (by simp [pldmUp_unpowered h])
  -- Instructions of a core.
  case vext | pfroms | ld | lds | st | aadd | aaddf | acas | fence | dmaq | nop | jmp | jal | jr | endProg | post |
    tinc | tset | trd | twait | rdsr | ctrrd | rdreg | wrreg | send | recv | recvh | drop | contrib | dqcontrib |
    scontrib | copen | ctake | finalChunk | dispatch | cinfo =>
    exact coreExec_unpowered h ..
  case add | sub | and | or | xor | shl | shr | sra | slt | sltu | seq | min | max | minu | maxu | mul | mulhs |
    mulhu | div | divu | rem | remu =>
    show scalarBin _ _ _ _ s = _
    exact coreExec_unpowered h ..
  case popc | clz | ctz | addi | andi | ori | xori | shli | shri | srai | slti | li | lih =>
    show scalarImm _ _ _ _ s = _
    exact coreExec_unpowered h ..
  case pand | por | pxor | pandn | pnot =>
    show predBin _ _ _ _ s = _
    exact coreExec_unpowered h ..
  case ptos | pcnt | pfirst =>
    show predToS _ _ _ _ s = _
    exact coreExec_unpowered h ..
  case beqz | bnez =>
    show branch _ _ _ _ s = _
    exact coreExec_unpowered h ..
  case vfma | vcvt | vcmp | vbcast | vins | vperm | vrsum | vld | vst =>
    exact laneExec_unpowered h ..
  case vadd | vsub | vmul | vmin | vmax | vadds | vsubs | vand | vor | vxor =>
    show vecBin _ _ _ _ s = _
    exact laneExec_unpowered h ..
  case vshl | vshr | vsra =>
    show vecShift _ _ _ _ s = _
    exact laneExec_unpowered h ..
  case vabs | vneg | vmov =>
    show vecUn _ _ _ _ s = _
    exact laneExec_unpowered h ..
  -- Writes of one register, and requests that share one operation.
  case lockWrite | ownCoordWrite | creditLimitWrite | swapArm | swapCancel | swapCopy | collEnWrite | spillBaseWrite |
    holdAwakeWrite | contextCreate | teardown | seqEnWrite | ltBaseWrite | ftimeSet | windowWrite | portAdminUp |
    portAdminDown | fastRetrain | portCmdSpareSwap | portCmdSpareBack | portCfgWrite | eyeScanStart | prbsCtrlWrite |
    injCtrlWrite | txSleepForceWrite | fmaxCtrlWrite | lehrStart | evselWrite | cntWrite | bwCtrlWrite | spareCfgWrite =>
    exact writeCmd_unpowered h ..
  case rplRecordStart | rplReplayStart | rplStop =>
    show rplWrite _ _ _ _ s = _
    exact writeCmd_unpowered h ..
  case getEventRecords | clearEventRecords | setEventInterruptPolicy | transferFw | activateFw | setTimestamp |
    getLog | injectPoison | clearPoison | getDeviceInfo | getFaultLog | getDumpInfo | setPowerCap | getPowerStatus |
    lehrTrigger | getLinkSummary | clearOutOfService =>
    exact mboxCmd_unpowered h ..
  case getEventInterruptPolicy | getFwInfo | getTimestamp | getSupportedLogs | identifyMemoryDevice | getHealthInfo |
    getPoisonList =>
    show mboxRead _ _ _ s = _
    exact mboxCmd_unpowered h ..
  case getVersion | getCapabilities | negotiateAlgorithms | getDigests | getCertificate | challenge | getMeasurements |
    chunkSend | chunkGet | spdmUnsupported =>
    exact spdmCmd_unpowered h ..
  case credit | ack | nak | sleep | spareSwap | swapEcho | linkUp =>
    exact ctlRun_unpowered h ..
  case poolRead | poolWrite | poolAadd64 | poolAaddf32 | poolCas64 | poolMcread =>
    exact poolTake_unpowered h _
  case contribArrival | openArrival | countArrival | partialArrival | upperResultArrival | upperStatusArrival =>
    exact collTake_unpowered h ..
  case computeReset | fullDeviceRecovery =>
    exact resetCmd_unpowered h ..
  -- The rest, by the gate that stands before the effect.
  case hostMemSpecRead | gpfFlush =>
    exact rfl
  case vc5MsgTimeout | reasmTimeout | staleDrop | ctAbort | bufferAudit | internalWriterResume | copyComplete |
    tableBankSwap | tableSweep | rejoinHoldEnd | adderTake | resultWriteComplete | instanceTimeout | tombHoldExpiry |
    twinHoldExpiry | dmaDescriptorExecute | dmaComplete | itemStart | steal | wardenRestart | benchSleep |
    benchWakeComplete | blockWakeComplete | sendqDepart | contextCreateComplete | teardownComplete | ltSweep |
    launchWake | imageLoadComplete | launchTake | launchStart | timeRequestArrival | timeResponseArrival |
    timeRequestTimeout | ftimeCompare | cacheFillComplete | prefetchFillComplete | cacheWritebackComplete |
    patrolScrub | selfRefreshEntry | selfRefreshScrubWake | recqStallRelease | replayLaunchStart | commaLoss |
    linkBlockReceived | replayTimeout | noLight | txEqComplete | trainTimeout | spareUeThreshold | spareSwapComplete |
    eyeScanDone | txDozeEntry | txNapEntry | txWake | hostLinkTrained | smbusFallback | pldmSetPowerCap |
    pldmSelectBootImage | pldmClearOutOfService | leakClear | benchHangCheck | memHangCheck | stewardRestartComplete |
    resultSlotPoisonEnd | powerControlInterval | capWindowEnd | pwrCapNRecognised | shelfAlertNAssert |
    shelfCapRelease | stewardStageWrite | timingMarginWarning | lehrStepComplete | memoryTrainingComplete |
    debugChallengeRead | debugTokenWrite | bwWindowEnd | controlStateSweep | cruciblePatrolScrub | prbsCheckerLock =>
    exact if_pos (by simp [h])
  case heldLowWordExpiry | clockRampComplete | poolAccessPerformed | hostLinkDown | pldmLehrTrigger |
    stewardWatchdogExpiry | capFloorEnd | lehrIntervalExpiry | memoryRetrainWindow | stewardMemoryUe | flashHoldTimeout =>
    exact if_neg (by simp [h])
  case headerComplete | packetEnd | cellArrival | laneFrameReceived | laneFrameTransmit | trainingRecordReceived |
    nativeModeSwitch | fastRetrainComplete =>
    exact if_pos (by simp [clocked_unpowered h])
  case egressSelect | creditSend =>
    exact if_pos (by simp [canSend_unpowered h])
  case unassignedOffsetAccess | hdmDecoderCommit =>
    exact if_pos (by simp [reaches_unpowered h])
  case hostMemRead | hostMemWrite | hostPcieAtomic =>
    exact if_pos (by simp [hostOpen_unpowered h])
  case functionLevelReset =>
    exact if_neg (by simp [hostOpen_unpowered h])
  case spdmMessage =>
    exact if_neg (by simp [mboxOpen_unpowered h])
  case mctpMessage | pldmSensorRead =>
    exact if_pos (by simp [pldmUp_unpowered h])
  case flashHeaderReadComplete | flashBodyReadComplete | hostReady | bootReady =>
    exact if_pos (by simp [flashReady_unpowered h])
  case instructionIllegal =>
    exact if_pos (by simp [coreRuns_unpowered h])
  case fetchBeyondLoadLimit =>
    exact if_neg (by simp [coreRuns_unpowered h])
  case fenceComplete | coreStallRelease | twaitReached | twaitTimeout | sendQueueRoom | recvTimeout |
    contribIssueResume | ctakeDeliver | ctakeTimeout =>
    simp [execFenceComplete, execCoreStallRelease, execTwaitReached, execTwaitTimeout, execSendQueueRoom,
      execRecvTimeout, execContribIssueResume, execCtakeDeliver, execCtakeTimeout, waitsFor_unpowered h]
  case registerWrite => exact execRegisterWrite_unpowered h ..
  case readClear => exact execReadClear_unpowered h ..
  case lowWordRead =>
    unfold execLowWordRead
    split
    · rfl
    · exact readCmd_unpowered h ..
  case highWordRead =>
    unfold execHighWordRead
    split
    · rfl
    · exact readCmd_unpowered h ..
  case lowWordWrite =>
    unfold execLowWordWrite
    split
    · rfl
    · exact if_pos (by simp [reaches_unpowered h])
  case highWordWrite =>
    unfold execHighWordWrite
    split
    · rfl
    · exact if_pos (by simp [reaches_unpowered h])
  case tableCommit => rw [execTableCommit, writeCommit_unpowered h]
  case timeRequestSend => simp [execTimeRequestSend, h]
  case poolAccessReturn =>
    unfold execPoolAccessReturn
    dsimp only
    split
    · rfl
    · exact if_pos (by simp [h])
  case recvDeliver => rw [execRecvDeliver, recvWaiter_unpowered h]
  case ackSend => exact if_neg (by simp [canSend_unpowered h])
  case transferFwComplete =>
    unfold execTransferFwComplete
    split
    · rfl
    · exact if_pos (by simp [h])
  case mboxUnsupported =>
    unfold execMboxUnsupported
    rw [mboxCmd_unpowered h, ite_self]
  case portHangCheck =>
    unfold execPortHangCheck
    split
    · rfl
    · exact if_pos (by simp [h])
  case signatureComplete =>
    unfold execSignatureComplete
    split
    · rfl
    · exact if_pos (by simp [h])
  case computeResetComplete =>
    unfold execComputeResetComplete
    split
    · exact if_pos (by simp [h])
    · rfl
  case fullDeviceRecoveryComplete =>
    unfold execFullDeviceRecoveryComplete
    split
    · exact if_pos (by simp [h])
    · rfl

/-- Settles O3: every arm of `exec` ends in a next state, and one that is not of the always-on domain leaves a device that
does not run as it is. -/
theorem everyCommandCompletes : Obligations.EveryCommandCompletes := by
  unfold Obligations.EveryCommandCompletes
  exact ⟨exec_completes, exec_unpowered⟩

end Sys2Proof.Machine
end

/-! ### The state after reset (R2, R511) -/

section
namespace Sys2Proof.Machine

/-- No register is listed, so each reads as its reset value. -/
theorem State.reset_reg (off : Nat) : State.reset.reg off = regReset off := rfl

/-- No core, bench, port or context is listed, so each is at its default. -/
theorem State.reset_units (k : Nat) : State.reset.core k = {} ∧ State.reset.bench k = {} ∧
    (State.reset.port k).st = .down ∧ (State.reset.ctx k).st = .free :=
  ⟨rfl, rfl, rfl, rfl⟩

/-- No pool byte is listed, so each is 0. -/
theorem State.reset_poolByte (a : Nat) : sget 0 State.reset.pool.mem a = 0 := rfl

theorem State.reset_canonical : Canonical State.reset := ⟨rfl, rfl, rfl⟩

/-- Settles O58: the stages, flags, logs and caps are those of the default state, and every map lists nothing. -/
theorem resetLeaves : Obligations.ResetLeaves := by
  unfold Obligations.ResetLeaves
  exact ⟨rfl, rfl, rfl, rfl, rfl, rfl, rfl, rfl, rfl, rfl, State.reset_reg, State.reset_units, State.reset_poolByte,
    State.reset_canonical⟩

end Sys2Proof.Machine
end

/-! ### Register accesses: a staging word counts the bits it drops (R10, R292) -/

section
namespace Sys2Proof.Machine

/-- IGNORED_WRITES of the state a completed command leaves. -/
def ignoredWritesAfter : Host.Outcome State Fault Refusal → Option Nat
  | .next t => some (t.regN Reg.ignoredWrites)
  | _ => none

/-- The write of bit 4 of WIN_STAGE word 0 passes the checks common to all registers. -/
theorem winStage_writable : Writable Tests.up (Reg.winStage 0) 0x10 := Tests.writable_of (by decide +kernel)

/-- Bits 4 and up of the word are reserved by its own row (R292), so the write is counted. -/
theorem winStage_write_counts :
    ignoredWritesAfter (exec (.registerWrite .host (Reg.winStage 0) 4 0xF 0x10) Tests.up) = some 1 := by
  decide +kernel

/-- With the register alone set, no write has been ignored. -/
theorem winStage_set_counts_none :
    ignoredWritesAfter (.next (Tests.up.setReg (Reg.winStage 0) 0x10)) = some 0 := by
  decide +kernel

/-- Refutes O28: WIN_STAGE word 0 is among the plain registers, and the host's write of 0x10 to it passes the checks
of every register; but the word has reserved bits of its own (R292), so the write is also counted in IGNORED_WRITES
and is not the setting of the register alone. -/
theorem not_registerAccesses : ¬ Obligations.RegisterAccesses := by
  unfold Obligations.RegisterAccesses
  intro h
  obtain ⟨hplain, -⟩ := h Tests.up .host (Reg.winStage 0) 0x10
    ⟨Reg.winStage 0, [], 4, false, .rw, 0xFFFFFFFF, 0, none⟩ rfl (Tests.wit_Clear .host (by decide))
  have hset := hplain (by decide) winStage_writable
  have hcount := winStage_write_counts
  rw [hset, winStage_set_counts_none] at hcount
  exact absurd hcount (by decide)

end Sys2Proof.Machine
end

/-! ### Each setting command writes its register (R8, R481, R490, R500) -/

section
namespace Sys2Proof.Machine

/-! A 32-bit value as it is written to the register file. -/

theorem toNat_w64_word (v : W32) : (w64 v.toNat).toNat = v.toNat := by
  rw [w64, BitVec.toNat_ofNat, Nat.mod_eq_of_lt (by omega)]

theorem fld_w64_word (v : W32) (lo len : Nat) : fld (w64 v.toNat) lo len = fld v lo len := by
  rw [fld, toNat_w64_word, fld]

theorem bit_w64_word (v : W32) (i : Nat) : bit (w64 v.toNat) i = bit v i := by
  rw [bit, bit, BitVec.getLsbD, BitVec.getLsbD, toNat_w64_word]

theorem bit_setFld_clear (w : W64) (i : Nat) : bit (setFld w i 1 0) i = false := by
  have hlow : w.toNat % 2 ^ i < 2 ^ i := Nat.mod_lt _ (by positivity)
  have hdiv : (w.toNat % 2 ^ i + w.toNat / 2 ^ (i + 1) * 2 ^ (i + 1)) / 2 ^ i % 2 = 0 := by
    rw [show w.toNat / 2 ^ (i + 1) * 2 ^ (i + 1) = 2 ^ i * (2 * (w.toNat / 2 ^ (i + 1))) by ring,
      Nat.add_mul_div_left _ _ (by positivity), Nat.div_eq_of_lt hlow]
    omega
  rw [bit, setFld, BitVec.getLsbD_ofNat]
  simp [Nat.testBit_eq_decide_div_mod_eq, hdiv]

theorem mem_insertNat (x : Nat) (l : List Nat) : x ∈ insertNat x l := by
  induction l with
  | nil => simp [insertNat]
  | cons y ys ih =>
    rw [insertNat]
    split
    · simp
    · split <;> simp_all

theorem sget_sdropRange_inside {α : Type} (d : α) (m : Sparse α) {lo hi k : Nat} (h1 : lo ≤ k) (h2 : k < hi) :
    sget d (sdropRange m lo hi) k = d := by
  induction m with
  | nil => rfl
  | cons e m ih =>
    obtain ⟨i, w⟩ := e
    simp only [sdropRange, List.filter_cons] at ih ⊢
    split
    case isTrue hi => rw [sget, if_neg, ih]; grind
    case isFalse => exact ih

/-- An ignored access is counted and described, and changes nothing else. -/
theorem ignores_ignored (s : State) (r : Requester) (off : Nat) (read : Bool) :
    Ignores s (s.ignored r off read) r off read := by
  refine ⟨ignored_writes s r off read, ?_, fun o h1 h2 => ignored_reg_ne s r off read h1 h2, ignored_only s r off read⟩
  rw [State.ignored, State.reg_setReg_same]
  simp [pack]
  ring_nf

end Sys2Proof.Machine
end

/-! What each setting's handler does with a value in its range. -/

section
namespace Sys2Proof.Machine

section
variable {s : State} {v : W64}

theorem wrOwnCoord_inRange (hy : 240 ≤ fld v 8 8) (hdown : ∀ lp ∈ s.lports, (s.port lp).st = .down) :
    wrOwnCoord s v = some ((s.setReg Reg.ownCoord v).setReg Reg.devStatus 1) := by
  simpa [wrOwnCoord, hy] using hdown

theorem wrPortCfg_sameSplit {p : Nat} (hsame : fld v 0 2 = s.split p) (hsplit : fld v 0 2 ≠ 3)
    (hdown : ∀ i < 4, (s.port (4 * p + i)).st = .down) :
    wrPortCfg p s v = some (s.setReg (Reg.portCfg p) v) := by
  have hall : (List.range 4).all (fun i => decide ((s.port (4 * p + i)).st = .down)) = true := by simpa using hdown
  rw [wrPortCfg]
  simp only [hall]
  rw [if_neg (by simpa using hsplit), if_pos hsame]

theorem wrInjCtrl_inRange {n : Nat} (hmode : fld v 0 2 ≠ 3) (hcount : fld v 0 2 = 0 ∨ fld v 3 10 ≠ 0)
    (hrate : fld v 13 5 ≤ 20) :
    wrInjCtrl n s v = some ((s.setReg (Reg.injCtrl n) v).modLane n (fun l => { l with
      injArmed := decide (fld v 0 2 = 1), injFrames := 0 })) :=
  if_neg (by simp; tauto)

theorem wrEyeCtrl_start {n : Nat} (hlo : 10 ≤ fld v 16 5) (hhi : fld v 16 5 ≤ 36) (heye : fld v 21 2 = 0)
    (hstart : bit v 0 = true) (hidle : (s.lane n).eyeBusy = false) :
    wrEyeCtrl n s v = some ((s.setReg (Reg.eyeCtrl n) (v &&& ~~~1)).modLane n
      (fun l => { l with eyeBusy := true, eyeDone := false })) := by
  simp [wrEyeCtrl, heye, hstart, hidle, Nat.not_lt.mpr hlo, Nat.not_lt.mpr hhi]

theorem wrPrbsCtrl_on {n : Nat} (hgen : fld v 0 2 ≠ 3) (hclear : fld v 2 2 = 0) (hon : fld v 0 4 ≠ 0)
    (hfree : s.laneFree n = true) :
    ∃ t, wrPrbsCtrl n s v = some t ∧ t.regs = (s.setReg (Reg.prbsCtrl n) v).regs ∧ (t.lane n).st = .test ∧
      (t.lane n).shutter = true ∧ t = { s with regs := t.regs, lanes := t.lanes } := by
  refine ⟨_, if_neg (by simp [hgen, hclear, hfree]), ?_⟩
  simp [hclear, hon, State.modLane, State.lane, sget_smod, State.setReg]

theorem wrSpareCfg_serving {n : Nat} (hspare : 512 ≤ n) (hserves : (s.lane n).serves.isSome = true) :
    wrSpareCfg n s v = some (s.setReg (Reg.spareCfg n) v) := by
  have hlane : (s.setReg (Reg.spareCfg n) v).lane n = s.lane n := rfl
  rw [wrSpareCfg, if_neg (Nat.not_lt.mpr hspare)]
  simp only [hlane]
  split
  · rw [if_neg (by simp [Option.isNone_eq_false_iff.mpr hserves])]
  · rw [if_pos hserves]

theorem wrLtBase_inRange (hen : s.seqEn = false) (halign : v.toNat % 4194304 = 0) (htop : v.toNat < 2 ^ 48) :
    wrLtBase s v = some (s.setReg Reg.ltBase v) :=
  if_neg (by simp only [hen, halign, Nat.not_le.mpr htop]; decide)

theorem wrSpillBase_inRange (halign : v.toNat % 2 ^ 30 = 0) (htop : v.toNat < 2 ^ 48) :
    wrSpillBase s v = some (s.setReg Reg.spillBase v) := by
  have hgib : gib = 2 ^ 30 := rfl
  exact if_neg (by simp only [hgib, halign, Nat.not_le.mpr htop]; decide)

theorem wrCollCtrl_inRange (h : bit v 0 = false ∨ s.collEn = true ∨ s.spillOk = true) :
    wrCollCtrl s v = some (s.setReg Reg.collCtrl v) :=
  if_neg (by rcases h with h | h | h <;> simp [h])

theorem wrLtCtrl_enable (hsize : fld v 1 4 ≤ 8) (hen : bit v 0 = true)
    (hkept : s.seqEn = true → fld v 1 4 = fld (s.reg Reg.ltCtrl) 1 4)
    (hroom : s.seqEn = false → s.ltOk (2 ^ (fld v 1 4 + 8)) = true) :
    wrLtCtrl s v = some (s.setReg Reg.ltCtrl v) := by
  rw [wrLtCtrl]
  cases hseq : s.seqEn
  case false => simp [hen, hroom hseq, Nat.not_lt.mpr hsize]
  case true => simp [hen, hkept hseq, hkept hseq ▸ Nat.not_lt.mpr hsize]

theorem wrLtCtrl_disable (hsize : fld v 1 4 ≤ 8) (hen : bit v 0 = false)
    (hkept : s.seqEn = true → fld v 1 4 = fld (s.reg Reg.ltCtrl) 1 4) :
    wrLtCtrl s v = some ((s.setReg Reg.ltCtrl v).modLaunch (fun l => { l with listed := [] })) := by
  rw [wrLtCtrl]
  simp only [hen]
  rw [if_neg (Nat.not_lt.mpr hsize), if_neg (by simpa using hkept)]
  simp

theorem wrBenchCtrl_wake {b : Nat} (hb : b < 100) (hhold : bit v 0 = true) (hserves : s.fault.oos = false) :
    wrBenchCtrl b s v = some ((s.setReg (Reg.benchCtrl b) v).wakeBench b) := by
  simp [wrBenchCtrl, Nat.not_le.mpr hb, hhold, hserves]

theorem wrFmax_inRange (hbin : fld v 0 3 ≤ 4) :
    wrFmax s v = some ((s.setReg Reg.fmaxCtrl v).modPwr (fun p => { p with benchBin := max p.benchBin (fld v 0 3) })) :=
  if_neg (Nat.not_lt.mpr hbin)

theorem wrLehr_start (hlo : 24 ≤ fld v 4 16) (hhi : fld v 4 16 ≤ 8760) (hstart : bit v 1 = true)
    (hidle : s.pwr.lehrStep = 0) :
    wrLehr s v = some (s.setReg Reg.lehrCtrl (setFld v 1 1 0)).lehrBegin := by
  simp [wrLehr, hstart, hidle, Nat.not_lt.mpr hlo, Nat.not_lt.mpr hhi]

/-- A requester that may write the counter blocks has the handler, and any other has none (R481, R490). -/
theorem counterWrite_of_counts {r : Requester} (h : r ≠ .steward ∧ r ≠ .tray) (f : WriteFn) : counterWrite r f = f := by
  cases r <;> simp_all [counterWrite]

theorem counterWrite_of_not_counts {r : Requester} (h : ¬ (r ≠ .steward ∧ r ≠ .tray)) (f : WriteFn) :
    counterWrite r f s v = none := by
  cases r <;> simp_all [counterWrite]

/-- Opening an account and settling it change the receive accounts alone. -/
theorem settle_only (s : State) (lp vc : Nat) (term : Bool) (opens : Bool) (f : RxAcct → RxAcct) :
    (if opens then s.modRx lp vc term f else s).settle lp vc term = { s with sw := { s.sw with
      rxAcct := ((if opens then s.modRx lp vc term f else s).settle lp vc term).sw.rxAcct } } := by
  cases opens <;> rfl

theorem wrCreditLimit_inRange {lp vc : Nat} {term : Bool} (hmin : vc = 1 ∨ v.toNat = 0 ∨ 32 < v.toNat)
    (htransit : term = false → s.transitSum lp vc v.toNat ≤ 4096 / s.lportsOf (lp / 4))
    (hterm : term = true → s.termSum lp vc v.toNat ≤ termRoom vc) :
    let off := if term then tcredOff lp vc else xcredOff lp vc
    ∃ t, wrCreditLimit lp term vc s v = some t ∧ t.reg off = v ∧ (∀ o, o ≠ off → t.reg o = s.reg o) ∧
      t = { s with regs := t.regs, sw := { s.sw with rxAcct := t.sw.rxAcct } } := by
  intro off
  have h1 : ¬ (vc ≠ 1 && 1 ≤ v.toNat && v.toNat ≤ 32) = true := by simp; omega
  have h2 : ¬ (!term && 4096 / s.lportsOf (lp / 4) < s.transitSum lp vc v.toNat) = true := by simpa using htransit
  have h3 : ¬ (term && termRoom vc < s.termSum lp vc v.toNat) = true := by simpa using hterm
  refine ⟨_, (if_neg h1).trans ((if_neg h2).trans (if_neg h3)), ?_⟩
  generalize ht : State.settle _ lp vc term = t
  have honly : t = { s.setReg off v with sw := { s.sw with rxAcct := t.sw.rxAcct } } := ht ▸ settle_only ..
  rw [honly]
  exact ⟨State.reg_setReg_same .., fun o ho => State.reg_setReg_ne _ _ ho, rfl⟩

theorem wrEvsel_listed {blk k : Nat} (hev : eventListed (blkType blk) (fld v 0 8) = true)
    (hport : blkType blk ≠ 0 → fld v 9 7 = 0) (hvc : blkType blk = 0 → 8 ≤ fld v 0 8 → fld v 9 4 = 0) :
    wrEvsel blk k s v = some (((s.setReg (Reg.evsel blk k) v).setReg (Reg.cnt blk k) 0).setReg (Reg.ovf blk)
      (setFld (s.reg (Reg.ovf blk)) k 1 0)) :=
  if_neg (by simp [hev]; tauto)

/-- The selector, the counter and its overflow bit stand at three offsets. -/
theorem counterRegs_ne (blk : Nat) {k : Nat} (hk : k < 8) : Reg.cnt blk k ≠ Reg.evsel blk k ∧
    Reg.ovf blk ≠ Reg.evsel blk k ∧ Reg.ovf blk ≠ Reg.cnt blk k := by
  refine ⟨?_, ?_, ?_⟩ <;> simp only [Reg.evsel, Reg.cnt, Reg.ovf] <;> omega

theorem wrBwCtrl_inRange {p : Nat} (hw : v.toNat ≤ 20) :
    ∃ t, wrBwCtrl p s v = some t ∧ t.regs = (s.setReg (Reg.bwCtrl p) v).regs ∧ t.perf.discard.contains p = true ∧
      t = { s with regs := t.regs, perf := t.perf } :=
  ⟨_, if_neg (Nat.not_lt.mpr hw), rfl, List.contains_iff_mem.mpr (mem_insertNat p s.perf.discard), rfl⟩

end

end Sys2Proof.Machine
end

/-! The end of a bandwidth window (R491). -/

section
namespace Sys2Proof.Machine

/-- What the end of port `p`'s window reports of lane `l`, from the counts `s` holds. -/
def reportLane (s : State) (p : Nat) (t : State) (l : Nat) : State :=
  (t.setReg (Reg.bwRx p l) (w64 (sget 0 s.perf.rx (4 * p + l)))).setReg (Reg.bwTx p l) (w64 (sget 0 s.perf.tx (4 * p + l)))

/-- The report of the first `n` lanes of port `p`. -/
def reportLanes (s : State) (p n : Nat) : State := (List.range n).foldl (reportLane s p) s

theorem reportLanes_succ (s : State) (p n : Nat) : reportLanes s p (n + 1) = reportLane s p (reportLanes s p n) n := by
  rw [reportLanes, List.range_succ, List.foldl_append]
  rfl

theorem reportLanes_only (s : State) (p n : Nat) : reportLanes s p n = { s with regs := (reportLanes s p n).regs } := by
  induction n with
  | zero => rfl
  | succ n ih => rw [reportLanes_succ, ih]; rfl

theorem bwRx_ne_bwTx (p l m : Nat) : Reg.bwRx p l ≠ Reg.bwTx p m := by simp only [Reg.bwRx, Reg.bwTx]; omega

theorem bwSeq_ne_lane (p l : Nat) : Reg.bwRx p l ≠ Reg.bwSeq p ∧ Reg.bwTx p l ≠ Reg.bwSeq p := by
  constructor <;> simp only [Reg.bwRx, Reg.bwTx, Reg.bwSeq] <;> omega

theorem reportLanes_reg (s : State) (p : Nat) {n l : Nat} (hl : l < n) :
    (reportLanes s p n).reg (Reg.bwRx p l) = w64 (sget 0 s.perf.rx (4 * p + l)) ∧
    (reportLanes s p n).reg (Reg.bwTx p l) = w64 (sget 0 s.perf.tx (4 * p + l)) := by
  induction n with
  | zero => omega
  | succ n ih =>
    rw [reportLanes_succ, reportLane, State.reg_setReg_ne _ _ (bwRx_ne_bwTx p l n)]
    by_cases hln : l = n
    case pos => subst hln; exact ⟨State.reg_setReg_same .., State.reg_setReg_same ..⟩
    case neg =>
      have hrx : Reg.bwRx p l ≠ Reg.bwRx p n := by simp only [Reg.bwRx]; omega
      have htx : Reg.bwTx p l ≠ Reg.bwTx p n := by simp only [Reg.bwTx]; omega
      rw [State.reg_setReg_ne _ _ hrx, State.reg_setReg_ne _ _ htx, State.reg_setReg_ne _ _ (bwRx_ne_bwTx p n l).symm]
      exact ih (by omega)

theorem exec_bwWindowEnd_report {s : State} {p : Fin 128} (hpow : s.powered = true)
    (hwin : s.bwIndex p ≠ sget 0 s.perf.win p) (hkeep : s.perf.discard.contains p.val = false) :
    exec (.bwWindowEnd p) s = .next (((reportLanes s p 4).setReg (Reg.bwSeq p)
      (w64 ((s.regN (Reg.bwSeq p) + 1) % 2 ^ 32))).openWindow p) := by
  rw [exec_bwWindowEnd, execBwWindowEnd, if_neg (by simp [hpow, hwin]), if_neg (by simp only [hkeep]; decide)]
  rfl

theorem openWindow_reg (s : State) (p o : Nat) : (s.openWindow p).reg o = s.reg o := rfl

/-- A new window of port `p` starts with its lanes' counts at 0. -/
theorem openWindow_counts (s : State) (p : Nat) {l : Nat} (hl : l < 4) :
    sget 0 (s.openWindow p).perf.rx (4 * p + l) = 0 ∧ sget 0 (s.openWindow p).perf.tx (4 * p + l) = 0 :=
  ⟨sget_sdropRange_inside 0 _ (by omega) (by omega), sget_sdropRange_inside 0 _ (by omega) (by omega)⟩

theorem bwWindowEnd_reports {s : State} {p : Fin 128} (hpow : s.powered = true)
    (hwin : s.bwIndex p ≠ sget 0 s.perf.win p) (hkeep : s.perf.discard.contains p.val = false) :
    ∃ t, exec (.bwWindowEnd p) s = .next t ∧
      (∀ l < 4, t.reg (Reg.bwRx p l) = w64 (sget 0 s.perf.rx (4 * p.val + l)) ∧
        t.reg (Reg.bwTx p l) = w64 (sget 0 s.perf.tx (4 * p.val + l)) ∧
        sget 0 t.perf.rx (4 * p.val + l) = 0 ∧ sget 0 t.perf.tx (4 * p.val + l) = 0) ∧
      t.reg (Reg.bwSeq p) = w64 ((s.regN (Reg.bwSeq p) + 1) % 2 ^ 32) ∧ t = { s with regs := t.regs, perf := t.perf } := by
  refine ⟨_, exec_bwWindowEnd_report hpow hwin hkeep, fun l hl => ?_, ?_, ?_⟩
  · obtain ⟨hrx, htx⟩ := reportLanes_reg s p hl
    obtain ⟨hnrx, hntx⟩ := bwSeq_ne_lane p l
    rw [openWindow_reg, openWindow_reg, State.reg_setReg_ne _ _ hnrx, State.reg_setReg_ne _ _ hntx]
    exact ⟨hrx, htx, openWindow_counts _ p hl⟩
  · rw [openWindow_reg, State.reg_setReg_same]
  · rw [reportLanes_only]
    rfl

end Sys2Proof.Machine
end

/-! The commands, each from its handler. -/

section
namespace Sys2Proof.Machine

section
variable {s : State} {r : Requester} (hc : Clear s r)
include hc

theorem lockWrite_sets (l : LockReg) (v : W32) :
    let off := match l with | .sc => Reg.scLock | .rt => Reg.rtLock | .global => Reg.globalLock
    Writable s off (w64 v.toNat) → exec (.lockWrite r l v) s = .next (s.setReg off (w64 v.toNat)) := by
  cases l <;> exact fun hw => writeCmd_writable hc hw (plainWrite _) false rfl

theorem evselWrite_clears {k : Fin 242} {j : Fin 8} {v : W32} (hcounts : r ≠ .steward ∧ r ≠ .tray)
    (hw : Writable s (Reg.evsel k j) (w64 v.toNat)) (hev : eventListed (blkType k) (fld v 0 8) = true)
    (hport : blkType k ≠ 0 → fld v 9 7 = 0) (hvc : blkType k = 0 → 8 ≤ fld v 0 8 → fld v 9 4 = 0) :
    ∃ t, exec (.evselWrite r k j v) s = .next t ∧ t.reg (Reg.evsel k j) = w64 v.toNat ∧ t.reg (Reg.cnt k j) = 0 ∧
      bit (t.reg (Reg.ovf k)) j = false ∧ t = { s with regs := t.regs } ∧
      (∀ o, o ≠ Reg.evsel k j → o ≠ Reg.cnt k j → o ≠ Reg.ovf k → t.reg o = s.reg o) := by
  obtain ⟨hcnt, hovf, hovfc⟩ := counterRegs_ne k j.isLt
  have hf := wrEvsel_listed (s := s) (v := w64 v.toNat) (blk := k) (k := j) (by rwa [fld_w64_word])
    (by rwa [fld_w64_word]) (by rwa [fld_w64_word, fld_w64_word])
  refine ⟨_, writeCmd_writable hc hw _ false (by rw [counterWrite_of_counts hcounts, hf]), ?_, ?_, ?_, rfl, ?_⟩
  · rw [State.reg_setReg_ne _ _ hovf.symm, State.reg_setReg_ne _ _ hcnt.symm, State.reg_setReg_same]
  · rw [State.reg_setReg_ne _ _ hovfc.symm, State.reg_setReg_same]
  · rw [State.reg_setReg_same, bit_setFld_clear]
  · intro o h1 h2 h3
    rw [State.reg_setReg_ne _ _ h3, State.reg_setReg_ne _ _ h2, State.reg_setReg_ne _ _ h1]

theorem cntWrite_ignored {k : Fin 242} {j : Fin 8} {q : W64} (hcounts : ¬ (r ≠ .steward ∧ r ≠ .tray))
    (hw : Writable s (Reg.cnt k j) q) :
    exec (.cntWrite r k j q) s = .next (s.ignored r (Reg.cnt k j) false) := by
  rw [exec_cntWrite, execCntWrite, writeCmd, writeVia_writable hc hw, counterWrite_of_not_counts hcounts, Option.getD_none]

theorem bwCtrlWrite_sets {p : Fin 128} {v : W32} (hcounts : r ≠ .steward ∧ r ≠ .tray)
    (hw : Writable s (Reg.bwCtrl p) (w64 v.toNat)) (hwin : v.toNat ≤ 20) :
    ∃ t, exec (.bwCtrlWrite r p v) s = .next t ∧ t.regs = (s.setReg (Reg.bwCtrl p) (w64 v.toNat)).regs ∧
      t.perf.discard.contains p.val = true ∧ t = { s with regs := t.regs, perf := t.perf } := by
  obtain ⟨t, hf, ht⟩ := wrBwCtrl_inRange (s := s) (p := p) (v := w64 v.toNat) (by rwa [toNat_w64_word])
  exact ⟨t, writeCmd_writable hc hw _ false (by rw [counterWrite_of_counts hcounts, hf]), ht⟩

theorem creditLimitWrite_sets {lp : Fin 512} {term : Bool} {vc : Fin 8} {v : W32} :
    let off := if term then tcredOff lp vc else xcredOff lp vc
    Writable s off (w64 v.toNat) → (vc = 1 ∨ v.toNat = 0 ∨ 32 < v.toNat) →
    (term = false → s.transitSum lp vc v.toNat ≤ 4096 / s.lportsOf (lp.val / 4)) →
    (term = true → s.termSum lp vc v.toNat ≤ termRoom vc) →
    ∃ t, exec (.creditLimitWrite r lp term vc v) s = .next t ∧ t.reg off = w64 v.toNat ∧
      (∀ o, o ≠ off → t.reg o = s.reg o) ∧ t = { s with regs := t.regs, sw := { s.sw with rxAcct := t.sw.rxAcct } } := by
  intro off hw hmin htransit hterm
  obtain ⟨t, hf, ht⟩ := wrCreditLimit_inRange (s := s) (v := w64 v.toNat) (lp := lp) (vc := vc) (term := term)
    (by rw [toNat_w64_word]; omega) (by rwa [toNat_w64_word]) (by rwa [toNat_w64_word])
  exact ⟨t, writeCmd_writable hc hw _ false hf, ht⟩

theorem prbsCtrlWrite_sets {n : Fin 528} {v : W32} (hw : Writable s (Reg.prbsCtrl n) (w64 v.toNat)) (hgen : fld v 0 2 ≠ 3)
    (hclear : fld v 2 2 = 0) (hon : fld v 0 4 ≠ 0) (hfree : s.laneFree n = true) :
    ∃ t, exec (.prbsCtrlWrite r n v) s = .next t ∧ t.regs = (s.setReg (Reg.prbsCtrl n) (w64 v.toNat)).regs ∧
      (t.lane n).st = .test ∧ (t.lane n).shutter = true ∧ t = { s with regs := t.regs, lanes := t.lanes } := by
  obtain ⟨t, hf, ht⟩ := wrPrbsCtrl_on (s := s) (v := w64 v.toNat) (n := n) (by rwa [fld_w64_word]) (by rwa [fld_w64_word])
    (by rwa [fld_w64_word]) hfree
  exact ⟨t, writeCmd_writable hc hw _ false hf, ht⟩

theorem lehrStart_begins {v : W32} (hw : Writable s Reg.lehrCtrl (w64 v.toNat)) (hlo : 24 ≤ fld v 4 16)
    (hhi : fld v 4 16 ≤ 8760) (hstart : bit v 1 = true) (hidle : s.pwr.lehrStep = 0) :
    exec (.lehrStart r v) s = .next (s.setReg Reg.lehrCtrl (setFld (w64 v.toNat) 1 1 0)).lehrBegin :=
  writeCmd_writable hc hw wrLehr false
    (wrLehr_start (by rwa [fld_w64_word]) (by rwa [fld_w64_word]) (by rwa [bit_w64_word]) hidle)

end

/-- Settles O29: each command's value is in the range its handler asks for, so the write is accepted as it stands. -/
theorem registerSettings : Obligations.RegisterSettings := by
  unfold Obligations.RegisterSettings
  intro s r v q hc
  dsimp only
  refine ⟨lockWrite_sets hc .sc v, lockWrite_sets hc .rt v, lockWrite_sets hc .global v, ?ownCoord,
    fun lp term vc hw => creditLimitWrite_sets hc hw, ?portCfg, ?injCtrl, ?eyeScan,
    fun n hw => prbsCtrlWrite_sets hc hw, ?spareCfg,
    fun k j hcounts hw => evselWrite_clears hc hcounts hw, ?cnt, ?cntIgnored,
    fun p hcounts hw => bwCtrlWrite_sets hc hcounts hw, fun p => bwWindowEnd_reports, ?ltBase, ?spillBase, ?collEn,
    ?seqEn, ?seqEnOff, ?holdAwake, ?fmax, ?lehr⟩
  case ownCoord =>
    intro hy hdown hw
    exact writeCmd_writable hc hw wrOwnCoord false (wrOwnCoord_inRange (by rwa [fld_w64_word]) hdown)
  case portCfg =>
    intro p hsame hsplit hdown hw
    exact writeCmd_writable hc hw (wrPortCfg p) false
      (wrPortCfg_sameSplit (by rwa [fld_w64_word]) (by rwa [fld_w64_word]) hdown)
  case injCtrl =>
    intro n hw hmode hcount hrate
    have hf := wrInjCtrl_inRange (s := s) (v := w64 v.toNat) (n := n) (by rwa [fld_w64_word])
      (by rwa [fld_w64_word, fld_w64_word]) (by rwa [fld_w64_word])
    rw [fld_w64_word] at hf
    exact writeCmd_writable hc hw (wrInjCtrl n) false hf
  case eyeScan =>
    intro n hw hlo hhi heye hstart hidle
    exact writeCmd_writable hc hw (wrEyeCtrl n) false (wrEyeCtrl_start (by rwa [fld_w64_word]) (by rwa [fld_w64_word])
      (by rwa [fld_w64_word]) (by rwa [bit_w64_word]) hidle)
  case spareCfg =>
    intro n hspare _ hserves hw
    exact writeCmd_writable hc hw (wrSpareCfg n) false (wrSpareCfg_serving hspare hserves)
  case cnt =>
    intro k j hcounts hw
    exact writeCmd_writable hc hw _ false (by rw [counterWrite_of_counts hcounts, plainWrite])
  case cntIgnored =>
    intro k j hcounts hw
    exact ⟨_, cntWrite_ignored hc hcounts hw, ignores_ignored s r _ false⟩
  case ltBase =>
    intro hen halign htop hw
    exact writeCmd_writable hc hw wrLtBase true (wrLtBase_inRange hen halign htop)
  case spillBase =>
    intro halign htop hw
    exact writeCmd_writable hc hw wrSpillBase true (wrSpillBase_inRange halign htop)
  case collEn =>
    intro h hw
    exact writeCmd_writable hc hw wrCollCtrl false (wrCollCtrl_inRange (by rwa [bit_w64_word]))
  case seqEn =>
    intro hsize hen hkept hroom hw
    exact writeCmd_writable hc hw wrLtCtrl false (wrLtCtrl_enable (by rwa [fld_w64_word]) (by rwa [bit_w64_word])
      (by rwa [fld_w64_word]) (by rwa [fld_w64_word]))
  case seqEnOff =>
    intro hsize hen hkept hw
    exact writeCmd_writable hc hw wrLtCtrl false (wrLtCtrl_disable (by rwa [fld_w64_word]) (by rwa [bit_w64_word])
      (by rwa [fld_w64_word]))
  case holdAwake =>
    intro b hb hw hhold hserves
    exact writeCmd_writable hc hw (wrBenchCtrl b) false (wrBenchCtrl_wake hb (by rwa [bit_w64_word]) hserves)
  case fmax =>
    intro hbin hw
    have hf := wrFmax_inRange (s := s) (v := w64 v.toNat) (by rwa [fld_w64_word])
    rw [fld_w64_word] at hf
    exact writeCmd_writable hc hw wrFmax false hf
  case lehr =>
    intro hlo hhi hstart hidle hw
    exact ⟨_, lehrStart_begins hc hw hlo hhi hstart hidle, rfl, rfl, rfl, State.reg_setReg_same ..⟩

end Sys2Proof.Machine
end

/-! ### An arriving packet whose only egress queue is stopped (R77) -/

section
namespace Sys2Proof.Machine

/-- The header of a packet with 8 bytes of payload, on its way to node 5. -/
def transitHdr : Hdr := Tests.hdrTo 0x500 0 8

/-- The payload and the trailer that follow the header. -/
def transitBody : List Byte := List.replicate 12 0

/-- The arrival of the packet, which is to leave through port 4. -/
def transitArrival : Arrival := { h := transitHdr, decision := .forward [4] none false }

/-- A packet arrives on port 0 for the stopped VC0 queue of port 4, and an item made inside the device is stored under
the identifier that is handed out next. -/
def takenIdState : State := { Tests.netUp with
  sw := {
    arrivals := [(0, transitArrival)]
    stopped := [qkey 4 0]
    stored := [{ id := 0, item := .packet { h := transitHdr, payload := [] }, granules := 4, charge := .internal }] } }

theorem takenIdState_ports : takenIdState.clocked = true ∧ takenIdState.portActive 0 = true ∧
    takenIdState.portActive 4 = true := by decide +kernel

/-- The ports on which the items stored in a command's next state arrived. -/
def storedPortsAfter : Host.Outcome State Fault Refusal → List (Option Nat)
  | .next t => t.sw.stored.map (·.inLp)
  | _ => []

/-- The packet that arrived takes the place of the item made inside the device. -/
theorem takenIdState_packetEnd :
    storedPortsAfter (exec (.packetEnd 0 ⟨transitBody, .clean⟩) takenIdState) = [some 0] := by
  decide +kernel

/-- Refutes O35: a stopped queue takes nothing, so a packet that has no other target is freed, by its identifier; where an
older item is stored under the same identifier, that item is freed in its place, and the stored items do not stay as they
were. The statement asks of no state that the next identifier be fresh. -/
theorem not_packetsArrive : ¬ Obligations.PacketsArrive := by
  unfold Obligations.PacketsArrive
  intro h
  obtain ⟨hclocked, hin, hout⟩ := takenIdState_ports
  obtain ⟨-, -, -, hend⟩ := h takenIdState 0 transitHdr hclocked hin rfl
  obtain ⟨-, -, -, hstopped, -⟩ := hend transitArrival transitBody .clean rfl rfl rfl
  obtain ⟨t, hexec, -, hstored, -⟩ := hstopped 4 false rfl rfl hout rfl
  have hports := takenIdState_packetEnd
  rw [hexec, storedPortsAfter, hstored] at hports
  exact absurd hports (by decide)

end Sys2Proof.Machine
end

/-! ### Supplies and reference clocks (R470, R511-R516) -/

section
namespace Sys2Proof.Machine

section
variable {α : Type}

/-- A filter that keeps the entries of a key keeps what the key reads. -/
theorem sget_filter_of_kept (d : α) (m : Sparse α) (p : Nat → Bool) {i : Nat} (h : p i = true) :
    sget d (m.filter (fun e => p e.1)) i = sget d m i := by
  induction m with
  | nil => rfl
  | cons e m ih =>
    obtain ⟨k, v⟩ := e
    by_cases hk : p k = true
    case pos => simp [hk, sget, ih]
    case neg =>
      have hne : i ≠ k := fun e => hk (e ▸ h)
      simp [hk, sget, hne, ih]

variable [DecidableEq α]

theorem smap_cons (d : α) (k : Nat) (v : α) (m : Sparse α) (f : α → α) :
    smap d ((k, v) :: m) f = if f v = d then smap d m f else (k, f v) :: smap d m f := by
  by_cases hv : f v = d <;> simp [smap, hv]

/-- A key whose value is not the default, before and after, reads as mapped. -/
theorem sget_smap_of_ne (d : α) (m : Sparse α) (f : α → α) {i : Nat} (h : sget d m i ≠ d) (hf : f (sget d m i) ≠ d) :
    sget d (smap d m f) i = f (sget d m i) := by
  induction m with
  | nil => exact absurd rfl h
  | cons e m ih =>
    obtain ⟨k, v⟩ := e
    by_cases hk : i = k
    case pos =>
      rw [sget, if_pos hk] at hf ⊢
      rw [smap_cons, if_neg hf, sget, if_pos hk]
    case neg =>
      rw [sget, if_neg hk] at h hf ⊢
      rw [smap_cons, ← ih h hf]
      split
      · rfl
      · rw [sget, if_neg hk]

/-- What holds of the default and of every mapped value holds of every value read. -/
theorem sget_smap_all {P : α → Prop} {d : α} (m : Sparse α) {f : α → α} (hd : P d) (hf : ∀ v, P (f v)) (i : Nat) :
    P (sget d (smap d m f) i) := by
  induction m with
  | nil => exact hd
  | cons e m ih =>
    obtain ⟨k, v⟩ := e
    rw [smap_cons]
    split
    · exact ih
    · rw [sget]
      split
      · exact hf v
      · exact ih

end

/-- A 32-bit saturating counter one on. -/
theorem State.regN_bump (s : State) (o : Nat) : (s.bump o).regN o = min (s.regN o + 1) 0xFFFFFFFF := by
  rw [State.regN, State.bump, State.bumpBy, State.reg_setReg_same, w64, BitVec.toNat_ofNat]
  omega

theorem State.regN_unbump (s : State) (o : Nat) : (s.unbump o).regN o = s.regN o - 1 := by
  have hlt : s.regN o < 2 ^ 64 := (s.reg o).isLt
  rw [State.regN, State.unbump, State.reg_setReg_same, w64, BitVec.toNat_ofNat]
  omega

@[simp] theorem State.memCtl_modMem_same (s : State) (k : Nat) (f : MemCtl → MemCtl) :
    (s.modMem k f).memCtl k = f (s.memCtl k) :=
  sget_sset_same ..

@[simp] theorem State.modMem_mem (s : State) (k : Nat) (f : MemCtl → MemCtl) : (s.modMem k f).pool.mem = s.pool.mem := rfl

theorem aonUp_iff {s : State} : s.aonUp = true ↔ s.pwr.railsUp = true ∧ s.boot.stage ≠ .inert := by
  rw [State.aonUp, Bool.and_eq_true, decide_eq_true_iff]

/-! What a rail fault keeps (R513). -/

/-- The escalation history and the count of compute resets outlive a rail fault. -/
theorem keptByRail_history {r : Nat} (h : r = Reg.computeResets ∨ Reg.crHist0 ≤ r ∧ r < Reg.frHist + 8) :
    keptByRail r = true := by
  have hrange : 0xD028 ≤ r ∧ r < 0xD030 ∨ 0xD050 ≤ r ∧ r < 0xD074 := by
    simp only [Reg.computeResets, Reg.crHist0, Reg.frHist] at h
    omega
  rcases hrange with hr | hr <;> simp [keptByRail, hr]

theorem railReset_reg (s : State) {r : Nat} (h : keptByRail r = true) : s.railReset.reg r = s.reg r :=
  sget_filter_of_kept _ s.regs keptByRail h

theorem railReset_not_powered (s : State) : s.railReset.powered = false := by simp [State.powered, State.railReset]

/-- A context's generation outlives a rail fault; the value 0 is the default. -/
theorem railReset_gen (s : State) (c : Nat) (h : (s.ctx c).gen ≠ 0) : (s.railReset.ctx c).gen = (s.ctx c).gen := by
  have hctx : sget {} s.ctxs c ≠ ({} : Ctx) := fun e => h (congrArg Ctx.gen e)
  have hrec : (sget {} s.ctxs c).record ≠ ({} : Ctx) := fun e => h (congrArg Ctx.gen e)
  exact (congrArg Ctx.gen (sget_smap_of_ne {} s.ctxs Ctx.record hctx hrec) :)

theorem Ctx.record_not_opened (c : Ctx) : c.record.st ≠ .opened := by
  rw [Ctx.record]
  dsimp only
  split <;> decide

theorem railReset_not_opened (s : State) (c : Nat) : (s.railReset.ctx c).st ≠ .opened :=
  sget_smap_all (P := fun x : Ctx => x.st ≠ .opened) s.ctxs (by decide) Ctx.record_not_opened c

theorem setReg_keeps_only_regs {s t : State} (o : Nat) (v : W64) (h : ∃ m, t = { s with regs := m }) :
    ∃ m, t.setReg o v = { s with regs := m } := by
  obtain ⟨m, rfl⟩ := h
  exact ⟨_, rfl⟩

/-- Taking a count back changes registers alone. -/
theorem uncountReset_only (s : State) : ∃ m, s.uncountReset = { s with regs := m } := by
  have hself : ∃ m, s = { s with regs := m } := ⟨s.regs, rfl⟩
  unfold State.uncountReset State.unbump
  split
  · exact hself
  · dsimp only
    split <;> split
    all_goals
      repeat refine setReg_keeps_only_regs _ _ ?_
      exact hself

theorem uncountReset_idle {s : State} (h : s.fault.reset = none) : s.uncountReset = s := by
  rw [State.uncountReset, h]

/-- A compute reset that alone was counted is taken back from its count and its history. -/
theorem uncountReset_compute {s : State} {q : ResetRun} (h : s.fault.reset = some q) (hq : q.counted = [1]) :
    s.uncountReset =
      ((s.unbump Reg.computeResets).setReg Reg.crHist0 (s.reg Reg.crHist1)).setReg Reg.crHist1 q.lostCr := by
  rw [State.uncountReset, h]
  simp only [hq, List.contains_eq_mem, List.mem_singleton]
  rw [if_neg (by decide), if_pos (by decide)]

theorem exec_railFault_resets {s : State} (hup : s.aonUp = true) (hok : s.pwr.railFault = false) :
    exec .railFault s = .next s.uncountReset.railReset :=
  if_neg (by simp [hup, hok])

/-- A rail fault takes an abandoned compute reset back from the registers that it keeps (R513). -/
theorem railReset_uncounts {s : State} {q : ResetRun} (h : s.fault.reset = some q) (hq : q.counted = [1]) :
    s.uncountReset.railReset.reg Reg.crHist0 = s.reg Reg.crHist1 ∧
      s.uncountReset.railReset.reg Reg.crHist1 = q.lostCr ∧
      s.uncountReset.railReset.regN Reg.computeResets = s.regN Reg.computeResets - 1 := by
  have h01 : Reg.crHist0 ≠ Reg.crHist1 := by decide
  have hr0 : Reg.computeResets ≠ Reg.crHist0 := by decide
  have hr1 : Reg.computeResets ≠ Reg.crHist1 := by decide
  rw [railReset_reg _ (keptByRail_history (by decide)), railReset_reg _ (keptByRail_history (by decide)), State.regN,
    railReset_reg _ (keptByRail_history (by decide)), uncountReset_compute h hq]
  refine ⟨?_, State.reg_setReg_same .., ?_⟩
  · rw [State.reg_setReg_ne _ _ h01, State.reg_setReg_same]
  · rw [State.reg_setReg_ne _ _ hr1, State.reg_setReg_ne _ _ hr0]
    exact State.regN_unbump s _

/-! Boot's start, the clocks and the wakes. -/

/-- Step 3 of boot starts with the newest state record's image, and nothing read of it (R469, R470). -/
theorem chooseImage_eq (s : State) : s.chooseImage = { s with
    boot := { s.boot with
      stage := .step 3, primary := s.mgmt.newestRecord.1, image := s.mgmt.newestRecord.1,
      oosAtBoot := s.mgmt.newestRecord.2, fallback := false, reasonA := 0, reasonB := 0, header := [], body := [] }
    mgmt := { s.mgmt with
      stateSeq := s.mgmt.validRecs.foldl (fun n e => max n (u32 e 0 + 1)) s.mgmt.stateSeq } } := rfl

theorem exec_powerOnResetRelease_starts {s : State} (hrails : s.pwr.railsUp = true) (hinert : s.boot.stage = .inert)
    (hfab : s.clk.fabRef = true) (hcxl : s.clk.cxlRef = true) (hflash : s.mgmt.spiHeld = false) :
    exec .powerOnResetRelease s = .next
      ((s.modBoot (fun b => { b with stage := .step 2, seedPresent := true, keyPresent := true })).modFault
        (fun f => { f with stewardUp := true })).chooseImage := by
  simp [execPowerOnResetRelease, hrails, hinert, hfab, hcxl, hflash]

theorem exec_railFaultRecovery_restarts {s : State} (hup : s.aonUp = true) (hfault : s.pwr.railFault = true)
    (hflash : s.mgmt.spiHeld = false) :
    exec .railFaultRecovery s = .next
      (((s.modPwr (fun p => { p with railFault := false })).modBoot (fun b => { b with keyPresent := b.seedPresent })).modFault
        (fun f => { f with stewardUp := true })).chooseImage := by
  simp [execRailFaultRecovery, hup, hfault, hflash]

theorem linkLost_up {s : State} (h : s.host.linkUp = true) :
    s.linkLost.clk = s.clk ∧ s.linkLost.host.linkUp = false ∧ s.linkLost.host.fenced = true ∧
      s.linkLost.regN Reg.hostLinkDowns = min (s.regN Reg.hostLinkDowns + 1) 0xFFFFFFFF := by
  rw [State.linkLost, if_neg (by simp [h])]
  exact ⟨rfl, rfl, rfl, State.regN_bump s.dropHostOps Reg.hostLinkDowns⟩

theorem exec_cxlRefclkLoss_fences {s : State} (hpow : s.powered = true) (hlink : s.host.linkUp = true) :
    ∃ t, exec .cxlRefclkLoss s = .next t ∧ t.clk = { s.clk with cxlRef := false } ∧ t.host.linkUp = false ∧
      t.host.fenced = true ∧ t.regN Reg.hostLinkDowns = min (s.regN Reg.hostLinkDowns + 1) 0xFFFFFFFF :=
  ⟨_, if_pos hpow, linkLost_up (s := s.modClk (fun c => { c with cxlRef := false })) hlink⟩

section
variable {s : State} (hpow : s.powered = true)
include hpow

theorem memoryWake_activates {m : Fin 28} (h : (s.memCtl m).st = .waking ∨ (s.memCtl m).st = .training) :
    ∃ t, exec (.blockWakeComplete (.memory m)) s = .next t ∧ (t.memCtl m).st = .active ∧ t.pool.mem = s.pool.mem := by
  refine ⟨_, (if_neg (by simp [hpow])).trans (if_pos h), ?_, rfl⟩
  rw [State.memCtl_modMem_same]

theorem laneTxWake_activates {lp : Fin 512} {at_ : Nat} (hwake : (s.port lp).txWakeAt = some at_) (hdue : at_ ≤ s.now) :
    ∃ t, exec (.blockWakeComplete (.laneTx lp)) s = .next t ∧ (t.port lp).tx = .active ∧ (t.port lp).txWakeAt = none := by
  refine ⟨_, (if_neg (by simp [hpow])).trans (if_pos (by simp [hwake, hdue])), ?_⟩
  rw [State.port_modPort_same]
  exact ⟨rfl, rfl⟩

theorem laneRxWake_activates {lp : Fin 512} (h : s.portActive lp = true) :
    ∃ t, exec (.blockWakeComplete (.laneRx lp)) s = .next t ∧ (t.port lp).rx = .active := by
  refine ⟨_, (if_neg (by simp [hpow])).trans (if_pos h), ?_⟩
  rw [State.port_modPort_same]

end

/-- Settles O56: each command's gate is open, so it does what its own lemma says; a rail fault resets every part but what
R513 lists, after the count of an abandoned reset has been taken back. -/
theorem suppliesAndClocks : Obligations.SuppliesAndClocks := by
  unfold Obligations.SuppliesAndClocks
  intro s
  dsimp only
  refine ⟨?powerUp, ?release, ⟨_, rfl, rfl, rfl, rfl, rfl, rfl, rfl, rfl, rfl, rfl, rfl, rfl, rfl, rfl⟩, ?railFault,
    ?recovery, rfl, ?fabReturn, exec_cxlRefclkLoss_fences, ?wakes⟩
  case powerUp => exact fun hinert => if_neg (not_not_intro hinert)
  case release =>
    intro hrails hinert hfab hcxl hflash
    refine ⟨_, exec_powerOnResetRelease_starts hrails hinert hfab hcxl hflash, ?_⟩
    rw [chooseImage_eq]
    exact ⟨rfl, aonUp_iff.mpr ⟨hrails, BootStage.noConfusion⟩, rfl, rfl, rfl, rfl, rfl, rfl, rfl⟩
  case railFault =>
    intro hup hok
    obtain ⟨m, honly⟩ := uncountReset_only s
    have hctx : ∀ c, s.uncountReset.ctx c = s.ctx c := fun c => by rw [honly]; rfl
    have hrails : s.uncountReset.pwr.railsUp = true := by rw [honly]; exact (aonUp_iff.mp hup).1
    refine ⟨_, exec_railFault_resets hup hok, railReset_not_powered _, aonUp_iff.mpr ⟨hrails, BootStage.noConfusion⟩,
      ?_, rfl, ?_, ?_, ?_, ?_, ?_, rfl, rfl, rfl, rfl, rfl, fun c => ⟨?gen, railReset_not_opened _ c⟩, ?idle,
      fun q => railReset_uncounts⟩
    case gen =>
      intro hgen
      rw [railReset_gen _ c (by rwa [hctx]), hctx]
    case idle =>
      intro hnone r hlo hhi
      rw [uncountReset_idle hnone, railReset_reg _ (keptByRail_history (.inr ⟨hlo, hhi⟩))]
    -- What railReset copies from its state, uncountReset has not touched.
    all_goals
      rw [honly]
      rfl
  case recovery =>
    intro hup hfault hflash
    refine ⟨_, exec_railFaultRecovery_restarts hup hfault hflash, ?_⟩
    rw [chooseImage_eq]
    dsimp only [State.modPwr, State.modBoot, State.modFault]
    exact ⟨rfl, rfl, rfl, rfl, rfl⟩
  case fabReturn => exact fun hlost => if_neg (by simp [hlost])
  case wakes =>
    intro hpow
    have hgate : ¬ (!s.powered) = true := by simp [hpow]
    exact ⟨fun m => memoryWake_activates hpow, fun lp at_ => laneTxWake_activates hpow,
      fun lp => laneRxWake_activates hpow, if_neg hgate, if_neg hgate⟩

end Sys2Proof.Machine
end

/-! ### LINK_UP to a port that has counted returned granules (R362, R367) -/

section
namespace Sys2Proof.Machine

/-- A CREDIT word without INIT that counts 5 granules returned to the transit account of VC0. -/
def returnedWord : W32 := 0x50000

/-- An INIT word that gives the same account a limit of 5 units. -/
def initWord : W32 := 0x50010

/-- Port 0 waits at step 6 for LINK_UP and has taken a CREDIT item (R362): the count reaches the account before its INIT. -/
def creditedState : State := Tests.nx (.credit 0 [returnedWord]) (Tests.port0 { st := .training, trainStep := 6 })

/-- CREDIT left the lists of held words and latches empty, and the host's gates open. -/
theorem creditedState_clear : Clear creditedState .host := by
  have hlow : creditedState.heldLow = [] := by decide +kernel
  have hlatch : creditedState.latches = [] := by decide +kernel
  exact ⟨by simp [hlow], by simp [hlatch], by decide +kernel, by decide +kernel⟩

theorem creditedState_waits : creditedState.powered = true ∧ creditedState.clk.fabRef = true ∧
    (creditedState.port 0).st = .training ∧ (creditedState.port 0).trainStep = 6 ∧
    creditedState.lportExists 0 = true ∧ (creditedState.port 0).rxItems = [] := by
  decide +kernel

/-- The granules returned to VC0's transit account on port 0 in the state that a completed command leaves. -/
def returnedAfter : Host.Outcome State Fault Refusal → Option Nat
  | .next t => some (t.txAcct 0 0 false).returned
  | _ => none

/-- LINK_UP sets the account's limit and keeps its count. -/
theorem creditedState_linkUp_returned : returnedAfter (exec (.linkUp 0 [initWord]) creditedState) = some 5 := by
  decide +kernel

/-- Refutes O43: a port at step 6 takes CREDIT words, and one without INIT advances its account's count of returned
granules; the LINK_UP that follows opens the account with its limit and that count, where the statement has an account of
nothing but the limit. -/
theorem not_portsTrain : ¬ Obligations.PortsTrain := by
  unfold Obligations.PortsTrain
  intro h
  obtain ⟨hpow, hfab, hst, hstep, hexists, hitems⟩ := creditedState_waits
  obtain ⟨-, -, -, -, -, -, -, -, hlinkUp⟩ := h creditedState .host 0 hpow creditedState_clear
  obtain ⟨t, hexec, -, -, hacct, -⟩ := hlinkUp initWord hfab hst hstep hexists hitems (by decide)
  obtain ⟨hvc, hterm⟩ : fld initWord 0 3 = 0 ∧ bit initWord 3 = false := by decide
  rw [hvc, hterm] at hacct
  have hnone : (t.txAcct 0 0 false).returned = 0 := congrArg TxAcct.returned hacct
  have hfive := creditedState_linkUp_returned
  rw [hexec, returnedAfter, hnone] at hfive
  exact absurd hfive (by decide)

end Sys2Proof.Machine
end

/-! ### What counting, logging and routing leave alone (R89-R98, R411, R487) -/

section
namespace Sys2Proof.Machine

/-- The registers that the arrival of a cell goes by, and the count of messages that timed out. -/
abbrev SettingReg (o : Nat) : Prop :=
  o = Reg.ownCoord ∨ o = Reg.msgTimeoutDrop ∨ (0x1000000 ≤ o ∧ o < 0x1800000 ∧ o % 0x10000 = 0)

theorem settingReg_portCfg {p : Nat} (h : p < 128) : SettingReg (Reg.portCfg p) := by
  simp only [Reg.portCfg]; omega

/-- What counting and logging leave alone: the switch, the ports, the benches, the time and the settings. -/
structure ReportFrame (s t : State) : Prop where
  sw : t.sw = s.sw
  ports : t.ports = s.ports
  benches : t.benches = s.benches
  clk : t.clk = s.clk
  reg : ∀ o, SettingReg o → t.reg o = s.reg o

namespace ReportFrame

theorem refl (s : State) : ReportFrame s s := ⟨rfl, rfl, rfl, rfl, fun _ _ => rfl⟩

theorem trans {s t u : State} (h : ReportFrame s t) (k : ReportFrame t u) : ReportFrame s u :=
  ⟨k.sw.trans h.sw, k.ports.trans h.ports, k.benches.trans h.benches, k.clk.trans h.clk,
    fun o ho => (k.reg o ho).trans (h.reg o ho)⟩

theorem ite {p : Prop} [Decidable p] {s t u : State} (ht : ReportFrame s t) (hu : ReportFrame s u) :
    ReportFrame s (if p then t else u) := by
  split
  · exact ht
  · exact hu

theorem setReg {o : Nat} (ho : ¬ SettingReg o) (s : State) (v : W64) : ReportFrame s (s.setReg o v) :=
  ⟨rfl, rfl, rfl, rfl, fun _ hj => State.reg_setReg_ne _ _ fun e => ho (e ▸ hj)⟩

theorem bumpBy {o : Nat} (ho : ¬ SettingReg o) (s : State) (n : Nat) : ReportFrame s (s.bumpBy o n) := setReg ho s _

theorem bump {o : Nat} (ho : ¬ SettingReg o) (s : State) : ReportFrame s (s.bump o) := setReg ho s _

theorem bump64 {o : Nat} (ho : ¬ SettingReg o) (s : State) (n : Nat) : ReportFrame s (s.bump64 o n) := setReg ho s _

theorem trackMax {o : Nat} (ho : ¬ SettingReg o) (s : State) (v : Nat) : ReportFrame s (s.trackMax o v) :=
  .ite (setReg ho s _) (refl s)

theorem trackFree (s : State) : ReportFrame s s.trackFree := .ite (setReg (by decide) s _) (refl s)

/-- Counters of the counter blocks stand above every setting. -/
theorem countEv (s : State) (blk code n : Nat) (vc l : Option Nat) : ReportFrame s (s.countEv blk code n vc l) := by
  refine ⟨State.countEv_sw .., State.countEv_ports .., State.countEv_benches .., State.countEv_clk .., ?_⟩
  intro o ho
  refine State.countEv_reg _ _ _ _ _ _ _ (fun k _ => ?_) ?_
  · simp only [SettingReg, Reg.ownCoord, Reg.msgTimeoutDrop, Reg.cnt] at ho ⊢; omega
  · simp only [SettingReg, Reg.ownCoord, Reg.msgTimeoutDrop, Reg.ovf] at ho ⊢; omega

theorem msix (s : State) (v : Nat) : ReportFrame s (s.msix v) := by
  refine .ite ?_ ?_
  all_goals exact ⟨rfl, rfl, rfl, rfl, fun _ _ => rfl⟩

theorem logEvent (s : State) (e : LogEntry) : ReportFrame s (s.logEvent e) := by
  refine .ite (.trans ?_ (msix _ 1)) ?_
  all_goals exact ⟨rfl, rfl, rfl, rfl, fun _ _ => rfl⟩

theorem logFault (s : State) (f : FaultInfo) : ReportFrame s (s.logFault f) := by
  refine .ite (bump (by decide) s) (.trans ?_ (logEvent _ _))
  have hoverwritten := ite (p := 1024 ≤ s.fault.log.length) (bump (o := Reg.flogOverwritten) (by decide) s) (refl s)
  exact ⟨hoverwritten.sw, hoverwritten.ports, hoverwritten.benches, hoverwritten.clk, hoverwritten.reg⟩

theorem oweReset (s : State) (level cls index : Nat) : ReportFrame s (s.oweReset level cls index) :=
  ⟨rfl, rfl, rfl, rfl, fun _ _ => rfl⟩

theorem countRx (s : State) {lp vc : Nat} (hlp : lp < 512) (n bytes : Nat) (hvc : vc < 8) :
    ReportFrame s (s.countRx lp vc n bytes) := by
  have hpkts : ¬ SettingReg (Reg.rxPkts (lp / 4) (lp % 4 * 8 + vc)) := by
    simp only [SettingReg, Reg.ownCoord, Reg.msgTimeoutDrop, Reg.rxPkts]; omega
  have hbytes : ¬ SettingReg (Reg.rxBytes (lp / 4) (lp % 4 * 8 + vc)) := by
    simp only [SettingReg, Reg.ownCoord, Reg.msgTimeoutDrop, Reg.rxBytes]; omega
  have hcounted := (bump64 hpkts s n).trans <| (bump64 hbytes _ bytes).trans <|
    (countEv _ (lp / 4) 0x01 n (some vc) (some (lp % 4))).trans <|
    countEv _ (lp / 4) 0x02 bytes (some vc) (some (lp % 4))
  exact ⟨hcounted.sw, hcounted.ports, hcounted.benches, hcounted.clk, hcounted.reg⟩

section
variable {s t : State} (h : ReportFrame s t)
include h

theorem port (lp : Nat) : t.port lp = s.port lp := by rw [State.port, State.port, h.ports]

theorem now : t.now = s.now := by rw [State.now, State.now, h.clk]

theorem ownCoord : t.ownCoord = s.ownCoord := by
  rw [State.ownCoord, State.ownCoord, State.regN, State.regN, h.reg _ (.inl rfl)]

theorem isOwn (c : W32) : t.isOwn c = s.isOwn c := by
  unfold State.isOwn State.ownRack State.ownPlane State.ownNode
  rw [h.ownCoord]

theorem portActive (lp : Nat) : t.portActive lp = s.portActive lp := by
  unfold State.portActive State.lportExists
  rw [h.port]
  by_cases hlp : lp < 512
  · unfold State.lportsOf State.split
    rw [h.reg _ (settingReg_portCfg (p := lp / 4) (by omega))]
  · simp [hlp]

theorem ingressCheck (lp : Nat) (r : CheckReq) : t.ingressCheck lp r = s.ingressCheck lp r := by
  unfold State.ingressCheck State.ownPlane
  rw [h.port, h.ownCoord, h.isOwn]

end

/-- An update of the route tables' state alone. -/
theorem modRoute (s : State) (f : Route → Route) : ReportFrame s (s.modRoute f) := ⟨rfl, rfl, rfl, rfl, fun _ _ => rfl⟩

theorem correctEntry (s : State) (e : EntryRef) : ReportFrame s (s.correctEntry e) :=
  .ite (.trans (modRoute s _) (bump (by decide) _)) (refl s)

theorem detectErr (s : State) (e : EntryRef) : ReportFrame s (s.detectErr e) := by
  have hlogged := (modRoute s (fun r => { r with
    errs := r.errs.filter (fun x => !decide (x.ref = e)) ++ [{ ref := e, detected := true }] })).trans <|
    (bump (o := Reg.tableUe) (by decide) _).trans <|
    (setReg (o := Reg.tableUeLoc) (by decide) _ (w64 (commitLayout e))).trans <|
    logFault _ { cls := 0x08, sev := 1, act := 2, block := 2, detail := w64 (commitLayout e) }
  exact .ite (hlogged.trans <| (modRoute _ _).trans <| bump (by decide) _) hlogged

theorem lookupErr (s : State) (bank : Bool) (t i : Nat) : ReportFrame s (s.lookupErr bank t i).2 := by
  unfold State.lookupErr
  split
  · exact correctEntry ..
  · exact .ite (refl s) (detectErr ..)

theorem choose (s : State) (r : RouteReq) (adapt : Bool) (cands : List Nat) :
    ReportFrame s (s.choose r adapt cands).2 := by
  unfold State.choose
  cases adapt
  · exact refl s
  · exact bump (by decide) s

theorem snd_ite {α : Type} {p : Prop} [Decidable p] {s : State} {x y : α × State} (hx : ReportFrame s x.2)
    (hy : ReportFrame s y.2) : ReportFrame s (if p then x else y).2 := by
  split
  · exact hx
  · exact hy

/-- Routing looks up the partition, then the entry, and counts; the frame is carried through both lookups. -/
theorem routePkt (s : State) (r : RouteReq) {ingress : Option Nat} (hin : ∀ lp ∈ ingress, lp < 512) :
    ReportFrame s (s.routePkt r ingress).2 := by
  have hhop : ∀ lp ∈ ingress, ¬ SettingReg (Reg.hopExpired (lp / 4)) := by
    intro lp hlp
    have := hin lp hlp
    simp only [SettingReg, Reg.ownCoord, Reg.msgTimeoutDrop, Reg.hopExpired]; omega
  unfold State.routePkt
  extract_lets +onlyGivenNames bank
  have hpart : ReportFrame s (if r.vc = 0 then (false, s) else s.lookupErr bank 3 r.part).2 :=
    snd_ite (refl s) (lookupErr ..)
  revert hpart
  generalize (if r.vc = 0 then (false, s) else s.lookupErr bank 3 r.part) = x
  obtain ⟨perr, s1⟩ := x
  intro hpart
  dsimp -zeta only at hpart ⊢
  extract_lets +onlyGivenNames inDeny
  refine snd_ite (hpart.trans (bump (by decide) _)) ?_
  generalize (if r.mc = true then (2, fld r.dest 0 12)
      else if coordRack r.dest ≠ s1.ownRack then (0, coordRack r.dest) else (1, coordNode r.dest)) = ti
  obtain ⟨t, i⟩ := ti
  dsimp -zeta only
  have hentry : ReportFrame s (s1.lookupErr bank t i).2 := hpart.trans (lookupErr ..)
  revert hentry
  generalize s1.lookupErr bank t i = x
  obtain ⟨err, s2⟩ := x
  intro hentry
  dsimp -zeta only at hentry ⊢
  extract_lets +onlyGivenNames ws w4 code miss
  have hmiss : ReportFrame s (s2.bump miss) := hentry.trans (bump (by unfold miss; split <;> decide) _)
  refine snd_ite hmiss (snd_ite hmiss ?_)
  extract_lets +onlyGivenNames localUnit
  refine snd_ite ?expired ?routed
  case expired =>
    extract_lets +onlyGivenNames s3
    have hcounted : ReportFrame s s3 := by
      unfold s3
      split
      · exact hentry.trans (bump (hhop _ rfl) _)
      · exact hentry
    clear_value s3 localUnit
    cases localUnit <;> exact hcounted
  case routed =>
    extract_lets +onlyGivenNames s3 adapt live inPart s4 cands
    have hports : ReportFrame s s4 :=
      have habsent : ReportFrame s s3 := hentry.trans (bumpBy (by decide) _ _)
      .ite (habsent.trans (bumpBy (by decide) _ _)) habsent
    refine snd_ite (snd_ite (hports.trans (bump (by decide) _)) hports) (snd_ite (hports.trans (bump (by decide) _)) ?_)
    exact hports.trans (choose ..)

end ReportFrame

end Sys2Proof.Machine
end

/-! ### What the buffer's checks and its freeing leave alone (R65, R76, R77) -/

section
namespace Sys2Proof.Machine

/-- What the buffer's checks and its freeing leave alone: the benches and the settings. -/
structure BufferFrame (s t : State) : Prop where
  benches : t.benches = s.benches
  reg : ∀ o, SettingReg o → t.reg o = s.reg o

theorem ReportFrame.buffer {s t : State} (h : ReportFrame s t) : BufferFrame s t := ⟨h.benches, h.reg⟩

namespace BufferFrame

theorem refl (s : State) : BufferFrame s s := (ReportFrame.refl s).buffer

theorem trans {s t u : State} (h : BufferFrame s t) (k : BufferFrame t u) : BufferFrame s u :=
  ⟨k.benches.trans h.benches, fun o ho => (k.reg o ho).trans (h.reg o ho)⟩

theorem ite {p : Prop} [Decidable p] {s t u : State} (ht : BufferFrame s t) (hu : BufferFrame s u) :
    BufferFrame s (if p then t else u) := by
  split
  · exact ht
  · exact hu

theorem modSw (s : State) (f : Switch → Switch) : BufferFrame s (s.modSw f) := ⟨rfl, fun _ _ => rfl⟩

theorem free (s : State) : BufferFrame s s.free.2 := ⟨rfl, fun _ _ => rfl⟩

theorem bump {o : Nat} (ho : ¬ SettingReg o) (s : State) : BufferFrame s (s.bump o) := (ReportFrame.bump ho s).buffer

theorem returnCredit (s : State) (lp vc : Nat) (term : Bool) (g : Nat) : BufferFrame s (s.returnCredit lp vc term g) :=
  ⟨rfl, fun _ _ => rfl⟩

theorem uncharge (s : State) (x : Stored) : BufferFrame s (s.uncharge x) := by
  unfold State.uncharge
  refine ite (refl s) ?_
  split <;> exact modSw ..

theorem quarantine (s : State) (n : Nat) : BufferFrame s (s.quarantine n) := by
  refine ite (refl s) ?_
  have hcounted : BufferFrame s
      ((s.modSw (fun w => { w with quar := w.quar + n })).bump Reg.quarEvents).trackFree :=
    (modSw ..).trans <| (bump (by decide) _).trans (ReportFrame.trackFree _).buffer
  refine ite (hcounted.trans ?_) hcounted
  exact (modSw ..).trans <| (ReportFrame.logFault ..).buffer.trans (ReportFrame.oweReset ..).buffer

theorem freeStored (s : State) (id : Nat) : BufferFrame s (s.freeStored id) := by
  unfold State.freeStored
  split
  · exact refl s
  · refine trans ?_ (quarantine ..)
    have hcharge := fun (f : Switch → Switch) (x : Stored) => (modSw s f).trans (uncharge _ x)
    split
    · exact (hcharge ..).trans (returnCredit ..)
    · exact hcharge ..

theorem deref (s : State) (id : Nat) : BufferFrame s (s.deref id) := by
  unfold State.deref
  split
  · exact refl s
  · exact ite ((modSw ..).trans (freeStored ..)) (modSw ..)

theorem bufFault (s : State) (cls : Nat) : BufferFrame s (s.bufFault cls) :=
  (free s).trans (ReportFrame.logFault ..).buffer

theorem dataUe (s : State) (x : Stored) (w : Nat) (ports : List Nat) : BufferFrame s (s.dataUe x w ports) :=
  ite (refl s) <| (bump (by decide) s).trans <| (bufFault ..).trans (modSw ..)

theorem losePacket (s : State) (x : Stored) : BufferFrame s (s.losePacket x) := by
  unfold State.losePacket
  dsimp only
  refine trans (trans ?_ (bump (by decide) _)) (quarantine ..)
  have hcharge := fun (f : Switch → Switch) => (modSw s f).trans (uncharge _ x)
  split
  · exact (hcharge _).trans (returnCredit ..)
  · exact hcharge _

theorem refFault (s : State) (x : Stored) : BufferFrame s (s.refFault x) := (bufFault s 0x05).trans (losePacket _ x)

theorem linkFault (s : State) : BufferFrame s s.linkFault := by
  unfold State.linkFault
  exact (bufFault s 0x05).trans (quarantine ..)

theorem readObs (s : State) (obs : BufObs) (x : Stored) (ports : List Nat) :
    BufferFrame s (s.readObs obs x ports).1 := by
  cases obs
  case clean | ptrUe => exact refl s
  case dataCe | refCe | ptrCe | linkCe => exact bump (by decide) s
  case dataUe => exact dataUe ..
  case refUe | refZero | refLate => exact refFault s x
  case linkUe => simpa only [State.readObs] using linkFault s

theorem readCopy (s : State) (stored : Option Nat) : BufferFrame s (s.readCopy stored) := by
  unfold State.readCopy
  split
  · exact refl s
  · rename_i x _
    dsimp only
    have hread := (free s).trans (readObs _ (pickObs s.free.1 [.clean, .refCe, .refUe, .refZero]) x [])
    split <;> rename_i heq <;> rw [heq] at hread
    · exact hread
    · exact hread.trans (deref ..)

end BufferFrame

end Sys2Proof.Machine
end

/-! ### Open messages time out (R61, R101) -/

section
namespace Sys2Proof.Machine

/-- Only the receive side's credit accounts of the switch differ. -/
def AcctOnly (s t : State) : Prop := ∃ accts, t = { s with sw := { s.sw with rxAcct := accts } }

namespace AcctOnly

theorem refl (s : State) : AcctOnly s s := ⟨s.sw.rxAcct, rfl⟩

theorem trans {s t u : State} (h : AcctOnly s t) (k : AcctOnly t u) : AcctOnly s u := by
  obtain ⟨_, rfl⟩ := h
  obtain ⟨accts, rfl⟩ := k
  exact ⟨accts, rfl⟩

theorem ite {p : Prop} [Decidable p] {s t u : State} (ht : AcctOnly s t) (hu : AcctOnly s u) :
    AcctOnly s (if p then t else u) := by
  split
  · exact ht
  · exact hu

theorem modRx (s : State) (lp vc : Nat) (term : Bool) (f : RxAcct → RxAcct) : AcctOnly s (s.modRx lp vc term f) :=
  ⟨_, rfl⟩

theorem returnCredit (s : State) (lp vc : Nat) (term : Bool) (g : Nat) : AcctOnly s (s.returnCredit lp vc term g) :=
  ⟨_, rfl⟩

theorem takeCredit (s : State) (lp : Option Nat) (vc g : Nat) : AcctOnly s (s.takeCredit lp vc g) := by
  cases lp
  case none => exact refl s
  case some => exact ite (refl s) (ite (modRx ..) (returnCredit ..))

theorem releaseHeld (s : State) : AcctOnly s s.releaseHeld :=
  ite (refl s) <| List.foldlRecOn (motive := AcctOnly s) _ _ (refl s) fun _ h _ _ =>
    ite h (h.trans ((modRx ..).trans (returnCredit ..)))

/-- What abandoning a message does before credits return: the count, and the message leaves reassembly. -/
theorem abandon (s : State) (m : Reasm) (counter : Nat) :
    AcctOnly ((s.bump counter).modSw fun w => { w with reasm := dropFirst (sameMsg m.src m.vc m.unit) w.reasm })
      (s.abandon m counter) :=
  .trans (ite (refl _) (returnCredit ..)) (releaseHeld _)

section
variable {s t : State} (h : AcctOnly s t)
include h

theorem reg (o : Nat) : t.reg o = s.reg o := by
  obtain ⟨_, rfl⟩ := h
  rfl

theorem regN (o : Nat) : t.regN o = s.regN o := congrArg BitVec.toNat (h.reg o)

theorem bench (b : Nat) : t.bench b = s.bench b := by
  obtain ⟨_, rfl⟩ := h
  rfl

theorem sw : t.sw = { s.sw with rxAcct := t.sw.rxAcct } := by
  obtain ⟨_, rfl⟩ := h
  rfl

end

end AcctOnly

/-- Where no cell waits for a reassembly entry, there is none to take. -/
theorem settleReasm_of_noneWaits {s : State} (h : s.sw.reasmWait = []) : s.settleReasm = s := by
  rw [State.settleReasm, h]
  rfl

/-- A message without a cell for 100 µs leaves reassembly and is counted at its port block. -/
theorem exec_reasmTimeout_abandons {s : State} {src : W32} {vc : Fin 8} {u : Byte} {m : Reasm} (hpow : s.powered = true)
    (hwait : s.sw.reasmWait = []) (hfind : s.sw.reasm.find? (sameMsg src vc u.toNat) = some m)
    (hlate : m.lastAt + 100000 ≤ s.now) :
    ∃ t, exec (.reasmTimeout src vc u) s = .next t ∧ t.sw.reasm = dropFirst (sameMsg m.src m.vc m.unit) s.sw.reasm ∧
      t.regN (Reg.reasmTimeout (m.lp / 4)) = min (s.regN (Reg.reasmTimeout (m.lp / 4)) + 1) 0xFFFFFFFF := by
  have habandon := AcctOnly.abandon s m (Reg.reasmTimeout (m.lp / 4))
  have hnone : (s.abandon m (Reg.reasmTimeout (m.lp / 4))).sw.reasmWait = [] := by rw [habandon.sw]; exact hwait
  have hexec : exec (.reasmTimeout src vc u) s = .next (s.abandon m (Reg.reasmTimeout (m.lp / 4))) := by
    simp [execReasmTimeout, hpow, hfind, us, Nat.not_lt.mpr hlate, settleReasm_of_noneWaits hnone]
  refine ⟨_, hexec, ?_, ?_⟩
  · rw [habandon.sw]
    rfl
  · rw [habandon.regN]
    exact State.regN_bump s _

/-! What taking packets leaves of a bench's messages. -/

/-- The messages, queues and the count of timed-out messages that returning credits and reading buffered copies leave at
bench `b`. -/
structure BenchFrame (b : Nat) (s t : State) : Prop where
  msgs : (t.bench b).msgs = (s.bench b).msgs
  recvQ : (t.bench b).recvQ = (s.bench b).recvQ
  vc5Wait : (t.bench b).vc5Wait = (s.bench b).vc5Wait
  drops : t.reg Reg.msgTimeoutDrop = s.reg Reg.msgTimeoutDrop

theorem AcctOnly.benchFrame {s t : State} (h : AcctOnly s t) (b : Nat) : BenchFrame b s t := by
  have hb := h.bench b
  exact ⟨by rw [hb], by rw [hb], by rw [hb], h.reg _⟩

theorem BufferFrame.benchFrame {s t : State} (h : BufferFrame s t) (b : Nat) : BenchFrame b s t := by
  have hb : t.bench b = s.bench b := by rw [State.bench, State.bench, h.benches]
  exact ⟨by rw [hb], by rw [hb], by rw [hb], h.reg _ (.inr (.inl rfl))⟩

namespace BenchFrame

theorem refl (b : Nat) (s : State) : BenchFrame b s s := ⟨rfl, rfl, rfl, rfl⟩

theorem trans {b : Nat} {s t u : State} (h : BenchFrame b s t) (k : BenchFrame b t u) : BenchFrame b s u :=
  ⟨k.msgs.trans h.msgs, k.recvQ.trans h.recvQ, k.vc5Wait.trans h.vc5Wait, k.drops.trans h.drops⟩

theorem modOwed (s : State) (b : Nat) (f : Bench → Sparse Nat) :
    BenchFrame b s (s.modBench b fun x => { x with owed := f x }) := by
  constructor
  case drops => rfl
  all_goals rw [State.bench_modBench_same]

theorem benchCredit (s : State) (b : Nat) (lp : Option Nat) (vc g : Nat) :
    BenchFrame b s (s.benchCredit b lp vc g) := by
  unfold State.benchCredit
  split
  · split
    · exact modOwed ..
    · exact (AcctOnly.takeCredit ..).benchFrame b
  · exact refl b s

theorem discardAll (s : State) (b : Nat) (ps : List Inbound) : BenchFrame b s (s.discardAll b ps) :=
  List.foldlRecOn (motive := BenchFrame b s) _ _ (refl b s) fun _ h p _ =>
    h.trans <| ((BufferFrame.readCopy _ p.stored).benchFrame b).trans (benchCredit ..)

theorem releaseOwed (s : State) (b : Nat) : BenchFrame b s (s.releaseOwed b) :=
  List.foldlRecOn (motive := BenchFrame b s) _ _ (refl b s) fun _ h _ _ => by
    split
    · exact h
    · exact h.trans <| (modOwed ..).trans ((AcctOnly.takeCredit ..).benchFrame b)

end BenchFrame

theorem retryVc5All_of_noneWaits {s : State} {b : Nat} (h : (s.bench b).vc5Wait = []) : s.retryVc5All b = s := by
  rw [State.retryVc5All, h]
  rfl

/-- Message `m` has left bench `b` and is counted as timed out; its packets are not yet discarded. -/
def State.timedOut (s : State) (b : Nat) (m : OpenMsg) : State :=
  (s.modBench b fun x => { x with msgs := dropFirst (fun y => decide (y = m)) x.msgs }).bump Reg.msgTimeoutDrop

theorem timedOut_bench {s : State} {b : Nat} {m : OpenMsg} {ms : List OpenMsg} (hmsgs : (s.bench b).msgs = m :: ms) :
    (s.timedOut b m).bench b = { s.bench b with msgs := ms } := by
  simp [State.timedOut, hmsgs, dropFirst]

/-- The oldest message of its channel, past its timeout, is discarded and counted. -/
theorem exec_vc5MsgTimeout_discards {s : State} {b : Fin 100} {m : OpenMsg} {ms : List OpenMsg}
    (hpow : s.powered = true) (hmsgs : (s.bench b).msgs = m :: ms) (hopen : m.entering = false)
    (hwait : (s.bench b).vc5Wait = [])
    (hlate : m.lastAt + s.regN Reg.vc5MsgTimeout * 1000000 ≤ s.now) :
    ∃ t, exec (.vc5MsgTimeout b m.src m.chan 0) s = .next t ∧ (t.bench b).msgs = ms ∧
      (t.bench b).recvQ = (s.bench b).recvQ ∧
      t.regN Reg.msgTimeoutDrop = min (s.regN Reg.msgTimeoutDrop + 1) 0xFFFFFFFF := by
  have hbench := timedOut_bench hmsgs
  have hdiscard := BenchFrame.discardAll (s.timedOut b m) b m.pkts
  have hnone : (((s.timedOut b m).discardAll b m.pkts).bench b).vc5Wait = [] := by
    rw [hdiscard.vc5Wait, hbench]; exact hwait
  have hexec : exec (.vc5MsgTimeout b m.src m.chan 0) s =
      .next (((s.timedOut b m).discardAll b m.pkts).releaseOwed b) := by
    have hdue : ¬ s.now < m.lastAt + s.regN Reg.vc5MsgTimeout * Machine.ms := Nat.not_lt.mpr hlate
    rw [← retryVc5All_of_noneWaits hnone]
    simp [execVc5MsgTimeout, hpow, hmsgs, hopen, hdue, State.timedOut]
  have hframe := hdiscard.trans (BenchFrame.releaseOwed _ b)
  refine ⟨_, hexec, ?_, ?_, ?_⟩
  · rw [hframe.msgs, hbench]
  · rw [hframe.recvQ, hbench]
  · rw [State.regN, hframe.drops]
    exact State.regN_bump _ _

end Sys2Proof.Machine
end

/-! ### Cells arrive (R60-R62) -/

section
namespace Sys2Proof.Machine

theorem cVc_lt (c : GrainCell) : cVc c < 8 := Nat.mod_lt _ (by decide)

theorem modFirst_append_of_find?_none {α : Type} {p : α → Bool} {l : List α} {x : α} (f : α → α)
    (hnone : l.find? p = none) (hx : p x = true) : modFirst p f (l ++ [x]) = l ++ [f x] := by
  induction l with
  | nil => simp [modFirst, hx]
  | cons y l ih =>
    rw [List.find?_cons] at hnone
    split at hnone
    · cases hnone
    · rename_i hy
      simp [modFirst, hy, ih hnone]

/-! A cell for an own unit. -/

/-- The message that the first of several cells opens at unit `unit`, with that cell taken. -/
def openedBy (s : State) (lp unit : Nat) (c : GrainCell) : Reasm :=
  { src := c.src, vc := cVc c, unit := unit, lp := lp, dest := c.dest, part := cPart c, mc := cMc c, next := 1,
    poison := cPoison c, hop := cHop c, stream := c.payload, lastAt := s.now, held := if cVc c = 2 then 1 else 0 }

/-- A first cell is sound where its index is 0 and words 2 and 3 of its stream agree with its own control word (R61). -/
theorem reasmFault_none {lp : Nat} {m : Reasm} {c : GrainCell} {stream : List Byte} (hnext : cIndex c = m.next)
    (hlast : cLast c = false) (hvc : fld (w32 (u32 stream 0)) 14 3 = cVc c)
    (hpart : fld (w32 (u32 stream 0)) 23 8 = cPart c)
    (hmc : bit (w32 (u32 stream 0)) 19 = cMc c) (hlo : 1 ≤ fld (w32 (u32 stream 0)) 0 14)
    (hhi : fld (w32 (u32 stream 0)) 0 14 ≤ 8192)
    (hcnt : bit (w32 (u32 stream 0)) 20 = true → bit (w32 (u32 stream 0)) 17 = true) :
    reasmFault lp m c stream = none := by
  have hlen : fld (w32 (u32 stream 0)) 0 14 ≠ 0 := by omega
  cases hc : bit (w32 (u32 stream 0)) 20
  case false => simp [reasmFault, hnext, hlast, hvc, hpart, hmc, hlen, Nat.not_lt.mpr hhi, hc]
  case true => simp [reasmFault, hnext, hlast, hvc, hpart, hmc, hlen, Nat.not_lt.mpr hhi, hc, hcnt hc]

theorem cellCredit_sw (s : State) (lp vc unit : Nat) :
    (s.cellCredit lp vc unit).sw = { s.sw with rxAcct := (s.cellCredit lp vc unit).sw.rxAcct } := by
  unfold State.cellCredit
  split
  · rfl
  · split
    · unfold State.benchCredit
      dsimp only
      split
      · rfl
      · exact (AcctOnly.takeCredit ..).sw
    · exact (AcctOnly.takeCredit ..).sw

/-- The first of several cells opens its message, and of the rest of the switch only credit accounts change. -/
theorem takeCell_opens {s : State} {lp unit : Nat} {c : GrainCell} (hfirst : cFirst c = true) (hlast : cLast c = false)
    (hnew : s.sw.reasm.find? (sameMsg c.src (cVc c) unit) = none)
    (hsound : ∀ m : Reasm, m.next = 0 → reasmFault lp m c c.payload = none) :
    (s.takeCell lp unit c true).sw = { s.sw with
      reasm := s.sw.reasm ++ [openedBy s lp unit c], rxAcct := (s.takeCell lp unit c true).sw.rxAcct } := by
  have htake : ∃ u : State, s.takeCell lp unit c true = u.cellCredit lp (cVc c) unit ∧
      u.sw = { s.sw with reasm := s.sw.reasm ++ [openedBy s lp unit c] } := by
    simp only [State.takeCell, hfirst, hnew, State.reasmStep, hlast, List.nil_append, if_true, Bool.false_eq_true,
      if_false, hsound]
    refine ⟨_, rfl, ?_⟩
    simp only [State.modSw]
    rw [modFirst_append_of_find?_none _ hnew (by simp [sameMsg])]
    simp [openedBy, State.now]
  obtain ⟨u, htake, hsw⟩ := htake
  rw [htake, cellCredit_sw, hsw]

/-- A cell that need not wait is taken, and no cell that waits follows it. -/
theorem reasmCell_takes {s : State} {lp unit : Nat} {c : GrainCell} (hroom : s.reasmOpen < 1024)
    (hwait : s.sw.reasmWait = []) (htaken : (s.takeCell lp unit c true).sw.reasmWait = []) :
    s.reasmCell lp unit c true none = s.takeCell lp unit c true := by
  have hnow : s.cellWaits unit c = false := by simp [State.cellWaits, Nat.not_le.mpr hroom]
  rw [State.reasmCell, hwait, hnow]
  exact settleReasm_of_noneWaits htaken

theorem exec_cellArrival_arrives {s : State} {lp : Fin 512} (c : GrainCell) (obs : BufObs) (hclk : s.clocked = true)
    (hact : s.portActive lp = true) (hitems : (s.port lp).rxItems = []) :
    exec (.cellArrival lp ⟨c, obs⟩) s = .next (s.cellArrive lp c obs) := by
  simp [execCellArrival, hclk, hact, hitems]

/-- A cell for an own unit reaches reassembly once it has been counted. -/
theorem cellArrive_own {s : State} {lp : Fin 512} {c : GrainCell} (obs : BufObs) (hmc : cMc c = false)
    (hown : s.isOwn c.dest = true) (hcheck : s.ingressCheck lp (checkReqOfCell c) = none) :
    ∃ u, ReportFrame s u ∧ s.cellArrive lp c obs = u.reasmCell lp (coordUnit c.dest) c true none := by
  have hcount := ReportFrame.countRx s lp.isLt 1 64 (cVc_lt c)
  have hspare : ¬ SettingReg (Reg.spareSet (lp.val / 4)) := by
    simp only [SettingReg, Reg.ownCoord, Reg.msgTimeoutDrop, Reg.spareSet]; omega
  have haok : ¬ SettingReg (Reg.aokIgnored (lp.val / 4)) := by
    simp only [SettingReg, Reg.ownCoord, Reg.msgTimeoutDrop, Reg.aokIgnored]; omega
  have hbumps : ∀ (p q : Prop) [Decidable p] [Decidable q], ReportFrame s
      (if q then (if p then (s.countRx lp (cVc c) 1 64).bump (Reg.spareSet (lp.val / 4))
        else s.countRx lp (cVc c) 1 64).bump (Reg.aokIgnored (lp.val / 4))
      else if p then (s.countRx lp (cVc c) 1 64).bump (Reg.spareSet (lp.val / 4)) else s.countRx lp (cVc c) 1 64) := by
    intro p q _ _
    have hp := ReportFrame.ite (p := p) (hcount.trans (.bump hspare _)) hcount
    exact .ite (hp.trans (.bump haok _)) hp
  refine ⟨_, hbumps (cReserved c ≠ 0) ((cFirst c && bit (w32 (u32 c.payload 0)) 18 && cVc c ≠ 5) = true), ?_⟩
  unfold State.cellArrive
  simp [hmc, hown, hcount.ingressCheck, hcheck]

/-- The first of several cells for an own unit opens its message. -/
theorem cellArrive_opens {s : State} {lp : Fin 512} {c : GrainCell} (obs : BufObs) (hmc : cMc c = false)
    (hown : s.isOwn c.dest = true) (hcheck : s.ingressCheck lp (checkReqOfCell c) = none) (hfirst : cFirst c = true)
    (hlast : cLast c = false) (hroom : s.reasmOpen < 1024) (hwait : s.sw.reasmWait = [])
    (hnew : s.sw.reasm.find? (sameMsg c.src (cVc c) (coordUnit c.dest)) = none)
    (hsound : ∀ m : Reasm, m.next = 0 → reasmFault lp m c c.payload = none) :
    (s.cellArrive lp c obs).sw.reasm = s.sw.reasm ++ [openedBy s lp (coordUnit c.dest) c] ∧
      (s.cellArrive lp c obs).sw.queues = s.sw.queues := by
  obtain ⟨u, hframe, harrive⟩ := cellArrive_own obs hmc hown hcheck
  have hsw := hframe.sw
  have htaken := takeCell_opens (s := u) (lp := lp) hfirst hlast (by rwa [hsw]) hsound
  have hroom' : u.reasmOpen < 1024 := by rwa [State.reasmOpen, hsw]
  rw [harrive, reasmCell_takes hroom' (by rwa [hsw]) (by rw [htaken, hsw]; exact hwait), htaken, hsw]
  refine ⟨?_, rfl⟩
  rw [openedBy, hframe.now]
  rfl

/-! A cell in transit. -/

/-- The queues and reassembly, which charging a stored item leaves. -/
structure QueueFrame (s t : State) : Prop where
  queues : t.sw.queues = s.sw.queues
  reasm : t.sw.reasm = s.sw.reasm

theorem ReportFrame.queueFrame {s t : State} (h : ReportFrame s t) : QueueFrame s t := ⟨by rw [h.sw], by rw [h.sw]⟩

namespace QueueFrame

theorem refl (s : State) : QueueFrame s s := ⟨rfl, rfl⟩

theorem trans {s t u : State} (h : QueueFrame s t) (k : QueueFrame t u) : QueueFrame s u :=
  ⟨k.queues.trans h.queues, k.reasm.trans h.reasm⟩

theorem ite {p : Prop} [Decidable p] {s t u : State} (ht : QueueFrame s t) (hu : QueueFrame s u) :
    QueueFrame s (if p then t else u) := by
  split
  · exact ht
  · exact hu

theorem tryMove (s : State) (id : Nat) (qs : List Nat) (vc : Nat) : QueueFrame s (s.tryMove id qs vc) := by
  unfold State.tryMove
  split
  · exact refl s
  · split
    · dsimp only
      refine ite (trans ?_ (ReportFrame.trackFree _).queueFrame) (refl s)
      exact ⟨rfl, rfl⟩
    · exact refl s

end QueueFrame

/-- The identifier handed out next has joined the end of port `o`'s queue of `vc`, and reassembly is left. -/
structure JoinsQueue (o vc : Nat) (s t : State) : Prop where
  queues : t.sw.queues = sset [] s.sw.queues (qkey o vc) (s.queue o vc ++ [s.sw.nextId])
  reasm : t.sw.reasm = s.sw.reasm

namespace JoinsQueue

variable {o vc : Nat} {s t u : State}

theorem queue (h : JoinsQueue o vc s t) : t.queue o vc = s.queue o vc ++ [s.sw.nextId] := by
  rw [State.queue, h.queues, sget_sset_same]

theorem before (h : ReportFrame s t) (k : JoinsQueue o vc t u) : JoinsQueue o vc s u := by
  have hqueue : t.queue o vc = s.queue o vc := by rw [State.queue, State.queue, h.sw]
  exact ⟨by rw [k.queues, hqueue, h.sw], by rw [k.reasm, h.sw]⟩

theorem after (h : JoinsQueue o vc s t) (k : QueueFrame t u) : JoinsQueue o vc s u :=
  ⟨k.queues.trans h.queues, k.reasm.trans h.reasm⟩

theorem enqueue (h : QueueFrame s t) (o vc : Nat) : JoinsQueue o vc s (t.enqueue s.sw.nextId o vc) := by
  have hqueue : t.queue o vc = s.queue o vc := by rw [State.queue, State.queue, h.queues]
  have hset : JoinsQueue o vc s (t.setQueue o vc (t.queue o vc ++ [s.sw.nextId])) := by
    rw [hqueue]
    exact ⟨congrArg (fun q => sset [] q (qkey o vc) (s.queue o vc ++ [s.sw.nextId])) h.queues, h.reasm⟩
  have hdepth : ¬ SettingReg (Reg.qdepthMax (o / 4) (o % 4 * 8 + vc)) := by
    simp only [SettingReg, Reg.ownCoord, Reg.msgTimeoutDrop, Reg.qdepthMax]; omega
  exact hset.after (ReportFrame.trackMax hdepth ..).queueFrame

/-- An item stored for one queue that takes it goes to the end of that queue. -/
theorem store (s : State) {x : Stored} (hshare : x.share = none) (htakes : s.sw.stopped.contains (qkey o vc) = false) :
    JoinsQueue o vc s (s.store x [o] vc) := by
  have hone : [o].filter (fun lp => !s.sw.stopped.contains (qkey lp vc)) = [o] := by
    rw [List.filter_singleton, htakes]
    rfl
  unfold State.store
  simp only [hone, State.shared, hshare, Option.isSome_none, Bool.false_and, Bool.false_eq_true, if_false,
    List.foldl_cons, List.foldl_nil]
  rw [if_neg (by simp)]
  refine (enqueue ?_ o vc).after <| (ReportFrame.trackFree _).queueFrame.trans <|
    (ReportFrame.countEv ..).queueFrame.trans (ReportFrame.bumpBy (by decide) ..).queueFrame
  split <;> exact ⟨rfl, rfl⟩

/-- A complete item for one active port goes to the end of that port's queue. -/
theorem storeForward (lp : Nat) (item : Item) (cells : Bool) (hact : s.portActive o = true)
    (htakes : s.sw.stopped.contains (qkey o vc) = false) :
    JoinsQueue o vc s (s.storeForward lp item vc [o] cells false) := by
  have hlive : [o].filter s.portActive = [o] := by
    rw [List.filter_singleton, hact]
    rfl
  unfold State.storeForward
  simp only [hlive]
  rw [if_neg (by simp)]
  have hdropped := ReportFrame.bumpBy (o := Reg.portDownDrop) (by decide) s ([o].length - [o].length)
  refine (before hdropped ?_).after (QueueFrame.tryMove ..)
  have hstored := fun (x : Stored) (hx : x.share = none) =>
    store (s.bumpBy Reg.portDownDrop ([o].length - [o].length)) hx htakes
  split
  · exact (hstored _ rfl).after (ReportFrame.countEv ..).queueFrame
  · exact hstored _ rfl

theorem forwardCell {c : GrainCell} (lp : Nat) (obs : BufObs) (hact : s.portActive o = true)
    (htakes : s.sw.stopped.contains (qkey o (cVc c)) = false) :
    JoinsQueue o (cVc c) s (s.forwardCell lp c [o] [] none obs) := by
  have hframe := ReportFrame.bumpBy (o := Reg.portDownDrop) (by decide) s ([o].length - [o].length)
  have hkept : [o].filter (fun l => !([] : List Nat).contains l) = [o] := rfl
  unfold State.forwardCell
  simp only [hkept]
  exact before hframe (storeForward lp (.cell c) false (by rwa [hframe.portActive]) htakes)

end JoinsQueue

/-- The first cell of a message in transit, which is routed to one active port whose queue takes it. -/
theorem cellArrive_forwards {s u : State} {lp : Fin 512} {c : GrainCell} {o : Nat} {k : Bool} (obs : BufObs)
    (hown : s.isOwn c.dest = false) (hfirst : cFirst c = true) (hcheck : s.ingressCheck lp (checkReqOfCell c) = none)
    (hreserved : cReserved c = 0) (haok : bit (w32 (u32 c.payload 0)) 18 = false)
    (hroute : (s.countRx lp (cVc c) 1 64).routePkt (routeReqOfCell c) (some lp) = (.go [o] none k, u))
    (hact : s.portActive o = true) (htakes : s.sw.stopped.contains (qkey o (cVc c)) = false) :
    (s.cellArrive lp c obs).queue o (cVc c) = s.queue o (cVc c) ++ [s.sw.nextId] ∧
      (s.cellArrive lp c obs).sw.reasm = s.sw.reasm := by
  have hcount := ReportFrame.countRx s lp.isLt 1 64 (cVc_lt c)
  have hroutes := ReportFrame.routePkt (s.countRx lp (cVc c) 1 64) (routeReqOfCell c) (ingress := some lp.val) (by simp)
  rw [hroute] at hroutes
  have hrouted : ReportFrame s u := hcount.trans hroutes
  have harrive : s.cellArrive lp c obs = (u.setCellRoute lp c (some ([o], none))).forwardCell lp c [o] [] none obs := by
    simp [State.cellArrive, hown, hfirst, hcount.ingressCheck, hcheck, hreserved, haok, hroute]
  have hjoins : JoinsQueue o (cVc c) (u.setCellRoute lp c (some ([o], none))) (s.cellArrive lp c obs) :=
    harrive ▸ JoinsQueue.forwardCell lp obs (hrouted.portActive o ▸ hact) (by rw [← htakes, ← hrouted.sw]; rfl)
  constructor
  · rw [hjoins.queue, State.queue, State.queue, ← hrouted.sw]
    rfl
  · rw [hjoins.reasm, ← hrouted.sw]
    rfl

/-- Settles O36: a cell for an own unit ends in reassembly and a routed one in its queue, since counting, routing and
returning credits touch neither; each of the two timeouts takes one message. -/
theorem cellsArrive : Obligations.CellsArrive := by
  unfold Obligations.CellsArrive
  intro s lp c obs hclk hact hitems
  have hpow : s.powered = true := by
    rw [State.clocked, Bool.and_eq_true] at hclk
    exact hclk.1
  have hexec := exec_cellArrival_arrives c obs hclk hact hitems
  refine ⟨?opens, ?forwards, ?abandons, ?discards⟩
  case opens =>
    intro hmc hown hfirst hlast hcheck hroom hwait hnew hindex hvc hpart hbit hlo hhi hcnt
    have hsound : ∀ m : Reasm, m.next = 0 → reasmFault lp m c c.payload = none := fun m hm =>
      reasmFault_none (hindex.trans hm.symm) hlast hvc hpart (hbit.trans hmc.symm) hlo hhi hcnt
    obtain ⟨hreasm, hqueues⟩ := cellArrive_opens obs hmc hown hcheck hfirst hlast hroom hwait hnew hsound
    refine ⟨_, hexec, ?_, hqueues⟩
    rw [hreasm, openedBy, hmc]
  case forwards =>
    intro o k u hown hfirst hcheck hreserved haok hroute hout htakes
    exact ⟨_, hexec, cellArrive_forwards obs hown hfirst hcheck hreserved haok hroute hout htakes⟩
  case abandons =>
    intro src vc u m hwait hfind hlate
    exact exec_reasmTimeout_abandons hpow hwait hfind hlate
  case discards =>
    rintro b _ _ m ms hmsgs rfl rfl hopen hwait hlate
    exact exec_vc5MsgTimeout_discards hpow hmsgs hopen hwait hlate

end Sys2Proof.Machine
end

/-! ### What a departure from an egress queue leaves alone (R66, R71, R76, R112) -/

section
namespace Sys2Proof.Machine

theorem find?_modFirst {α : Type} {p : α → Bool} {f : α → α} {l : List α} {x : α} (hfind : l.find? p = some x)
    (hf : p (f x) = true) : (modFirst p f l).find? p = some (f x) := by
  induction l with
  | nil => cases hfind
  | cons y l ih =>
    rw [List.find?_cons] at hfind
    split at hfind
    case h_1 hy =>
      cases hfind
      simp [modFirst, hy, hf]
    case h_2 hy => simp [modFirst, hy, ih hfind]

theorem State.stored?_id {s : State} {id : Nat} {x : Stored} (h : s.stored? id = some x) : x.id = id := by
  simpa using List.find?_some h

theorem State.stored?_modStored {s : State} {id : Nat} {x : Stored} {f : Stored → Stored} (h : s.stored? id = some x)
    (hf : (f x).id = id) : (s.modStored id f).stored? id = some (f x) :=
  find?_modFirst h (by simpa using hf)

/-- Only what the buffer holds and the credit that arrivals are owed differ. -/
structure FreesOnly (s t : State) : Prop where
  eq : t = { s with sw := t.sw }
  queues : t.sw.queues = s.sw.queues
  txAcct : t.sw.txAcct = s.sw.txAcct

namespace FreesOnly

theorem refl (s : State) : FreesOnly s s := ⟨rfl, rfl, rfl⟩

theorem trans {s t u : State} (h : FreesOnly s t) (k : FreesOnly t u) : FreesOnly s u :=
  ⟨by rw [k.eq, h.eq], k.queues.trans h.queues, k.txAcct.trans h.txAcct⟩

theorem returnCredit (s : State) (lp vc : Nat) (term : Bool) (g : Nat) : FreesOnly s (s.returnCredit lp vc term g) :=
  ⟨rfl, rfl, rfl⟩

theorem modStored (s : State) (id : Nat) (f : Stored → Stored) : FreesOnly s (s.modStored id f) := ⟨rfl, rfl, rfl⟩

theorem uncharge (s : State) (x : Stored) : FreesOnly s (s.uncharge x) := by
  unfold State.uncharge
  split
  · exact refl s
  · split <;> exact ⟨rfl, rfl, rfl⟩

variable {s t : State} {id : Nat} {x : Stored}

/-- An item without a failing word is freed and no unit is quarantined. -/
theorem freeStored (hx : s.stored? id = some x) (hbad : x.bad = []) : FreesOnly s (s.freeStored id) := by
  have hdropped : FreesOnly s (s.modSw (fun w => { w with stored := dropFirst (·.id == id) w.stored })) := ⟨rfl, rfl, rfl⟩
  have hcharge := hdropped.trans (uncharge _ x)
  unfold State.freeStored
  simp only [hx, hbad, List.map_nil, List.eraseDups_nil, List.length_nil, State.quarantine, if_true]
  split
  · exact hcharge.trans (returnCredit ..)
  · exact hcharge

theorem deref (hx : s.stored? id = some x) (hbad : x.bad = []) : FreesOnly s (s.deref id) := by
  have hcount := modStored s id (fun y => { y with refs := y.refs - 1 })
  have hfound : (s.modStored id (fun y => { y with refs := y.refs - 1 })).stored? id =
      some { x with refs := x.refs - 1 } :=
    State.stored?_modStored (f := fun y => { y with refs := y.refs - 1 }) hx (show x.id = id from State.stored?_id hx)
  unfold State.deref
  simp only [hx]
  split
  · exact hcount.trans (freeStored hfound hbad)
  · exact hcount

section
variable (h : FreesOnly s t)
include h

theorem out : t.out = s.out := by rw [h.eq]

theorem port (lp : Nat) : t.port lp = s.port lp := by rw [h.eq]; rfl

theorem reg (o : Nat) : t.reg o = s.reg o := by rw [h.eq]; rfl

theorem queue (lp vc : Nat) : t.queue lp vc = s.queue lp vc := by rw [State.queue, State.queue, h.queues]

theorem txAcct_eq (lp vc : Nat) (term : Bool) : t.txAcct lp vc term = s.txAcct lp vc term := by
  rw [State.txAcct, State.txAcct, h.txAcct]

end

end FreesOnly

theorem State.queue_setQueue (s : State) (lp vc : Nat) (q : List Nat) : (s.setQueue lp vc q).queue lp vc = q :=
  sget_sset_same ..

/-- A dequeued item without a failing word leaves its queue, and what it held is freed. -/
theorem FreesOnly.dequeue {s : State} (lp vc : Nat) {id : Nat} {x : Stored} (hx : s.stored? id = some x) (hbad : x.bad = []) :
    FreesOnly (s.setQueue lp vc (dropFirst (· == id) (s.queue lp vc))) (s.dequeue lp vc id) :=
  FreesOnly.deref (x := x) hx hbad

/-- Counting what a port sends changes registers and the bandwidth counts alone. -/
theorem State.countTx_eq (s : State) (lp vc n bytes : Nat) :
    s.countTx lp vc n bytes =
      { s with regs := (s.countTx lp vc n bytes).regs, perf := (s.countTx lp vc n bytes).perf } := by
  unfold State.countTx
  dsimp only
  rw [State.countEv_eq, State.countEv_eq (State.countEv _ _ _ _ _ _), State.countEv_eq (State.bump64 _ _ _)]
  rfl

/-- The counters of one port block's ingress, and those of the switching core. -/
abbrev IngressOrCoreReg (o : Nat) : Prop := o < 0x1000000 ∨ (o < 0x1800000 ∧ o % 0x10000 < 0xA000)

/-- What a port sends is counted in its own transmit counters and in the counter blocks. -/
theorem State.countTx_reg (s : State) (lp n bytes : Nat) {vc o : Nat} (hvc : vc < 8) (ho : IngressOrCoreReg o) :
    (s.countTx lp vc n bytes).reg o = s.reg o := by
  have hcnt : ∀ (u : State) blk code k v l, (u.countEv blk code k v l).reg o = u.reg o := fun u blk code k v l =>
    State.countEv_reg _ _ _ _ _ _ _ (fun j _ => by simp only [IngressOrCoreReg, Reg.cnt] at ho ⊢; omega)
      (by simp only [IngressOrCoreReg, Reg.ovf] at ho ⊢; omega)
  have hpkts : o ≠ Reg.txPkts (lp / 4) (lp % 4 * 8 + vc) := by simp only [IngressOrCoreReg, Reg.txPkts] at ho ⊢; omega
  have hbytes : o ≠ Reg.txBytes (lp / 4) (lp % 4 * 8 + vc) := by simp only [IngressOrCoreReg, Reg.txBytes] at ho ⊢; omega
  have hcount : (s.countTx lp vc n bytes).reg o = (((((s.bump64 (Reg.txPkts (lp / 4) (lp % 4 * 8 + vc)) n).bump64
      (Reg.txBytes (lp / 4) (lp % 4 * 8 + vc)) bytes).countEv (lp / 4) 0x03 n (some vc) (some (lp % 4))).countEv
      (lp / 4) 0x04 bytes (some vc) (some (lp % 4))).countEv 241 0xC1 bytes).reg o := rfl
  rw [hcount, hcnt, hcnt, hcnt, State.bump64, State.reg_setReg_ne _ _ hbytes, State.bump64, State.reg_setReg_ne _ _ hpkts]

/-- An item put on a port's stream changes that port alone. -/
theorem State.sendItem_eq (s : State) (lp kind vc : Nat) (term : Bool) (bs : List Byte) :
    s.sendItem lp kind vc term bs = { s with ports := (s.sendItem lp kind vc term bs).ports } := by
  unfold State.sendItem
  split <;> rfl

theorem State.sendItem_txQ (s : State) (lp kind vc : Nat) (term : Bool) (bs : List Byte) :
    ((s.sendItem lp kind vc term bs).port lp).txQ.length = (s.port lp).txQ.length + 1 := by
  unfold State.sendItem
  split
  all_goals
    rw [State.port, State.modPort_ports, smod, sget_sset_same]
    exact List.length_append

end Sys2Proof.Machine
end

/-! ### The head that is picked leaves (R47, R71, R82-R84, R281) -/

section
namespace Sys2Proof.Machine

/-- Only the balances that arbitration keeps differ. -/
def PicksOnly (s t : State) : Prop :=
  t = { s with sw := { s.sw with
    deficit := t.sw.deficit, rr := t.sw.rr, capBal := t.sw.capBal, capAt := t.sw.capAt } }

namespace PicksOnly

theorem refl (s : State) : PicksOnly s s := rfl

theorem trans {s t u : State} (h : PicksOnly s t) (k : PicksOnly t u) : PicksOnly s u := by
  unfold PicksOnly at *
  rw [k, h]

theorem setDeficit (s : State) (lp vc : Nat) (d : Int) : PicksOnly s (s.setDeficit lp vc d) := rfl

theorem setRr (s : State) (lp v : Nat) (inServ : Bool) : PicksOnly s (s.setRr lp v inServ) := rfl

theorem debitCap (s : State) (lp v bytes : Nat) : PicksOnly s (s.debitCap lp v bytes) := rfl

theorem drrPick (lp k : Nat) (s : State) : PicksOnly s (drrPick lp k s).2 := by
  induction k generalizing s with
  | zero => exact refl s
  | succ k ih =>
    unfold Machine.drrPick
    split
    rename_i v inServ _
    dsimp only
    split
    · exact ((setDeficit ..).trans (setRr ..)).trans (ih _)
    · split
      · exact (setRr ..).trans (ih _)
      · have hserved : PicksOnly s (if inServ then s
            else (s.setDeficit lp v (s.deficit lp v + (s.weight lp v * 256 : Nat))).setRr lp v true) := by
          split
          · exact refl s
          · exact (setDeficit ..).trans (setRr ..)
        generalize (if inServ then s
          else (s.setDeficit lp v (s.deficit lp v + (s.weight lp v * 256 : Nat))).setRr lp v true) = u at hserved ⊢
        split
        · exact hserved.trans (setDeficit ..)
        · exact (hserved.trans (setRr ..)).trans (ih _)

theorem pickZero (s : State) (lp : Nat) : PicksOnly s (s.pickZero lp).2 := by
  unfold State.pickZero
  dsimp only
  split
  · rfl
  · exact refl s

theorem arbitrate (s : State) (lp : Nat) : PicksOnly s (s.arbitrate lp).2 := by
  have hzero := pickZero s lp
  unfold State.arbitrate
  dsimp only
  split
  · exact refl s
  split
  · exact refl s
  split
  · exact drrPick ..
  split
  · rename_i heq
    rw [heq] at hzero
    exact hzero
  · rename_i heq
    rw [heq] at hzero
    split
    · exact hzero
    split
    · exact hzero
    · exact hzero

variable {s t : State} (h : PicksOnly s t)
include h

theorem headOf (lp vc : Nat) : t.headOf lp vc = s.headOf lp vc := by
  have hfrom : ∀ held q, t.headFrom lp vc held q = s.headFrom lp vc held q := by
    intro held q
    induction q generalizing held with
    | nil => rfl
    | cons id q ih =>
      have hstored : t.stored? id = s.stored? id := by rw [h]; rfl
      have hopen : ∀ x same, t.cellsOpen lp vc x same = s.cellsOpen lp vc x same := by intros; rw [h]; rfl
      simp only [State.headFrom, hstored, hopen, ih]
  have hqueue : t.queue lp vc = s.queue lp vc := by rw [h]; rfl
  have hstopped : t.sw.stopped = s.sw.stopped := by rw [h]
  rw [State.headOf, State.headOf, hfrom, hqueue, hstopped]

end PicksOnly

/-- The head of a queue is stored under its identifier. -/
theorem State.stored?_of_headFrom {s : State} {lp vc : Nat} {x : Stored} {held : List W32} {q : List Nat}
    (h : s.headFrom lp vc held q = some x) : s.stored? x.id = some x := by
  induction q generalizing held with
  | nil => cases h
  | cons id q ih =>
    rw [State.headFrom] at h
    split at h
    · exact ih h
    · rename_i y hy
      split at h
      · exact ih h
      split at h
      · exact ih h
      · cases h
        rwa [State.stored?_id hy]

theorem State.stored?_of_headOf {s : State} {lp vc : Nat} {x : Stored} (h : s.headOf lp vc = some x) :
    s.stored? x.id = some x := by
  unfold State.headOf at h
  split at h
  · cases h
  · exact State.stored?_of_headFrom h

/-- Where no queue is eligible, arbitration picks none and leaves the balances. -/
theorem State.arbitrate_none {s : State} {lp : Nat} (h : ∀ v < 8, s.eligible lp v = false) : s.arbitrate lp = (none, s) := by
  have hzero : s.pickZero lp = (none, s) := by
    have hfind : ((List.range 6).map (fun i => 2 + (sget 0 s.sw.rr (512 + lp) + i) % 6)).find?
        (fun v => s.eligible lp v && s.weight lp v == 0) = none := by
      simp only [List.find?_eq_none, List.mem_map]
      rintro _ ⟨i, -, rfl⟩
      simp [h (2 + (sget 0 s.sw.rr (512 + lp) + i) % 6) (by omega)]
    simp [State.pickZero, hfind]
  simp [State.arbitrate, h, hzero]

theorem State.arbitrate_vc0 {s : State} {lp : Nat} (he : s.eligible lp 0 = true) (hcap : 0 ≤ s.capNow lp 0) :
    s.arbitrate lp = (some 0, s) := by
  simp [State.arbitrate, he, hcap]

theorem State.arbitrate_vc1 {s : State} {lp : Nat} (he0 : s.eligible lp 0 = false) (he : s.eligible lp 1 = true)
    (hcap : 0 ≤ s.capNow lp 1) : s.arbitrate lp = (some 1, s) := by
  simp [State.arbitrate, he0, he, hcap]

/-! A time packet's stamp. -/

/-- The item with another packet in its place. -/
def Stored.holding (x : Stored) (p : Packet) : Stored := { x with item := .packet p }

theorem Stored.holding_self {x : Stored} {p : Packet} (h : x.item = .packet p) : x.holding p = x := by
  rw [Stored.holding, ← h]

/-- The packet as it is stored when its first byte leaves: one of this device's own time packets bears its stamp. -/
def State.stampedPacket (s : State) (lp : Nat) (x : Stored) (p : Packet) : Packet :=
  if s.ownTime x p ∧ sget 0 x.cellsSent lp = 0 then stampTime s.clk.ftime p else p

theorem State.stampedPacket_h (s : State) (lp : Nat) (x : Stored) (p : Packet) : (s.stampedPacket lp x p).h = p.h := by
  unfold State.stampedPacket
  split <;> rfl

/-- The stamp changes the stored packet and the times that this device keeps of its requests. -/
theorem State.stampOut_packet {s : State} (lp : Nat) {x : Stored} {p : Packet} (hitem : x.item = .packet p)
    (hx : s.stored? x.id = some x) : ∃ u, s.stampOut lp x = (x.holding (s.stampedPacket lp x p), u) ∧
      u = { s with sw := { s.sw with stored := u.sw.stored }, clk := u.clk } ∧
      u.stored? x.id = some (x.holding (s.stampedPacket lp x p)) := by
  by_cases hown : s.ownTime x p = true ∧ sget 0 x.cellsSent lp = 0
  case neg =>
    have hplain : s.stampedPacket lp x p = p := if_neg hown
    have hskip : (!s.ownTime x p || decide (sget 0 x.cellsSent lp ≠ 0)) = true := by
      rw [not_and_or] at hown
      simpa using hown
    rw [hplain, Stored.holding_self hitem]
    exact ⟨s, by simp only [State.stampOut, hitem, hskip, if_true], rfl, hx⟩
  case pos =>
    have hstamp : s.stampedPacket lp x p = stampTime s.clk.ftime p := if_pos hown
    have hstored := State.stored?_modStored (f := fun _ => x.holding (stampTime s.clk.ftime p)) hx rfl
    rw [hstamp]
    simp only [State.stampOut, hitem, hown, Bool.not_true, ne_eq, not_true_eq_false, decide_false, Bool.or_self,
      Bool.false_eq_true, if_false]
    refine ⟨_, rfl, ?_, ?_⟩
    · split <;> rfl
    · split <;> exact hstored

/-- A whole packet `q` leaves port `lp`'s queue of `vc` as item `x`, at the cost of its granules from account `term`. -/
structure LeavesWhole (lp vc : Nat) (x : Stored) (term : Bool) (q : Packet) (s t : State) : Prop where
  out : t.out = s.out ++ [.packet lp q]
  queue : t.queue lp vc = dropFirst (· == x.id) (s.queue lp vc)
  txQ : (t.port lp).txQ.length = (s.port lp).txQ.length + 1
  charged : (t.txAcct lp vc term).charged = (s.txAcct lp vc term).charged + x.granules

/-- Sending a sound packet that the port does not segment. -/
theorem State.sendHead_packet {s : State} {lp vc : Nat} {x : Stored} {p : Packet} (hitem : x.item = .packet p)
    (hseg : s.segments lp x = false) (hbad : x.bad = []) (hstomped : x.stomped = []) (hx : s.stored? x.id = some x) :
    LeavesWhole lp vc x (s.itemAcct lp x.item) (outPacket x (s.stampedPacket lp x p)) s (s.sendHead lp vc x) := by
  obtain ⟨u, hstamp, hu, hstored⟩ := State.stampOut_packet lp hitem hx
  have hh := s.stampedPacket_h lp x p
  generalize hy : s.stampedPacket lp x p = y at *
  have hsound : (x.holding y).stomped = [] := hstomped
  have hport : ∀ l, u.port l = s.port l := by intro l; rw [hu]; rfl
  have hqueue : ∀ l v, u.queue l v = s.queue l v := by intro l v; rw [hu]; rfl
  have hacct : u.itemAcct lp (.packet y) = s.itemAcct lp x.item := by
    simp only [State.itemAcct, itemDest, State.acctFor, hitem, hh, hport]
  have hwhole : u.segments lp (x.holding y) = false := by
    simpa only [State.segments, Stored.holding, hitem, hh, hport] using hseg
  have hcopy : copyOf (x.holding y) lp y = outPacket x y := by
    simp [copyOf, outPacket, Stored.holding, hstomped, hbad]
  generalize hq : outPacket x y = q at *
  have hsend : s.sendHead lp vc x = (((u.sendOn lp vc (s.itemAcct lp x.item) kindPacket x.granules (packetBytes q)
      (.packet lp q)).countTx lp vc 1 (packetSize q)).dequeue lp vc x.id) := by
    simp only [State.sendHead, hstamp, show (x.holding y).item = .packet y from rfl, hacct, hwhole, hcopy, hsound,
      List.contains_nil, Bool.false_eq_true, if_false]
    rfl
  generalize hterm : s.itemAcct lp x.item = term at *
  generalize hv : (u.sendOn lp vc term kindPacket x.granules (packetBytes q) (.packet lp q)).countTx lp vc 1
    (packetSize q) = v at *
  have hcount : v = { u.sendOn lp vc term kindPacket x.granules (packetBytes q) (.packet lp q) with
      regs := v.regs, perf := v.perf } := by rw [← hv]; exact State.countTx_eq ..
  have hsent : v = { u with
      ports := ((u.txCharge lp vc term x.granules).sendItem lp kindPacket vc term (packetBytes q)).ports,
      sw := (u.txCharge lp vc term x.granules).sw, out := u.out ++ [.packet lp q], regs := v.regs, perf := v.perf } := by
    rw [hcount, State.sendOn, State.sendItem_eq]
    rfl
  have hvstored : v.stored? x.id = some (x.holding y) := by rw [hsent]; exact hstored
  have hfrees := FreesOnly.dequeue lp vc hvstored hbad
  rw [hsend]
  refine ⟨?_, ?_, ?_, ?_⟩
  · rw [hfrees.out, hsent]
    simp only [State.setQueue, State.modSw_out]
    rw [hu]
  · rw [hfrees.queue, State.queue_setQueue, ← hqueue, hsent]
    rfl
  · rw [hfrees.port, hsent]
    exact (State.sendItem_txQ ..).trans (congrArg (·.txQ.length + 1) (hport lp))
  · rw [hfrees.txAcct_eq, hsent]
    simp only [State.txAcct, State.setQueue, State.modSw, State.txCharge, smod, sget_sset_same]
    rw [hu]

/-- The packet that heads the queue that arbitration picks leaves whole. -/
theorem exec_egressSelect_sends {s : State} {lp : Fin 512} {v : Nat} {x : Stored} {p : Packet}
    (hcan : s.canSend lp = true) (hopen : s.ctOpenOn lp = none) (hpick : (s.arbitrate lp).1 = some v)
    (hhead : s.headOf lp v = some x) (hitem : x.item = .packet p) (hseg : s.segments lp x = false) (hbad : x.bad = [])
    (hstomped : x.stomped = []) : ∃ t, exec (.egressSelect lp .clean) s = .next t ∧
      LeavesWhole lp v x (s.itemAcct lp x.item) (outPacket x (s.stampedPacket lp x p)) s t := by
  obtain ⟨s1, harb, hs1⟩ : ∃ s1, s.arbitrate lp = (some v, s1) ∧ PicksOnly s s1 :=
    ⟨_, Prod.ext hpick rfl, .arbitrate s lp⟩
  obtain ⟨s2, hs2, hdebit⟩ : ∃ s2, (if v ≤ 1 then s1.debitCap lp v (s1.headBytes lp v x) else s1) = s2 ∧ PicksOnly s s2 := by
    refine ⟨_, rfl, ?_⟩
    split
    · exact hs1.trans (.debitCap ..)
    · exact hs1
  have hx : s2.stored? x.id = some x := State.stored?_of_headOf ((hdebit.headOf lp v).trans hhead)
  have hexec : exec (.egressSelect lp .clean) s = .next (s2.sendHead lp v x) := by
    simp [execEgressSelect, hcan, hopen, harb, hs1.headOf, hhead, hs2, State.readObs, hx]
  have hleaves := State.sendHead_packet (s := s2) (vc := v) hitem (by rw [hdebit]; exact hseg) hbad hstomped hx
  refine ⟨_, hexec, ?_⟩
  generalize s2.sendHead lp v x = t at hleaves
  rw [hdebit] at hleaves
  exact ⟨hleaves.out, hleaves.queue, hleaves.txQ, hleaves.charged⟩

theorem exec_egressSelect_idle {s : State} {lp : Fin 512} (h : ∀ v < 8, s.eligible lp v = false) :
    exec (.egressSelect lp .clean) s = .next s := by
  simp [execEgressSelect, State.arbitrate_none h]

end Sys2Proof.Machine
end

/-! ### A cut-through packet is ended (R54, R75) -/

section
namespace Sys2Proof.Machine

theorem hVc_lt (h : Hdr) : hVc h < 8 := Nat.mod_lt _ (by decide)

/-- A packet `q` cut through as item `x` ends stomped on port `o` and leaves its queue of `vc`. -/
structure EndsStomped (o vc : Nat) (x : Stored) (q : Packet) (s t : State) : Prop where
  out : t.out = s.out ++ [.ended o { q with crc := stompedCrc q }]
  queue : t.queue o vc = dropFirst (· == x.id) (s.queue o vc)
  reg : ∀ r, IngressOrCoreReg r → t.reg r = s.reg r

theorem State.ctFinish_short {s : State} {o : Nat} {x : Stored} (p : Packet) (hout : x.headOut = [o]) (hbad : x.bad = [])
    (hx : s.stored? x.id = some x) : EndsStomped o (hVc p.h) x (outPacket x p) s (s.ctFinish x true p) := by
  generalize hq : ({ outPacket x p with crc := stompedCrc (outPacket x p) } : Packet) = q
  have hfinish : s.ctFinish x true p = (((((s.sendItem o kindPacket (hVc p.h) (s.itemAcct o (.packet p)) (packetBytes q)).emit
      (.ended o q)).countTx o (hVc p.h) 1 (packetSize q)).modStored x.id
        (fun y => { y with arriving := false, item := .packet p })).dequeue o (hVc p.h) x.id) := by
    simp [State.ctFinish, hout, hq]
  generalize hu : (s.sendItem o kindPacket (hVc p.h) (s.itemAcct o (.packet p)) (packetBytes q)).emit (.ended o q) = u at hfinish
  have hsent : u = { s with ports := u.ports, out := s.out ++ [.ended o q] } := by
    rw [← hu, State.sendItem_eq]
    rfl
  have hcount := u.countTx_eq o (hVc p.h) 1 (packetSize q)
  have hreg := fun r (hr : IngressOrCoreReg r) => u.countTx_reg o 1 (packetSize q) (hVc_lt p.h) hr
  generalize u.countTx o (hVc p.h) 1 (packetSize q) = v at hcount hreg hfinish
  have hstored : v.stored? x.id = some x := by
    rw [hcount, hsent]
    exact hx
  have hfrees := FreesOnly.dequeue o (hVc p.h)
    (State.stored?_modStored (f := fun y => { y with arriving := false, item := .packet p }) hstored rfl) hbad
  rw [hfinish]
  refine ⟨?_, ?_, ?_⟩
  · rw [hfrees.out, hq, hcount, hsent]
    rfl
  · rw [hfrees.queue, State.queue_setQueue, hcount, hsent]
    rfl
  · intro r hr
    rw [hfrees.reg]
    refine (hreg r hr).trans ?_
    rw [hsent]
    rfl

/-- A cut-through packet whose time is over is padded and ends stomped, and is counted twice. -/
theorem exec_ctAbort_ends {s : State} {lp : Fin 512} {a : Arrival} {id o : Nat} {x : Stored} (got : List Byte)
    (hpow : s.powered = true) (harr : s.arrivalOn lp = some a) (hct : a.ct = some id) (hx : s.stored? id = some x)
    (hout : x.headOut = [o]) (hbad : x.bad = []) (hlate : a.beganAt + 10000 ≤ s.now) :
    ∃ t, exec (.ctAbort lp got) s = .next t ∧
      t.out = s.out ++ [.ended o { outPacket x (packetOf a.h got) with crc := stompedCrc (outPacket x (packetOf a.h got)) }] ∧
      t.queue o (hVc a.h) = dropFirst (· == id) (s.queue o (hVc a.h)) ∧
      t.regN Reg.ctAbort = min (s.regN Reg.ctAbort + 1) 0xFFFFFFFF ∧
      t.regN (Reg.lenMismatch (lp.val / 4)) = min (s.regN (Reg.lenMismatch (lp.val / 4)) + 1) 0xFFFFFFFF := by
  have hdue : ¬ s.now < a.beganAt + 10 * us := Nat.not_lt.mpr hlate
  have hexec : exec (.ctAbort lp got) s = .next (s.ctCut lp a x got) := by
    rw [State.arrivalOn] at harr
    simp [execCtAbort, hpow, harr, State.ctOf, hct, hx, hdue]
  have hid := State.stored?_id hx
  have hends := State.ctFinish_short (s := (s.bump Reg.ctAbort).bump (Reg.lenMismatch (lp.val / 4))) (packetOf a.h got)
    hout hbad (hid ▸ hx)
  have hne : Reg.ctAbort ≠ Reg.lenMismatch (lp.val / 4) := by simp only [Reg.ctAbort, Reg.lenMismatch]; omega
  refine ⟨_, hexec, hends.out, ?_, ?_, ?_⟩
  · rw [← hid]
    exact hends.queue
  · rw [State.regN, State.ctCut, hends.reg _ (.inl (by decide)), State.bump, State.bumpBy, State.reg_setReg_ne _ _ hne]
    exact State.regN_bump ..
  · have hlp := lp.isLt
    rw [State.regN, State.ctCut, hends.reg _ (.inr (by simp only [Reg.lenMismatch]; omega))]
    refine (State.regN_bump ..).trans ?_
    rw [State.regN, State.bump, State.bumpBy, State.reg_setReg_ne _ _ hne.symm, ← State.regN]

end Sys2Proof.Machine
end

/-! ### A stale head is discarded (R76, R77, R81) -/

section
namespace Sys2Proof.Machine

theorem State.noteCells_eq (s : State) (lp vc : Nat) (x : Stored) (last : Bool) :
    s.noteCells lp vc x last = { s with sw := { s.sw with cellOpen := (s.noteCells lp vc x last).sw.cellOpen } } := by
  unfold State.noteCells
  split <;> rfl

/-- What a discard's checks can find without a fault: nothing, or an error that is corrected. -/
def soundObs : List BufObs := [.clean, .refCe, .ptrCe]

/-- Without a fault a discard's checks count a corrected error at most. -/
theorem State.readObs_sound {s : State} {obs : BufObs} (hobs : obs ∈ soundObs) (x : Stored) (ports : List Nat) :
    ∃ u, s.readObs obs x ports = (u, false) ∧ u = { s with regs := u.regs } ∧
      u.reg Reg.staleDrop = s.reg Reg.staleDrop := by
  simp only [soundObs, List.mem_cons, List.not_mem_nil, or_false] at hobs
  obtain rfl | rfl | rfl := hobs
  · exact ⟨s, rfl, rfl, rfl⟩
  · exact ⟨_, rfl, rfl, State.reg_setReg_ne _ _ (by decide)⟩
  · exact ⟨_, rfl, rfl, State.reg_setReg_ne _ _ (by decide)⟩

theorem State.discardCopy_sound {s : State} (lp vc : Nat) {id : Nat} {x : Stored} (hx : s.stored? id = some x)
    (hbad : x.bad = []) (hobs : pickObs s.free.1 discardObs ∈ soundObs) :
    (s.discardCopy lp vc id).out = s.out ∧
      (s.discardCopy lp vc id).queue lp vc = dropFirst (· == id) (s.queue lp vc) ∧
      (s.discardCopy lp vc id).reg Reg.staleDrop = s.reg Reg.staleDrop := by
  have hptr : pickObs s.free.1 discardObs ≠ .ptrUe := fun h => by simp [h, soundObs] at hobs
  obtain ⟨u, hread, hu, hreg⟩ :=
    (s.free.2.setQueue lp vc (dropFirst (· == id) (s.free.2.queue lp vc))).readObs_sound hobs x []
  have hdiscard : s.discardCopy lp vc id = u.deref id := by
    simp only [State.discardCopy, hx, if_neg hptr, hread]
  have hfrees := FreesOnly.deref (s := u) (by rw [hu]; exact hx) hbad
  rw [hdiscard]
  refine ⟨?_, ?_, ?_⟩
  · rw [hfrees.out, hu]
    rfl
  · rw [hfrees.queue, hu]
    exact State.queue_setQueue ..
  · rw [hfrees.reg, hreg]
    rfl

theorem State.stored?_of_frontOf {s : State} {lp vc : Nat} {x : Stored} (h : s.frontOf lp vc = some x) :
    s.stored? x.id = some x ∧ dropFirst (· == x.id) (s.queue lp vc) = (s.queue lp vc).drop 1 := by
  unfold State.frontOf at h
  split at h
  · cases h
  · rename_i id q hq
    rw [State.stored?_id h, hq]
    exact ⟨h, by simp [dropFirst]⟩

theorem exec_staleDrop_discards {s : State} {lp : Fin 512} {vc : Fin 8} {x : Stored} (hpow : s.powered = true)
    (hfront : s.frontOf lp vc = some x) (hwhole : x.arriving = false) (hstale : s.isStale x = true) :
    exec (.staleDrop lp vc) s = .next ((((s.bump Reg.staleDrop).noteCells lp vc x true).discardCopy lp vc x.id).modPort lp
      (fun p => { p with lastSendAt := s.now })) := by
  simp [execStaleDrop, hpow, hfront, hwhole, hstale]

/-- A stale head whose discard finds no fault leaves its queue, counted, and nothing leaves the device. -/
theorem exec_staleDrop_sound {s : State} {lp : Fin 512} {vc : Fin 8} {x : Stored} (hpow : s.powered = true)
    (hfront : s.frontOf lp vc = some x) (hwhole : x.arriving = false) (hstale : s.isStale x = true) (hbad : x.bad = [])
    (hobs : pickObs s.free.1 discardObs ∈ soundObs) : ∃ t, exec (.staleDrop lp vc) s = .next t ∧ t.out = s.out ∧
      t.queue lp vc = (s.queue lp vc).drop 1 ∧
      t.regN Reg.staleDrop = min (s.regN Reg.staleDrop + 1) 0xFFFFFFFF := by
  obtain ⟨hx, hdrop⟩ := State.stored?_of_frontOf hfront
  have hnote := (s.bump Reg.staleDrop).noteCells_eq lp vc x true
  have hexec := exec_staleDrop_discards hpow hfront hwhole hstale
  generalize (s.bump Reg.staleDrop).noteCells lp vc x true = u at hnote hexec
  have hfree : u.free.1 = s.free.1 := by rw [hnote]; rfl
  obtain ⟨hout, hqueue, hreg⟩ :=
    State.discardCopy_sound (s := u) lp vc (by rw [hnote]; exact hx) hbad (by rw [hfree]; exact hobs)
  refine ⟨_, hexec, ?_, ?_, ?_⟩
  · rw [State.modPort_out, hout, hnote]
    rfl
  · refine hqueue.trans ?_
    rw [← hdrop, hnote]
    rfl
  · rw [State.regN, State.reg_modPort, hreg, hnote]
    exact State.regN_bump ..

end Sys2Proof.Machine
end

/-! ### An audit and a writer that resumes (R27, R69, R78, R79) -/

section
namespace Sys2Proof.Machine

theorem State.regN_bumpBy (s : State) (o n : Nat) : (s.bumpBy o n).regN o = min (s.regN o + n) 0xFFFFFFFF := by
  rw [State.regN, State.bumpBy, State.reg_setReg_same, w64, BitVec.toNat_ofNat]
  omega

theorem State.msix_eq (s : State) (v : Nat) : s.msix v = { s with host := (s.msix v).host, out := (s.msix v).out } := by
  unfold State.msix
  split <;> rfl

/-- The event logs and the interrupts are of the host interface. -/
theorem State.logEvent_eq (s : State) (e : LogEntry) :
    s.logEvent e = { s with host := (s.logEvent e).host, out := (s.logEvent e).out } := by
  unfold State.logEvent
  dsimp only
  split
  · rw [State.msix_eq]
  · rfl

/-- A fault that is logged counts in no register but the log's own. -/
theorem State.logFault_reg (s : State) (f : FaultInfo) {o : Nat} (hover : o ≠ Reg.flogOverwritten)
    (hsupp : o ≠ Reg.flogSuppressed) : (s.logFault f).reg o = s.reg o := by
  unfold State.logFault
  dsimp only
  split
  · exact State.reg_setReg_ne _ _ hsupp
  · rw [State.logEvent_eq]
    split
    · exact State.reg_setReg_ne _ _ hover
    · rfl

/-- A fault is the newest entry of the log, or one too many at its location. -/
theorem State.logFault_logs (s : State) {f : FaultInfo} (hcls : f.cls < 256) (hsev : f.sev < 4) (hact : f.act < 8)
    (hcode : f.code < 256) : Logs s (s.logFault f) f.cls f.sev f.act f.code f.block f.index := by
  by_cases hfull : 16 ≤ (s.fault.recent.filter (fun r => decide (r.1 = byte f.cls ∧ r.2.1 = byte f.block ∧
      r.2.2.1 = BitVec.ofNat 16 f.index ∧ s.now ≤ r.2.2.2 + sec))).length
  case pos => exact .inl hfull
  case neg =>
    refine .inr ?_
    unfold State.logFault
    dsimp only
    rw [if_neg hfull, State.logEvent_eq, List.getLast?_concat]
    simp [byte, Nat.mod_eq_of_lt, hcls, hsev, hact, hcode]

theorem State.bufFault_logs (s : State) {cls : Nat} (hcls : cls < 256) : Logs s (s.bufFault cls) cls 1 2 0 1 0 :=
  s.free.2.logFault_logs (f := { cls := cls, sev := 1, act := 2, block := 1, detail := w64 (s.free.1.toNat % 1572864) })
    hcls (Nat.lt_of_sub_eq_succ rfl) (Nat.lt_of_sub_eq_succ rfl) (Nat.lt_of_sub_eq_succ rfl)

/-- Quarantine that stays below its limit counts, and raises nothing. -/
theorem State.quarantine_below {s : State} {n : Nat} (hn : 0 < n) (hroom : s.sw.quar + n < 16384) :
    s.quarantine n = ((s.modSw (fun w => { w with quar := w.quar + n })).bump Reg.quarEvents).trackFree := by
  have htrack : ∀ u : State, u.trackFree.sw = u.sw := fun u => (ReportFrame.trackFree u).sw
  have hbelow : ¬ 16384 ≤ s.sw.quar + n := Nat.not_le.mpr hroom
  simp [State.quarantine, hn.ne', htrack, hbelow]

theorem State.trackFree_reg (s : State) {o : Nat} (ho : o ≠ Reg.bufSharedFreeMin) : s.trackFree.reg o = s.reg o := by
  unfold State.trackFree State.trackMin
  split
  · exact State.reg_setReg_ne _ _ ho
  · rfl

theorem State.trackFree_eq (s : State) : s.trackFree = { s with regs := s.trackFree.regs } := by
  unfold State.trackFree State.trackMin
  split <;> rfl

theorem State.trackFree_out (s : State) : s.trackFree.out = s.out := by rw [State.trackFree_eq]

/-- The units that an audit finds are counted, logged and quarantined. -/
theorem exec_bufferAudit_quarantines {s : State} {n : Nat} (hpow : s.powered = true)
    (hen : bit (s.reg Reg.scCtrl) 4 = true) (hn : 0 < n) (hroom : s.sw.quar + n < 16384) :
    ∃ t, exec (.bufferAudit n) s = .next t ∧ t.sw.quar = s.sw.quar + n ∧ Logs s t 0x06 1 2 0 1 0 ∧
      t.regN Reg.auditMismatch = min (s.regN Reg.auditMismatch + n) 0xFFFFFFFF := by
  have hsw : ((s.bumpBy Reg.auditMismatch n).bufFault 0x06).sw = s.sw := (ReportFrame.logFault _ _).sw
  have hreg : ((s.bumpBy Reg.auditMismatch n).bufFault 0x06).reg Reg.auditMismatch =
      (s.bumpBy Reg.auditMismatch n).reg Reg.auditMismatch := State.logFault_reg _ _ (by decide) (by decide)
  have hlogs : Logs s ((s.bumpBy Reg.auditMismatch n).bufFault 0x06) 0x06 1 2 0 1 0 :=
    (s.bumpBy Reg.auditMismatch n).bufFault_logs (by decide)
  have hexec : exec (.bufferAudit n) s = .next (((s.bumpBy Reg.auditMismatch n).bufFault 0x06).quarantine n) := by
    simp [execBufferAudit, hpow, hen, hn.ne']
  rw [State.quarantine_below hn (by rwa [hsw])] at hexec
  generalize (s.bumpBy Reg.auditMismatch n).bufFault 0x06 = u at *
  refine ⟨_, hexec, ?_, ?_, ?_⟩
  · rw [State.trackFree_eq]
    simp [hsw]
  · rw [State.trackFree_eq]
    exact hlogs
  · rw [State.regN, State.trackFree_reg _ (by decide), State.bump, State.bumpBy, State.reg_setReg_ne _ _ (by decide),
      State.reg_modSw, hreg]
    exact State.regN_bumpBy ..

theorem sameWriter_self (w : Writer) : sameWriter w w = true := by
  cases w <;> simp [sameWriter]

/-- The one write that is held is written once it fits. -/
theorem exec_internalWriterResume_writes {s u : State} {h : HeldWrite} (hpow : s.powered = true) (hheld : s.sw.held = [h])
    (hone : h.more = []) (hfits : (s.tryInternal h.writer h.pkt).isSome = true)
    (hwrite : ({ s with sw := { s.sw with held := [] } } : State).tryInternal h.writer h.pkt = some (u, none)) :
    exec .internalWriterResume s = .next u := by
  have htry : ∀ v : State, v.retryHeld h = (v.tryInternal h.writer h.pkt).map (fun r => r.1.answerRefusal h.pkt r.2) := by
    intro v
    simp [State.retryHeld, State.tryGroup, hone]
  have hready : (s.retryHeld h).isSome = true := by rwa [htry, Option.isSome_map]
  have hnow : (s.modSw (fun w => { w with held := [] })).retryHeld h = some u := by
    rw [htry]
    exact congrArg _ hwrite
  simp [execInternalWriterResume, hpow, hheld, sameWriter_self, hready, dropFirst, hnow]

end Sys2Proof.Machine
end

/-! ### A discard that finds a fault reports it (R77, R395, R411) -/

section
namespace Sys2Proof.Machine

/-- Nothing that left the device is taken back. -/
def OutGrows (s t : State) : Prop := s.out.length ≤ t.out.length

namespace OutGrows

theorem of_eq {s t : State} (h : t.out = s.out) : OutGrows s t := by rw [OutGrows, h]

theorem refl (s : State) : OutGrows s s := of_eq rfl

theorem trans {s t u : State} (h : OutGrows s t) (k : OutGrows t u) : OutGrows s u := Nat.le_trans h k

/-- What came before sent nothing. -/
theorem after {s t u : State} (k : OutGrows t u) (h : t.out = s.out) : OutGrows s u := (of_eq h).trans k

theorem msix (s : State) (v : Nat) : OutGrows s (s.msix v) := by
  unfold State.msix
  split
  · exact of_eq rfl
  · rw [OutGrows, State.emit_out, List.length_append]
    exact Nat.le_add_right ..

theorem logEvent (s : State) (e : LogEntry) : OutGrows s (s.logEvent e) := by
  unfold State.logEvent
  dsimp only
  split
  · exact (msix ..).after rfl
  · exact of_eq rfl

theorem logFault (s : State) (f : FaultInfo) : OutGrows s (s.logFault f) := by
  unfold State.logFault
  dsimp only
  split
  · exact of_eq rfl
  · refine (logEvent ..).after ?_
    split <;> rfl

theorem quarantine (s : State) (n : Nat) : OutGrows s (s.quarantine n) := by
  have hcounted : (((s.modSw (fun w => { w with quar := w.quar + n })).bump Reg.quarEvents).trackFree).out = s.out :=
    State.trackFree_out _
  unfold State.quarantine
  dsimp only
  generalize ((s.modSw (fun w => { w with quar := w.quar + n })).bump Reg.quarEvents).trackFree = u at hcounted ⊢
  split
  · exact refl s
  split
  · exact ((logFault (u.modSw (fun w => { w with quarRaised := true })) _).trans (of_eq rfl)).after hcounted
  · exact of_eq hcounted

theorem freeStored (s : State) (id : Nat) : OutGrows s (s.freeStored id) := by
  unfold State.freeStored
  split
  · exact refl s
  · refine (quarantine ..).after ?_
    split <;> exact (FreesOnly.uncharge ..).out

theorem deref (s : State) (id : Nat) : OutGrows s (s.deref id) := by
  unfold State.deref
  split
  · exact refl s
  · dsimp only
    split
    · exact (freeStored ..).after rfl
    · exact of_eq rfl

theorem losePacket (s : State) (x : Stored) : OutGrows s (s.losePacket x) := by
  unfold State.losePacket
  refine (quarantine ..).after ?_
  split <;> exact (FreesOnly.uncharge ..).out

theorem foldl {α : Type} {f : State → α → State} (hf : ∀ s a, OutGrows s (f s a)) (l : List α) (s : State) :
    OutGrows s (l.foldl f s) := by
  induction l generalizing s with
  | nil => exact refl s
  | cons a l ih => exact (hf s a).trans (ih _)

theorem ptrFault (s : State) (lp vc : Nat) : OutGrows (s.bufFault 0x05) (s.ptrFault lp vc) := by
  unfold State.ptrFault
  refine (foldl (fun u id => ?_) ((s.bufFault 0x05).queue lp vc) _).after rfl
  split
  · exact refl u
  split
  · exact losePacket ..
  · exact (deref u id).trans (of_eq rfl)

end OutGrows

/-- The fault log was empty of late, and a fault of severity 1 raises vector 1, which the host takes. -/
structure Reports (s : State) : Prop where
  recent : s.fault.recent = []
  policy : (s.host.policy.getD 1 0).toNat % 4 = 1
  unmasked : s.host.msixMasked.contains 1 = false
  linkUp : s.host.linkUp = true

theorem Reports.logFault_out {s : State} (h : Reports s) {f : FaultInfo} (hsev : f.sev = 1) :
    (s.logFault f).out = s.out ++ [.msix 1] := by
  obtain ⟨hrecent, hpolicy, hunmasked, hlink⟩ := h
  have hlogged : ∀ u : State, u.host = s.host → u.out = s.out → ∀ e : LogEntry, e.severity = 1 →
      (u.logEvent e).out = s.out ++ [.msix 1] := by
    intro u hhost hout e hone
    unfold State.logEvent State.msix
    dsimp only
    rw [hone, hhost, if_pos (by exact hpolicy), hunmasked, hlink]
    exact congrArg (· ++ [.msix 1]) hout
  unfold State.logFault
  dsimp only
  rw [hrecent, if_neg (by simp)]
  refine hlogged _ ?_ ?_ _ (by rw [hsev]; rfl)
  all_goals split <;> rfl

theorem Reports.bufFault_out {s : State} (h : Reports s) (cls : Nat) : (s.bufFault cls).out = s.out ++ [.msix 1] :=
  Reports.logFault_out (s := s.free.2) ⟨h.recent, h.policy, h.unmasked, h.linkUp⟩ rfl

theorem pickObs_mem (v : W64) {l : List BufObs} (h : l ≠ []) : pickObs v l ∈ l := by
  have hlt : v.toNat % l.length < l.length := Nat.mod_lt _ (List.length_pos_iff.mpr h)
  rw [pickObs, List.getD_eq_getElem _ _ hlt]
  exact List.getElem_mem hlt

/-- A discard that finds a fault sends an interrupt, where faults are reported. -/
theorem Reports.discardCopy_out {s : State} (h : Reports s) (lp vc : Nat) {id : Nat} {x : Stored}
    (hx : s.stored? id = some x) (hobs : pickObs s.free.1 discardObs ∉ soundObs) :
    s.out.length < (s.discardCopy lp vc id).out.length := by
  have hgrows : ∀ u t : State, Reports u → u.out = s.out → OutGrows (u.bufFault 0x05) t → s.out.length < t.out.length := by
    intro u t hu hout ht
    rw [OutGrows, hu.bufFault_out, hout, List.length_append] at ht
    exact ht
  have hread : Reports (s.free.2.setQueue lp vc (dropFirst (· == id) (s.free.2.queue lp vc))) :=
    ⟨h.recent, h.policy, h.unmasked, h.linkUp⟩
  have hmem := pickObs_mem s.free.1 (l := discardObs) (by decide)
  generalize hpick : pickObs s.free.1 discardObs = obs at hobs hmem
  simp only [discardObs, soundObs, List.mem_cons, List.not_mem_nil, or_false, not_or] at hmem hobs
  obtain ⟨hclean, hrefCe, hptrCe⟩ := hobs
  obtain rfl | rfl | rfl | rfl | rfl | rfl := hmem
  · exact absurd rfl hclean
  · exact absurd rfl hrefCe
  · simp only [State.discardCopy, hx, hpick, State.readObs, if_neg (show BufObs.refUe ≠ .ptrUe by decide)]
    exact hgrows _ _ hread rfl (.losePacket ..)
  · simp only [State.discardCopy, hx, hpick, State.readObs, if_neg (show BufObs.refZero ≠ .ptrUe by decide)]
    exact hgrows _ _ hread rfl (.losePacket ..)
  · exact absurd rfl hptrCe
  · simp only [State.discardCopy, hx, hpick, if_true]
    exact hgrows s.free.2 _ ⟨h.recent, h.policy, h.unmasked, h.linkUp⟩ rfl (.ptrFault ..)

/-- A stale packet heads its queue in a device that reports its faults to the host; `n` free values are drawn. -/
def staleState (n : Nat) : State := { Tests.storedOut 0 with
  freeCtr := n
  host := { Tests.up.host with msixMasked := [], policy := [1, 1, 1, 1] } }

theorem staleState_front (n : Nat) : (staleState n).powered = true ∧ ∃ x, (staleState n).frontOf 4 0 = some x ∧
    x.arriving = false ∧ (staleState n).isStale x = true ∧ x.bad = [] := by
  have hhead : ((Tests.storedOut 0).frontOf 4 0).map (fun x => (x.arriving, (Tests.storedOut 0).isStale x, x.bad)) =
      some (false, true, []) := by decide +kernel
  obtain ⟨x, hfront, hfacts⟩ := Option.map_eq_some_iff.mp hhead
  obtain ⟨hwhole, hstale, hbad⟩ := by simpa only [Prod.mk.injEq] using hfacts
  exact ⟨(show (Tests.storedOut 0).powered = true by decide +kernel), x, hfront, hwhole, hstale, hbad⟩

/-- The stale head's discard sends an interrupt when it finds a fault. -/
theorem exec_staleDrop_reports {n : Nat} (hobs : pickObs (Config.freeWord n) discardObs ∉ soundObs) :
    ∃ t, exec (.staleDrop 4 0) (staleState n) = .next t ∧ t.out ≠ (staleState n).out := by
  obtain ⟨hpow, x, hfront, hwhole, hstale, -⟩ := staleState_front n
  have hexec := exec_staleDrop_discards (lp := 4) (vc := 0) hpow hfront hwhole hstale
  have hnote := ((staleState n).bump Reg.staleDrop).noteCells_eq 4 0 x true
  have hreports : Reports (((staleState n).bump Reg.staleDrop).noteCells 4 0 x true) := by
    rw [hnote]
    exact ⟨rfl, rfl, rfl, rfl⟩
  have hsent := hreports.discardCopy_out 4 0 (id := x.id) (x := x)
    (by rw [hnote]; exact (State.stored?_of_frontOf hfront).1) (by rw [hnote]; exact hobs)
  refine ⟨_, hexec, fun h => ?_⟩
  rw [State.modPort_out] at h
  have hout : (((staleState n).bump Reg.staleDrop).noteCells 4 0 x true).out = (staleState n).out := by rw [hnote]; rfl
  exact absurd hsent (by rw [hout, ← h]; exact Nat.lt_irrefl _)

/-- Everything that O37 states holds but for one case, a stale head whose discard finds a fault: the fault is reported, so
something leaves the device (R395, R411). Whether such a discard occurs is for the free values to say, of which the model
fixes none (log entries 1 and 17); so O37 comes to this statement about them, which can be neither proved nor refuted. -/
theorem packetsLeave_iff_discards_sound :
    Obligations.PacketsLeave ↔ ∀ n, pickObs (Config.freeWord n) discardObs ∈ soundObs := by
  constructor
  · intro h n
    by_contra hobs
    obtain ⟨hpow, x, hfront, hwhole, hstale, hbad⟩ := staleState_front n
    obtain ⟨-, -, -, -, hdrop, -⟩ := h (staleState n) 4 hpow
    obtain ⟨t, hexec, hout, -⟩ := hdrop 0 x hfront hwhole hstale hbad
    obtain ⟨u, hexec', hsent⟩ := exec_staleDrop_reports hobs
    rw [hexec] at hexec'
    cases hexec'
    exact hsent hout
  · intro hsound s lp hpow
    refine ⟨?vc0, ?vc1, exec_egressSelect_idle, ?sends, ?stale, ?aborts, ?audits, ?resumes⟩
    case vc0 =>
      intro he hcap
      rw [State.arbitrate_vc0 he hcap]
    case vc1 =>
      intro he0 he hcap
      rw [State.arbitrate_vc1 he0 he hcap]
    case sends =>
      intro v x p hcan hopen hpick hhead hitem hseg hbad hstomped
      obtain ⟨t, hexec, hleaves⟩ := exec_egressSelect_sends hcan hopen hpick hhead hitem hseg hbad hstomped
      exact ⟨t, hexec, hleaves.out, hleaves.queue, hleaves.txQ, hleaves.charged⟩
    case stale =>
      intro v x hfront hwhole hstale hbad
      obtain ⟨t, hexec, hout, hqueue, hcount⟩ := exec_staleDrop_sound hpow hfront hwhole hstale hbad (hsound s.freeCtr)
      have hptr : pickObs s.free.1 discardObs ≠ .ptrUe := fun h => absurd (h ▸ hsound s.freeCtr) (by decide)
      exact ⟨t, hexec, hout, fun _ => hqueue, fun h => absurd h hptr, hcount⟩
    case aborts =>
      intro a id x o got harr hct hx hout hbad hlate
      exact exec_ctAbort_ends got hpow harr hct hx hout hbad hlate
    case audits =>
      intro n hen hn hroom
      exact exec_bufferAudit_quarantines hpow hen hn hroom
    case resumes =>
      intro h u hheld hone hfits hwrite
      exact exec_internalWriterResume_writes hpow hheld hone hfits hwrite

end Sys2Proof.Machine
end

/-! ### Bank copies, commits, swaps and sweeps of the route tables (R97, R98, R105, R106, R109, R110) -/

section
namespace Sys2Proof.Machine

/-! Sparse maps put together from two, or moved to other keys. -/

section
variable {α : Type} (d : α)

/-- The first map decides, where the second lists nothing at the key. -/
theorem sget_append_left (l m : Sparse α) {i : Nat} (hm : ∀ e ∈ m, e.1 ≠ i) : sget d (l ++ m) i = sget d l i := by
  induction l with
  | nil =>
    induction m with
    | nil => rfl
    | cons e m ih =>
      rw [List.forall_mem_cons] at hm
      rw [← ih hm.2, List.nil_append, sget, if_neg (Ne.symm hm.1), List.nil_append]
  | cons e l ih => rw [List.cons_append, sget, sget, ih]

/-- The second map decides, where the first lists nothing at the key. -/
theorem sget_append_right (l m : Sparse α) {i : Nat} (hl : ∀ e ∈ l, e.1 ≠ i) : sget d (l ++ m) i = sget d m i := by
  induction l with
  | nil => rfl
  | cons e l ih =>
    rw [List.forall_mem_cons] at hl
    rw [List.cons_append, sget, if_neg (Ne.symm hl.1), ih hl.2]

/-- A map moved by `f` reads at the moved key as before, where `f` moves no other key there. -/
theorem sget_map_key (f : Nat → Nat) (m : Sparse α) {i : Nat} (hf : ∀ e ∈ m, f e.1 = f i → e.1 = i) :
    sget d (m.map (fun e => (f e.1, e.2))) (f i) = sget d m i := by
  induction m with
  | nil => rfl
  | cons e m ih =>
    rw [List.forall_mem_cons] at hf
    have hkey : f i = f e.1 ↔ i = e.1 := ⟨fun h => (hf.1 h.symm).symm, congrArg f⟩
    simp only [List.map_cons, sget, hkey, ih hf.2]

end

/-! Where the words of an entry stand (R108). -/

/-- The address of the same word in the other bank, for a word of bank `act`. -/
def otherBank (act : Bool) (a : Nat) : Nat := if act then a - 0x400000 else a + 0x400000

theorem inBank_otherBank {act : Bool} {a : Nat} (h : inBank act a = true) : inBank (!act) (otherBank act a) = true := by
  cases act <;> simp [inBank, otherBank] at h ⊢ <;> omega

/-- A word is in one bank. -/
theorem ne_of_inBank {act : Bool} {a b : Nat} (ha : inBank act a = true) (hb : inBank (!act) b = true) : a ≠ b := by
  cases act <;> simp [inBank] at ha hb <;> omega

theorem otherBank_inj {act : Bool} {a b : Nat} (ha : inBank act a = true) (hb : inBank act b = true)
    (h : otherBank act a = otherBank act b) : a = b := by
  cases act <;> simp [inBank, otherBank] at ha hb h <;> omega

/-- The entries of table `t` and those of the tables after it do not overlap. -/
theorem tableEntries_fit {t : Nat} (ht : t < 4) : tableEntries t * tableStride t ≤ 0x20000 := by
  interval_cases t <;> decide

theorem inBank_entryWord (bank : Bool) {t i w : Nat} (ht : t < 4) (hi : i < tableEntries t) (hw : w < tableStride t / 4) :
    inBank bank (entryAddr bank t i + 4 * w) = true := by
  have hrow : i * tableStride t + tableStride t ≤ 0x20000 := by
    calc i * tableStride t + tableStride t = (i + 1) * tableStride t := (Nat.succ_mul ..).symm
      _ ≤ tableEntries t * tableStride t := Nat.mul_le_mul_right _ hi
      _ ≤ 0x20000 := tableEntries_fit ht
  cases bank <;> simp [inBank, entryAddr, tableBase] <;> omega

theorem entryWord_not (act : Bool) {t i w : Nat} :
    entryAddr (!act) t i + 4 * w = otherBank act (entryAddr act t i + 4 * w) := by
  cases act <;> simp [entryAddr, tableBase, otherBank] <;> omega

/-! A copy of the active bank (R106). -/

/-- The words that a table memory holds of bank `act`. -/
def bankWords (act : Bool) (m : Sparse W32) : Sparse W32 := m.filter (fun e => inBank act e.1)

/-- The same words, at their addresses of the other bank. -/
def movedWords (act : Bool) (m : Sparse W32) : Sparse W32 := (bankWords act m).map (fun e => (otherBank act e.1, e.2))

/-- A copy of the active bank leaves its words, and the same words in the other bank; the lower bank stands first. -/
theorem copyBank_tbl (s : State) : s.copyBank.route.tbl =
    if s.route.activeBank then movedWords s.route.activeBank s.route.tbl ++ bankWords s.route.activeBank s.route.tbl
    else bankWords s.route.activeBank s.route.tbl ++ movedWords s.route.activeBank s.route.tbl := rfl

section
variable {act : Bool} {m : Sparse W32}

theorem inBank_of_mem_bankWords {e : Nat × W32} (he : e ∈ bankWords act m) : inBank act e.1 = true :=
  (List.mem_filter.mp he).2

theorem inBank_of_mem_movedWords {e : Nat × W32} (he : e ∈ movedWords act m) : inBank (!act) e.1 = true := by
  obtain ⟨x, hx, rfl⟩ := List.mem_map.mp he
  exact inBank_otherBank (inBank_of_mem_bankWords hx)

theorem sget_bankWords {a : Nat} (ha : inBank act a = true) : sget 0 (bankWords act m) a = sget 0 m a :=
  sget_filter_of_kept 0 m (inBank act) ha

theorem sget_movedWords {a : Nat} (ha : inBank act a = true) :
    sget 0 (movedWords act m) (otherBank act a) = sget 0 m a := by
  rw [movedWords, sget_map_key 0 (otherBank act) _ fun e he => otherBank_inj (inBank_of_mem_bankWords he) ha,
    sget_bankWords ha]

end

/-- An active word is left where it was. -/
theorem copyBank_active (s : State) {a : Nat} (ha : inBank s.route.activeBank a = true) :
    sget 0 s.copyBank.route.tbl a = sget 0 s.route.tbl a := by
  have hmoved : ∀ e ∈ movedWords s.route.activeBank s.route.tbl, e.1 ≠ a := fun e he =>
    (ne_of_inBank ha (inBank_of_mem_movedWords he)).symm
  rw [copyBank_tbl]
  split
  · rw [sget_append_right 0 _ _ hmoved, sget_bankWords ha]
  · rw [sget_append_left 0 _ _ hmoved, sget_bankWords ha]

/-- An active word is found in the other bank too. -/
theorem copyBank_inactive (s : State) {a : Nat} (ha : inBank s.route.activeBank a = true) :
    sget 0 s.copyBank.route.tbl (otherBank s.route.activeBank a) = sget 0 s.route.tbl a := by
  have hkept : ∀ e ∈ bankWords s.route.activeBank s.route.tbl, e.1 ≠ otherBank s.route.activeBank a := fun e he =>
    ne_of_inBank (inBank_of_mem_bankWords he) (inBank_otherBank ha)
  rw [copyBank_tbl]
  split
  · rw [sget_append_left 0 _ _ hkept, sget_movedWords ha]
  · rw [sget_append_right 0 _ _ hkept, sget_movedWords ha]

theorem copyBank_tblWord (s : State) {t i w : Nat} (ht : t < 4) (hi : i < tableEntries t) (hw : w < tableStride t / 4) :
    s.copyBank.tblWord (!s.route.activeBank) t i w = s.tblWord s.route.activeBank t i w ∧
    s.copyBank.tblWord s.route.activeBank t i w = s.tblWord s.route.activeBank t i w := by
  have hin := inBank_entryWord s.route.activeBank ht hi hw
  simp only [State.tblWord, entryWord_not]
  exact ⟨copyBank_inactive s hin, copyBank_active s hin⟩

/-! The commands of SWAP_CMD and the swap itself (R105, R106). -/

theorem wrSwapArm_arms {s : State} {v : W64} (hidle : s.route.swap ≠ 1)
    (hearly : ¬ (s.clk.timeValid = true ∧ (s.reg Reg.swapAt).toNat ≤ s.clk.ftime.toNat)) (hgood : s.inactiveBad = false)
    (hcopy : s.route.copyUntil = none) :
    wrSwapArm s v = some (s.modRoute (fun r => { r with swap := 1, reason := 0 })) := by
  have hlate : (s.clk.timeValid && decide ((s.reg Reg.swapAt).toNat ≤ s.clk.ftime.toNat)) = false := by simpa using hearly
  rw [wrSwapArm, if_neg hidle]
  simp [hlate, hgood, hcopy]

/-- Lateness is the lowest reason, so the others are not asked for. -/
theorem wrSwapArm_late {s : State} {v : W64} (hidle : s.route.swap ≠ 1)
    (hlate : s.clk.timeValid = true ∧ (s.reg Reg.swapAt).toNat ≤ s.clk.ftime.toNat) :
    wrSwapArm s v = some ((s.modRoute (fun r => { r with swap := 3, reason := 1 })).bump Reg.swapRefused) := by
  rw [wrSwapArm, if_neg hidle]
  simp [hlate]

theorem wrSwapCancel_armed {s : State} {v : W64} (harmed : s.route.swap = 1) :
    wrSwapCancel s v = some (s.modRoute (fun r => { r with swap := 0, reason := 0 })) :=
  if_pos harmed

theorem wrSwapCopy_idle {s : State} {v : W64} (hidle : s.route.swap ≠ 1) (hcopy : s.route.copyUntil = none) :
    wrSwapCopy s v = some s.copyBank := by
  rw [wrSwapCopy, decide_eq_false hidle, hcopy]
  rfl

theorem exec_copyComplete_powered {s : State} (hpow : s.powered = true) :
    exec .copyComplete s = .next (s.modRoute (fun r => { r with copyUntil := none })) :=
  if_neg (by simp [hpow])

theorem exec_tableBankSwap_due {s : State} (hpow : s.powered = true) (harmed : s.route.swap = 1)
    (hlate : s.clk.timeValid = true ∧ (s.reg Reg.swapAt).toNat ≤ s.clk.ftime.toNat) :
    exec .tableBankSwap s = .next
      ((s.modRoute (fun r => { r with activeBank := !r.activeBank, swap := 2, reason := 0 })).bump Reg.orderEvents) := by
  simp [execTableBankSwap, hpow, harmed, hlate]

/-! A commit (R109). -/

/-- One word of the staging registers copied into an entry, its reserved bits as 0. -/
def commitWord (bank : Bool) (t i : Nat) (s : State) (w : Nat) : State :=
  s.modRoute (fun r => { r with
    tbl := sset 0 r.tbl (entryAddr bank t i + 4 * w) (w32 (s.regN (Reg.stage w)) &&& entryMask t w) })

/-- The first `n` words copied. -/
def State.commitWords (s : State) (bank : Bool) (t i n : Nat) : State := (List.range n).foldl (commitWord bank t i) s

/-- An entry written from the staging registers, and free of errors. -/
def State.commitEntry (s : State) (bank : Bool) (t i : Nat) : State :=
  (s.commitWords bank t i (tableStride t / 4)).modRoute (fun r => { r with
    errs := r.errs.filter (fun e => !decide (e.ref = entryRef bank t i)),
    ces := r.ces.filter (fun e => !decide (e = entryRef bank t i)) })

section
variable (s : State) (bank : Bool) (t i : Nat)

theorem commitWords_succ (n : Nat) :
    s.commitWords bank t i (n + 1) = commitWord bank t i (s.commitWords bank t i n) n := by
  rw [State.commitWords, List.range_succ, List.foldl_append]
  rfl

theorem commitWords_only (n : Nat) : s.commitWords bank t i n = { s with
    route := { s.route with tbl := (s.commitWords bank t i n).route.tbl } } := by
  induction n with
  | zero => rfl
  | succ n ih => rw [commitWords_succ, ih]; rfl

theorem commitWords_succ_tbl (n : Nat) : (s.commitWords bank t i (n + 1)).route.tbl =
    sset 0 (s.commitWords bank t i n).route.tbl (entryAddr bank t i + 4 * n)
      (w32 (s.regN (Reg.stage n)) &&& entryMask t n) := by
  have hreg : (s.commitWords bank t i n).regN (Reg.stage n) = s.regN (Reg.stage n) := by
    rw [commitWords_only]
    rfl
  rw [commitWords_succ, commitWord, State.modRoute_route, hreg]

theorem commitWords_tblWord {n w : Nat} (hw : w < n) :
    (s.commitWords bank t i n).tblWord bank t i w = w32 (s.regN (Reg.stage w)) &&& entryMask t w := by
  induction n with
  | zero => omega
  | succ n ih =>
    rw [State.tblWord, commitWords_succ_tbl, sget_sset]
    by_cases hlast : w = n
    case pos => rw [hlast, if_pos rfl]
    case neg => rw [if_neg (by omega)]; exact ih (by omega)

theorem commitWords_outside (n : Nat) {a : Nat} (ha : a < entryAddr bank t i ∨ entryAddr bank t i + 4 * n ≤ a) :
    sget 0 (s.commitWords bank t i n).route.tbl a = sget 0 s.route.tbl a := by
  induction n with
  | zero => rfl
  | succ n ih =>
    rw [commitWords_succ_tbl, sget_sset_ne 0 0 _ _ (by omega)]
    exact ih (by omega)

theorem commitEntry_tblWord : ∀ w < tableStride t / 4,
    (s.commitEntry bank t i).tblWord bank t i w = w32 (s.regN (Reg.stage w)) &&& entryMask t w :=
  fun _ => commitWords_tblWord s bank t i

theorem commitEntry_outside : ∀ a, a < entryAddr bank t i ∨ entryAddr bank t i + tableStride t ≤ a →
    sget 0 (s.commitEntry bank t i).route.tbl a = sget 0 s.route.tbl a :=
  fun _ ha => commitWords_outside s bank t i (tableStride t / 4) (by omega)

theorem commitEntry_mends : ∀ x ∈ (s.commitEntry bank t i).route.errs, x.ref ≠ entryRef bank t i := by
  intro x hx
  simpa using (List.mem_filter.mp hx).2

/-- Words and errors are of the route tables, so nothing else changes. -/
theorem commitEntry_only : s.commitEntry bank t i = { s with route := (s.commitEntry bank t i).route } := by
  rw [State.commitEntry, commitWords_only]
  rfl

end

/-- A commit to an entry that exists writes it, whichever bank it is in; in the active bank it is an ordering event. -/
theorem wrCommit_writes {s : State} {v : W64} (hi : fld v 8 12 < tableEntries (fld v 0 2))
    (hcopy : s.route.copyUntil = none) :
    wrCommit s v = some (
      if bit v 4 = s.route.activeBank then (s.commitEntry (bit v 4) (fld v 0 2) (fld v 8 12)).bump Reg.orderEvents
      else s.commitEntry (bit v 4) (fld v 0 2) (fld v 8 12)) := by
  have hpass : ¬ (tableEntries (fld v 0 2) ≤ fld v 8 12 || (bit v 4 != s.route.activeBank) && s.route.copyUntil.isSome) =
      true := by simp [hcopy, hi]
  refine (if_neg hpass).trans (congrArg some ?_)
  by_cases hactive : bit v 4 = s.route.activeBank
  · rw [if_pos hactive, if_neg (by simp [hactive])]; rfl
  · rw [if_neg hactive, if_pos (by simp [hactive])]; rfl

/-- A write to COMMIT with no reserved entry bit staged counts nothing beside its handler. -/
theorem writeCommit_unreserved {s : State} {v : W64} (r : Requester) (hstaged : s.stageReserved v = false) :
    s.writeCommit r v = s.writeVia r Reg.commit v wrCommit := by
  simp [State.writeCommit, hstaged]

theorem exec_tableCommit_writes {s : State} {r : Requester} {v : W32} (hc : Clear s r)
    (hw : Writable s Reg.commit (w64 v.toNat)) (hi : fld v 8 12 < tableEntries (fld v 0 2))
    (hcopy : s.route.copyUntil = none) (hstaged : s.stageReserved (w64 v.toNat) = false) :
    exec (.tableCommit r v) s = .next (
      if bit v 4 = s.route.activeBank then (s.commitEntry (bit v 4) (fld v 0 2) (fld v 8 12)).bump Reg.orderEvents
      else s.commitEntry (bit v 4) (fld v 0 2) (fld v 8 12)) := by
  have hf := wrCommit_writes (s := s) (v := w64 v.toNat) (by rwa [fld_w64_word, fld_w64_word]) hcopy
  rw [fld_w64_word, fld_w64_word, bit_w64_word] at hf
  rw [exec_tableCommit, execTableCommit, writeCommit_unreserved r hstaged, writeVia_writable hc hw, hf, Option.getD_some]

/-! A sweep (R110). -/

theorem State.logFault_route (s : State) (f : FaultInfo) : (s.logFault f).route = s.route := by
  unfold State.logFault
  dsimp only
  split
  · rfl
  · rw [State.logEvent_eq]
    split <;> rfl

/-- What the first detection of an error counts and locates, before it is logged. -/
def State.noteErr (s : State) (e : EntryRef) : State :=
  ((s.modRoute (fun r => { r with
    errs := r.errs.filter (fun x => !decide (x.ref = e)) ++ [{ ref := e, detected := true }] })).bump
      Reg.tableUe).setReg Reg.tableUeLoc (w64 (commitLayout e))

/-- An error that no armed swap meets is noted and logged. -/
theorem State.detectErr_unarmed {s : State} (e : EntryRef) (hidle : s.route.swap ≠ 1) : s.detectErr e =
    (s.noteErr e).logFault { cls := 0x08, sev := 1, act := 2, block := 2, detail := w64 (commitLayout e) } := by
  refine if_neg ?_
  rw [State.logFault_route]
  intro harmed
  exact hidle (of_decide_eq_true (Bool.and_eq_true_iff.mp harmed).1)

theorem State.detectErr_new {s : State} {e : EntryRef} (hidle : s.route.swap ≠ 1)
    (hnew : ∀ x ∈ s.route.errs, x.ref ≠ e) :
    (s.detectErr e).route = { s.route with errs := s.route.errs ++ [⟨e, true⟩] } := by
  have hkeep : s.route.errs.filter (fun x => !decide (x.ref = e)) = s.route.errs :=
    List.filter_eq_self.mpr fun x hx => by simp [hnew x hx]
  rw [State.detectErr_unarmed e hidle, State.logFault_route, State.noteErr, State.setReg_route, State.bump_route,
    State.modRoute_route, hkeep]

theorem State.detectErr_logs {s : State} (e : EntryRef) (hidle : s.route.swap ≠ 1) :
    Logs s (s.detectErr e) 0x08 1 2 0 2 0 := by
  rw [State.detectErr_unarmed e hidle]
  exact (s.noteErr e).logFault_logs (f := { cls := 0x08, sev := 1, act := 2, block := 2, detail := w64 (commitLayout e) })
    (by simp) (by simp) (by simp) (by simp)

/-- What a sweep does with an entry that it finds uncorrectable. -/
def sweepEntry (s : State) (e : EntryRef) : State :=
  if s.route.errs.any (fun x => decide (x.ref = e) && x.detected) || tableEntries e.table.val ≤ e.index.val then s
  else s.detectErr e

theorem sweepEntry_new {s : State} {e : EntryRef} (hnew : ∀ x ∈ s.route.errs, x.ref ≠ e)
    (hexists : e.index.val < tableEntries e.table.val) : sweepEntry s e = s.detectErr e := by
  refine if_neg ?_
  simpa [hexists] using fun x hx href => absurd href (hnew x hx)

theorem State.correctEntry_errs (s : State) (e : EntryRef) : (s.correctEntry e).route.errs = s.route.errs := by
  unfold State.correctEntry
  split <;> rfl

theorem State.correctEntries_errs (s : State) (es : List EntryRef) :
    (es.foldl State.correctEntry s).route.errs = s.route.errs := by
  induction es generalizing s with
  | nil => rfl
  | cons e es ih => rw [List.foldl_cons, ih, State.correctEntry_errs]

/-- The one single-bit error of the tables is corrected and counted. -/
theorem State.correctEntry_last {s : State} {e : EntryRef} (hces : s.route.ces = [e]) :
    s.correctEntry e = (s.modRoute (fun r => { r with ces := [] })).bump Reg.tableCe := by
  have hmem : s.route.ces.contains e = true := by simp [hces]
  rw [State.correctEntry, if_pos hmem]
  simp [State.modRoute, hces]

/-- A sweep corrects what is correctable; where every known error has been detected, it then goes through what it found
itself. -/
theorem exec_tableSweep_detected {s : State} (bad : List EntryRef) (ce : Nat) (hpow : s.powered = true)
    (hknown : ∀ x ∈ s.route.errs, x.detected = true) : exec (.tableSweep bad ce) s =
      .next (bad.foldl sweepEntry (s.route.ces.foldl State.correctEntry (s.bumpBy Reg.tableCe ce))) := by
  have hnone : ((s.route.ces.foldl State.correctEntry (s.bumpBy Reg.tableCe ce)).route.errs.filter
      (fun e => !e.detected)).map (·.ref) = [] := by
    rw [State.correctEntries_errs, State.bumpBy_route, List.map_eq_nil_iff, List.filter_eq_nil_iff]
    exact fun x hx => by simp [hknown x hx]
  refine (if_neg (by simp [hpow])).trans ?_
  rw [hnone]
  rfl

/-! The end of a rejoin hold (R97, R98). -/

theorem State.orderEvent_route (s : State) (lp : Nat) : (s.orderEvent lp).route = s.route := by
  unfold State.orderEvent
  split <;> rfl

theorem State.orderEvent_only (s : State) (lp : Nat) : s.orderEvent lp = { s with regs := (s.orderEvent lp).regs } := by
  unfold State.orderEvent
  split <;> rfl

theorem exec_rejoinHoldEnd_due {s : State} {lp : Fin 512} {e : Nat × Nat} (hpow : s.powered = true)
    (hheld : s.route.rejoin.find? (fun e => e.1 == lp.val) = some e)
    (hdue : e.2 + s.regN Reg.rejoinHold * 1000000 ≤ s.now) :
    exec (.rejoinHoldEnd lp) s = .next
      ((s.modRoute (fun r => { r with rejoin := r.rejoin.filter (fun x => x.1 != lp.val) })).orderEvent lp) := by
  rw [exec_rejoinHoldEnd, execRejoinHoldEnd, if_neg (by simp [hpow]), hheld]
  exact if_neg (Nat.not_lt.mpr hdue)

/-- Settles O30: each command's conditions open its gate, so it does what its own lemma says. -/
theorem routeTables : Obligations.RouteTables := by
  unfold Obligations.RouteTables
  intro s r hpow hc
  dsimp only
  refine ⟨?arm, ?late, ?cancel, ?copy, exec_copyComplete_powered hpow, ?swap, ?commit, ?found, ?clean, ?corrected,
    ?rejoin⟩
  case arm =>
    intro hw hidle hearly hgood hcopy
    exact writeCmd_writable hc hw wrSwapCmd false (wrSwapArm_arms (v := 1) hidle hearly hgood hcopy)
  case late =>
    intro hw hidle hlate
    exact ⟨_, writeCmd_writable hc hw wrSwapCmd false (wrSwapArm_late (v := 1) hidle hlate), rfl, State.regN_bump ..⟩
  case cancel =>
    intro hw harmed
    exact writeCmd_writable hc hw wrSwapCmd false (wrSwapCancel_armed (v := 2) harmed)
  case copy =>
    intro hw hidle hcopy
    exact ⟨s.copyBank, writeCmd_writable hc hw wrSwapCmd false (wrSwapCopy_idle (v := 4) hidle hcopy),
      fun t i w => copyBank_tblWord s, rfl, rfl, rfl⟩
  case swap =>
    intro harmed hlate
    exact ⟨_, exec_tableBankSwap_due hpow harmed hlate, rfl, State.regN_bump .., rfl⟩
  case commit =>
    intro v hw hi hcopy hstaged
    have honly := commitEntry_only s (bit v 4) (fld v 0 2) (fld v 8 12)
    have hevents : (s.commitEntry (bit v 4) (fld v 0 2) (fld v 8 12)).regN Reg.orderEvents = s.regN Reg.orderEvents := by
      rw [honly]; rfl
    have hwords := commitEntry_tblWord s (bit v 4) (fld v 0 2) (fld v 8 12)
    have hrest := commitEntry_outside s (bit v 4) (fld v 0 2) (fld v 8 12)
    have hmends := commitEntry_mends s (bit v 4) (fld v 0 2) (fld v 8 12)
    refine ⟨_, exec_tableCommit_writes hc hw hi hcopy hstaged, ?_⟩
    by_cases hactive : bit v 4 = s.route.activeBank
    case pos =>
      rw [if_pos hactive, if_pos hactive]
      refine ⟨hwords, hrest, hmends, ?_, ?_⟩
      · rw [State.regN_bump, hevents]
      · rw [honly]; rfl
    case neg =>
      rw [if_neg hactive, if_neg hactive]
      refine ⟨hwords, hrest, hmends, hevents, ?_⟩
      rw [honly]
  case found =>
    intro e ce hces hknown hexists hidle
    have hnew : ∀ x ∈ (s.bumpBy Reg.tableCe ce).route.errs, x.ref ≠ e := fun x hx => (hknown x hx).2
    have hexec := exec_tableSweep_detected [e] ce hpow fun x hx => (hknown x hx).1
    rw [hces, List.foldl_nil, List.foldl_cons, List.foldl_nil, sweepEntry_new hnew hexists] at hexec
    exact ⟨_, hexec, State.detectErr_new hidle hnew, State.detectErr_logs (s := s.bumpBy Reg.tableCe ce) e hidle⟩
  case clean =>
    intro ce hces hknown
    rw [exec_tableSweep_detected [] ce hpow hknown, hces, List.foldl_nil, List.foldl_nil]
  case corrected =>
    intro e hces hknown
    have hexec := exec_tableSweep_detected [] 0 hpow hknown
    rw [hces, List.foldl_nil, List.foldl_cons, List.foldl_nil,
      State.correctEntry_last (s := s.bumpBy Reg.tableCe 0) hces] at hexec
    refine ⟨_, hexec, rfl, ?_⟩
    have hcount := s.regN_bumpBy Reg.tableCe 0
    rw [State.regN_bump, State.regN, State.reg_modRoute, ← State.regN, hcount]
    omega
  case rejoin =>
    intro lp e hheld hdue
    refine ⟨_, exec_rejoinHoldEnd_due hpow hheld hdue, ?_, ?_⟩
    · rw [State.orderEvent_route]; rfl
    · rw [State.orderEvent_only]; rfl

end Sys2Proof.Machine
end

/-! ### What the switch, the pool and the fault log leave to the collective unit (R65, R77, R89-R98, R314, R411) -/

section
namespace Sys2Proof.Machine

/-- The registers of the collective unit (R156, R157). -/
abbrev CollReg (o : Nat) : Prop := 0x104000 ≤ o ∧ o < 0x1040A0

/-- What the collective unit goes by beside its registers: its instances and arrivals, benches, contexts, replay, the time,
whether the device is out of service, and what the pool's addresses read. -/
structure UnitView where
  coll : Coll
  benches : Sparse Bench
  ctxs : Sparse Ctx
  rpl : Sparse Rpl
  clk : Clock
  oos : Bool
  mem : List Host.Cell
  windows : Sparse W32
  cache : List CacheWin

def State.unitView (s : State) : UnitView :=
  { coll := s.coll, benches := s.benches, ctxs := s.ctxs, rpl := s.rpl, clk := s.clk, oos := s.fault.oos,
    mem := s.pool.mem, windows := s.pool.windows, cache := s.pool.cache }

/-- Nothing that the collective unit goes by differs. -/
structure Quiet (s t : State) : Prop where
  view : t.unitView = s.unitView
  reg : ∀ o, CollReg o → t.reg o = s.reg o

namespace Quiet

theorem refl (s : State) : Quiet s s := ⟨rfl, fun _ _ => rfl⟩

theorem trans {s t u : State} (h : Quiet s t) (k : Quiet t u) : Quiet s u :=
  ⟨k.view.trans h.view, fun o ho => (k.reg o ho).trans (h.reg o ho)⟩

theorem ite {p : Prop} [Decidable p] {s t u : State} (ht : Quiet s t) (hu : Quiet s u) : Quiet s (if p then t else u) := by
  split
  · exact ht
  · exact hu

theorem snd_ite {α : Type} {p : Prop} [Decidable p] {s : State} {x y : α × State} (hx : Quiet s x.2) (hy : Quiet s y.2) :
    Quiet s (if p then x else y).2 := by
  split
  · exact hx
  · exact hy

theorem foldl {α : Type} {f : State → α → State} (hf : ∀ s a, Quiet s (f s a)) (l : List α) (s : State) :
    Quiet s (l.foldl f s) :=
  List.foldlRecOn (motive := Quiet s) _ _ (refl s) fun _ h a _ => h.trans (hf _ a)

/-! Counting and logging. -/

theorem setReg {o : Nat} (ho : ¬ CollReg o) (s : State) (v : W64) : Quiet s (s.setReg o v) :=
  ⟨rfl, fun _ hj => State.reg_setReg_ne _ _ fun e => ho (e ▸ hj)⟩

theorem bumpBy {o : Nat} (ho : ¬ CollReg o) (s : State) (n : Nat) : Quiet s (s.bumpBy o n) := setReg ho s _

theorem bump {o : Nat} (ho : ¬ CollReg o) (s : State) : Quiet s (s.bump o) := setReg ho s _

theorem trackMax {o : Nat} (ho : ¬ CollReg o) (s : State) (v : Nat) : Quiet s (s.trackMax o v) := .ite (setReg ho s _) (refl s)

theorem trackFree (s : State) : Quiet s s.trackFree := .ite (setReg (by decide) s _) (refl s)

/-- The counters of the counter blocks stand above every register of the unit. -/
theorem countEv (s : State) (blk code n : Nat) (vc l : Option Nat) : Quiet s (s.countEv blk code n vc l) := by
  refine ⟨by rw [State.countEv_eq]; rfl, fun o ho => State.countEv_reg _ _ _ _ _ _ _ (fun k _ => ?_) ?_⟩
  · simp only [Reg.cnt]; omega
  · simp only [Reg.ovf]; omega

theorem free (s : State) : Quiet s s.free.2 := ⟨rfl, fun _ _ => rfl⟩

theorem modSw (s : State) (f : Switch → Switch) : Quiet s (s.modSw f) := ⟨rfl, fun _ _ => rfl⟩

theorem modRoute (s : State) (f : Route → Route) : Quiet s (s.modRoute f) := ⟨rfl, fun _ _ => rfl⟩

theorem msix (s : State) (v : Nat) : Quiet s (s.msix v) := by rw [State.msix_eq]; exact ⟨rfl, fun _ _ => rfl⟩

theorem logEvent (s : State) (e : LogEntry) : Quiet s (s.logEvent e) := by
  rw [State.logEvent_eq]; exact ⟨rfl, fun _ _ => rfl⟩

theorem logFault (s : State) (f : FaultInfo) : Quiet s (s.logFault f) := by
  refine .ite (bump (by decide) s) (.trans ?_ (logEvent _ _))
  have hoverwritten := ite (p := 1024 ≤ s.fault.log.length) (bump (o := Reg.flogOverwritten) (by decide) s) (refl s)
  exact ⟨hoverwritten.view, hoverwritten.reg⟩

theorem oweReset (s : State) (level cls index : Nat) : Quiet s (s.oweReset level cls index) := ⟨rfl, fun _ _ => rfl⟩

/-! The buffer. -/

theorem takeCredit (s : State) (lp : Option Nat) (vc g : Nat) : Quiet s (s.takeCredit lp vc g) := by
  obtain ⟨_, h⟩ := AcctOnly.takeCredit s lp vc g
  rw [h]
  exact ⟨rfl, fun _ _ => rfl⟩

theorem returnCredit (s : State) (lp vc : Nat) (term : Bool) (g : Nat) : Quiet s (s.returnCredit lp vc term g) :=
  ⟨rfl, fun _ _ => rfl⟩

theorem uncharge (s : State) (x : Stored) : Quiet s (s.uncharge x) := by
  unfold State.uncharge
  refine ite (refl s) ?_
  split <;> exact modSw ..

theorem quarantine (s : State) (n : Nat) : Quiet s (s.quarantine n) := by
  refine ite (refl s) ?_
  have hcounted : Quiet s ((s.modSw (fun w => { w with quar := w.quar + n })).bump Reg.quarEvents).trackFree :=
    (modSw ..).trans <| (bump (by decide) _).trans (trackFree _)
  exact ite (hcounted.trans <| (modSw ..).trans <| (logFault ..).trans (oweReset ..)) hcounted

theorem freeStored (s : State) (id : Nat) : Quiet s (s.freeStored id) := by
  unfold State.freeStored
  split
  · exact refl s
  · extract_lets uncharged returned
    have huncharged : Quiet s uncharged := (modSw s _).trans (uncharge ..)
    refine trans ?_ (quarantine ..)
    unfold returned
    split
    · exact huncharged.trans (returnCredit ..)
    · exact huncharged

theorem deref (s : State) (id : Nat) : Quiet s (s.deref id) := by
  unfold State.deref
  split
  · exact refl s
  · exact ite ((modSw ..).trans (freeStored ..)) (modSw ..)

theorem bufFault (s : State) (cls : Nat) : Quiet s (s.bufFault cls) := (free s).trans (logFault ..)

theorem dataUe (s : State) (x : Stored) (w : Nat) (ports : List Nat) : Quiet s (s.dataUe x w ports) :=
  ite (refl s) <| (bump (by decide) s).trans <| (bufFault ..).trans (modSw ..)

theorem losePacket (s : State) (x : Stored) : Quiet s (s.losePacket x) := by
  unfold State.losePacket
  extract_lets dropped uncharged returned
  have huncharged : Quiet s uncharged := (modSw s _).trans (uncharge ..)
  refine trans (trans ?_ (bump (by decide) _)) (quarantine ..)
  unfold returned
  split
  · exact huncharged.trans (returnCredit ..)
  · exact huncharged

theorem refFault (s : State) (x : Stored) : Quiet s (s.refFault x) := (bufFault s 0x05).trans (losePacket _ x)

theorem linkFault (s : State) : Quiet s s.linkFault := by
  unfold State.linkFault
  exact (bufFault s 0x05).trans (quarantine ..)

theorem readObs (s : State) (obs : BufObs) (x : Stored) (ports : List Nat) : Quiet s (s.readObs obs x ports).1 := by
  cases obs
  case clean | ptrUe => exact refl s
  case dataCe | refCe | ptrCe | linkCe => exact bump (by decide) s
  case dataUe => exact dataUe ..
  case refUe | refZero | refLate => exact refFault s x
  case linkUe => simpa only [State.readObs] using linkFault s

theorem readCopy (s : State) (stored : Option Nat) : Quiet s (s.readCopy stored) := by
  unfold State.readCopy
  split
  · exact refl s
  · rename_i x _
    dsimp only
    have hread := (free s).trans (readObs _ (pickObs s.free.1 [.clean, .refCe, .refUe, .refZero]) x [])
    split <;> rename_i heq <;> rw [heq] at hread
    · exact hread
    · exact hread.trans (deref ..)

theorem readLocal (s : State) (obs : BufObs) (id : Nat) : Quiet s (s.readLocal obs id).1 := by
  unfold State.readLocal
  split
  · exact refl s
  · rename_i x _
    have hread := readObs s obs x []
    split <;> rename_i heq <;> rw [heq] at hread <;> exact hread

theorem enqueue (s : State) (id lp vc : Nat) : Quiet s (s.enqueue id lp vc) :=
  (modSw s _).trans (trackMax (by simp only [Reg.qdepthMax]; omega) ..)

theorem store (s : State) (x : Stored) (qs : List Nat) (vc : Nat) (own : Bool) : Quiet s (s.store x qs vc own) := by
  unfold State.store
  extract_lets id all targets item held stored charged queued counted lost
  have hcharged : Quiet s charged := by
    refine ite (modSw ..) ?_
    split <;> exact (modSw s _).trans (modSw ..)
  have hqueued : Quiet s queued := hcharged.trans <| (foldl (fun t lp => enqueue t id lp vc) ..).trans (trackFree _)
  have hcounted : Quiet s counted := ite hqueued (hqueued.trans (countEv ..))
  have hlost : Quiet s lost := hcounted.trans (bumpBy (by decide) ..)
  exact ite (hlost.trans (freeStored ..)) hlost

/-! Routing. -/

theorem correctEntry (s : State) (e : EntryRef) : Quiet s (s.correctEntry e) :=
  .ite (.trans (modRoute s _) (bump (by decide) _)) (refl s)

theorem detectErr (s : State) (e : EntryRef) : Quiet s (s.detectErr e) := by
  have hlogged := (modRoute s (fun r => { r with
    errs := r.errs.filter (fun x => !decide (x.ref = e)) ++ [{ ref := e, detected := true }] })).trans <|
    (bump (o := Reg.tableUe) (by decide) _).trans <|
    (setReg (o := Reg.tableUeLoc) (by decide) _ (w64 (commitLayout e))).trans <|
    logFault _ { cls := 0x08, sev := 1, act := 2, block := 2, detail := w64 (commitLayout e) }
  exact .ite (hlogged.trans <| (modRoute _ _).trans <| bump (by decide) _) hlogged

theorem lookupErr (s : State) (bank : Bool) (t i : Nat) : Quiet s (s.lookupErr bank t i).2 := by
  unfold State.lookupErr
  split
  · exact correctEntry ..
  · exact .ite (refl s) (detectErr ..)

theorem choose (s : State) (r : RouteReq) (adapt : Bool) (cands : List Nat) : Quiet s (s.choose r adapt cands).2 := by
  cases adapt
  · exact refl s
  · exact bump (by decide) s

/-- Routing a packet made inside the device looks up two entries and counts. -/
theorem routePkt (s : State) (r : RouteReq) : Quiet s (s.routePkt r none).2 := by
  unfold State.routePkt
  extract_lets +onlyGivenNames bank
  have hpart : Quiet s (if r.vc = 0 then (false, s) else s.lookupErr bank 3 r.part).2 := snd_ite (refl s) (lookupErr ..)
  generalize (if r.vc = 0 then (false, s) else s.lookupErr bank 3 r.part) = x at hpart ⊢
  obtain ⟨perr, s1⟩ := x
  dsimp -zeta only at hpart ⊢
  extract_lets +onlyGivenNames inDeny
  refine snd_ite (hpart.trans (bump (by decide) _)) ?_
  generalize (if r.mc = true then (2, fld r.dest 0 12)
      else if coordRack r.dest ≠ s1.ownRack then (0, coordRack r.dest) else (1, coordNode r.dest)) = ti
  obtain ⟨t, i⟩ := ti
  dsimp -zeta only
  have hentry : Quiet s (s1.lookupErr bank t i).2 := hpart.trans (lookupErr ..)
  generalize s1.lookupErr bank t i = x at hentry ⊢
  obtain ⟨err, s2⟩ := x
  dsimp -zeta only at hentry ⊢
  extract_lets +onlyGivenNames ws w4 code miss
  have hmiss : Quiet s (s2.bump miss) := hentry.trans (bump (by unfold miss; split <;> decide) _)
  refine snd_ite hmiss (snd_ite hmiss ?_)
  rw [if_neg (by simp)]
  extract_lets +onlyGivenNames s3 adapt live inPart s4 cands
  have hports : Quiet s s4 :=
    have habsent : Quiet s s3 := hentry.trans (bumpBy (by decide) _ _)
    .ite (habsent.trans (bumpBy (by decide) _ _)) habsent
  refine snd_ite (snd_ite (hports.trans (bump (by decide) _)) hports) (snd_ite (hports.trans (bump (by decide) _)) ?_)
  exact hports.trans (choose ..)

/-! The pool, as the device itself reads it. -/

theorem modMem (s : State) (m : Nat) (f : MemCtl → MemCtl) : Quiet s (s.modMem m f) := ⟨rfl, fun _ _ => rfl⟩

theorem modPool (s : State) {f : Pool → Pool} (hmem : (f s.pool).mem = s.pool.mem)
    (hwindows : (f s.pool).windows = s.pool.windows) (hcache : (f s.pool).cache = s.pool.cache) :
    Quiet s (s.modPool f) :=
  ⟨by simp only [State.unitView, State.modPool, hmem, hwindows, hcache], fun _ _ => rfl⟩

theorem not_collReg_memReg (m off : Nat) : ¬ CollReg (memReg m off) := by
  simp only [memReg]; split <;> omega

theorem memServe (s : State) (a n : Nat) : Quiet s (s.memServe a n) := foldl (fun t m => modMem t m _) _ s

theorem demandMems (s : State) (ms : List Nat) : Quiet s (s.demandMems ms) := foldl (fun t m => modMem t m _) ms s

theorem memDemand (s : State) (a n : Nat) : Quiet s (s.memDemand a n) := demandMems ..

theorem memBytes (s : State) (a n : Nat) (wr : Bool) : Quiet s (s.memBytes a n wr) :=
  foldl (fun t _ => countEv t ..) _ s

theorem ceFound (s : State) (line : Nat) : Quiet s (s.ceFound line) :=
  (bump (not_collReg_memReg _ _) s).trans (modMem ..)

theorem ueCount (s : State) (home cls code : Nat) (ctx : Option Nat) : Quiet s (s.ueCount home cls code ctx) :=
  (bump (not_collReg_memReg _ _) s).trans <| (modMem ..).trans (logFault ..)

theorem ueMark (s : State) (home line cls code : Nat) (ctx : Option Nat) : Quiet s (s.ueMark home line cls code ctx) :=
  ite (refl s) (.trans (modPool s rfl rfl rfl) (ueCount ..))

theorem ueMet (s : State) (line cls code : Nat) (ctx : Option Nat) : Quiet s (s.ueMet line cls code ctx) :=
  (modPool s (f := fun p => { p with latent := p.latent.filter (fun e => e.1 != s.homeLine line) }) rfl rfl rfl).trans <|
    ite (bump (not_collReg_memReg _ _) _) (ueMark ..)

theorem meet (s : State) (a n : Nat) (rd : Bool) (cls : Nat) (ctx : Option Nat) : Quiet s (s.meet a n rd cls ctx) := by
  refine foldl (fun t e => ?_) _ s
  split
  · exact refl t
  · exact ite (refl t) (ite (ceFound ..) (ueMet ..))

section
variable {s t : State} (h : Quiet s t)
include h

theorem coll : t.coll = s.coll := congrArg UnitView.coll h.view
theorem benches : t.benches = s.benches := congrArg UnitView.benches h.view
theorem ctxs : t.ctxs = s.ctxs := congrArg UnitView.ctxs h.view
theorem rpl : t.rpl = s.rpl := congrArg UnitView.rpl h.view
theorem clk : t.clk = s.clk := congrArg UnitView.clk h.view
theorem oos : t.fault.oos = s.fault.oos := congrArg UnitView.oos h.view
theorem mem : t.pool.mem = s.pool.mem := congrArg UnitView.mem h.view
theorem windows : t.pool.windows = s.pool.windows := congrArg UnitView.windows h.view
theorem cache : t.pool.cache = s.pool.cache := congrArg UnitView.cache h.view

theorem inst? (k : InstKey) : t.inst? k = s.inst? k := by rw [State.inst?, State.inst?, h.coll]
theorem bench (b : Nat) : t.bench b = s.bench b := by rw [State.bench, State.bench, h.benches]
theorem ctx (c : Nat) : t.ctx c = s.ctx c := by rw [State.ctx, State.ctx, h.ctxs]
theorem now : t.now = s.now := by rw [State.now, State.now, h.clk]
theorem recording (c : Nat) : t.recording c = s.recording c := by
  rw [State.recording, State.recording, State.rplOf, State.rplOf, h.rpl]
theorem replaying (c : Nat) : t.replaying c = s.replaying c := by
  rw [State.replaying, State.replaying, State.rplOf, State.rplOf, h.rpl]
theorem collEn : t.collEn = s.collEn := by rw [State.collEn, State.collEn, h.reg _ (by decide)]
theorem ownersOf (c : Nat) : t.ownersOf c = s.ownersOf c := by rw [State.ownersOf, State.ownersOf, h.ctx]
theorem memRead (a n : Nat) : t.memRead a n = s.memRead a n := by rw [State.memRead, State.memRead, h.mem]
theorem readWords (a n : Nat) : t.readWords a n = s.readWords a n := by simp only [State.readWords, h.memRead]
theorem entryAddr (k : BitVec 20) : t.entryAddr k = s.entryAddr k := by rw [State.entryAddr, State.entryAddr, h.ctx]
theorem findWin (c a n : Nat) : t.findWin c a n = s.findWin c a n := by
  simp only [State.findWin, State.wins, State.win, State.winWords, h.windows]
theorem place (x : Entry) (total : Nat) (owners : List Nat) (c : Nat) : t.place x total owners c = s.place x total owners c := by
  have hlines : t.ctxLines c = s.ctxLines c := by rw [State.ctxLines, State.ctxLines, h.coll]
  have hspill : t.spillFree = s.spillFree := by rw [State.spillFree, State.spillFree, h.coll, h.reg Reg.spillSize (by decide)]
  unfold State.place
  rw [h.coll, h.ctx, hlines, hspill]

end

end Quiet

section
variable {s t : State} (hwindows : t.pool.windows = s.pool.windows) (hcache : t.pool.cache = s.pool.cache)
include hwindows

theorem State.winCtxs_congr : t.winCtxs = s.winCtxs := by rw [State.winCtxs, State.winCtxs, hwindows]

theorem State.wins_congr (c : Nat) : t.wins c = s.wins c := by
  simp only [State.wins, State.win, State.winWords, hwindows]

theorem State.cachedAt_congr (a : Nat) : t.cachedAt a = s.cachedAt a := by
  unfold State.cachedAt
  simp only [winCtxs_congr hwindows, wins_congr hwindows]

theorem State.backedAt_congr (a : Nat) : t.backedAt a = s.backedAt a := by
  unfold State.backedAt
  simp only [winCtxs_congr hwindows, wins_congr hwindows]

include hcache

theorem State.blockAt_congr (a : Nat) : t.blockAt a = s.blockAt a := by
  unfold State.blockAt State.cacheWin
  rw [cachedAt_congr hwindows, hcache]

theorem State.viewLine_congr (l : Nat) : t.viewLine l = s.viewLine l := by
  unfold State.viewLine State.cacheWin
  rw [backedAt_congr hwindows, blockAt_congr hwindows hcache, hcache]

theorem State.cleanInBacking_congr (a : Nat) : t.cleanInBacking a = s.cleanInBacking a := by
  rw [State.cleanInBacking, State.cleanInBacking, blockAt_congr hwindows hcache]

end

/-- Reading from the pool met no uncorrectable error: no line became poisoned, and none holds an error it did not. -/
structure ReadsSound (s t : State) : Prop extends Quiet s t where
  poisoned : t.pool.poisoned = s.pool.poisoned
  latent : t.pool.latent ⊆ s.pool.latent

namespace ReadsSound

theorem refl (s : State) : ReadsSound s s := ⟨.refl s, rfl, fun _ h => h⟩

theorem trans {s t u : State} (h : ReadsSound s t) (k : ReadsSound t u) : ReadsSound s u :=
  ⟨h.toQuiet.trans k.toQuiet, k.poisoned.trans h.poisoned, fun _ he => h.latent (k.latent he)⟩

theorem memBytes (s : State) (a n : Nat) (wr : Bool) : ReadsSound s (s.memBytes a n wr) :=
  List.foldlRecOn (motive := ReadsSound s) _ _ (refl s) fun _ h _ _ =>
    h.trans ⟨.countEv .., by rw [State.countEv_pool], by rw [State.countEv_pool]; exact fun _ h => h⟩

theorem memServe (s : State) (a n : Nat) : ReadsSound s (s.memServe a n) :=
  List.foldlRecOn (motive := ReadsSound s) _ _ (refl s) fun _ h _ _ => h.trans ⟨.modMem .., rfl, fun _ h => h⟩

/-- A range whose lines read soundly still does. -/
theorem ueLines {s t : State} (h : ReadsSound s t) {a n : Nat} (hsound : s.ueLines a n = []) : t.ueLines a n = [] := by
  simp only [State.ueLines, List.append_eq_nil_iff, State.badLines, List.filterMap_eq_nil_iff] at hsound ⊢
  rw [h.poisoned]
  refine ⟨hsound.1, fun e he => ?_⟩
  simpa only [State.viewLine_congr h.windows h.cache, State.cleanInBacking_congr h.windows h.cache] using
    hsound.2 e (h.latent he)

theorem ceFound (s : State) (line : Nat) : ReadsSound s (s.ceFound line) := ⟨.ceFound .., rfl, fun _ h => h⟩

/-- A clean backing block masks an error: the line is refetched and counted. -/
theorem ueMet_masked {s : State} {line : Nat} (cls code : Nat) (ctx : Option Nat)
    (hclean : s.cleanInBacking (64 * line) = true) : ReadsSound s (s.ueMet line cls code ctx) := by
  have hmasked : ∀ q, (s.modPool q).pool.windows = s.pool.windows → (s.modPool q).pool.cache = s.pool.cache →
      (s.modPool q).cleanInBacking (64 * line) = true := fun _ hw hc => by rw [State.cleanInBacking_congr hw hc, hclean]
  refine ⟨.ueMet .., ?_, ?_⟩
  all_goals
    unfold State.ueMet
    dsimp only
    rw [hmasked _ rfl rfl, if_pos rfl]
  · rfl
  · exact List.filter_subset_self _

/-- The errors that a sound range holds are corrected, or masked by a clean backing block. -/
theorem meet {s : State} {a n : Nat} (rd : Bool) (cls : Nat) (ctx : Option Nat) (hsound : s.ueLines a n = []) :
    ReadsSound s (s.meet a n rd cls ctx) := by
  have hlatent := (List.append_eq_nil_iff.mp hsound).2
  refine List.foldlRecOn (motive := ReadsSound s) _ _ (refl s) fun t h e he => ?_
  have herr := List.filterMap_eq_nil_iff.mp hlatent e he
  rw [State.viewLine_congr h.windows h.cache]
  cases hview : s.viewLine e.1
  case none => exact h
  case some v =>
    rw [hview] at herr
    dsimp only at herr ⊢
    by_cases hout : (!overlaps a n (64 * v) 64 || !rd && covers a n v) = true
    · rwa [if_pos hout]
    · rw [if_neg hout]
      cases hcorrects : e.2
      case true => exact h.trans (ceFound ..)
      case false =>
        have hclean : s.cleanInBacking (64 * v) = true := by
          by_contra hdirty
          simp_all
        rw [if_neg Bool.false_ne_true]
        exact h.trans (ueMet_masked _ _ _ (by rwa [State.cleanInBacking_congr h.windows h.cache]))

end ReadsSound

end Sys2Proof.Machine
end

/-! ### What sending the unit's own packets leaves (R27, R92, R136, R331, R337) -/

section
namespace Sys2Proof.Machine

/-- Packets were sent or recorded: arrivals may have joined the queue, and nothing else of the unit differs. -/
structure Sends (s t : State) : Prop where
  insts : t.coll.insts = s.coll.insts
  arrivals : s.coll.inq <+: t.coll.inq
  benches : t.benches = s.benches
  clk : t.clk = s.clk
  reg : ∀ o, CollReg o → t.reg o = s.reg o

theorem Quiet.sends {s t : State} (h : Quiet s t) : Sends s t :=
  ⟨by rw [h.coll], by rw [h.coll], h.benches, h.clk, h.reg⟩

namespace Sends

theorem refl (s : State) : Sends s s := (Quiet.refl s).sends

theorem trans {s t u : State} (h : Sends s t) (k : Sends t u) : Sends s u :=
  ⟨k.insts.trans h.insts, h.arrivals.trans k.arrivals, k.benches.trans h.benches, k.clk.trans h.clk,
    fun o ho => (k.reg o ho).trans (h.reg o ho)⟩

theorem ite {p : Prop} [Decidable p] {s t u : State} (ht : Sends s t) (hu : Sends s u) : Sends s (if p then t else u) := by
  split
  · exact ht
  · exact hu

theorem foldl {α : Type} {f : State → α → State} {l : List α} (hf : ∀ s, ∀ a ∈ l, Sends s (f s a)) (s : State) :
    Sends s (l.foldl f s) :=
  List.foldlRecOn (motive := Sends s) _ _ (refl s) fun _ h a ha => h.trans (hf _ a ha)

section
variable {s t : State} (h : Sends s t)
include h

theorem inst? (k : InstKey) : t.inst? k = s.inst? k := by rw [State.inst?, State.inst?, h.insts]
theorem bench (b : Nat) : t.bench b = s.bench b := by rw [State.bench, State.bench, h.benches]
theorem now : t.now = s.now := by rw [State.now, State.now, h.clk]
theorem regN {o : Nat} (ho : CollReg o) : t.regN o = s.regN o := congrArg BitVec.toNat (h.reg o ho)

end

/-! Records of a context's log. -/

theorem modPool (s : State) (f : Pool → Pool) : Sends s (s.modPool f) := ⟨rfl, by rfl, rfl, rfl, fun _ _ => rfl⟩

theorem modRpl (s : State) (c : Nat) (f : Rpl → Rpl) : Sends s (s.modRpl c f) :=
  ⟨rfl, by rfl, rfl, rfl, fun _ _ => rfl⟩

theorem setCache (s : State) (x : CacheWin) : Sends s (s.setCache x) := modPool ..

theorem cacheDemand (s : State) (blk : Nat) : Sends s (s.cacheDemand blk).2 := by
  unfold State.cacheDemand
  split
  · exact refl s
  extract_lets x missed dropped
  split
  · extract_lets hit used
    have hhit : Sends s hit := ite (refl s) (Quiet.bump (by decide) s).sends
    have hused : Sends s used := ite (hhit.trans (Quiet.bump (by decide) _).sends) hhit
    exact hused.trans (setCache ..)
  · have hmissed : Sends s missed := (Quiet.bump (by decide) s).sends
    have hdropped : Sends s dropped := ite (hmissed.trans (Quiet.bump (by decide) _).sends) hmissed
    split
    · exact refl s
    · exact hdropped.trans <| (setCache ..).trans (Quiet.demandMems ..).sends

theorem cacheAccess (s : State) (a n : Nat) : Sends s (s.cacheAccess a n).2 := by
  unfold State.cacheAccess
  split
  · exact foldl (fun t b _ => cacheDemand t b) s
  · exact foldl (fun t b _ => ite (refl t) (cacheDemand t b)) s

theorem doneMems (s : State) (ms : List Nat) : Sends s (s.doneMems ms) :=
  foldl (fun t m _ => (Quiet.modMem t m _).sends) s

theorem fillBlock (s : State) (c wn blk : Nat) (prefetch : Bool) : Sends s (s.fillBlock c wn blk prefetch) := by
  have hread : ∀ (t : State) (a : Nat), Sends t ((t.meet a 4096 true 0x0E (some c)).memBytes a 4096 false) :=
    fun t a => ((Quiet.meet t ..).trans (Quiet.memBytes ..)).sends
  have hwritten : ∀ (t : State) (home a : Nat), Sends t ((t.freshLines home 4096).memBytes a 4096 true) :=
    fun t _ _ => (modPool t _).trans (Quiet.memBytes ..).sends
  unfold State.fillBlock
  extract_lets w out evicted filled x b
  clear_value out
  have hevicted : Sends s evicted := by
    cases out
    · exact refl s
    · exact hread ..
  have hfilled : Sends s filled := hevicted.trans (hread ..)
  obtain ⟨blocks, dirty⟩ := cacheInsert w x.blocks b
  dsimp -zeta only
  extract_lets put writtenBack fresh
  have hput : Sends s put := hfilled.trans (setCache ..)
  have hwrittenBack : Sends s writtenBack := by
    cases out
    · exact hput
    · exact hput.trans (hwritten ..)
  have hfresh : Sends s fresh := hwrittenBack.trans (hwritten ..)
  have hunhide : Sends fresh fresh.unhide := modPool ..
  exact hfresh.trans <| hunhide.trans <| (doneMems ..).trans (Quiet.bumpBy (by decide) ..).sends

theorem cacheNow (s : State) (a n : Nat) : Sends s (s.cacheNow a n) := by
  unfold State.cacheNow
  have haccess := cacheAccess s a n
  generalize s.cacheAccess a n = x at haccess ⊢
  refine ite haccess (haccess.trans ?_)
  refine trans (foldl (fun t b _ => ?_) x.2) (cacheAccess ..)
  split
  · exact ite (fillBlock ..) (refl t)
  · exact refl t

theorem memWrite (s : State) (a : Nat) (bs : List Byte) : Sends s (s.memWrite a bs) := by
  refine trans (modPool s _) (ite (refl _) (foldl (fun t b _ => ?_) _))
  split
  · exact refl t
  · exact modPool ..

theorem memPut (s : State) (a : Nat) (bs : List Byte) : Sends s (s.memPut a bs) := by
  refine trans (Quiet.meet s a bs.length false 0x0E none).sends (ite (memWrite ..) ?_)
  exact (memWrite ..).trans (modPool ..)

theorem memStore (s : State) (a : Nat) (bs : List Byte) : Sends s (s.memStore a bs) :=
  (cacheNow ..).trans <| (memPut ..).trans (Quiet.memBytes ..).sends

theorem pushRec (s : State) (c rtype : Nat) (src : RecSrc) (aux : Nat) (body : List Byte) :
    Sends s (s.pushRec c rtype src aux body) := by
  have hflush : Sends s s.flushRecq :=
    trans (foldl (l := s.recq) (fun t r _ => (Quiet.memServe t r.2.1 r.2.2.length).sends.trans (memStore ..)) s)
      ⟨rfl, by rfl, rfl, rfl, fun _ _ => rfl⟩
  have hroom := ite (p := 4194304 < s.recqDepth + recSize body.length) hflush (refl s)
  exact hroom.trans ⟨rfl, by rfl, rfl, rfl, fun _ _ => rfl⟩

theorem recStop (s : State) (c reason : Nat) : Sends s (s.recStop c reason) :=
  ite ((pushRec ..).trans (modRpl ..)) (refl s)

theorem record (s : State) (c rtype : Nat) (src : RecSrc) (aux : Nat) (body : List Byte) :
    Sends s (s.record c rtype src aux body) :=
  ite (ite (recStop ..) (pushRec ..)) (refl s)

theorem ctxOut (s : State) (c : Nat) (src : RecSrc) (p : Packet) (out : Bool) : Sends s (s.ctxOut c src p out).2 := by
  unfold State.ctxOut
  extract_lets r n bs
  split
  · exact ite (record ..) (refl s)
  · split
    · exact (Quiet.memServe ..).sends.trans <| (memStore ..).trans (modRpl ..)
    · exact refl s
  · exact refl s

/-! Packets of the unit: none is on a VC that a bench takes. -/

end Sends

theorem pack_cons (lo v : Nat) (fs : List (Nat × Nat)) : pack ((lo, v) :: fs) = v * 2 ^ lo + pack fs := by
  have hsum : ∀ (gs : List (Nat × Nat)) (n : Nat), gs.foldl (fun a g => a + g.2 * 2 ^ g.1) n = n + pack gs := by
    intro gs
    induction gs with
    | nil => intro n; rfl
    | cons g gs ih =>
      intro n
      rw [pack, List.foldl_cons, List.foldl_cons, ih, ih]
      omega
  rw [pack, List.foldl_cons, hsum, Nat.zero_add]
theorem hVc_mkHdr (f : HdrFields) : hVc (mkHdr f) = f.vc % 8 := by
  have hb := fun (b : Bool) => (by cases b <;> simp [b2n] : b2n b ≤ 1)
  have := hb f.last; have := hb f.aok; have := hb f.mc; have := hb f.cnt; have := hb f.poison
  rw [hVc, mkHdr, fld, w32, BitVec.toNat_ofNat]
  iterate 8 rw [pack_cons]
  have : pack [] = 0 := rfl
  omega

@[simp] theorem hVc_mkPacket (f : HdrFields) (payload : List Byte) (count : W32) :
    hVc (mkPacket f payload count).h = f.vc % 8 := hVc_mkHdr _

@[simp] theorem hVc_poisonHdr (h : Hdr) : hVc (poisonHdr h) = hVc h := by
  have := h.w2.isLt
  simp only [hVc, poisonHdr, fld, setFld, BitVec.toNat_ofNat]
  omega

/-- No bench accepts VC0 to VC3 (R39). -/
theorem benchOfUnit_none_of_accepts {u vc : Nat} (hvc : vc < 4) (haccepts : unitAccepts u vc = true) : benchOfUnit u = none := by
  unfold unitAccepts at haccepts
  unfold benchOfUnit
  rw [if_neg]
  intro hbench
  rw [if_neg (by omega), if_neg (by omega), if_neg (by omega), if_pos hbench, decide_eq_true_eq] at haccepts
  omega

namespace Sends

variable {p : Packet}

/-- A packet on VC0 to VC3 reaches the collective unit or the control unit, or is dropped. -/
theorem deliver (hvc : hVc p.h < 4) (s : State) (u : Nat) (core : Option (Nat × Nat)) (g : Nat) (stored : Option Nat) :
    Sends s (s.deliver p u none core g stored).1 := by
  have hcounted : ∀ {o : Nat} (port : Nat → Nat), ¬ CollReg o → Sends s (s.bumpAt none port o) :=
    fun _ ho => (Quiet.bump ho s).sends
  unfold State.deliver
  extract_lets vc inb drop received collIn counted reach poolIn
  have hdrop : ∀ t, Sends s t → Sends s (drop t) := fun t ht =>
    ht.trans ((Quiet.readCopy t stored).trans (Quiet.takeCredit ..)).sends
  split
  · exact hdrop _ (hcounted _ (by decide))
  · exact hdrop _ (hcounted _ (by decide))
  · split
    · exact hdrop _ (hcounted _ (by decide))
    · rename_i haccepts
      have hreceived : Sends s received := ite (hcounted _ (by decide)) (refl s)
      rw [benchOfUnit_none_of_accepts hvc (by simpa using haccepts)]
      dsimp only
      split
      · exact ite (hdrop _ hreceived) (hreceived.trans (Quiet.modSw ..).sends)
      · split
        · exact hreceived.trans ⟨rfl, ⟨_, rfl⟩, rfl, rfl, fun _ _ => rfl⟩
        · exact hreceived.trans <| (Quiet.bump (by decide) received).sends.trans
            ⟨rfl, by rfl, rfl, rfl, fun _ _ => rfl⟩

theorem deliverCopy (hvc : hVc p.h < 4) (s : State) (w : Writer) (u id : Nat) : Sends s (s.deliverCopy w p u id).1 := by
  unfold State.deliverCopy
  extract_lets r
  have hread : Sends s _ := ((Quiet.free s).trans
    (Quiet.readLocal r.2 (pickObs r.1 [.clean, .dataCe, .dataUe (r.1.toNat / 4)]) id)).sends
  split <;> rename_i heq <;> rw [heq] at hread
  · exact hread
  · refine hread.trans (deliver ?_ ..)
    split
    · rwa [hVc_poisonHdr]
    · exact hvc

theorem tryInternal (hvc : hVc p.h < 4) {s : State} {w : Writer} {r : State × Option Nat} (h : s.tryInternal w p = some r) :
    Sends s r.1 := by
  unfold State.tryInternal at h
  extract_lets routed at h
  split at h
  · split at h
    · cases h
      exact deliver hvc ..
    · cases h
  · have hrouted : Sends s routed.2 := (Quiet.routePkt s _).sends
    split at h
    · cases h
      exact hrouted
    · obtain ⟨t, ht, rfl⟩ := Option.map_eq_some_iff.mp h
      have hstored : Sends s t := by
        unfold State.takeIn at ht
        extract_lets g at ht
        split at ht
        · cases ht
        · cases ht
          exact hrouted.trans (Quiet.store ..).sends
      extract_lets t'
      have hcounted : Sends s t' := hstored.trans (Quiet.countEv ..).sends
      split
      · exact hcounted.trans (deliverCopy hvc ..)
      · exact hcounted

/-- Each packet of one copy is routed, then stored or delivered. -/
theorem tryCopies {ps : List Packet} (hvc : ∀ p ∈ ps, hVc p.h < 4) {s t : State} {w : Writer}
    (h : s.tryCopies w ps = some t) : Sends s t := by
  unfold State.tryCopies at h
  extract_lets plan routed out g at h
  have hplan : Sends s plan.1 ∧ ∀ x ∈ plan.2, hVc x.1.h < 4 := by
    refine List.foldlRecOn 
      (motive := fun a : State × List (Packet × List Nat × Option Nat × Bool) =>
      Sends s a.1 ∧ ∀ x ∈ a.2, hVc x.1.h < 4) _ _ ⟨refl s, by simp⟩ ?_
    rintro ⟨u, xs⟩ ⟨hu, hxs⟩ p hp
    dsimp only at hu hxs ⊢
    have hadd : ∀ y : List Nat × Option Nat × Bool, ∀ x ∈ xs ++ [(p, y)], hVc x.1.h < 4 := by
      intro y x hx
      rcases List.mem_append.mp hx with hx | hx
      · exact hxs x hx
      · rw [List.mem_singleton.mp hx]
        exact hvc p hp
    split
    · exact ⟨hu, hadd _⟩
    · have hrouted := hu.trans (Quiet.routePkt u (routeReqOf p.h)).sends
      split
      · exact ⟨hrouted, hxs⟩
      · exact ⟨hrouted, hadd _⟩
  split at h
  · cases h
  · cases h
    refine hplan.1.trans (foldl (fun u x hx => ?_) _)
    extract_lets own stored
    have hstored : Sends u stored := ite (refl u) (Quiet.store ..).sends
    clear_value own
    cases own
    case none => exact hstored
    case some u' => exact ite (hstored.trans (deliver (hplan.2 x hx) ..)) (hstored.trans (deliverCopy (hplan.2 x hx) ..))

theorem writeOrHold {more : List Packet} (hvc : ∀ q ∈ p :: more, hVc q.h < 4) (s : State) (w : Writer) :
    Sends s (s.writeOrHold w p more).1 := by
  unfold State.writeOrHold
  extract_lets hold
  have hhold : Sends s (hold s) := (Quiet.modSw ..).sends
  split
  · exact hhold
  · split
    · rename_i hwrites
      unfold State.tryGroup at hwrites
      split at hwrites
      · exact tryInternal (hvc p List.mem_cons_self) hwrites
      · obtain ⟨t, ht, rfl⟩ := Option.map_eq_some_iff.mp hwrites
        exact tryCopies hvc ht
    · exact hhold

/-- A refused PARTIAL is answered with a STATUS, on VC3. -/
theorem answerRefusal (hvc : hVc p.h < 4) (s : State) (code : Option Nat) : Sends s (s.answerRefusal p code) := by
  unfold State.answerRefusal
  cases code
  case none => exact refl s
  case some c =>
    dsimp only
    split
    · rename_i a ha
      unfold State.refusalAnswer at ha
      split at ha
      · cases ha
        refine writeOrHold (fun q hq => ?_) s _
        rw [List.mem_singleton.mp hq, State.statusAnswer, hVc_mkPacket]
        exact (by decide : 3 % 8 < 4)
      · rw [if_neg (by omega)] at ha
        cases ha
    · exact refl s

theorem send (hvc : hVc p.h < 4) (s : State) (w : Writer) : Sends s (s.send w p) :=
  (writeOrHold (by simpa using hvc) ..).trans (answerRefusal hvc ..)

theorem sendCopies {ps : List Packet} (hvc : ∀ p ∈ ps, hVc p.h < 4) (s : State) (w : Writer) : Sends s (s.sendCopies w ps) := by
  unfold State.sendCopies
  split
  · exact refl s
  · exact send (hvc _ List.mem_cons_self) ..
  · exact writeOrHold hvc ..

/-- Packets of the unit are recorded for their context, then leave from one copy. -/
theorem collSendAll {ps : List Packet} (hvc : ∀ p ∈ ps, hVc p.h < 4) (s : State) (k : InstKey) (w : Writer) (src : RecSrc)
    (out : Bool) : Sends s (s.collSendAll k w src ps out) := by
  have hrecorded : Sends s (ps.foldl (fun (a : Bool × State) p => a.2.ctxOut (handleCtx k.handle) src p out) (true, s)).2 :=
    List.foldlRecOn (motive := fun a : Bool × State => Sends s a.2) _ _ (refl s) fun a ha p _ => ha.trans (ctxOut ..)
  exact ite (hrecorded.trans (sendCopies hvc ..)) hrecorded

theorem collSend (hvc : hVc p.h < 4) (s : State) (k : InstKey) (w : Writer) (src : RecSrc) (out : Bool) :
    Sends s (s.collSend k w src p out) :=
  collSendAll (by simpa using hvc) ..

/-! STATUS, RESULT, PARTIAL, PROGRESS and OFFSETS packets (R121, R136, R137, R152). -/

@[simp] theorem collHdr_vc (s : State) (k : InstKey) (dest : W32) (mc : Bool) (vc chunk : Nat) :
    (s.collHdr k dest mc vc chunk).vc = vc := rfl

theorem statusTo (s : State) (k : InstKey) (src : W32) (core : Option (Nat × Nat)) (chunk member : Nat) (dg aux : W32)
    (direct : Bool) : Sends s (s.statusTo k src core chunk member dg aux direct) := by
  unfold State.statusTo
  cases core
  case none => exact ite (send (by simp) ..) (collSend (by simp) ..)
  case some => exact ⟨rfl, by rfl, rfl, rfl, fun _ _ => rfl⟩

theorem statusAll (s : State) (i : Inst) (aux : W32) : Sends s (s.statusAll i aux) := collSend (by simp) ..

theorem resultPackets_vc (s : State) (i : Inst) (c : Nat) (elems : List Byte) : ∀ p ∈ s.resultPackets i c elems, hVc p.h < 4 := by
  unfold State.resultPackets
  extract_lets x vc n sub mk
  have hmk : ∀ dest mc, hVc (mk dest mc).h < 4 := by
    intro dest mc
    unfold mk vc
    split <;> simp
  split
  case h_4 =>
    intro p hp
    obtain ⟨m, _, rfl⟩ := List.mem_map.mp hp
    exact hmk ..
  all_goals
    intro p hp
    rw [List.mem_singleton.mp hp]
    exact hmk ..

theorem partialPacket_vc (s : State) (i : Inst) (c : Nat) (elems : List Byte) : hVc (s.partialPacket i c elems).h < 4 := by
  simp only [State.partialPacket, hVc_mkPacket, collHdr_vc]
  split <;> decide

end Sends
end Sys2Proof.Machine
end

/-! ### The records of the collective unit, operation by operation (R125-R148) -/

section
namespace Sys2Proof.Machine

/-! Finding a record, and changing it. -/

theorem find?_modFirst_of_disjoint {α : Type} {p q : α → Bool} {f : α → α} (l : List α)
    (hold : ∀ x, p x = true → q x = false) (hnew : ∀ x, p x = true → q (f x) = false) :
    (modFirst p f l).find? q = l.find? q := by
  induction l with
  | nil => rfl
  | cons x l ih =>
    rw [modFirst]
    split
    · rename_i hx
      rw [List.find?_cons_of_neg (by simp [hnew x hx]), List.find?_cons_of_neg (by simp [hold x hx])]
    · rw [List.find?_cons, List.find?_cons, ih]

theorem modFirst_of_find?_none {α : Type} {p : α → Bool} {f : α → α} {l : List α} (h : l.find? p = none) : modFirst p f l = l := by
  induction l with
  | nil => rfl
  | cons x l ih =>
    rw [List.find?_cons] at h
    split at h
    · cases h
    · rename_i hx
      rw [modFirst, hx, if_neg Bool.false_ne_true, ih h]

namespace State

variable {s t : State} {k k' : InstKey} {i : Inst}

theorem inst?_key (h : s.inst? k = some i) : i.key = k := by simpa using List.find?_some h

theorem inst?_congr (h : t.coll.insts = s.coll.insts) (k : InstKey) : t.inst? k = s.inst? k := by rw [inst?, inst?, h]

/-- A record changed under its key reads as changed. -/
theorem inst?_modInst_same (s : State) {k : InstKey} {f : Inst → Inst} (hf : ∀ i, (f i).key = i.key) :
    (s.modInst k f).inst? k = (s.inst? k).map f := by
  unfold inst?
  cases h : s.coll.insts.find? (fun i => decide (i.key = k)) with
  | none =>
    simp only [modInst, modColl, modFirst_of_find?_none h, h, Option.map_none]
  | some i =>
    have hkey : i.key = k := by simpa using List.find?_some h
    exact find?_modFirst h (by simpa [hf] using hkey)

theorem inst?_modInst {f : Inst → Inst} (h : s.inst? k = some i) (hf : (f i).key = i.key) :
    (s.modInst k f).inst? k = some (f i) :=
  find?_modFirst h (by simp [hf, inst?_key h])

/-- Changing one record leaves every other. -/
theorem inst?_modInst_ne (s : State) {k k' : InstKey} {f : Inst → Inst} (hf : ∀ i, (f i).key = i.key) (hk : k' ≠ k) :
    (s.modInst k f).inst? k' = s.inst? k' := by
  refine find?_modFirst_of_disjoint _ (fun i hi => ?_) (fun i hi => ?_)
  all_goals
    rw [decide_eq_true_eq] at hi
    simp [hf, hi, hk.symm]

theorem inst?_dropInst_same (s : State) (k : InstKey) : (s.dropInst k).inst? k = none := by
  simp [inst?, dropInst, modColl, List.find?_filter]

theorem inst?_dropInst_ne (s : State) (hk : k' ≠ k) : (s.dropInst k).inst? k' = s.inst? k' := by
  unfold inst? dropInst modColl
  rw [List.find?_filter]
  congr 1
  funext i
  by_cases h : i.key = k'
  · simp [h, hk]
  · simp [h]

end State

/-! Chunks. -/

namespace Inst

@[simp] theorem chunk_idx (i : Inst) (c : Nat) : (i.chunk c).idx = c := by
  unfold Inst.chunk
  cases h : i.chunks.find? (·.idx == c) with
  | none => rfl
  | some x => simpa using List.find?_some h

theorem chunk_setChunk (i : Inst) (x : Chunk) (c : Nat) : (i.setChunk x).chunk c = if c = x.idx then x else i.chunk c := by
  unfold Inst.chunk setChunk
  rw [List.find?_append, List.find?_filter]
  split
  case isTrue hc =>
    have hnone : i.chunks.find? (fun a => decide ((a.idx != x.idx) = true ∧ (a.idx == c) = true)) = none := by
      simp [hc]
    rw [hnone, Option.none_or, List.find?_cons_of_pos (by simp [hc]), Option.getD_some]
  case isFalse hc =>
    have hsame : (fun a : Chunk => decide ((a.idx != x.idx) = true ∧ (a.idx == c) = true)) = fun a => a.idx == c := by
      funext a
      by_cases ha : a.idx = c <;> simp [ha, hc]
    rw [hsame, List.find?_cons_of_neg (by simpa using fun h => hc h.symm), List.find?_nil, Option.or_none]

@[simp] theorem chunk_setChunk_same (i : Inst) (x : Chunk) : (i.setChunk x).chunk x.idx = x := by
  rw [chunk_setChunk, if_pos rfl]

theorem chunk_setChunk_ne (i : Inst) {x : Chunk} {c : Nat} (h : c ≠ x.idx) : (i.setChunk x).chunk c = i.chunk c := by
  rw [chunk_setChunk, if_neg h]

end Inst

@[simp] theorem Chunk.side_setSide (x : Chunk) (twin : Bool) (y : Side) : (x.setSide twin y).side twin = y := by
  cases twin <;> rfl

@[simp] theorem Chunk.setSide_idx (x : Chunk) (twin : Bool) (y : Side) : (x.setSide twin y).idx = x.idx := by
  cases twin <;> rfl

/-! Work on one record. -/

/-- The unit worked on record `k`: no other record differs, no chunk of `k` ceased to be finalised, arrivals may have joined
the queue, contributions may have left the benches' queues, and two of the unit's counts stand. -/
structure WorksOn (k : InstKey) (s t : State) : Prop where
  others : ∀ k', k' ≠ k → t.inst? k' = s.inst? k'
  mine : ∀ i, s.inst? k = some i → ∃ j, t.inst? k = some j ∧ i.finalised ⊆ j.finalised
  arrivals : s.coll.inq <+: t.coll.inq
  queues : ∀ b, (t.bench b).adderQ ⊆ (s.bench b).adderQ
  reg : ∀ o, o = Reg.incompleteEv ∨ o = Reg.twinTakeover → t.reg o = s.reg o

theorem Sends.worksOn {s t : State} (h : Sends s t) (k : InstKey) : WorksOn k s t :=
  ⟨fun _ _ => h.inst? _, fun i hi => ⟨i, by rw [h.inst?, hi], fun _ hc => hc⟩, h.arrivals,
    fun b => by rw [h.bench]; exact fun _ hy => hy, fun o ho => h.reg o (by rcases ho with rfl | rfl <;> decide)⟩

namespace WorksOn

variable {k : InstKey} {s t u : State}

theorem refl (k : InstKey) (s : State) : WorksOn k s s := (Sends.refl s).worksOn k

theorem trans (h : WorksOn k s t) (g : WorksOn k t u) : WorksOn k s u where
  others k' hk := (g.others k' hk).trans (h.others k' hk)
  mine i hi := by
    obtain ⟨j, hj, hij⟩ := h.mine i hi
    obtain ⟨l, hl, hjl⟩ := g.mine j hj
    exact ⟨l, hl, fun _ hc => hjl (hij hc)⟩
  arrivals := h.arrivals.trans g.arrivals
  queues b := fun _ hy => h.queues b (g.queues b hy)
  reg o ho := (g.reg o ho).trans (h.reg o ho)

theorem ite {p : Prop} [Decidable p] (ht : WorksOn k s t) (hu : WorksOn k s u) : WorksOn k s (if p then t else u) := by
  split
  · exact ht
  · exact hu

theorem foldl {α : Type} {f : State → α → State} {l : List α} (hf : ∀ s, ∀ a ∈ l, WorksOn k s (f s a)) (s : State) :
    WorksOn k s (l.foldl f s) :=
  List.foldlRecOn (motive := WorksOn k s) _ _ (refl k s) fun _ h a ha => h.trans (hf _ a ha)

theorem modInst (s : State) {f : Inst → Inst} (hf : ∀ i, (f i).key = i.key) (hfinal : ∀ i, i.finalised ⊆ (f i).finalised) :
    WorksOn k s (s.modInst k f) where
  others _ hk := s.inst?_modInst_ne hf hk
  mine i hi := ⟨f i, by rw [s.inst?_modInst_same hf, hi]; rfl, hfinal i⟩
  arrivals := by rfl
  queues _ := fun _ hy => hy
  reg _ _ := rfl

/-- A change of a record that keeps its key and what is finalised. -/
theorem modKept (s : State) {f : Inst → Inst} (hf : ∀ i, (f i).key = i.key) (hfinal : ∀ i, (f i).finalised = i.finalised) :
    WorksOn k s (s.modInst k f) :=
  modInst s hf fun i _ hc => by rwa [hfinal]

theorem bump {o : Nat} (ho : ¬ (o = Reg.incompleteEv ∨ o = Reg.twinTakeover)) (s : State) : WorksOn k s (s.bump o) where
  others _ _ := rfl
  mine i hi := ⟨i, hi, fun _ hc => hc⟩
  arrivals := by rfl
  queues _ := fun _ hy => hy
  reg _ hj := State.reg_setReg_ne _ _ fun e => ho (e ▸ hj)

end WorksOn

/-! What leaves an ingress queue. -/

theorem State.purgeQueue_eq (s : State) (k : InstKey) (b : Nat) (twin : Option Bool) :
    s.purgeQueue k b twin = { s with benches := (s.purgeQueue k b twin).benches } := by
  unfold State.purgeQueue
  extract_lets hit
  split <;> rfl

/-- A purged queue keeps the contributions that are not hit. -/
theorem State.purgeQueue_adderQ (s : State) (k : InstKey) (b : Nat) (twin : Option Bool) (a : Nat) :
    ((s.purgeQueue k b twin).bench a).adderQ = if a = b then (s.bench b).adderQ.filter (fun c =>
      !(decide (c.key = k) && (match twin with | some u => c.twin == u | none => true))) else (s.bench a).adderQ := by
  unfold State.purgeQueue
  extract_lets hit
  split
  · rw [State.bench_modBench]
    split <;> rfl
  · rename_i hnone
    split
    · subst_vars
      rw [List.filter_eq_self.mpr fun c hc => ?_]
      have hmiss : ¬ hit c = true := fun hc' => hnone (List.any_eq_true.mpr ⟨c, hc, hc'⟩)
      rw [Bool.not_eq_true] at hmiss
      exact congrArg not hmiss
    · rfl

theorem WorksOn.purgeQueue {k : InstKey} (s : State) (b : Nat) (twin : Option Bool) : WorksOn k s (s.purgeQueue k b twin) := by
  have heq := s.purgeQueue_eq k b twin
  refine ⟨fun _ _ => by rw [heq]; rfl, fun i hi => ⟨i, by rw [heq]; exact hi, fun _ hc => hc⟩, by rw [heq], fun a => ?_,
    fun _ _ => by rw [heq]; rfl⟩
  rw [State.purgeQueue_adderQ]
  split
  · subst_vars
    exact List.filter_subset_self _
  · exact fun _ hy => hy

theorem mem_insertNat_of_mem {x y : Nat} {l : List Nat} (h : y ∈ l) : y ∈ insertNat x l := by
  induction l with
  | nil => cases h
  | cons z l ih =>
    rw [insertNat]
    split
    · exact List.mem_cons_of_mem _ h
    · split
      · exact h
      · exact (List.mem_cons.mp h).elim (fun e => e ▸ List.mem_cons_self) fun h => List.mem_cons_of_mem _ (ih h)

/-- Freeing what a record holds empties its chunks, and takes its contributions from its owners' queues. -/
theorem State.freeHeld_inst? {s : State} {k : InstKey} {i : Inst} (h : s.inst? k = some i) :
    (s.freeHeld i).inst? k = some { i with chunks := [] } := by
  have hpurged := List.foldlRecOn (motive := fun t : State => t.coll = s.coll) i.owners
    (fun s b => s.purgeQueue i.key b none) rfl fun t ht b _ => by rw [State.purgeQueue_eq]; exact ht
  obtain rfl := State.inst?_key h
  exact State.inst?_modInst (by rw [State.inst?_congr (congrArg Coll.insts hpurged), h]) rfl

theorem WorksOn.freeHeld (s : State) (i : Inst) : WorksOn i.key s (s.freeHeld i) :=
  (foldl (fun t b _ => purgeQueue t b none) s).trans (modKept _ (fun _ => rfl) fun _ => rfl)

theorem WorksOn.tombstone {k : InstKey} (s : State) (st : InstState) (code : Nat) (blame : Option Nat) (ef : Bool) :
    WorksOn k s (s.tombstone k st code blame ef) :=
  modKept s (fun _ => rfl) fun _ => rfl

/-- A record that ended: a tombstone, its chunks gone (R125, R131). -/
def Inst.tomb (i : Inst) (st : InstState) (now code : Nat) (blame : Option Nat) (ef : Bool) : Inst :=
  { i with chunks := [], st := st, code := byte code, tombAt := now, blame := blame, entryFault := ef }

@[simp] theorem State.purgeQueue_now (s : State) (k : InstKey) (b : Nat) (twin : Option Bool) :
    (s.purgeQueue k b twin).now = s.now := by
  rw [State.purgeQueue_eq]
  rfl

theorem State.freeHeld_now (s : State) (i : Inst) : (s.freeHeld i).now = s.now :=
  List.foldlRecOn (motive := fun t : State => t.now = s.now) i.owners (fun s b => s.purgeQueue i.key b none) rfl
    fun t ht _ _ => (t.purgeQueue_now ..).trans ht

/-- A record that ends with what it holds freed. -/
theorem State.tombstone_inst? {s : State} {k : InstKey} {i : Inst} (h : s.inst? k = some i) (st : InstState) (code : Nat)
    (blame : Option Nat) (ef : Bool) :
    ((s.freeHeld i).tombstone k st code blame ef).inst? k = some (i.tomb st s.now code blame ef) := by
  rw [← s.freeHeld_now i]
  exact State.inst?_modInst (State.freeHeld_inst? h) rfl

theorem State.countPoison_coll (s : State) (code : Nat) (ef : Bool) : (s.countPoison code ef).coll = s.coll := by
  unfold State.countPoison
  split <;> rfl

theorem State.countPoison_now (s : State) (code : Nat) (ef : Bool) : (s.countPoison code ef).now = s.now := by
  unfold State.countPoison
  split <;> rfl

theorem State.poison_inst? {s : State} {k : InstKey} {i : Inst} (h : s.inst? k = some i) (hlive : i.live = true)
    (code : Nat) (blame : Option Nat) (ef : Bool) :
    (s.poison k code blame ef).inst? k = some (i.tomb .poisoned s.now code blame ef) := by
  have hcounted : (s.countPoison code ef).inst? k = some i := by
    rw [State.inst?_congr (congrArg Coll.insts (s.countPoison_coll code ef)), h]
  unfold State.poison
  simp only [h, hlive, Bool.not_true, Bool.false_eq_true, if_false]
  rw [(Sends.statusAll ..).inst?, State.tombstone_inst? hcounted, State.countPoison_now]

/-- Poisoning for a fault of the unit's own counts in none of the poison counters. -/
theorem WorksOn.poison_internal {k : InstKey} (s : State) (blame : Option Nat) (ef : Bool) :
    WorksOn k s (s.poison k Code.internal blame ef) := by
  unfold State.poison
  split
  · exact refl k s
  · rename_i i hi
    refine ite (refl k s) ?_
    have hfree : WorksOn k s (s.freeHeld i) := State.inst?_key hi ▸ freeHeld s i
    exact hfree.trans <| (tombstone ..).trans ((Sends.statusAll ..).worksOn k)

/-- A status is sent once to a member under a code (R125). -/
theorem WorksOn.statusOnce (s : State) (k : InstKey) (src : W32) (core : Option (Nat × Nat)) (chunk member code : Nat)
    (dg aux : W32) (direct : Bool) : WorksOn k s (s.statusOnce k src core chunk member code dg aux direct) := by
  have hsent := fun (t : State) => (Sends.statusTo t k src core chunk member dg aux direct).worksOn k
  unfold State.statusOnce
  split
  · exact hsent s
  · refine ite (bump (by decide) s) (trans ?_ (hsent _))
    exact modKept s (fun _ => rfl) fun _ => rfl

/-- A status noted in a record leaves what it is and when it ended. -/
theorem State.statusOnce_inst? {s : State} {k : InstKey} {i : Inst} (h : s.inst? k = some i) (src : W32)
    (core : Option (Nat × Nat)) (chunk member code : Nat) (dg aux : W32) (direct : Bool) :
    ∃ sent, (s.statusOnce k src core chunk member code dg aux direct).inst? k = some { i with sent := sent } := by
  unfold State.statusOnce
  rw [h]
  dsimp only
  split
  · exact ⟨i.sent, h⟩
  · refine ⟨i.sent ++ [(member, byte code)], ?_⟩
    rw [(Sends.statusTo ..).inst?]
    exact State.inst?_modInst h rfl

/-! A chunk's result leaves, or its record ends. -/

namespace Inst

/-- What `State.dropChunk` makes of a record. -/
def withoutChunk (i : Inst) (c : Nat) : Inst :=
  let ch := i.chunk c
  let busy := i.twinClaim != 0 && (ch.twin.result.isNone || (i.primClaim != 0 && ch.main.result.isNone))
  if !i.written.contains c then i
  else if i.ent.varsize then
    let bare := fun (y : Side) => ({ result := y.result.map (fun r => ([], r.2)) } : Side)
    i.setChunk { ch with main := bare ch.main, twin := if busy then ch.twin else bare ch.twin }
  else if busy then i
  else { i with chunks := i.chunks.filter (·.idx != c) }

/-- Only the chunks of a record whose chunk ends differ. -/
theorem withoutChunk_eq (i : Inst) (c : Nat) : i.withoutChunk c = { i with chunks := (i.withoutChunk c).chunks } := by
  unfold withoutChunk
  extract_lets ch busy bare
  split
  · rfl
  · split
    · rfl
    · split <;> rfl

@[simp] theorem withoutChunk_key (i : Inst) (c : Nat) : (i.withoutChunk c).key = i.key := by rw [withoutChunk_eq]
@[simp] theorem withoutChunk_finalised (i : Inst) (c : Nat) : (i.withoutChunk c).finalised = i.finalised := by rw [withoutChunk_eq]
@[simp] theorem withoutChunk_written (i : Inst) (c : Nat) : (i.withoutChunk c).written = i.written := by rw [withoutChunk_eq]
@[simp] theorem withoutChunk_primClaim (i : Inst) (c : Nat) : (i.withoutChunk c).primClaim = i.primClaim := by
  rw [withoutChunk_eq]

/-- A chunk that is not written keeps its record. -/
theorem chunk_withoutChunk {i : Inst} {c : Nat} (hc : i.written.contains c = false) (d : Nat) :
    (i.withoutChunk d).chunk c = i.chunk c := by
  unfold withoutChunk
  extract_lets ch busy bare
  split
  · rfl
  · rename_i hd
    have hne : c ≠ d := fun e => hd (by rw [← e, hc]; rfl)
    split
    · exact chunk_setChunk_ne i (by simpa [ch] using hne)
    · split
      · rfl
      · unfold Inst.chunk
        rw [List.find?_filter]
        congr 2
        funext a
        by_cases ha : a.idx = c <;> simp [ha, hne]

end Inst

theorem State.dropChunk_inst? (s : State) (k : InstKey) (c : Nat) :
    (s.dropChunk k c).inst? k = (s.inst? k).map (·.withoutChunk c) :=
  s.inst?_modInst_same fun i => i.withoutChunk_key c

theorem WorksOn.dropChunk {k : InstKey} (s : State) (c : Nat) : WorksOn k s (s.dropChunk k c) :=
  modKept s (fun i => i.withoutChunk_key c) fun i => i.withoutChunk_finalised c

/-- The record with chunk `c` handed to the buffer. -/
def Inst.handChunk (i : Inst) (c : Nat) : Inst := i.setChunk { i.chunk c with sent := true }

theorem State.emitResult_sends (s : State) (i : Inst) (c : Nat) (twin : Bool) (elems : List Byte) :
    Sends (s.modInst i.key (·.handChunk c)) (s.emitResult i c twin elems) := by
  refine Sends.collSendAll (fun p hp => ?_) ..
  split at hp
  · rw [List.mem_singleton.mp hp]
    exact Sends.partialPacket_vc ..
  · exact Sends.resultPackets_vc _ _ _ _ p hp

theorem State.emitResult_inst? (s : State) (i : Inst) (c : Nat) (twin : Bool) (elems : List Byte) :
    (s.emitResult i c twin elems).inst? i.key = (s.inst? i.key).map (·.handChunk c) := by
  rw [(s.emitResult_sends i c twin elems).inst?]
  exact s.inst?_modInst_same fun _ => rfl

theorem WorksOn.emitResult (s : State) (i : Inst) (c : Nat) (twin : Bool) (elems : List Byte) :
    WorksOn i.key s (s.emitResult i c twin elems) :=
  .trans (modKept s (f := (·.handChunk c)) (fun _ => rfl) fun _ => rfl) ((s.emitResult_sends i c twin elems).worksOn _)

theorem WorksOn.progress {k : InstKey} (s : State) : WorksOn k s (s.progress k) := by
  unfold State.progress
  split
  · exact refl k s
  · extract_lets w n kk far last s'
    have hnoted : WorksOn k s s' := modKept s (fun _ => rfl) fun _ => rfl
    exact ite (refl k s) (ite (hnoted.trans ((Sends.collSend (by simp) ..).worksOn k)) (refl k s))

theorem WorksOn.sideDone {k : InstKey} (s : State) (c : Nat) (twin : Bool) (elems : List Byte) :
    WorksOn k s (s.sideDone k c twin elems) := by
  unfold State.sideDone
  split
  · exact refl k s
  · rename_i i hi
    refine ite ((bump (by decide) s).trans (poison_internal ..)) ?_
    extract_lets ch mine other y ch' s'
    have hheld : WorksOn k s s' :=
      .trans (modKept s (f := (·.setChunk ch')) (fun _ => rfl) fun _ => rfl) ((Quiet.countEv ..).sends.worksOn k)
    refine ite (hheld.trans (dropChunk ..)) (ite hheld (hheld.trans ?_))
    exact State.inst?_key hi ▸ emitResult s' i c twin elems

theorem countConv_quiet (s : State) (e : Encoded) : Quiet s (s.countConv e) :=
  (Quiet.bumpBy (by decide) s _).trans <| (Quiet.bumpBy (by decide) ..).trans (Quiet.bumpBy (by decide) ..)

/-- A chunk that is finalised counts as such, whatever becomes of its result (R135). -/
theorem State.finalise_finalised {s : State} {k : InstKey} {i : Inst} (h : s.inst? k = some i) (c : Nat) (twin : Bool) :
    WorksOn k s (s.finalise k c twin) ∧ ∃ j, (s.finalise k c twin).inst? k = some j ∧ c ∈ j.finalised := by
  unfold State.finalise
  rw [h]
  dsimp -zeta only
  extract_lets e counted marked
  have hcounted := countConv_quiet s e
  have hnoted : WorksOn k s marked := (hcounted.sends.worksOn k).trans <|
    WorksOn.modInst _ (fun _ => rfl) fun _ _ hd => mem_insertNat_of_mem hd
  have hrest : WorksOn k marked ((marked.sideDone k c twin e.bytes).progress k) := (WorksOn.sideDone ..).trans (WorksOn.progress _)
  refine ⟨hnoted.trans hrest, ?_⟩
  have hmarked : marked.inst? k = some { i with finalised := insertNat c i.finalised } :=
    State.inst?_modInst (by rw [hcounted.inst?, h]) rfl
  obtain ⟨j, hj, hsub⟩ := hrest.mine _ hmarked
  exact ⟨j, hj, hsub (mem_insertNat c _)⟩

end Sys2Proof.Machine
end

/-! ### Adders, result writes, timeouts, tombstones and twin takeover (R131-R135, R147, R199) -/

section
namespace Sys2Proof.Machine

/-! A result write completes. -/

theorem State.writeLag_sends (s : State) (i : Inst) : Sends s (s.writeLag i) := by
  have hserved := fun (t : State) (a n : Nat) => (Quiet.memServe t a n).sends
  unfold State.writeLag
  extract_lets ts a
  split
  · exact .refl s
  · extract_lets t others prev lag put l met n sum
    have hput : Sends s put := (hserved ..).trans <| (Sends.memPut ..).trans (Quiet.memBytes ..).sends
    have hmet : Sends s met := hput.trans <| (hserved ..).trans <| (Quiet.meet ..).sends.trans (Quiet.memBytes ..).sends
    exact .ite hmet <| hmet.trans <| (Sends.memWrite ..).trans <| (Sends.memWrite ..).trans (Quiet.memBytes ..).sends

/-- A record that completes becomes a tombstone without chunks (R132). -/
theorem State.completeInst_inst? {s : State} {k : InstKey} {i : Inst} (h : s.inst? k = some i) :
    ∃ j, (s.completeInst k).inst? k = some j ∧ j.st = .complete ∧ j.written = i.written := by
  unfold State.completeInst
  rw [h]
  dsimp -zeta only
  extract_lets ended counted
  have hcounted : Quiet ended counted := .ite (.countEv ..) (.refl _)
  have hended : counted.inst? k = some (i.tomb .complete s.now 0 none false) := (hcounted.inst? k).trans (State.tombstone_inst? h ..)
  exact ⟨_, ((State.writeLag_sends ..).inst? k).trans hended, rfl, rfl⟩

/-- A chunk's write is done; the last one completes a record whose results come from no upper tier (R135). -/
theorem State.writeDone_inst? {s : State} {k : InstKey} {i : Inst} (h : s.inst? k = some i) (hrun : i.st = .running) (c : Nat) :
    ((s.writeDone k c).inst? k).map (fun j => (j.written, j.st)) = some (insertNat c i.written,
      if i.ent.upperEn = false ∧ i.chunks' ≤ (insertNat c i.written).length then .complete else .running) := by
  unfold State.writeDone
  extract_lets dropped
  have hdropped : dropped.inst? k = some (({ i with written := insertNat c i.written } : Inst).withoutChunk c) := by
    unfold dropped
    rw [State.dropChunk_inst?, State.inst?_modInst h rfl]
    rfl
  have heq := Inst.withoutChunk_eq { i with written := insertNat c i.written } c
  rw [hdropped]
  generalize ({ i with written := insertNat c i.written } : Inst).withoutChunk c = j at heq hdropped
  have hent : j.ent = i.ent := by rw [heq]; rfl
  have hchunks : j.chunks' = i.chunks' := by rw [heq]; rfl
  have hwritten : j.written = insertNat c i.written := by rw [heq]
  have hst : j.st = .running := by rw [heq, ← hrun]
  dsimp only
  rw [hent, hchunks, hwritten]
  by_cases hlast : i.ent.upperEn = false ∧ i.chunks' ≤ (insertNat c i.written).length
  · obtain ⟨l, hl, hcomplete, hkept⟩ := State.completeInst_inst? hdropped
    rw [if_pos (by simpa using hlast), if_pos hlast, hl, Option.map_some, hcomplete, hkept, hwritten]
  · rw [if_neg (by simpa using hlast), if_neg hlast, hdropped, Option.map_some, hwritten, hst]

theorem exec_resultWriteComplete_writes {s : State} {k : InstKey} {i : Inst} {c : Nat} (hpow : s.powered = true)
    (hrec : s.inst? k = some i) (hrun : i.st = .running) (hsent : (i.chunk c).sent = true)
    (hopen : i.written.contains c = false) (hheld : ∀ h ∈ s.sw.held, ∀ b, h.writer ≠ .result k c b) :
    exec (.resultWriteComplete k c) s = .next (s.writeDone k c) := by
  have hfree : s.writeHeld k c = false := by
    unfold State.writeHeld
    rw [List.any_eq_false]
    intro h hh
    have hw := hheld h hh
    split
    · rename_i j d b hwriter
      intro hcontra
      rw [Bool.and_eq_true, decide_eq_true_eq, beq_iff_eq] at hcontra
      exact hw b (by rw [hwriter, hcontra.1, hcontra.2])
    · exact Bool.false_ne_true
  have hnew : c ∉ i.written := by simpa using hopen
  simp [execResultWriteComplete, hpow, hrec, hrun, hsent, hnew, hfree]

/-! A record past its timeout is abandoned. -/

/-- A contribution of the record is in none of its owners' queues once what the record holds is freed. -/
theorem State.freeHeld_queues (s : State) (i : Inst) : ∀ b ∈ i.owners, ∀ y ∈ ((s.freeHeld i).bench b).adderQ, y.key ≠ i.key := by
  have hpurged : ∀ (l : List Nat) (u : State), ∀ b ∈ l,
      ∀ y ∈ ((l.foldl (fun s b => s.purgeQueue i.key b none) u).bench b).adderQ, y.key ≠ i.key := by
    intro l
    induction l with
    | nil => intro _ b hb; cases hb
    | cons a l ih =>
      intro u b hb y hy
      by_cases hbl : b ∈ l
      · exact ih _ b hbl y hy
      · obtain rfl : b = a := (List.mem_cons.mp hb).resolve_right hbl
        have hkept := (WorksOn.foldl (k := i.key) (l := l) (fun t a _ => .purgeQueue t a none) (u.purgeQueue i.key b none)).queues b hy
        rw [State.purgeQueue_adderQ, if_pos rfl, List.mem_filter] at hkept
        simpa using hkept.2
  exact hpurged i.owners s

theorem exec_instanceTimeout_abandons {s : State} {k : InstKey} {i : Inst} (hpow : s.powered = true)
    (hrec : s.inst? k = some i) (hlive : i.live = true) (hfence : s.fenceActive = false)
    (hdue : i.openedAt + i.timeoutNs ≤ s.now) :
    ∃ t, exec (.instanceTimeout k) s = .next t ∧
      ((t.inst? k).map (fun j => (j.st, j.code, j.tombAt)) = some (.abandoned, 0x08, s.now)) ∧
      (∀ b ∈ i.owners, ∀ y ∈ (t.bench b).adderQ, y.key ≠ k) ∧
      t.regN Reg.incompleteEv = min (s.regN Reg.incompleteEv + 1) 0xFFFFFFFF := by
  obtain rfl := State.inst?_key hrec
  let freed := (s.bump Reg.incompleteEv).freeHeld i
  let ended := freed.tombstone i.key .abandoned Code.incomplete (some i.missing) false
  let aux := statusAux Code.incomplete (some i.missing) false
  let told := (s.contributors i).foldl
    (fun s x => s.statusOnce i.key x.2.1 x.2.2 0 x.1 Code.incomplete i.digest aux) ended
  have hexec : exec (.instanceTimeout i.key) s = .next (told.statusAll i aux) := by
    simp [execInstanceTimeout, hpow, hrec, hlive, hfence, Nat.not_lt.mpr hdue, told, ended, freed, aux]
  have hended := State.tombstone_inst? (s := s.bump Reg.incompleteEv) hrec .abandoned Code.incomplete (some i.missing) false
  have htold : ∃ j, told.inst? i.key = some j ∧ (j.st, j.code, j.tombAt) = (.abandoned, 0x08, s.now) := by
    refine List.foldlRecOn
      (motive := fun t : State => ∃ j, t.inst? i.key = some j ∧ (j.st, j.code, j.tombAt) = (.abandoned, 0x08, s.now))
      _ _ ⟨_, hended, rfl⟩ ?_
    rintro t ⟨j, hj, heq⟩ x _
    obtain ⟨sent, hsent⟩ := State.statusOnce_inst? hj x.2.1 x.2.2 0 x.1 Code.incomplete i.digest aux false
    exact ⟨_, hsent, heq⟩
  have hworks : WorksOn i.key ended (told.statusAll i aux) :=
    (WorksOn.foldl (fun t x _ => .statusOnce ..) ended).trans ((Sends.statusAll ..).worksOn _)
  refine ⟨_, hexec, ?_, ?_, ?_⟩
  · obtain ⟨j, hj, heq⟩ := htold
    rw [(Sends.statusAll ..).inst?, hj, Option.map_some, heq]
  · exact fun b hb y hy => State.freeHeld_queues _ i b hb y (hworks.queues b hy)
  · have hfreed := (WorksOn.freeHeld (s.bump Reg.incompleteEv) i).trans <| (WorksOn.tombstone ..).trans hworks
    rw [State.regN, hfreed.reg _ (.inl rfl)]
    exact State.regN_bump s _

/-! An adder engine takes a contribution. -/

/-- A bench's engine worked on record `k`: no other record, no arrival, no packet that a port holds and no ingress queue
differs. -/
structure Engages (k : InstKey) (s t : State) : Prop where
  others : ∀ k', k' ≠ k → t.inst? k' = s.inst? k'
  arrivals : t.coll.inq = s.coll.inq
  held : t.sw.held = s.sw.held
  queues : ∀ b, (t.bench b).adderQ = (s.bench b).adderQ

namespace Engages

variable {k : InstKey} {s t u : State}

theorem trans (h : Engages k s t) (g : Engages k t u) : Engages k s u :=
  ⟨fun k' hk => (g.others k' hk).trans (h.others k' hk), g.arrivals.trans h.arrivals, g.held.trans h.held,
    fun b => (g.queues b).trans (h.queues b)⟩

theorem modInst (s : State) {f : Inst → Inst} (hf : ∀ i, (f i).key = i.key) : Engages k s (s.modInst k f) :=
  ⟨fun _ hk => s.inst?_modInst_ne hf hk, rfl, rfl, fun _ => rfl⟩

theorem modBench (s : State) (b : Nat) {f : Bench → Bench} (hf : ∀ x, (f x).adderQ = x.adderQ) : Engages k s (s.modBench b f) := by
  refine ⟨fun _ _ => rfl, rfl, rfl, fun a => ?_⟩
  rw [State.bench_modBench]
  split
  · subst_vars
    exact hf _
  · rfl

end Engages

theorem Quiet.engages {s t : State} (h : Quiet s t) (hheld : t.sw.held = s.sw.held) (k : InstKey) : Engages k s t :=
  ⟨fun _ _ => h.inst? _, by rw [h.coll], hheld, fun _ => by rw [h.bench]⟩

theorem State.memServe_sw (s : State) (a n : Nat) : (s.memServe a n).sw = s.sw :=
  List.foldlRecOn (motive := fun t : State => t.sw = s.sw) _ _ rfl fun _ h _ _ => h

theorem Engages.countEv {k : InstKey} (s : State) (blk code n : Nat) : Engages k s (s.countEv blk code n) :=
  (Quiet.countEv ..).engages (by rw [State.countEv_sw]) k

theorem Quiet.spillMoves (s : State) (i : Inst) (b : Nat) : Quiet s (s.spillMoves i b) := by
  unfold State.spillMoves
  split
  · exact refl s
  · exact (memServe ..).trans <| (free _).trans <| (free _).trans <| (countEv ..).trans <| (countEv ..).trans (countEv ..)

theorem State.spillMoves_sw (s : State) (i : Inst) (b : Nat) : (s.spillMoves i b).sw = s.sw := by
  unfold State.spillMoves
  split
  · rfl
  · exact (State.countEv_sw ..).trans <| (State.countEv_sw ..).trans <| (State.countEv_sw ..).trans (s.memServe_sw ..)

theorem Engages.spillMoves {k : InstKey} (s : State) (i : Inst) (b : Nat) : Engages k s (s.spillMoves i b) :=
  (Quiet.spillMoves ..).engages (congrArg Switch.held (s.spillMoves_sw ..)) k

/-- The record notes a take that the log holds (R331). -/
def Inst.recordedAt (i : Inst) (q : Contribution) : Inst :=
  if i.ent.twin then i.setChunk { i.chunk q.chunk with recorded := (i.chunk q.chunk).recorded ++ [q.sub] } else i

namespace Inst

theorem recordedAt_eq (i : Inst) (q : Contribution) : i.recordedAt q = { i with chunks := (i.recordedAt q).chunks } := by
  unfold recordedAt
  split <;> rfl

theorem recordedAt_side (i : Inst) (q : Contribution) :
    ((i.recordedAt q).chunk q.chunk).side q.twin = (i.chunk q.chunk).side q.twin := by
  unfold recordedAt
  split
  · rw [chunk_setChunk, if_pos (by simp)]
    rfl
  · rfl

/-- The record's side of the contribution's chunk, once it took the contribution (R135). -/
def taken (i : Inst) (q : Contribution) : Side := takeInto i.ent false q ((i.chunk q.chunk).side q.twin)

theorem sideComplete_congr {i j : Inst} (hentry : j.entry = i.entry) (htotal : j.total = i.total) (c : Nat) (y : Side) :
    j.sideComplete c y = i.sideComplete c y := by
  unfold sideComplete Inst.ent
  rw [hentry, htotal]

end Inst

theorem State.markApplied_inst? {s : State} {k : InstKey} {i : Inst} (h : s.inst? k = some i) (twin : Bool) (m : Nat)
    (src : W32) (core : Option (Nat × Nat)) :
    ∃ j, (s.markApplied k twin m src core).inst? k = some j ∧ j.chunks = i.chunks ∧ j.entry = i.entry ∧ j.total = i.total := by
  refine ⟨_, State.inst?_modInst h ?_, ?_⟩
  all_goals (dsimp only; split)
  · rfl
  · rfl
  · exact ⟨rfl, rfl, rfl⟩
  · exact ⟨rfl, rfl, rfl⟩

theorem Engages.markApplied {k : InstKey} (s : State) (twin : Bool) (m : Nat) (src : W32) (core : Option (Nat × Nat)) :
    Engages k s (s.markApplied k twin m src core) :=
  .modInst s fun i => by dsimp only; split <;> rfl

/-- The engine adds the contribution to its side of the chunk, and with the last finalises the chunk (R135, R199). -/
theorem State.adderApply_takes {s : State} {i j : Inst} (h : s.inst? i.key = some j) (hentry : j.entry = i.entry)
    (htotal : j.total = i.total) (b : Nat) (q : Contribution) (hside : (j.chunk q.chunk).side q.twin = (i.chunk q.chunk).side q.twin) :
    ∃ t l, Engages i.key s t ∧ t.inst? i.key = some l ∧ (l.chunk q.chunk).side q.twin = i.taken q ∧
      s.adderApply i b q = if i.sideComplete q.chunk (i.taken q) then t.finalise i.key q.chunk q.twin else t := by
  have hent : j.ent = i.ent := congrArg entryOf hentry
  unfold State.adderApply
  extract_lets added marked moved worked
  have hadded : added.inst? i.key = some (j.setChunk ((j.chunk q.chunk).setSide q.twin (i.taken q))) := by
    rw [Inst.taken, ← hent, ← hside]
    exact State.inst?_modInst h rfl
  obtain ⟨l, hl, hchunks, hlentry, hltotal⟩ := State.markApplied_inst? hadded q.twin q.member q.src q.core
  change marked.inst? i.key = some l at hl
  have hquiet : Quiet marked moved := (Quiet.countEv ..).trans <| (Quiet.countEv ..).trans (Quiet.spillMoves ..)
  have hworked : worked.inst? i.key = some l := (hquiet.inst? _).trans hl
  have htaken : (l.chunk q.chunk).side q.twin = i.taken q := by
    unfold Inst.chunk
    rw [hchunks]
    have hset := (j.chunk_setChunk_same ((j.chunk q.chunk).setSide q.twin (i.taken q)))
    rw [Chunk.setSide_idx, Inst.chunk_idx] at hset
    exact (congrArg (Chunk.side · q.twin) hset).trans (Chunk.side_setSide ..)
  have hadd : Engages i.key s added := Engages.modInst s fun _ => rfl
  have hmarked : Engages i.key s marked := hadd.trans (Engages.markApplied ..)
  have hmoved : Engages i.key marked moved := (Engages.countEv ..).trans <| (Engages.countEv ..).trans (Engages.spillMoves ..)
  have hidle : Engages i.key moved worked := Engages.modBench moved b fun _ => rfl
  refine ⟨worked, l, hmarked.trans (hmoved.trans hidle), hworked, htaken, ?_⟩
  rw [hworked]
  dsimp only
  rw [htaken, Inst.sideComplete_congr (hlentry.trans hentry) (hltotal.trans htotal)]

/-- The oldest contribution that is `q` left the bench's queue. -/
def State.adderDropped (s : State) (b : Nat) (q : Contribution) : State :=
  s.modBench b (fun x => { x with adderQ := dropFirst (fun y => decide (y = q)) x.adderQ, idleSince := s.now })

theorem State.record_eq_self {s : State} {c : Nat} (h : s.recording c = false) (rtype : Nat) (src : RecSrc) (aux : Nat)
    (body : List Byte) : s.record c rtype src aux body = s := by
  rw [State.record, if_neg (by simp [h])]

theorem State.adderTakeOne_takes {s : State} {i : Inst} {q : Contribution} (hrec : s.inst? q.key = some i) (hlive : i.live = true)
    (hlog : s.recording (handleCtx q.key.handle) = false) (hclean : ((i.chunk q.chunk).side q.twin).bad = []) (b : Nat) :
    ∃ t l, Engages q.key (s.adderDropped b q) t ∧ t.inst? q.key = some l ∧ (l.chunk q.chunk).side q.twin = i.taken q ∧
      s.adderTakeOne b q .clean false = if i.sideComplete q.chunk (i.taken q) then t.finalise q.key q.chunk q.twin else t := by
  have hkey := State.inst?_key hrec
  let dropped := s.adderDropped b q
  have hunlogged : dropped.recordTake q { bench := b, engine := true } = dropped :=
    State.record_eq_self (s := dropped) hlog _ _ _ _
  have hnoted : (dropped.noteRecorded q).inst? q.key = some (i.recordedAt q) :=
    State.inst?_modInst (f := (·.recordedAt q)) (i := i) hrec (by rw [Inst.recordedAt_eq])
  obtain ⟨t, l, hengages, hl, htaken, heq⟩ := State.adderApply_takes (j := i.recordedAt q) (by rw [hkey]; exact hnoted)
    (by rw [Inst.recordedAt_eq]) (by rw [Inst.recordedAt_eq]) b q (i.recordedAt_side q)
  rw [hkey] at hengages hl heq
  refine ⟨t, l, .trans ?_ hengages, hl, htaken, ?_⟩
  · exact Engages.modInst _ (f := (·.recordedAt q)) fun i => by rw [Inst.recordedAt_eq]
  · have hfound : dropped.inst? q.key = some i := hrec
    rw [← heq]
    unfold State.adderTakeOne
    extract_lets dropped' noted counted
    rw [show dropped' = dropped from rfl, hfound]
    dsimp -zeta only
    rw [if_neg (by simp [hlive])]
    extract_lets bad
    have hcounted : counted = dropped.noteRecorded q := by
      unfold counted noted
      rw [if_neg nofun, show dropped' = dropped from rfl, hunlogged, ite_self]
    have hbad : bad.isEmpty = true := by rw [show bad = [] from hclean]; rfl
    rw [if_pos hbad, hcounted]
    rfl

theorem dropFirst_append_cons {α : Type} {p : α → Bool} {pre : List α} (hpre : ∀ x ∈ pre, p x = false) {q : α} (hq : p q = true)
    (post : List α) : dropFirst p (pre ++ q :: post) = pre ++ post := by
  induction pre with
  | nil => simp [dropFirst, hq]
  | cons x pre ih =>
    obtain ⟨hx, hpre⟩ := List.forall_mem_cons.mp hpre
    simp [dropFirst, hx, ih hpre]

/-- A bench's engine takes its oldest contribution that belongs to no chunk program (R199, R260). -/
theorem State.adderNext_take {s : State} {b : Nat} {q : Contribution} {pre post : List Contribution} {i : Inst}
    (hreplay : ∀ x, s.ownerOf b = some x → s.replaying x = false) (hqueue : (s.bench b).adderQ = pre ++ q :: post)
    (hpre : ∀ p ∈ pre, ∃ j, s.inst? p.key = some j ∧ j.ent.program = true) (hrec : s.inst? q.key = some i)
    (hq : i.ent.program = false) : s.adderNext b = .take q := by
  have hfree : (s.ownerOf b).filter s.replaying = none := by
    cases h : s.ownerOf b with
    | none => rfl
    | some x => simp [Option.filter, hreplay x h]
  have hleft : pre.find? s.adderCan = none := by
    rw [List.find?_eq_none]
    intro p hp
    obtain ⟨j, hj, hprogram⟩ := hpre p hp
    simp [State.adderCan, hj, hprogram]
  have hcan : s.adderCan q = true := by simp [State.adderCan, hrec, hq]
  unfold State.adderNext
  rw [hfree, hqueue, List.find?_append, hleft, Option.none_or, List.find?_cons_of_pos hcan]

theorem exec_adderTake_takes {s : State} {i : Inst} {q : Contribution} {b : Fin 100} {pre post : List Contribution}
    (hpow : s.powered = true) (hrec : s.inst? q.key = some i) (hawake : (s.bench b).st = .awake) (hfence : s.fenceActive = false)
    (hreplay : ∀ x, s.ownerOf b = some x → s.replaying x = false) (hlog : s.recording (handleCtx q.key.handle) = false)
    (hqueue : (s.bench b).adderQ = pre ++ q :: post) (hpre : ∀ p ∈ pre, ∃ j, s.inst? p.key = some j ∧ j.ent.program = true)
    (hlive : i.live = true) (hprogram : i.ent.program = false) (hclean : ((i.chunk q.chunk).side q.twin).bad = []) :
    ∃ t, exec (.adderTake b .clean) s = .next t ∧ s.coll.inq <+: t.coll.inq ∧
      (∀ k', k' ≠ q.key → t.inst? k' = s.inst? k') ∧
      (i.sideComplete q.chunk (i.taken q) = false → (t.bench b).adderQ = pre ++ post ∧
        (t.inst? q.key).map (fun j => (j.chunk q.chunk).side q.twin) = some (i.taken q) ∧ t.sw.held = s.sw.held) ∧
      (i.sideComplete q.chunk (i.taken q) = true → (t.inst? q.key).map (fun j => j.finalised.contains q.chunk) = some true) := by
  have hroom : s.adderStalls q = false := by simp [State.adderStalls, State.recRoom, hlog]
  have hexec : exec (.adderTake b .clean) s = .next (s.adderTakeOne b q .clean false) := by
    simp [execAdderTake, hpow, hawake, hfence, State.adderNext_take hreplay hqueue hpre hrec hprogram, hroom]
  obtain ⟨t, l, hengages, hl, htaken, heq⟩ := State.adderTakeOne_takes hrec hlive hlog hclean b
  rw [hexec, heq]
  cases hcomplete : i.sideComplete q.chunk (i.taken q) with
  | false =>
    refine ⟨t, rfl, by rw [hengages.arrivals]; rfl, hengages.others, fun _ => ⟨?_, ?_, hengages.held⟩, nofun⟩
    · rw [hengages.queues, State.adderDropped, State.bench_modBench_same]
      dsimp only
      rw [hqueue]
      refine dropFirst_append_cons (fun p hp => ?_) (by simp) post
      obtain ⟨j, hj, hjprogram⟩ := hpre p hp
      refine decide_eq_false fun h => ?_
      rw [h, hrec] at hj
      cases hj
      rw [hprogram] at hjprogram
      cases hjprogram
    · rw [hl, Option.map_some, htaken]
  | true =>
    obtain ⟨hworks, j, hj, hfinal⟩ := State.finalise_finalised hl q.chunk q.twin
    refine ⟨_, rfl, ?_, fun k' hk => (hworks.others k' hk).trans (hengages.others k' hk), nofun, fun _ => ?_⟩
    · exact hengages.arrivals ▸ hworks.arrivals
    · rw [if_pos rfl, hj, Option.map_some, List.contains_iff_mem.mpr hfinal]

/-! A tombstone past its hold leaves. -/

theorem exec_tombHoldExpiry_drops {s : State} {k : InstKey} {i : Inst} (hpow : s.powered = true) (hrec : s.inst? k = some i)
    (hended : i.live = false) (hdue : i.tombAt + s.regN Reg.tombHold * 1000000 ≤ s.now) :
    exec (.tombHoldExpiry k) s = .next (s.dropInst k) := by
  have hdue' : i.tombAt + s.regN Reg.tombHold * ms ≤ s.now := hdue
  simp [execTombHoldExpiry, hpow, hrec, hended, hdue']

/-! A twin takes over. -/

/-- What a takeover keeps of a record while it hands on its chunks: the claim, what is written, and that chunk `c`, which is
not written, is sent. -/
structure Inst.HandsOn (c : Nat) (i j : Inst) : Prop where
  claim : j.primClaim = i.primClaim
  written : j.written = i.written
  sent : i.written.contains c = false → (i.chunk c).sent = true → (j.chunk c).sent = true

theorem Inst.HandsOn.refl (c : Nat) (i : Inst) : Inst.HandsOn c i i := ⟨rfl, rfl, fun _ h => h⟩

theorem Inst.HandsOn.trans {c : Nat} {i j l : Inst} (h : Inst.HandsOn c i j) (g : Inst.HandsOn c j l) : Inst.HandsOn c i l :=
  ⟨g.claim.trans h.claim, g.written.trans h.written, fun hc hs => g.sent (h.written ▸ hc) (h.sent hc hs)⟩

theorem Inst.HandsOn.withoutChunk (c : Nat) (i : Inst) (d : Nat) : Inst.HandsOn c i (i.withoutChunk d) :=
  ⟨i.withoutChunk_primClaim d, i.withoutChunk_written d, fun hc hs => by rw [Inst.chunk_withoutChunk hc, hs]⟩

theorem Inst.HandsOn.handChunk (c : Nat) (i : Inst) (d : Nat) : Inst.HandsOn c i (i.handChunk d) := by
  refine ⟨rfl, rfl, fun _ hs => ?_⟩
  rw [Inst.handChunk, Inst.chunk_setChunk]
  split
  · rfl
  · exact hs

theorem Inst.sent_handChunk (i : Inst) (c : Nat) : ((i.handChunk c).chunk c).sent = true := by
  rw [Inst.handChunk, Inst.chunk_setChunk, if_pos (by simp)]

/-- A takeover's treatment of one chunk of a record: sent if the twin holds its result, else ended (R147). -/
def State.takeOverChunk (k : InstKey) (i : Inst) (s : State) (ch : Chunk) : State :=
  match ch.sent, ch.twin.result with
  | false, some (bs, _) => s.emitResult i ch.idx true bs
  | _, _ => s.dropChunk k ch.idx

theorem State.takeOverChunk_inst? {k : InstKey} {i : Inst} (hk : i.key = k) {s : State} {j : Inst} (h : s.inst? k = some j)
    (ch : Chunk) (c : Nat) :
    ∃ l, (s.takeOverChunk k i ch).inst? k = some l ∧ Inst.HandsOn c j l := by
  subst hk
  unfold State.takeOverChunk
  split
  · exact ⟨_, by rw [State.emitResult_inst?, h]; rfl, .handChunk ..⟩
  · exact ⟨_, by rw [State.dropChunk_inst?, h]; rfl, .withoutChunk ..⟩

theorem WorksOn.takeOverChunk {k : InstKey} {i : Inst} (hk : i.key = k) (s : State) (ch : Chunk) :
    WorksOn k s (s.takeOverChunk k i ch) := by
  subst hk
  unfold State.takeOverChunk
  split
  · exact emitResult ..
  · exact dropChunk ..

theorem State.takeOverChunks_inst? {k : InstKey} {i : Inst} (hk : i.key = k) (chs : List Chunk) (c : Nat) :
    ∀ {s : State} {j : Inst}, s.inst? k = some j →
      ∃ l, (chs.foldl (State.takeOverChunk k i) s).inst? k = some l ∧ Inst.HandsOn c j l := by
  induction chs with
  | nil => exact fun h => ⟨_, h, .refl ..⟩
  | cons ch chs ih =>
    intro s j h
    obtain ⟨l, hl, hjl⟩ := State.takeOverChunk_inst? hk h ch c
    obtain ⟨m, hm, hlm⟩ := ih hl
    exact ⟨m, hm, hjl.trans hlm⟩

/-- A takeover withdraws the primary's claim and sends the chunks that the twin holds (R147). -/
theorem State.twinTakeover_sends {s : State} {k : InstKey} {i : Inst} (h : s.inst? k = some i) {c at_ : Nat} {bs : List Byte}
    (hresult : (i.chunk c).twin.result = some (bs, at_)) (hsent : (i.chunk c).sent = false) (hopen : i.written.contains c = false) :
    ((s.twinTakeover k).inst? k).map (fun j => (j.primClaim, (j.chunk c).sent)) = some (0, true) ∧
      (s.twinTakeover k).regN Reg.twinTakeover = min (s.regN Reg.twinTakeover + 1) 0xFFFFFFFF := by
  have hkey := State.inst?_key h
  let alone : Inst := { i with primClaim := 0 }
  let withdrawn := (s.bump Reg.twinTakeover).modInst k (fun i => { i with
    primClaim := 0, memberChunks := i.twinChunks, memberTime := i.twinTime, lastMember := i.twinLast })
  let purged := i.owners.foldl (fun s b => s.purgeQueue k b (some false)) withdrawn
  have heq : s.twinTakeover k = i.chunks.foldl (State.takeOverChunk k alone) purged := by
    unfold State.twinTakeover
    rw [h]
    rfl
  obtain ⟨x, hx⟩ : ∃ x, i.chunks.find? (·.idx == c) = some x := by
    cases hfind : i.chunks.find? (·.idx == c) with
    | some x => exact ⟨x, rfl⟩
    | none =>
      rw [Inst.chunk, hfind] at hresult
      cases hresult
  have hchunk : i.chunk c = x := by rw [Inst.chunk, hx]; rfl
  obtain ⟨hidx, pre, post, hchunks, -⟩ := List.find?_eq_some_iff_append.mp hx
  have hidx : x.idx = c := by simpa using hidx
  have hhands : ∀ t, State.takeOverChunk k alone t x = t.emitResult alone c true bs := by
    intro t
    rw [State.takeOverChunk, ← hchunk, hsent, hresult, hchunk, hidx]
  have hcoll : purged.coll = withdrawn.coll := List.foldlRecOn (motive := fun t : State => t.coll = withdrawn.coll) i.owners
    (fun s b => s.purgeQueue k b (some false)) rfl fun t ht b _ => by rw [State.purgeQueue_eq]; exact ht
  have hpurged : ∃ j, purged.inst? k = some j ∧ j.primClaim = 0 ∧ j.written = i.written :=
    ⟨_, (State.inst?_congr (congrArg Coll.insts hcoll) k).trans (State.inst?_modInst (i := i) h rfl), rfl, rfl⟩
  obtain ⟨j0, hj0, hclaim, hwritten⟩ := hpurged
  rw [heq]
  constructor
  · rw [hchunks, List.foldl_append, List.foldl_cons, hhands]
    obtain ⟨j1, hj1, hkept⟩ := State.takeOverChunks_inst? (i := alone) hkey pre c hj0
    have hemitted := State.emitResult_inst? (pre.foldl (State.takeOverChunk k alone) purged) alone c true bs
    rw [show alone.key = k from hkey, hj1, Option.map_some] at hemitted
    obtain ⟨j2, hj2, hlast⟩ := State.takeOverChunks_inst? (i := alone) hkey post c hemitted
    have hhanded := (Inst.HandsOn.handChunk c j1 c)
    have hunwritten : (j1.handChunk c).written.contains c = false := by
      rw [hhanded.written, hkept.written, hwritten, hopen]
    rw [hj2, Option.map_some, hlast.claim, hhanded.claim, hkept.claim, hclaim, hlast.sent hunwritten (j1.sent_handChunk c)]
  · have hworks : WorksOn k withdrawn (i.chunks.foldl (State.takeOverChunk k alone) purged) :=
      (WorksOn.foldl (fun t b _ => .purgeQueue ..) withdrawn).trans <| WorksOn.foldl (fun t ch _ => .takeOverChunk hkey t ch) purged
    rw [State.regN, hworks.reg _ (.inr rfl)]
    exact State.regN_bump s _

theorem exec_twinHoldExpiry_takes {s : State} {k : InstKey} {i : Inst} {c at_ : Nat} {bs : List Byte} (hpow : s.powered = true)
    (hrec : s.inst? k = some i) (hrun : i.st = .running) (hfence : s.fenceActive = false)
    (hresult : (i.chunk c).twin.result = some (bs, at_)) (hsent : (i.chunk c).sent = false) (hopen : i.written.contains c = false)
    (hprim : i.primClaim ≠ 0) (htwin : i.twinClaim ≠ 0) (hdue : at_ + 1500 ≤ s.now) :
    exec (.twinHoldExpiry k c) s = .next (s.twinTakeover k) := by
  have hdueAll : (decide (i.st = .running) && !s.fenceActive && !(i.chunk c).sent && !i.written.contains c && i.primClaim != 0 &&
      i.twinClaim != 0 && decide (at_ + 1500 ≤ s.now)) = true := by
    rw [bne_iff_ne.mpr hprim, bne_iff_ne.mpr htwin, hfence, hsent, hopen, decide_eq_true hrun, decide_eq_true hdue]
    rfl
  rw [exec_twinHoldExpiry, execTwinHoldExpiry, hpow, Bool.not_true, if_neg Bool.false_ne_true, hrec]
  dsimp only
  rw [hresult]
  exact if_pos hdueAll

/-- Settles O27: a rule per command, over what each of the unit's operations makes of a record. -/
theorem collectiveProgress : Obligations.CollectiveProgress := by
  unfold Obligations.CollectiveProgress
  intro s k i hpow hrec
  refine ⟨?_, ?_, ?_, ?_, ?_⟩
  · rintro b q pre post hawake hfence hreplay hlog hqueue hpre rfl hlive hprogram hclean
    exact exec_adderTake_takes hpow hrec hawake hfence hreplay hlog hqueue hpre hlive hprogram hclean
  · intro c hrun hsent hopen hheld
    exact ⟨_, exec_resultWriteComplete_writes hpow hrec hrun hsent hopen hheld, State.writeDone_inst? hrec hrun c⟩
  · intro hlive hfence hdue
    exact exec_instanceTimeout_abandons hpow hrec hlive hfence hdue
  · intro hended hdue
    exact ⟨_, exec_tombHoldExpiry_drops hpow hrec hended hdue, s.inst?_dropInst_same k, fun _ hk => s.inst?_dropInst_ne hk, rfl⟩
  · intro c bs at_ hrun hfence hresult hsent hopen hprim htwin hdue
    exact ⟨_, exec_twinHoldExpiry_takes hpow hrec hrun hfence hresult hsent hopen hprim htwin hdue,
      State.twinTakeover_sends hrec hresult hsent hopen⟩

end Sys2Proof.Machine
end

/-! ### Arrivals at the collective unit: the take, and the checks of R123 and R124 -/

section
namespace Sys2Proof.Machine

/-! What the arrivals that are left do while they wait. -/

/-- The unit's records, benches and registers stand, and arrivals at most returned their credits. -/
structure Settles (s t : State) : Prop where
  insts : t.coll.insts = s.coll.insts
  arrivals : t.coll.inq.map (fun j => { j with units := 0 }) = s.coll.inq.map (fun j => { j with units := 0 })
  benches : t.benches = s.benches
  reg : ∀ o, CollReg o → t.reg o = s.reg o

theorem Quiet.settles {s t : State} (h : Quiet s t) : Settles s t :=
  ⟨by rw [h.coll], by rw [h.coll], h.benches, h.reg⟩

namespace Settles

variable {s t u : State}

theorem refl (s : State) : Settles s s := (Quiet.refl s).settles

theorem trans (h : Settles s t) (g : Settles t u) : Settles s u :=
  ⟨g.insts.trans h.insts, g.arrivals.trans h.arrivals, g.benches.trans h.benches, fun o ho => (g.reg o ho).trans (h.reg o ho)⟩

theorem returnUnits (s : State) (i : Inbound) :
    Settles s (s.modColl (fun q => { q with inq := q.inq.map (fun j => if j = i then { j with units := 0 } else j) })) := by
  refine ⟨rfl, ?_, rfl, fun _ _ => rfl⟩
  simp only [State.modColl, List.map_map]
  refine List.map_congr_left fun j _ => ?_
  rw [Function.comp_apply]
  split <;> rfl

theorem collWait (s : State) (i : Inbound) : Settles s (s.collWait i) := by
  unfold State.collWait
  extract_lets m demanded
  have hdemanded : Settles s demanded := (Quiet.ite (.memDemand ..) (.refl s)).settles
  split
  · split
    · exact hdemanded.trans <| (returnUnits ..).trans (Quiet.takeCredit ..).settles
    · exact hdemanded
  · exact refl s

theorem settled (s : State) : Settles s (settled s) :=
  List.foldlRecOn (motive := Settles s) _ _ (refl s) fun _ h i _ => h.trans (collWait _ i)

theorem inst? (h : Settles s t) (k : InstKey) : t.inst? k = s.inst? k := by rw [State.inst?, State.inst?, h.insts]
theorem bench (h : Settles s t) (b : Nat) : t.bench b = s.bench b := by rw [State.bench, State.bench, h.benches]
theorem regN (h : Settles s t) {o : Nat} (ho : CollReg o) : t.regN o = s.regN o := congrArg BitVec.toNat (h.reg o ho)

theorem waits {rest : List Inbound} (h : Settles s t) (hs : s.coll.inq = rest) : Waits t rest := by
  rw [Waits, h.arrivals, hs]

theorem waitsFirst {rest : List Inbound} (h : Settles s t) (hs : rest <+: s.coll.inq) : WaitsFirst t rest := by
  rw [WaitsFirst, h.arrivals]
  exact hs.map _

theorem steered {v : State} {q : CollMsg} {i : Inst} (h : Settles s t) (hs : Steered v s q i) : Steered v t q i := by
  unfold Steered
  simp only [h.bench, h.inst?]
  exact hs

theorem opened {v : State} {q : CollMsg} {sp : Bool} {i : Inst} (h : Settles s t) (hs : Opened v s q sp i) : Opened v t q sp i := by
  unfold Opened
  simp only [h.inst?, h.regN (o := Reg.opens) (by decide)]
  exact hs

end Settles

/-! The take. -/

theorem noRoom_eq_false {s : State} {q : CollMsg} (h : RoomFor s q) : s.noRoom q = false := by
  unfold State.noRoom
  rw [List.any_eq_false]
  intro b hb
  have hfits : s.adderRoom b (msgUnits q) = true := decide_eq_true (h b hb).1
  rw [hfits]
  exact Bool.false_ne_true

theorem coresTurn_eq_false {s : State} {q : CollMsg} (h : RoomFor s q) : ∀ b ∈ s.targetBenches q, s.coresTurn b = false := by
  intro b hb
  have hwaits : s.coreWaits b = false := by
    unfold State.coreWaits
    rw [List.any_eq_false]
    intro k hk
    have hkind := (h b hb).2 k (List.mem_range.mp hk)
    cases hwait : (s.core (b * 8 + k)).wait with
    | none => simp
    | some w => simp [hkind w hwait]
  rw [State.coresTurn, hwaits, Bool.false_and]

/-- An arrival of the network that has room, and whose entry and record point do not hold it up, is not held up (R199). -/
theorem collBlocked_eq_false {s : State} {m : Inbound} (hcore : m.core = none) (hroom : RoomFor s (collMsgOf m))
    (hawake : s.entryAsleep (collMsgOf m) = false) (hstall : s.recordStalls (collMsgOf m) = false) : s.collBlocked m = false := by
  have hturn : (s.targetBenches (collMsgOf m)).any (fun b => s.coresTurn b) = false := by
    rw [List.any_eq_false]
    intro b hb
    rw [coresTurn_eq_false hroom b hb]
    exact Bool.false_ne_true
  simp [State.collBlocked, noRoom_eq_false hroom, hturn, hawake, hstall, hcore]

/-- The queue's first arrival is taken if nothing holds it up (R123). -/
theorem collTake_of_arrives {s : State} {row : Nat} {m : Inbound} {rest : List Inbound} (h : Arrives s row m rest) (hrow : row ≤ 5)
    (hvc : s.stypeOk (collMsgOf m) = true) (hfree : s.collBlocked m = false) (f : State → CollMsg → State) :
    collTake row f s = .next (settled (f (arrivalTaken s m rest) (collMsgOf m))) := by
  have hlong : ¬ m.pkt.payload.length < 24 := Nat.not_lt.mpr h.long
  have hown : s.collRow m = row := by
    simp [State.collRow, hlong, hvc, h.stype, hrow]
  have hfirst : s.collFirst row [] (m :: rest) = some m := by
    simp [State.collFirst, hown, hfree]
  have hrest : dropFirst (fun j => decide (j = m)) (m :: rest) = rest := by simp [dropFirst]
  unfold collTake State.collStep
  rw [h.powered, h.queue, hfirst]
  simp only [hlong, hvc, State.modColl, h.queue, hrest, Bool.not_true, Bool.false_eq_true, if_false, decide_false, Bool.or_false]
  rfl

/-! The checks of R124. -/

namespace Quiet

variable {s t : State} {q : CollMsg} (h : Quiet s t)
include h

theorem tableEntry_eq (k : BitVec 20) : tableEntry t k = tableEntry s k := by
  rw [tableEntry, tableEntry, h.readWords, h.entryAddr]

theorem memberTable (x : Entry) : t.memberTable x = s.memberTable x := by
  rw [State.memberTable, State.memberTable, h.readWords]

theorem upperMatch (q : CollMsg) : t.upperMatch q = s.upperMatch q := by rw [State.upperMatch, State.upperMatch, h.coll]

theorem fritUsed : t.fritUsed = s.fritUsed := by rw [State.fritUsed, State.fritUsed, h.coll]

theorem contextPasses (hs : ContextPasses s q) : ContextPasses t q := by
  constructor
  · rw [h.ctx]; exact hs.opened
  · rw [h.ctx]; exact hs.free
  · rw [h.oos]; exact hs.service
  · rw [h.collEn]; exact hs.enabled
  · rw [h.ctx]; exact hs.gen
  · rw [h.ctx]; exact hs.part
  · rw [h.recording, h.replaying]; exact hs.unlogged

theorem accepted {i : Inst} (hs : Accepted s q i) : Accepted t q i :=
  { hs with context := h.contextPasses hs.context, record := by rw [h.inst?, hs.record] }

theorem steered {v : State} {i : Inst} (hs : Steered t v q i) : Steered s v q i := by
  unfold Steered at hs
  simp only [h.bench] at hs
  exact hs

theorem opened {v : State} {sp : Bool} {i : Inst} (hs : Opened t v q sp i) : Opened s v q sp i := by
  unfold Opened State.regN at hs
  simp only [h.tableEntry_eq, h.memberTable, h.ownersOf, h.now, h.inst?, h.reg Reg.opens (by decide)] at hs
  exact hs

end Quiet

theorem ReadsSound.newRecord {s t : State} {q : CollMsg} {n : Nat} (h : ReadsSound s t) (hs : NewRecord s q n) : NewRecord t q n := by
  obtain ⟨hcontext, hnone, hreadable, hvalid, hinvalid, htable, hagrees, hrecords⟩ := hs
  constructor
  · exact h.contextPasses hcontext
  · rw [h.inst?, hnone]
  · rw [h.entryAddr]
    exact h.ueLines hreadable
  · rw [h.tableEntry_eq, hvalid]
  · rw [h.tableEntry_eq, h.ownersOf, hinvalid]
  · rw [h.tableEntry_eq, h.findWin]
    exact fun hen => ⟨(htable hen).1, h.ueLines (htable hen).2⟩
  · rwa [h.tableEntry_eq, h.memberTable]
  · rwa [h.coll]

theorem ReadsSound.newStep {s t : State} {q : CollMsg} {sp : Bool} (h : ReadsSound s t) (hs : NewStep s q sp) : NewStep t q sp := by
  constructor
  · rw [h.tableEntry_eq]
    exact h.newRecord hs.record
  · rw [h.tableEntry_eq, hs.fixed]
  · rw [h.tableEntry_eq, h.fritUsed, h.ownersOf, h.place]
    exact hs.room

end Sys2Proof.Machine
end

/-! ### The checks of R124, and what a new step opens -/

section
namespace Sys2Proof.Machine

/-! Orders 1 to 5. -/

theorem meetsUe_eq_false {s : State} {a n : Nat} (h : s.ueLines a n = []) : s.meetsUe a n false = false := by
  rw [State.meetsUe, (List.append_eq_nil_iff.mp h).1]
  rfl

theorem msgEntry_of_record {s : State} {q : CollMsg} {i : Inst} (h : s.inst? q.key = some i) : s.msgEntry q = i.entry := by
  rw [State.msgEntry, h]

theorem entryOf_msgEntry_of_none {s : State} {q : CollMsg} (h : s.inst? q.key = none)
    (hopen : (s.ctx (handleCtx q.key.handle)).st = .opened) : entryOf (s.msgEntry q) = tableEntry s q.key.handle := by
  rw [State.msgEntry, h]
  dsimp only
  rw [if_pos hopen]
  rfl

/-- Orders 1 to 5 pass for a message whose context passes and whose entry is valid and reads soundly. -/
theorem checkContext_eq_none {s : State} {q : CollMsg} (h : ContextPasses s q) (hvalid : (entryOf (s.msgEntry q)).valid = true)
    (hread : s.inst? q.key = none → s.meetsUe (s.entryAddr q.key.handle) 64 false = false ∧
      ((entryOf (s.msgEntry q)).mtabEn = true →
        s.meetsUe (entryOf (s.msgEntry q)).mtab (4 * (entryOf (s.msgEntry q)).members) false = false)) :
    s.checkContext q = none := by
  obtain ⟨hopened, hfenced, hservice, henabled, hgen, hpart, -, hreplay⟩ := h
  unfold State.checkContext
  extract_lets c x noRec ent a isOpen badEntry badTab
  have hentry : badEntry = false := by
    cases hrec : s.inst? q.key with
    | none => simp [badEntry, a, (hread hrec).1]
    | some i => simp [badEntry, noRec, hrec]
  have htab : badTab = false := by
    cases hrec : s.inst? q.key with
    | none =>
      cases hen : (entryOf (s.msgEntry q)).mtabEn with
      | false => simp [badTab, ent, hen]
      | true => simp [badTab, ent, (hread hrec).2 hen]
    | some i => simp [badTab, noRec, hrec]
  have hlive : s.liveReplay q = false := by simp [State.liveReplay, hreplay]
  have hgate : (x.fenced || s.fault.oos) = false := by simp [x, c, hfenced, hservice]
  have hperm : ((!ent.valid && !(s.inst? q.key).any Inst.unread) || (!q.logged && q.part ≠ x.part.toNat)) = false := by
    simp [ent, hvalid, x, c, hpart]
  have hclosed : (!s.collEn || !isOpen) = false := by simp [henabled, isOpen, x, c, hopened]
  rw [hentry, htab, hgate, hclosed, hlive, hperm]
  simp [x, c, hgen]

/-! Orders 6 to 9. -/

/-- The elements of a contribution that are whole are not wrong (R124 order 6). -/
theorem wholeElems_right {x : Entry} {q : CollMsg} (hst : q.stype = stContrib ∨ q.stype = stPartial) (hlive : q.logged = false)
    (h : WholeElems x q) :
    (if q.logged && q.payload.length = 24 then false
      else if q.stype = stPartial then (parsePartial (if x.frit then 2 else x.mode) x.etype q.ecount (q.payload.drop 24)).isNone
      else (isMx x.etype && q.ecount % 32 != 0) || q.payload.length - 24 != elemBytes x.etype q.ecount) = false := by
  rw [hlive, if_neg (by simp)]
  obtain ⟨hcontrib, hpartial⟩ := h
  rcases hst with hst | hst
  · obtain ⟨hmx, hlen⟩ := hcontrib hst
    rw [if_neg (by rw [hst]; decide), hlen, Nat.add_sub_cancel_left]
    cases hkind : isMx x.etype with
    | false => simp
    | true => simp [hmx hkind]
  · rw [if_pos hst, Option.isNone_eq_false_iff]
    exact hpartial hst

/-- A contribution of the form that a running record asks for passes order 6 (R144). -/
theorem lenBad_eq_false_of_record {s : State} {q : CollMsg} {i : Inst} (hst : q.stype = stContrib ∨ q.stype = stPartial)
    (hlive : q.logged = false) (hrec : s.inst? q.key = some i) (hrun : i.st = .running)
    (hform : ContribForm i.ent i.total (i.offsets.getD q.member 0) (sget 0 i.counts q.member)
      (sget 0 (i.chunk q.chunk).recv q.member) q) : s.lenBad q i.ent = false := by
  obtain ⟨hmember, hchunk, hwhole, hfixed, hpart⟩ := hform
  have hright := wholeElems_right hst hlive hwhole
  unfold State.lenBad
  rw [hrec]
  extract_lets total n body wrong first g
  have hwrong : wrong = false := hright
  cases hkind : i.ent.varsize with
  | false =>
    simp [hwrong, n, total, hfixed hkind, Nat.not_le.mpr hmember, Nat.not_le.mpr hchunk]
  | true =>
    obtain ⟨hfits, hmx, hlow, hhigh, hnew⟩ := hpart hkind
    have hnew : ¬ overlap (i.range q.member).1 (i.range q.member).2 (q.chunk * i.ent.e) n <
        sget 0 (i.chunk q.chunk).recv q.member + q.ecount := Nat.not_lt.mpr hnew
    have hblock : (isMx i.ent.etype && fld q.aux 0 16 % 32 != 0) = false := by
      cases hm : isMx i.ent.etype with
      | false => rfl
      | true => simp [hmx hm]
    have hfits : ¬ n < first + q.ecount := Nat.not_lt.mpr hfits
    have hin : (i.range q.member).1 ≤ g ∧ g + q.ecount ≤ (i.range q.member).1 + (i.range q.member).2 := ⟨hlow, hhigh⟩
    rw [if_pos rfl]
    dsimp only
    rw [if_pos hrun, hwrong, hblock]
    simp only [Nat.not_le.mpr hmember, show ¬ i.chunks' ≤ q.chunk from Nat.not_le.mpr hchunk, hfits, hnew,
      hin, decide_false, decide_true, Bool.or_false, Bool.not_true,
      and_self]

/-- A contribution of a new step passes order 6. -/
theorem lenBad_eq_false_of_none {s : State} {q : CollMsg} {x : Entry} (hst : q.stype = stContrib ∨ q.stype = stPartial)
    (hlive : q.logged = false) (hrec : s.inst? q.key = none) (hkind : x.varsize = false) {a b c : Nat}
    (hform : ContribForm x x.total a b c q) : s.lenBad q x = false := by
  obtain ⟨hmember, hchunk, hwhole, hfixed, -⟩ := hform
  have hright := wholeElems_right hst hlive hwhole
  unfold State.lenBad
  rw [hrec]
  extract_lets total n body wrong
  have hwrong : wrong = false := hright
  simp [hwrong, n, total, hkind, hfixed hkind, Nat.not_le.mpr hmember, Nat.not_le.mpr hchunk]

theorem formBad_eq_lenBad {s : State} {q : CollMsg} {x : Entry} (hst : q.stype = stContrib ∨ q.stype = stPartial) :
    s.formBad q x = s.lenBad q x := by
  unfold State.formBad
  rcases hst with hst | hst <;> rw [hst] <;> rfl

theorem formBad_open {s : State} {q : CollMsg} {x : Entry} (hst : q.stype = stOpen) (hmember : q.member < x.members)
    (hlen : q.payload.length = 24) : s.formBad q x = false := by
  simp [State.formBad, hst, Nat.not_le.mpr hmember, hlen]

theorem formBad_count {s : State} {q : CollMsg} {x : Entry} (hst : q.stype = stCount) (hmember : q.member < x.members)
    (hlen : q.payload.length = 24) (hcount : q.ecount = 0) (hchunk : q.chunk = 0)
    (hmx : isMx x.etype = true → q.aux.toNat % 32 = 0) : s.formBad q x = false := by
  have hblock : (isMx x.etype && q.aux.toNat % 32 != 0) = false := by
    cases hm : isMx x.etype with
    | false => rfl
    | true => simp [hmx hm]
  have hother : stCount ≠ stOpen := by decide
  simp [State.formBad, hst, hother, Nat.not_le.mpr hmember, hlen, hcount, hchunk, hblock]

/-- What agrees with an entry over its total fails neither order 8 nor order 9. -/
theorem contract_eq_false {x : Entry} {n : Nat} {members : List W32} {q : CollMsg} {old : Option Inst} (h : Agrees x n members q)
    (hcount : q.stype = stCount → x.varsize = true) (htotal : Inst.digestTotal old q x = some n) :
    ((q.stype = stCount && !x.varsize) || (Inst.digestTotal old q x).any (fun t => q.dg != digest x t q.key.step) ||
      (x.mtabEn && !q.logged && members.getD q.member 0 ≠ q.src)) = false := by
  obtain ⟨hdigest, hsource, -⟩ := h
  have hphase : (decide (q.stype = stCount) && !x.varsize) = false := by
    by_cases hst : q.stype = stCount
    · rw [hcount hst, Bool.not_true, Bool.and_false]
    · rw [decide_eq_false hst, Bool.false_and]
  have htable : (x.mtabEn && !q.logged && decide (members.getD q.member 0 ≠ q.src)) = false := by
    cases hen : x.mtabEn with
    | false => rfl
    | true => rw [decide_eq_false (not_not_intro (hsource hen)), Bool.and_false]
  rw [hphase, htotal, htable]
  simp [hdigest]

/-- Orders 6 to 9 pass for a message of a live record. -/
theorem checkEntry_eq_none_of_record {s : State} {q : CollMsg} {i : Inst} {n : Nat} (hrec : s.inst? q.key = some i) (hlive : i.live = true)
    (hform : s.formBad q i.ent = false) (hcount : q.stype = stCount → i.ent.varsize = true)
    (htotal : Inst.digestTotal (some i) q i.ent = some n) (hagrees : Agrees i.ent n i.members q) : s.checkEntry q = none := by
  have hcontract := contract_eq_false hagrees hcount htotal
  have hentry : entryOf i.entry = i.ent := rfl
  unfold State.checkEntry
  rw [hrec, msgEntry_of_record hrec, hentry]
  extract_lets c x old invalid tab keeps
  have hread : Inst.unread i = false := by simp [Inst.unread, hlive]
  have hkeeps : keeps i = false := by simp [keeps, hlive]
  simp only [old, invalid, tab, x, Option.any_some, Option.isNone_some, hread, hkeeps, hform, hcontract, hagrees.sound, Bool.false_and,
    Bool.and_false, Bool.or_false, Bool.false_eq_true, if_false]

/-- Orders 6 to 9 pass for a message of a step without a record. -/
theorem checkEntry_eq_none_of_new {s : State} {q : CollMsg} {n : Nat} (h : NewRecord s q n)
    (hform : s.formBad q (tableEntry s q.key.handle) = false) (hcount : q.stype = stCount → (tableEntry s q.key.handle).varsize = true)
    (htotal : Inst.digestTotal none q (tableEntry s q.key.handle) = some n) : s.checkEntry q = none := by
  have hcontract := contract_eq_false h.agrees hcount htotal
  have hwindow : ((tableEntry s q.key.handle).mtabEn && (s.findWin (handleCtx q.key.handle) (tableEntry s q.key.handle).mtab
      (4 * (tableEntry s q.key.handle).members)).isNone) = false := by
    cases hen : (tableEntry s q.key.handle).mtabEn with
    | false => rfl
    | true => rw [Option.isNone_eq_false_iff.mpr (h.table hen).1, Bool.and_false]
  unfold State.checkEntry
  rw [h.none, entryOf_msgEntry_of_none h.none h.context.opened]
  extract_lets c x old invalid tab keeps
  have hinvalid : invalid = false := by simp [invalid, x, c, h.invalid]
  simp only [old, hinvalid, tab, x, c, Option.any_none, Option.isNone_none, Bool.true_and, hform, hwindow, hcontract, h.agrees.sound,
    Bool.and_false, Bool.false_eq_true, if_false]

/-! What the buffer's checks find leaves the pool. -/

namespace State

variable (s : State)

theorem logFault_pool (f : FaultInfo) : (s.logFault f).pool = s.pool := by
  unfold State.logFault
  dsimp only
  split
  · rfl
  · rw [State.logEvent_eq]
    split <;> rfl

theorem trackFree_pool : s.trackFree.pool = s.pool := by
  unfold State.trackFree State.trackMin
  split <;> rfl

theorem uncharge_pool (x : Stored) : (s.uncharge x).pool = s.pool := by
  unfold State.uncharge
  split
  · rfl
  · split <;> rfl

theorem oweReset_pool (level cls index : Nat) : (s.oweReset level cls index).pool = s.pool := rfl

theorem quarantine_pool (n : Nat) : (s.quarantine n).pool = s.pool := by
  unfold State.quarantine
  split
  · rfl
  · extract_lets counted tracked
    have htracked : tracked.pool = s.pool := trackFree_pool counted
    split
    · rw [oweReset_pool, logFault_pool]
      exact htracked
    · exact htracked

theorem freeStored_pool (id : Nat) : (s.freeStored id).pool = s.pool := by
  unfold State.freeStored
  split
  · rfl
  · extract_lets uncharged returned
    have huncharged : uncharged.pool = s.pool := uncharge_pool ..
    refine (quarantine_pool ..).trans ?_
    unfold returned
    split
    · exact huncharged
    · exact huncharged

theorem deref_pool (id : Nat) : (s.deref id).pool = s.pool := by
  unfold State.deref
  split
  · rfl
  · dsimp only
    split
    · exact freeStored_pool ..
    · rfl

theorem losePacket_pool (x : Stored) : (s.losePacket x).pool = s.pool := by
  unfold State.losePacket
  extract_lets dropped uncharged returned
  have huncharged : uncharged.pool = s.pool := uncharge_pool ..
  refine (quarantine_pool ..).trans ?_
  unfold returned
  split
  · exact huncharged
  · exact huncharged

theorem refFault_pool (x : Stored) : (s.refFault x).pool = s.pool := (losePacket_pool ..).trans (logFault_pool ..)

/-- An own unit's read of its copy finds nothing, or an error of its reference count. -/
theorem readCopy_pool (stored : Option Nat) : (s.readCopy stored).pool = s.pool := by
  have hread : ∀ obs ∈ [BufObs.clean, .refCe, .refUe, .refZero], ∀ x, (s.free.2.readObs obs x []).1.pool = s.pool := by
    intro obs hobs x
    simp only [List.mem_cons, List.not_mem_nil, or_false] at hobs
    rcases hobs with rfl | rfl | rfl | rfl
    · rfl
    · rfl
    · exact refFault_pool ..
    · exact refFault_pool ..
  unfold State.readCopy
  split
  · rfl
  · rename_i x _
    dsimp only
    have hpick := hread (pickObs s.free.1 [.clean, .refCe, .refUe, .refZero]) (pickObs_mem _ (by decide)) x
    split <;> rename_i heq <;> rw [heq] at hpick
    · exact hpick
    · exact (deref_pool ..).trans hpick

end State

/-! Reading the entry. -/

theorem readEntry_of_record {s : State} {q : CollMsg} {i : Inst} (h : s.inst? q.key = some i) : s.readEntry q = s := by
  simp [State.readEntry, h]

/-- The entry and the member table of a new record read soundly. -/
theorem ReadsSound.readEntry {s : State} {q : CollMsg} {n : Nat} (h : NewRecord s q n) : ReadsSound s (s.readEntry q) := by
  unfold State.readEntry
  extract_lets c t x
  split
  · exact .refl s
  · have ht : ReadsSound s t := (memServe ..).trans <| (meet _ _ _ ((memServe s _ _).ueLines h.readable)).trans (memBytes ..)
    have hx : x = tableEntry s q.key.handle := by
      unfold x
      rw [entryOf_msgEntry_of_none (by rw [ht.inst?, h.none]) (by rw [ht.ctx]; exact h.context.opened), ht.tableEntry_eq]
    split
    · rename_i hen
      have hsound : s.ueLines x.mtab (4 * x.members) = [] := by
        rw [hx] at hen ⊢
        simp only [Bool.and_eq_true] at hen
        exact (h.table hen.1.2).2
      have hserved : ReadsSound s (t.memServe x.mtab (4 * x.members)) := ht.trans (memServe ..)
      exact hserved.trans <| (meet _ _ _ (hserved.ueLines hsound)).trans (memBytes ..)
    · exact ht

theorem ReadsSound.takeCredit (s : State) (lp : Option Nat) (vc g : Nat) : ReadsSound s (s.takeCredit lp vc g) := by
  obtain ⟨_, h⟩ := AcctOnly.takeCredit s lp vc g
  rw [h]
  exact ⟨⟨rfl, fun _ _ => rfl⟩, rfl, fun _ he => he⟩

/-- Taking an arrival changes nothing that the checks of R124 read, but the queue. -/
theorem arrivalTaken_sound (s : State) (m : Inbound) (rest : List Inbound) :
    ReadsSound { s with coll := { s.coll with inq := rest } } (arrivalTaken s m rest) := by
  refine ⟨Quiet.readCopy .., ?_, ?_⟩
  · exact congrArg Pool.poisoned (State.readCopy_pool ..)
  · have hlatent : (arrivalTaken s m rest).pool.latent = s.pool.latent := congrArg Pool.latent (State.readCopy_pool ..)
    rw [hlatent]
    exact fun _ he => he

end Sys2Proof.Machine
end

/-! ### A contribution enters its queues, and a step opens (R127, R128, R132, R146, R149) -/

section
namespace Sys2Proof.Machine

/-! Entering the queues. -/

/-- Contributions entered queues of record `k`: no other record, no arrival and no register of the unit differs, and chunk `c`
has seen the same members. -/
structure Enters (k : InstKey) (c : Nat) (s t : State) : Prop where
  others : ∀ k', k' ≠ k → t.inst? k' = s.inst? k'
  mine : ∀ i, s.inst? k = some i → ∃ j, t.inst? k = some j ∧ j = { i with chunks := j.chunks } ∧
    (j.chunk c).seen = (i.chunk c).seen ∧ (j.chunk c).recv = (i.chunk c).recv
  arrivals : t.coll.inq = s.coll.inq
  reg : ∀ o, CollReg o → t.reg o = s.reg o

namespace Enters

variable {k : InstKey} {c : Nat} {s t u : State}

theorem of_coll (hcoll : t.coll = s.coll) (hreg : ∀ o, CollReg o → t.reg o = s.reg o) : Enters k c s t :=
  ⟨fun _ _ => State.inst?_congr (congrArg Coll.insts hcoll) _,
    fun i hi => ⟨i, by rw [State.inst?_congr (congrArg Coll.insts hcoll), hi], rfl, rfl, rfl⟩, by rw [hcoll], hreg⟩

theorem refl (k : InstKey) (c : Nat) (s : State) : Enters k c s s := of_coll rfl fun _ _ => rfl

theorem trans (h : Enters k c s t) (g : Enters k c t u) : Enters k c s u where
  others k' hk := (g.others k' hk).trans (h.others k' hk)
  mine i hi := by
    obtain ⟨j, hj, hij, hseen, hrecv⟩ := h.mine i hi
    obtain ⟨l, hl, hjl, hseen', hrecv'⟩ := g.mine j hj
    refine ⟨l, hl, ?_, hseen'.trans hseen, hrecv'.trans hrecv⟩
    rw [hij] at hjl
    exact hjl
  arrivals := g.arrivals.trans h.arrivals
  reg o ho := (g.reg o ho).trans (h.reg o ho)

end Enters

theorem not_collReg_benchReg {base b : Nat} (h : 0x1040A0 ≤ base) : ¬ CollReg (base + b * 0x10000) := by
  rw [CollReg]; omega

theorem Enters.postItem {k : InstKey} {c : Nat} (s : State) (b : Nat) (w : WorkItem) : Enters k c s (s.postItem b w) :=
  of_coll rfl fun _ _ => rfl

theorem State.postItem_adderQ (s : State) (b : Nat) (w : WorkItem) (a : Nat) : ((s.postItem b w).bench a).adderQ = (s.bench a).adderQ := by
  unfold State.postItem State.feedItems
  rw [State.bench_modBench]
  split
  · subst_vars
    rw [State.bench_modBench_same]
  · rename_i hne
    rw [State.bench_modBench, if_neg hne]

theorem State.wakeBench_adderQ (s : State) (b a : Nat) : ((s.wakeBench b).bench a).adderQ = (s.bench a).adderQ := by
  have hkept : ∀ (t : State) (f : Bench → Bench), (∀ x, (f x).adderQ = x.adderQ) → t.benches = s.benches →
      ((t.modBench b f).bench a).adderQ = (s.bench a).adderQ := by
    intro t f hf ht
    have hbench : ∀ j, t.bench j = s.bench j := fun j => by rw [State.bench, State.bench, ht]
    rw [State.bench_modBench]
    split
    · subst_vars
      rw [hf, hbench]
    · rw [hbench]
  unfold State.wakeBench State.stirBench
  split
  · exact hkept _ _ (fun _ => rfl) rfl
  · exact hkept _ _ (fun _ => rfl) rfl

theorem Enters.wakeBench {k : InstKey} {c : Nat} (s : State) (b : Nat) : Enters k c s (s.wakeBench b) := by
  unfold State.wakeBench
  split
  · exact of_coll rfl (Quiet.bump (not_collReg_benchReg (base := 0x2000010) (by decide)) s).reg
  · exact of_coll rfl fun _ _ => rfl

theorem Enters.modBench {k : InstKey} {c : Nat} (s : State) (b : Nat) (f : Bench → Bench) : Enters k c s (s.modBench b f) :=
  of_coll rfl fun _ _ => rfl

theorem Quiet.enters {s t : State} (h : Quiet s t) (k : InstKey) (c : Nat) : Enters k c s t := .of_coll h.coll h.reg

/-- A chunk that posts its program's item keeps what it has seen. -/
theorem Enters.posts {s : State} {i : Inst} {k : InstKey} (h : s.inst? k = some i) (c : Nat) (twin : Bool) (y : Side) :
    Enters k c s (s.modInst k (fun i' => i'.setChunk ((i.chunk c).setSide twin y))) := by
  refine ⟨fun _ hk => s.inst?_modInst_ne (fun _ => rfl) hk, fun j hj => ?_, rfl, fun _ _ => rfl⟩
  obtain rfl : j = i := by rw [h] at hj; exact (Option.some.inj hj).symm
  have hchunk := j.chunk_setChunk_same ((j.chunk c).setSide twin y)
  rw [Chunk.setSide_idx, Inst.chunk_idx] at hchunk
  refine ⟨_, State.inst?_modInst h rfl, rfl, ?_, ?_⟩
  all_goals
    rw [hchunk]
    cases twin <;> rfl

theorem Quiet.trackAdderDepth (s : State) (b v : Nat) : Quiet s (s.trackMax (Reg.adderQdepthMax b) v) :=
  trackMax (not_collReg_benchReg (base := 0x200001C) (by decide)) s v

/-- The contribution stands in the queue of a bench that wakes for it. -/
def State.adderQueued (s : State) (b : Nat) (y : Contribution) : State :=
  let s := (s.wakeBench b).modBench b (fun x => { x with adderQ := x.adderQ ++ [y], coreTurn := y.core.isSome })
  s.trackMax (Reg.adderQdepthMax b) (s.adderDepth b)

theorem Enters.adderQueued {k : InstKey} {c : Nat} (s : State) (b : Nat) (y : Contribution) : Enters k c s (s.adderQueued b y) :=
  (Enters.wakeBench ..).trans <| (Enters.modBench ..).trans ((Quiet.trackAdderDepth ..).enters k c)

theorem State.adderQueued_adderQ (s : State) (b : Nat) (y : Contribution) (a : Nat) :
    ((s.adderQueued b y).bench a).adderQ = if a = b then (s.bench b).adderQ ++ [y] else (s.bench a).adderQ := by
  unfold State.adderQueued
  dsimp only
  rw [(Quiet.trackAdderDepth ..).bench, State.bench_modBench]
  split
  · rw [State.wakeBench_adderQ]
  · rw [State.wakeBench_adderQ]

/-- A chunk's first contribution posts its program's item. -/
theorem State.enterAdder_eq {s : State} {i j : Inst} {b : Nat} {y : Contribution} (h : (s.adderQueued b y).inst? i.key = some j) :
    ∃ item, s.enterAdder i b y = if i.ent.program && !((j.chunk y.chunk).side y.twin).posted then
      ((s.adderQueued b y).modInst i.key (fun i' => i'.setChunk ((j.chunk y.chunk).setSide y.twin
        { (j.chunk y.chunk).side y.twin with posted := true }))).postItem b item else s.adderQueued b y := by
  refine ⟨{
    entry := i.ent.progEntry, arg := chunkOperand y.chunk (chunkElems i.total i.ent.e y.chunk)
    chunk := some (i.key, y.chunk), twin := y.twin }, ?_⟩
  have hj : ((s.adderQueued b y).inst? i.key).getD i = j := by rw [h]; rfl
  rw [← hj]
  rfl

/-- The contribution is at the end of the bench's queue, and no other queue differs. -/
theorem State.enterAdder_adderQ {s : State} {i j : Inst} (h : s.inst? i.key = some j) (b : Nat) (y : Contribution) (a : Nat) :
    ((s.enterAdder i b y).bench a).adderQ = if a = b then (s.bench b).adderQ ++ [y] else (s.bench a).adderQ := by
  obtain ⟨l, hl, -⟩ := (Enters.adderQueued (c := y.chunk) s b y).mine j h
  obtain ⟨item, heq⟩ := State.enterAdder_eq hl
  rw [heq, ← State.adderQueued_adderQ]
  split
  · rw [State.postItem_adderQ, State.bench_modInst]
  · rfl

theorem Enters.enterAdder {s : State} {i j : Inst} (h : s.inst? i.key = some j) (b : Nat) (y : Contribution) :
    Enters i.key y.chunk s (s.enterAdder i b y) := by
  have hqueued : Enters i.key y.chunk s (s.adderQueued b y) := .adderQueued ..
  obtain ⟨l, hl, -⟩ := hqueued.mine j h
  obtain ⟨item, heq⟩ := State.enterAdder_eq hl
  rw [heq]
  split
  · exact hqueued.trans <| (Enters.posts hl ..).trans (Enters.postItem ..)
  · exact hqueued

/-! Steering. -/

/-- The record notes that the member's elements arrived in its chunk. -/
def Inst.sees (i : Inst) (y : Contribution) : Inst :=
  i.setChunk { i.chunk y.chunk with
    seen := (i.chunk y.chunk).seen ++ [y.member], recv := smod 0 (i.chunk y.chunk).recv y.member (· + y.ecount) }

theorem Inst.chunk_sees (i : Inst) (y : Contribution) : ((i.sees y).chunk y.chunk).seen = (i.chunk y.chunk).seen ++ [y.member] ∧
    ((i.sees y).chunk y.chunk).recv = smod 0 (i.chunk y.chunk).recv y.member (· + y.ecount) := by
  rw [sees, Inst.chunk_setChunk, if_pos (by simp)]
  exact ⟨rfl, rfl⟩

/-- What steering a contribution of record `i` makes of the queues, the record and all else. -/
structure SteersInto (s t : State) (i : Inst) (y : Contribution) : Prop where
  queues : ∀ a, (t.bench a).adderQ = (s.bench a).adderQ ++
    (if i.primClaim ≠ 0 ∧ a = i.bench y.chunk false then [y] else []) ++
    (if i.twinClaim ≠ 0 ∧ a = i.bench y.chunk true then [{ y with twin := true }] else [])
  record : Enters i.key y.chunk (s.modInst i.key (·.sees y)) t

theorem State.steer_steersInto {s : State} {i : Inst} (h : s.inst? i.key = some i) (y : Contribution) :
    SteersInto s (s.steer i y) i y := by
  let noted := s.modInst i.key (·.sees y)
  let first := if i.primClaim = 0 then noted else noted.enterAdder i (i.bench y.chunk false) y
  have hsteer : s.steer i y = if i.twinClaim = 0 then first else
      first.enterAdder i (i.bench y.chunk true) { y with twin := true } := rfl
  have hnoted : noted.inst? i.key = some (i.sees y) := State.inst?_modInst h rfl
  have hfirst : Enters i.key y.chunk noted first ∧ ∀ a, (first.bench a).adderQ = (s.bench a).adderQ ++
      (if i.primClaim ≠ 0 ∧ a = i.bench y.chunk false then [y] else []) := by
    by_cases hclaim : i.primClaim = 0
    · rw [show first = noted from if_pos hclaim]
      exact ⟨.refl .., fun a => by rw [if_neg (fun hc => hc.1 hclaim), List.append_nil]; rfl⟩
    · rw [show first = noted.enterAdder i (i.bench y.chunk false) y from if_neg hclaim]
      refine ⟨.enterAdder hnoted .., fun a => ?_⟩
      rw [State.enterAdder_adderQ hnoted]
      by_cases ha : a = i.bench y.chunk false
      · rw [if_pos ha, if_pos ⟨hclaim, ha⟩, ha]
        rfl
      · rw [if_neg ha, if_neg (fun hc => ha hc.2), List.append_nil]
        rfl
  obtain ⟨hrecord, hqueue⟩ := hfirst
  rw [hsteer]
  by_cases hclaim : i.twinClaim = 0
  · rw [if_pos hclaim]
    exact ⟨fun a => by rw [hqueue, if_neg (c := i.twinClaim ≠ 0 ∧ _) (fun hc => hc.1 hclaim), List.append_nil], hrecord⟩
  · rw [if_neg hclaim]
    obtain ⟨j, hj, -⟩ := hrecord.mine _ hnoted
    refine ⟨fun a => ?_, hrecord.trans (.enterAdder (y := { y with twin := true }) hj ..)⟩
    rw [State.enterAdder_adderQ hj]
    by_cases ha : a = i.bench y.chunk true
    · rw [if_pos ha, if_pos (c := i.twinClaim ≠ 0 ∧ _) ⟨hclaim, ha⟩, ← ha, hqueue]
    · rw [if_neg ha, if_neg (c := i.twinClaim ≠ 0 ∧ _) (fun hc => ha hc.2), List.append_nil, hqueue]

theorem SteersInto.steered {s t : State} {i : Inst} {q : CollMsg} (hrec : s.inst? q.key = some i)
    (h : SteersInto s t i (contribOf q i.ent)) : Steered s t q i := by
  have hkey := State.inst?_key hrec
  obtain ⟨j, hj, -, hseen, hrecv⟩ := h.record.mine _ (State.inst?_modInst (hkey.symm ▸ hrec) rfl)
  obtain ⟨hsees, hgets⟩ := i.chunk_sees (contribOf q i.ent)
  refine ⟨fun hprim hother => ?_, fun htwin hother => ?_, fun b hp hw => ?_, ?_⟩
  · rw [h.queues, if_pos ⟨hprim, rfl⟩, if_neg (fun hc => hother.elim hc.1 (fun hne => hne hc.2)), List.append_nil]
  · rw [h.queues, if_neg (fun hc => hother.elim hc.1 (fun hne => hne hc.2.symm)), if_pos ⟨htwin, rfl⟩, List.append_nil]
  · rw [h.queues, if_neg (fun hc => hp hc.2), if_neg (fun hc => hw hc.2), List.append_nil, List.append_nil]
  · rw [← hkey, hj, Option.map_some]
    have hseen : (j.chunk q.chunk).seen = (i.chunk q.chunk).seen ++ [q.member] := hseen.trans hsees
    have hrecv : (j.chunk q.chunk).recv = smod 0 (i.chunk q.chunk).recv q.member (· + q.ecount) := hrecv.trans hgets
    rw [hseen, hrecv, sget_smod, if_pos rfl]

end Sys2Proof.Machine
end

/-! ### What each arrival does: contributions and OPENs (R124, R127, R132, R145, R149) -/

section
namespace Sys2Proof.Machine

/-! Opening a record. -/

/-- The record that opening makes of `old`, or of nothing (R128, R132). -/
def State.openedInst (s : State) (k : InstKey) (ws members : List W32) (total : Nat) (old : Option Inst) (spilled : Bool) : Inst :=
  let base : Inst := old.getD { key := k, st := .running, openedAt := s.now, openFt := s.ftimeOr0 }
  { base with
    st := .running, spilled := spilled, frit := (entryOf ws).frit, entry := ws, members := members, total := total
    part := (s.ctx (handleCtx k.handle)).part, owners := s.ownersOf (handleCtx k.handle)
    twinClaim := if (entryOf ws).twin then 0x40 else 0 }

theorem State.inst?_append_same {s : State} {i : Inst} (h : s.inst? i.key = none) :
    (s.modColl (fun c => { c with insts := c.insts ++ [i] })).inst? i.key = some i := by
  have hnone : s.coll.insts.find? (fun j => decide (j.key = i.key)) = none := h
  simp [State.inst?, State.modColl, List.find?_append, hnone]

theorem State.inst?_append_ne (s : State) {i : Inst} {k : InstKey} (h : k ≠ i.key) :
    (s.modColl (fun c => { c with insts := c.insts ++ [i] })).inst? k = s.inst? k := by
  simp [State.inst?, State.modColl, List.find?_append, h.symm]

/-- Opening makes the record, leaves every other, and counts in OPENS. -/
theorem State.openInst_opens (s : State) (k : InstKey) (ws members : List W32) (total : Nat) (old : Option Inst) (spilled : Bool)
    (hold : ∀ i, old = some i → i.key = k) :
    (s.openInst k ws members total old spilled).inst? k = some (s.openedInst k ws members total old spilled) ∧
    (∀ k', k' ≠ k → (s.openInst k ws members total old spilled).inst? k' = s.inst? k') ∧
    (s.openInst k ws members total old spilled).regN Reg.opens = min (s.regN Reg.opens + 1) 0xFFFFFFFF ∧
    (s.openInst k ws members total old spilled).coll.inq = s.coll.inq ∧
    ∀ b, (s.openInst k ws members total old spilled).bench b = s.bench b := by
  have hkey : (s.openedInst k ws members total old spilled).key = k := by
    cases old with
    | none => rfl
    | some i => exact hold i rfl
  let made := (s.dropInst k).modColl (fun c => { c with insts := c.insts ++ [s.openedInst k ws members total old spilled] })
  let counted := (made.bump Reg.opens).countEv 241 0xC4 1
  have hopen : s.openInst k ws members total old spilled = if spilled then counted.bump Reg.spillOpens else counted := rfl
  have hcounted : Quiet (made.bump Reg.opens) counted := .countEv ..
  have hcoll : (s.openInst k ws members total old spilled).coll = made.coll := by
    rw [hopen]
    split
    · exact hcounted.coll
    · exact hcounted.coll
  refine ⟨?_, fun k' hk => ?_, ?_, ?_, fun b => ?_⟩
  · rw [State.inst?_congr (congrArg Coll.insts hcoll)]
    have hsame := State.inst?_append_same (s := s.dropInst k) (i := s.openedInst k ws members total old spilled)
      (by rw [hkey, State.inst?_dropInst_same])
    rwa [hkey] at hsame
  · rw [State.inst?_congr (congrArg Coll.insts hcoll), State.inst?_append_ne _ (by rwa [hkey]), State.inst?_dropInst_ne _ hk]
  · have hopens : counted.regN Reg.opens = min (s.regN Reg.opens + 1) 0xFFFFFFFF := by
      rw [State.regN, hcounted.reg _ (by decide)]
      exact State.regN_bump made _
    rw [hopen]
    split
    · rw [State.regN, State.bump, State.bumpBy, State.reg_setReg_ne _ _ (by decide)]
      exact hopens
    · exact hopens
  · rw [hcoll]
    rfl
  · rw [hopen]
    have hbench : counted.bench b = s.bench b := hcounted.bench b
    split
    · exact hbench
    · exact hbench

/-- The record that a new step opens. -/
def newInst (s : State) (q : CollMsg) (sp : Bool) : Inst :=
  s.openedInst q.key (s.readWords (s.entryAddr q.key.handle) 16) (s.memberTable (tableEntry s q.key.handle))
    (tableEntry s q.key.handle).total none sp

/-- The state with the record of a new step open. -/
def newOpen (s : State) (q : CollMsg) (sp : Bool) : State :=
  s.openInst q.key (s.readWords (s.entryAddr q.key.handle) 16) (s.memberTable (tableEntry s q.key.handle))
    (tableEntry s q.key.handle).total none sp

/-- A new step with room opens its record (R127, R128, R149). -/
theorem openFor_opens {s : State} {q : CollMsg} {sp : Bool} (h : NewStep s q sp) :
    s.openFor q = (some (newOpen s q sp), s) := by
  obtain ⟨hrecord, -, hroom⟩ := h
  have hwords : s.msgEntry q = s.readWords (s.entryAddr q.key.handle) 16 := by
    rw [State.msgEntry, hrecord.none]
    exact if_pos hrecord.context.opened
  have hfree : s.recordRoom = some s := if_pos hrecord.records
  have hent : entryOf (s.readWords (s.entryAddr q.key.handle) 16) = tableEntry s q.key.handle := rfl
  unfold State.openFor
  rw [hrecord.none, hwords, hfree]
  dsimp only
  rw [hent]
  split at hroom
  · rename_i hfrit
    obtain ⟨hslots, rfl⟩ := hroom
    rw [if_pos hfrit, if_neg (Nat.not_le.mpr hslots)]
    rfl
  · rename_i hfrit
    rw [if_neg hfrit, hroom]
    rfl

theorem newOpen_opened (s : State) (q : CollMsg) (sp : Bool) : Opened s (newOpen s q sp) q sp (newInst s q sp) := by
  obtain ⟨hrec, hothers, hopens, -, -⟩ := s.openInst_opens q.key (s.readWords (s.entryAddr q.key.handle) 16)
    (s.memberTable (tableEntry s q.key.handle)) (tableEntry s q.key.handle).total none sp nofun
  exact ⟨hrec, rfl, rfl, rfl, rfl, rfl, rfl, rfl, rfl, rfl, rfl, hothers, hopens⟩

/-! Passing the checks. -/

theorem digestTotal_of_running {i : Inst} {q : CollMsg} (hrun : i.st = .running) (hst : q.stype ≠ stCount) :
    Inst.digestTotal (some i) q i.ent = some (digestOver i) := by
  have hlive : i.live = true := by simp [Inst.live, hrun]
  have hst2 : i.st ≠ .counting := by rw [hrun]; nofun
  unfold Inst.digestTotal digestOver
  cases i.ent.varsize with
  | false => rfl
  | true => simp [hst, hst2, hlive]

theorem live_of_running {i : Inst} (h : i.st = .running) : i.live = true := by simp [Inst.live, h]

/-- What passes every check of R124 for a running record. -/
theorem checks_eq_none_of_running {s : State} {q : CollMsg} {i : Inst} (hcontext : ContextPasses s q) (hrec : s.inst? q.key = some i)
    (hrun : i.st = .running) (hvalid : i.ent.valid = true) (hst : q.stype ≠ stCount) (hform : s.formBad q i.ent = false)
    (hagrees : Agrees i.ent (digestOver i) i.members q) : s.checkContext q = none ∧ s.checkEntry q = none := by
  constructor
  · exact checkContext_eq_none hcontext (by rw [msgEntry_of_record hrec]; exact hvalid) (fun hnone => by rw [hrec] at hnone; cases hnone)
  · exact checkEntry_eq_none_of_record hrec (live_of_running hrun) hform (fun hc => absurd hc hst) (digestTotal_of_running hrun hst)
      hagrees

theorem checkContext_eq_none_of_new {s : State} {q : CollMsg} {n : Nat} (h : NewRecord s q n) : s.checkContext q = none := by
  have hent := entryOf_msgEntry_of_none h.none h.context.opened
  refine checkContext_eq_none h.context (by rw [hent, h.valid]) fun _ => ⟨meetsUe_eq_false h.readable, fun hen => ?_⟩
  rw [hent] at hen ⊢
  exact meetsUe_eq_false (h.table hen).2

theorem checks_eq_none_of_newStep {s : State} {q : CollMsg} {sp : Bool} (h : NewStep s q sp) (hst : q.stype ≠ stCount)
    (hform : s.formBad q (tableEntry s q.key.handle) = false) : s.checkContext q = none ∧ s.checkEntry q = none := by
  refine ⟨checkContext_eq_none_of_new h.record, checkEntry_eq_none_of_new h.record hform (fun hc => absurd hc hst) ?_⟩
  rw [Inst.digestTotal, h.fixed]
  rfl

/-! Contributions. -/

theorem overrun_eq_false {i : Inst} {c : Nat} (h : c < i.slots ∨ i.written.contains (c - i.slots) = true) : i.overrun c = false := by
  unfold Inst.overrun
  rcases h with h | h
  · rw [decide_eq_false (Nat.not_le.mpr h), Bool.false_and]
  · rw [h, Bool.not_true, Bool.and_false]

/-- What comes of an accepted contribution, once its credit returned. -/
theorem collContrib_of_accepted {s : State} {q : CollMsg} {i : Inst} (hst : q.stype = stContrib ∨ q.stype = stPartial)
    (hlive : q.logged = false) (h : Accepted s q i) (obs : AdderObs) :
    s.collContrib q obs = State.collContrib.apply q obs (s.collTaken q) i := by
  have hquiet : Quiet s (s.collTaken q) := .takeCredit ..
  have hfresh : (i.written.contains q.chunk || (!i.ent.varsize && (i.chunk q.chunk).seen.contains q.member)) = false := by
    rw [h.unwritten, Bool.false_or]
    cases hkind : i.ent.varsize with
    | false => rw [h.fresh hkind]; rfl
    | true => rfl
  obtain ⟨hcontext, hrec, hrun, hvalid, hform, hagrees, hslot, -, -⟩ := hquiet.accepted h
  have hother : q.stype ≠ stCount := by rcases hst with hst | hst <;> rw [hst] <;> decide
  obtain ⟨hfirst, hrest⟩ := checks_eq_none_of_running hcontext hrec hrun hvalid hother
    ((formBad_eq_lenBad hst).trans (lenBad_eq_false_of_record hst hlive hrec hrun hform)) hagrees
  unfold State.collContrib
  rw [readEntry_of_record h.record]
  dsimp only
  rw [hfirst, hrest, hrec]
  dsimp only
  rw [live_of_running hrun, hfresh, overrun_eq_false hslot]
  rfl

/-- What comes of a contribution whose chunk, or whose member in it, is done (R124 order 12). -/
theorem collContrib_of_done {s : State} {q : CollMsg} {i : Inst} (hst : q.stype ≠ stCount) (hcontext : ContextPasses s q)
    (hrec : s.inst? q.key = some i) (hrun : i.st = .running) (hvalid : i.ent.valid = true) (hfixed : i.ent.varsize = false)
    (hform : s.formBad q i.ent = false) (hagrees : Agrees i.ent (digestOver i) i.members q)
    (hdone : i.written.contains q.chunk = true ∨ (i.chunk q.chunk).seen.contains q.member = true) (obs : AdderObs) :
    s.collContrib q obs = (s.collTaken q).bump Reg.dupContrib := by
  have hquiet : Quiet s (s.collTaken q) := .takeCredit ..
  have hrec' : (s.collTaken q).inst? q.key = some i := by rw [hquiet.inst?, hrec]
  have hform' : (s.collTaken q).formBad q i.ent = false := by
    rw [← hform]
    unfold State.formBad State.lenBad
    rw [hrec, hrec']
  obtain ⟨hfirst, hrest⟩ := checks_eq_none_of_running (hquiet.contextPasses hcontext) hrec' hrun hvalid hst hform' hagrees
  have hdone : (i.written.contains q.chunk || (!i.ent.varsize && (i.chunk q.chunk).seen.contains q.member)) = true := by
    rw [hfixed]
    rcases hdone with h | h <;> simp only [h, Bool.true_or, Bool.or_true, Bool.not_false, Bool.true_and]
  unfold State.collContrib
  rw [readEntry_of_record hrec]
  dsimp only
  rw [hfirst, hrest, hrec']
  dsimp only
  rw [live_of_running hrun, hdone]
  rfl

/-- What comes of a new step's first contribution. -/
theorem collContrib_of_newStep {s : State} {q : CollMsg} {sp : Bool} (hst : q.stype = stContrib) (hlive : q.logged = false)
    (h : NewStep s q sp) {a b c : Nat}
    (hform : ContribForm (tableEntry s q.key.handle) (tableEntry s q.key.handle).total a b c q)
    (hslot : q.chunk < max 1 (min (tableEntry s q.key.handle).window
      (nchunks (tableEntry s q.key.handle).total (tableEntry s q.key.handle).e))) (obs : AdderObs) :
    ∃ u, ReadsSound s u ∧ s.collContrib q obs = State.collContrib.apply q obs (newOpen u q sp) (newInst u q sp) := by
  have hsound : ReadsSound s ((s.readEntry q).collTaken q) := (ReadsSound.readEntry h.record).trans (.takeCredit ..)
  refine ⟨_, hsound, ?_⟩
  unfold State.collContrib
  dsimp only
  generalize (s.readEntry q).collTaken q = u at hsound
  have hnew := hsound.newStep h
  rw [← hsound.tableEntry_eq] at hform hslot
  obtain ⟨hfirst, hrest⟩ := checks_eq_none_of_newStep hnew (by rw [hst]; decide)
    ((formBad_eq_lenBad (.inl hst)).trans (lenBad_eq_false_of_none (.inl hst) hlive hnew.record.none hnew.fixed hform))
  have hfits : (newInst u q sp).overrun q.chunk = false := overrun_eq_false (.inl hslot)
  rw [hfirst, hrest, hnew.record.none, openFor_opens hnew]
  dsimp only
  rw [(newOpen_opened ..).1]
  dsimp only
  rw [hfits, if_neg Bool.false_ne_true]

/-! The queues' rules (R120, R199). -/

/-- The arrivals of the unit without its first. -/
def State.dequeued (s : State) (rest : List Inbound) : State := { s with coll := { s.coll with inq := rest } }

section
variable {s : State} {q : CollMsg} {i : Inst} (rest : List Inbound)

theorem contextPasses_dequeued (h : ContextPasses s q) : ContextPasses (s.dequeued rest) q :=
  ⟨h.opened, h.free, h.service, h.enabled, h.gen, h.part, h.unlogged⟩

theorem accepted_dequeued (h : Accepted s q i) : Accepted (s.dequeued rest) q i :=
  { h with context := contextPasses_dequeued rest h.context }

theorem newRecord_dequeued {n : Nat} (h : NewRecord s q n) : NewRecord (s.dequeued rest) q n :=
  ⟨contextPasses_dequeued rest h.context, h.none, h.readable, h.valid, h.invalid, h.table, h.agrees, h.records⟩

theorem newStep_dequeued {sp : Bool} (h : NewStep s q sp) : NewStep (s.dequeued rest) q sp :=
  ⟨newRecord_dequeued rest h.record, h.fixed, h.room⟩

end

theorem stypeOk_of_vc2 {s : State} {q : CollMsg} (hst : q.stype = stContrib ∨ q.stype = stPartial ∨ q.stype = stOpen) (hvc : q.vc = 2) :
    s.stypeOk q = true := by
  unfold State.stypeOk
  rcases hst with hst | hst | hst <;> rw [hst, hvc] <;> simp [stContrib, stPartial, stOpen]

theorem fritHandle_of_record {s : State} {q : CollMsg} {i : Inst} (hst : q.stype ≠ stResult) (hrec : s.inst? q.key = some i)
    (hfrit : i.ent.frit = true) : (s.fritHandle q).getD true = true := by
  unfold State.fritHandle
  rw [if_neg hst, msgEntry_of_record hrec]
  dsimp only
  split
  · rfl
  · exact hfrit

theorem stypeOk_of_frit {s : State} {q : CollMsg} (hst : q.stype = stContrib ∨ q.stype = stPartial)
    (hfrit : (s.fritHandle q).getD true = true) (hvc : q.vc = 1 ∨ q.vc = 2) : s.stypeOk q = true := by
  unfold State.stypeOk
  rw [hfrit]
  rcases hst with hst | hst <;> rcases hvc with hvc | hvc <;> rw [hst, hvc] <;> simp [stContrib, stPartial]

theorem entryAsleep_of_record {s : State} {q : CollMsg} {i : Inst} (h : s.inst? q.key = some i) : s.entryAsleep q = false := by
  simp [State.entryAsleep, h]

theorem entryAsleep_of_awake {s : State} {q : CollMsg} (h : s.memAwake (s.entryAddr q.key.handle) 64 = true) : s.entryAsleep q = false := by
  rw [State.entryAsleep, h, Bool.not_true, Bool.and_false]

/-- A message of a context that does not record is held up by no record queue. -/
theorem recordStalls_of_unlogged {s : State} {q : CollMsg} (hst : q.stype < stResult) (h : s.recording (handleCtx q.key.handle) = false) :
    s.recordStalls q = false := by
  have hroom : s.recRoom (handleCtx q.key.handle) q.payload.length = true := by rw [State.recRoom, h]; rfl
  have hother : ¬ (q.stype = stResult ∨ q.stype = stStatus) := by
    simp only [stResult, stStatus] at hst ⊢
    omega
  unfold State.recordStalls
  rw [if_neg hother, hroom, Bool.not_true, Bool.and_false]

/-- Without owner benches there is no queue to wait for. -/
theorem roomFor_of_no_targets {s : State} {q : CollMsg} (h : s.targetBenches q = []) : RoomFor s q := by
  intro b hb
  rw [h] at hb
  cases hb

theorem targetBenches_of_stype {s : State} {q : CollMsg} (hcontrib : q.stype ≠ stContrib) (hpartial : q.stype ≠ stPartial) :
    s.targetBenches q = [] := by
  unfold State.targetBenches
  simp [hcontrib, hpartial]

theorem targetBenches_of_frit {s : State} {q : CollMsg} {i : Inst} (hrec : s.inst? q.key = some i) (hfrit : i.ent.frit = true) :
    s.targetBenches q = [] := by
  have hent : (entryOf i.entry).frit = true := hfrit
  unfold State.targetBenches
  rw [msgEntry_of_record hrec]
  simp [hent]

/-! The command. -/

/-- A contribution or a PARTIAL of a record that the queues have room for is taken. -/
theorem contribution_taken {s : State} {row : Nat} {m : Inbound} {rest : List Inbound} {i : Inst} (h : Arrives s row m rest)
    (hrow : row = stContrib ∨ row = stPartial) (hcontext : ContextPasses s (collMsgOf m)) (hrec : s.inst? (collMsgOf m).key = some i)
    (hvc : s.stypeOk (collMsgOf m) = true) (hroom : RoomFor s (collMsgOf m)) (f : State → CollMsg → State) :
    collTake row f s = .next (settled (f (arrivalTaken s m rest) (collMsgOf m))) := by
  have hlow : row < stResult := by rcases hrow with rfl | rfl <;> decide
  refine collTake_of_arrives h (by rcases hrow with rfl | rfl <;> decide) hvc ?_ f
  exact collBlocked_eq_false h.network hroom (entryAsleep_of_record hrec)
    (recordStalls_of_unlogged (by rw [h.stype]; exact hlow) hcontext.unlogged.1)

/-- An accepted contribution enters the queues of its chunk's benches (R127, R146). -/
theorem contribution_steered {s : State} {row : Nat} {m : Inbound} {rest : List Inbound} {i : Inst} (h : Arrives s row m rest)
    (hrow : row = stContrib ∨ row = stPartial) (haccepted : Accepted s (collMsgOf m) i) (hfrit : i.frit = false)
    (hvc : (collMsgOf m).vc = 2) (hroom : RoomFor s (collMsgOf m)) (obs : AdderObs) :
    ∃ t, collTake row (fun s m => s.collContrib m obs) s = .next t ∧ Waits t rest ∧ Steered s t (collMsgOf m) i := by
  have hst : (collMsgOf m).stype = stContrib ∨ (collMsgOf m).stype = stPartial := by rw [h.stype]; exact hrow
  rw [contribution_taken h hrow haccepted.context haccepted.record (stypeOk_of_vc2 (hst.imp_right .inl) hvc) hroom]
  have htaken : Quiet (s.dequeued rest) (arrivalTaken s m rest) := (arrivalTaken_sound s m rest).toQuiet
  have hreturned : Quiet (s.dequeued rest) ((arrivalTaken s m rest).collTaken (collMsgOf m)) := htaken.trans (.takeCredit ..)
  have happly := collContrib_of_accepted hst rfl (htaken.accepted (accepted_dequeued rest haccepted)) obs
  rw [State.collContrib.apply, hfrit] at happly
  have hrec := (hreturned.accepted (accepted_dequeued rest haccepted)).record
  have hsteers := State.steer_steersInto (by rw [State.inst?_key hrec]; exact hrec) (contribOf (collMsgOf m) i.ent)
  rw [← happly.trans (if_neg Bool.false_ne_true)] at hsteers
  refine ⟨_, rfl, (Settles.settled _).waits ?_, (Settles.settled _).steered ?_⟩
  · rw [hsteers.record.arrivals]
    exact congrArg Coll.inq hreturned.coll
  · exact hreturned.steered (hsteers.steered hrec)

end Sys2Proof.Machine
end

/-! ### What each arrival does: the frit path, done members, new steps and OPENs (R124, R132, R145, R149) -/

section
namespace Sys2Proof.Machine

/-! The frit path. -/

/-- The record once the frit path reduced a contribution (R149). -/
def Inst.reduces (i : Inst) (y : Contribution) : Inst :=
  i.setChunk { i.chunk y.chunk with
    seen := (i.chunk y.chunk).seen ++ [y.member], main := takeInto i.ent true y (i.chunk y.chunk).main }

/-- The frit path unit reduces a contribution at once, and with the last finalises the chunk. -/
theorem State.fritTake_takes {s : State} {i : Inst} {y : Contribution} (h : s.inst? i.key = some i)
    (hlog : s.recording (handleCtx y.key.handle) = false) :
    ∃ t l, Engages i.key s t ∧ t.inst? i.key = some l ∧ (l.chunk y.chunk).seen = (i.chunk y.chunk).seen ++ [y.member] ∧
      (l.chunk y.chunk).main = takeInto i.ent true y (i.chunk y.chunk).main ∧
      s.fritTake i y .clean false = if i.sideComplete y.chunk (takeInto i.ent true y (i.chunk y.chunk).main) then
        t.finalise i.key y.chunk false else t := by
  have hunlogged : (if false then s else s.recordTake y recColl) = s := State.record_eq_self hlog ..
  unfold State.fritTake
  rw [hunlogged]
  extract_lets unlogged reduced marked bad faulted
  have hreduced : reduced.inst? i.key = some (i.reduces y) := State.inst?_modInst (f := (·.reduces y)) h rfl
  obtain ⟨l, hl, hchunks, hentry, htotal⟩ := State.markApplied_inst? hreduced false y.member y.src y.core
  change marked.inst? i.key = some l at hl
  have hchunk : l.chunk y.chunk = (i.reduces y).chunk y.chunk := by rw [Inst.chunk, Inst.chunk, hchunks]
  have hset : (i.reduces y).chunk y.chunk = { i.chunk y.chunk with
      seen := (i.chunk y.chunk).seen ++ [y.member], main := takeInto i.ent true y (i.chunk y.chunk).main } := by
    rw [Inst.reduces, Inst.chunk_setChunk, if_pos (by simp)]
  have hadd : Engages i.key s reduced := Engages.modInst s fun _ => rfl
  have hmain : (l.chunk y.chunk).main = takeInto i.ent true y (i.chunk y.chunk).main := by rw [hchunk, hset]
  refine ⟨marked, l, hadd.trans (.markApplied ..), hl, by rw [hchunk, hset], hmain, ?_⟩
  rw [if_neg (show ¬ bad = true from Bool.false_ne_true), hl]
  dsimp only
  rw [hmain, Inst.sideComplete_congr (i := i) hentry htotal]

theorem contribution_reduced {s : State} {row : Nat} {m : Inbound} {rest : List Inbound} {i : Inst} (h : Arrives s row m rest)
    (hrow : row = stContrib ∨ row = stPartial) (haccepted : Accepted s (collMsgOf m) i) (hfrit : i.frit = true) (hent : i.ent.frit = true)
    (hvc : (collMsgOf m).vc = 1 ∨ (collMsgOf m).vc = 2) :
    ∃ t, collTake row (fun s m => s.collContrib m .clean) s = .next t ∧ WaitsFirst t rest ∧
      let q := collMsgOf m
      let y := takeInto i.ent true (contribOf q i.ent) (i.chunk q.chunk).main
      (i.sideComplete q.chunk y = false → (t.inst? q.key).map (fun j => ((j.chunk q.chunk).seen, (j.chunk q.chunk).main)) =
        some ((i.chunk q.chunk).seen ++ [q.member], y)) ∧
      (i.sideComplete q.chunk y = true → (t.inst? q.key).map (fun j => j.finalised.contains q.chunk) = some true) := by
  have hst : (collMsgOf m).stype = stContrib ∨ (collMsgOf m).stype = stPartial := by rw [h.stype]; exact hrow
  have hother : (collMsgOf m).stype ≠ stResult := by rcases hst with hst | hst <;> rw [hst] <;> decide
  rw [contribution_taken h hrow haccepted.context haccepted.record
    (stypeOk_of_frit hst (fritHandle_of_record hother haccepted.record hent) hvc)
    (roomFor_of_no_targets (targetBenches_of_frit haccepted.record hent))]
  have htaken : Quiet (s.dequeued rest) (arrivalTaken s m rest) := (arrivalTaken_sound s m rest).toQuiet
  have hreturned : Quiet (s.dequeued rest) ((arrivalTaken s m rest).collTaken (collMsgOf m)) := htaken.trans (.takeCredit ..)
  have happly := collContrib_of_accepted hst rfl (htaken.accepted (accepted_dequeued rest haccepted)) .clean
  rw [State.collContrib.apply, hfrit, if_pos rfl] at happly
  have hpassed := hreturned.accepted (accepted_dequeued rest haccepted)
  have hkey := State.inst?_key hpassed.record
  obtain ⟨t, l, hengages, hl, hseen, hmain, heq⟩ := State.fritTake_takes (y := contribOf (collMsgOf m) i.ent)
    (by rw [hkey]; exact hpassed.record) hpassed.context.unlogged.1
  change (l.chunk (collMsgOf m).chunk).seen = (i.chunk (collMsgOf m).chunk).seen ++ [(collMsgOf m).member] at hseen
  change (l.chunk (collMsgOf m).chunk).main =
    takeInto i.ent true (contribOf (collMsgOf m) i.ent) (i.chunk (collMsgOf m).chunk).main at hmain
  change _ = if i.sideComplete (collMsgOf m).chunk (takeInto i.ent true (contribOf (collMsgOf m) i.ent)
    (i.chunk (collMsgOf m).chunk).main) then t.finalise i.key (collMsgOf m).chunk false else t at heq
  have harrivals : t.coll.inq = rest := hengages.arrivals.trans (congrArg Coll.inq hreturned.coll)
  rw [hkey] at hl heq
  rw [happly, show (collMsgOf m).logged = false from rfl, heq]
  refine ⟨_, rfl, (Settles.settled _).waitsFirst ?_, fun hcomplete => ?_, fun hcomplete => ?_⟩
  · split
    · exact harrivals ▸ (State.finalise_finalised hl _ _).1.arrivals
    · rw [harrivals]
  · rw [(Settles.settled _).inst?, if_neg (by rw [hcomplete]; exact Bool.false_ne_true), hl, Option.map_some, hseen, hmain]
  · obtain ⟨-, j, hj, hfinal⟩ := State.finalise_finalised hl (collMsgOf m).chunk false
    rw [(Settles.settled _).inst?, if_pos hcomplete, hj, Option.map_some, List.contains_iff_mem.mpr hfinal]

/-! Members and chunks that are done. -/

theorem contribution_discarded {s : State} {row : Nat} {m : Inbound} {rest : List Inbound} {i : Inst} (h : Arrives s row m rest)
    (hrow : row = stContrib ∨ row = stPartial) (hcontext : ContextPasses s (collMsgOf m)) (hrec : s.inst? (collMsgOf m).key = some i)
    (hrun : i.st = .running) (hvalid : i.ent.valid = true) (hfixed : i.ent.varsize = false) (hmember : (collMsgOf m).member < i.ent.members)
    (hchunk : (collMsgOf m).chunk < i.chunks') (hcount : (collMsgOf m).ecount = chunkElems i.total i.ent.e (collMsgOf m).chunk)
    (hwhole : WholeElems i.ent (collMsgOf m)) (hagrees : Agrees i.ent (digestOver i) i.members (collMsgOf m)) (hvc : (collMsgOf m).vc = 2)
    (hroom : RoomFor s (collMsgOf m))
    (hdone : i.written.contains (collMsgOf m).chunk = true ∨ (i.chunk (collMsgOf m).chunk).seen.contains (collMsgOf m).member = true)
    (obs : AdderObs) :
    ∃ t, collTake row (fun s m => s.collContrib m obs) s = .next t ∧ Waits t rest ∧ t.coll.insts = s.coll.insts ∧
      t.benches = s.benches ∧ t.regN Reg.dupContrib = min (s.regN Reg.dupContrib + 1) 0xFFFFFFFF := by
  have hst : (collMsgOf m).stype = stContrib ∨ (collMsgOf m).stype = stPartial := by rw [h.stype]; exact hrow
  have hother : (collMsgOf m).stype ≠ stCount := by rcases hst with hst | hst <;> rw [hst] <;> decide
  rw [contribution_taken h hrow hcontext hrec (stypeOk_of_vc2 (hst.imp_right .inl) hvc) hroom]
  have htaken : Quiet (s.dequeued rest) (arrivalTaken s m rest) := (arrivalTaken_sound s m rest).toQuiet
  have hreturned : Quiet (s.dequeued rest) ((arrivalTaken s m rest).collTaken (collMsgOf m)) := htaken.trans (.takeCredit ..)
  have hrec' : (arrivalTaken s m rest).inst? (collMsgOf m).key = some i := (htaken.inst? _).trans hrec
  have hform : (arrivalTaken s m rest).formBad (collMsgOf m) i.ent = false :=
    (formBad_eq_lenBad hst).trans <| lenBad_eq_false_of_record hst rfl hrec' hrun
      ⟨hmember, hchunk, hwhole, fun _ => hcount, fun hkind => by rw [hfixed] at hkind; cases hkind⟩
  rw [collContrib_of_done hother (htaken.contextPasses (contextPasses_dequeued rest hcontext)) hrec' hrun hvalid hfixed hform hagrees hdone]
  have hinsts : ((arrivalTaken s m rest).collTaken (collMsgOf m)).coll.insts = s.coll.insts := by
    rw [hreturned.coll]
    rfl
  have hsettled := Settles.settled (((arrivalTaken s m rest).collTaken (collMsgOf m)).bump Reg.dupContrib)
  refine ⟨_, rfl, hsettled.waits (congrArg Coll.inq hreturned.coll), hsettled.insts.trans hinsts,
    hsettled.benches.trans hreturned.benches, ?_⟩
  rw [hsettled.regN (by decide), State.regN_bump, State.regN, hreturned.reg _ (by decide)]
  rfl

/-! New steps. -/

/-- A record opens and its first contribution enters the queues. -/
theorem steered_of_opened {s t u : State} {q : CollMsg} {sp : Bool} {i : Inst} (hopened : Opened s t q sp i)
    (h : SteersInto t u i (contribOf q i.ent)) (hbench : ∀ b, t.bench b = s.bench b) (hfresh : i.chunks = []) :
    ∃ j, Opened s u q sp j ∧ Steered s u q { j with chunks := [] } := by
  have hsteered := h.steered hopened.1
  obtain ⟨hrec, hkey, hst, hent, htotal, hmembers, howners, hspilled, hat, hprim, htwin, hothers, hopens⟩ := hopened
  have hrec' : t.inst? i.key = some i := by rw [hkey, hrec]
  obtain ⟨j, hj, hsame, -⟩ := h.record.mine _ (State.inst?_modInst (f := (·.sees (contribOf q i.ent))) hrec' rfl)
  have hchanged : j = { i with chunks := j.chunks } := hsame
  have hbare : { j with chunks := [] } = i := by
    rw [hchanged, ← hfresh]
  refine ⟨j, ⟨hkey ▸ hj, ?_⟩, ?_⟩
  · have hreg : u.regN Reg.opens = t.regN Reg.opens := congrArg BitVec.toNat (h.record.reg _ (by decide))
    have hrest : ∀ k, k ≠ q.key → u.inst? k = s.inst? k := fun k hk => by
      rw [h.record.others k (by rwa [hkey]), State.inst?_modInst_ne _ (f := (·.sees _)) (fun _ => rfl) (by rwa [hkey]), hothers k hk]
    rw [hchanged]
    exact ⟨hkey, hst, hent, htotal, hmembers, howners, hspilled, hat, hprim, htwin, hrest, hreg.trans hopens⟩
  · rw [hbare]
    unfold Steered at hsteered ⊢
    simpa only [hbench] using hsteered

/-- A contribution of a new step opens its record and enters the queues (R124, R128, R132). -/
theorem contribution_opens {s : State} {m : Inbound} {rest : List Inbound} {sp : Bool} (h : Arrives s stContrib m rest)
    (hnew : NewStep s (collMsgOf m) sp) (hawake : s.memAwake (s.entryAddr (collMsgOf m).key.handle) 64 = true)
    (hfrit : (tableEntry s (collMsgOf m).key.handle).frit = false) (hvc : (collMsgOf m).vc = 2) (hroom : RoomFor s (collMsgOf m))
    (hform : ContribForm (tableEntry s (collMsgOf m).key.handle) (tableEntry s (collMsgOf m).key.handle).total 0 0 0 (collMsgOf m))
    (hslot : (collMsgOf m).chunk < max 1 (min (tableEntry s (collMsgOf m).key.handle).window
      (nchunks (tableEntry s (collMsgOf m).key.handle).total (tableEntry s (collMsgOf m).key.handle).e))) (obs : AdderObs) :
    ∃ t j, collTake stContrib (fun s m => s.collContrib m obs) s = .next t ∧ Waits t rest ∧ Opened s t (collMsgOf m) sp j ∧
      Steered s t (collMsgOf m) { j with chunks := [] } := by
  have hfree := collBlocked_eq_false h.network hroom (entryAsleep_of_awake hawake)
    (recordStalls_of_unlogged (by rw [h.stype]; decide) hnew.record.context.unlogged.1)
  rw [collTake_of_arrives h (by decide) (stypeOk_of_vc2 (.inl h.stype) hvc) hfree]
  have htaken : ReadsSound (s.dequeued rest) (arrivalTaken s m rest) := arrivalTaken_sound s m rest
  have hent : tableEntry (arrivalTaken s m rest) (collMsgOf m).key.handle = tableEntry s (collMsgOf m).key.handle :=
    htaken.tableEntry_eq _
  obtain ⟨u, hu, happly⟩ := collContrib_of_newStep h.stype rfl (htaken.newStep (newStep_dequeued rest hnew))
    (by rw [hent]; exact hform) (by rw [hent]; exact hslot) obs
  have hread : ReadsSound (s.dequeued rest) u := htaken.trans hu
  have hplain : (newInst u (collMsgOf m) sp).frit = false := (congrArg Entry.frit (hread.tableEntry_eq _)).trans hfrit
  rw [State.collContrib.apply, hplain, if_neg Bool.false_ne_true] at happly
  have hopened := newOpen_opened u (collMsgOf m) sp
  obtain ⟨-, -, -, harrivals, hbench⟩ := u.openInst_opens (collMsgOf m).key (u.readWords (u.entryAddr (collMsgOf m).key.handle) 16)
    (u.memberTable (tableEntry u (collMsgOf m).key.handle)) (tableEntry u (collMsgOf m).key.handle).total none sp nofun
  have hsteers := State.steer_steersInto (i := newInst u (collMsgOf m) sp) hopened.1
    (contribOf (collMsgOf m) (newInst u (collMsgOf m) sp).ent)
  rw [← happly] at hsteers
  obtain ⟨j, hj, hsteered⟩ := steered_of_opened hopened hsteers hbench rfl
  refine ⟨_, j, rfl, (Settles.settled _).waits ?_, (Settles.settled _).opened (hread.opened hj),
    (Settles.settled _).steered (hread.steered hsteered)⟩
  rw [hsteers.record.arrivals]
  exact harrivals.trans (congrArg Coll.inq hread.coll)

end Sys2Proof.Machine
end

/-! ### What each arrival does: OPENs and COUNTs (R132, R142, R143, R145) -/

section
namespace Sys2Proof.Machine

/-! OPENs. -/

theorem Sends.opened {s t u : State} {q : CollMsg} {sp : Bool} {i : Inst} (h : Sends t u) (hs : Opened s t q sp i) : Opened s u q sp i := by
  unfold Opened
  simp only [h.inst?, h.regN (o := Reg.opens) (by decide)]
  exact hs

/-- An OPEN is held up by neither a queue nor a record point. -/
theorem open_taken {s : State} {m : Inbound} {rest : List Inbound} (h : Arrives s stOpen m rest) (hcontext : ContextPasses s (collMsgOf m))
    (hvc : (collMsgOf m).vc = 2) (hawake : s.entryAsleep (collMsgOf m) = false) :
    exec .openArrival s = .next (settled ((arrivalTaken s m rest).collOpen (collMsgOf m))) := by
  have htargets : s.targetBenches (collMsgOf m) = [] := targetBenches_of_stype (by rw [h.stype]; decide) (by rw [h.stype]; decide)
  exact collTake_of_arrives h (by decide) (stypeOk_of_vc2 (.inr (.inr h.stype)) hvc) (collBlocked_eq_false h.network
    (roomFor_of_no_targets htargets) hawake (recordStalls_of_unlogged (by rw [h.stype]; decide) hcontext.unlogged.1)) State.collOpen

/-- An OPEN of a step that is open is answered OK (R145). -/
theorem collOpen_of_running {s : State} {q : CollMsg} {i : Inst} (hst : q.stype = stOpen) (hcontext : ContextPasses s q)
    (hrec : s.inst? q.key = some i) (hrun : i.st = .running) (hvalid : i.ent.valid = true) (hmember : q.member < i.ent.members)
    (hlen : q.payload.length = 24) (hagrees : Agrees i.ent (digestOver i) i.members q) :
    s.collOpen q = (s.collTaken q).statusTo q.key q.src q.core q.chunk q.member q.dg (statusAux Code.ok (some q.member) false) := by
  have hquiet : Quiet s (s.collTaken q) := .takeCredit ..
  have hrec' : (s.collTaken q).inst? q.key = some i := by rw [hquiet.inst?, hrec]
  obtain ⟨hfirst, hrest⟩ := checks_eq_none_of_running (hquiet.contextPasses hcontext) hrec' hrun hvalid (by rw [hst]; decide)
    (formBad_open hst hmember hlen) hagrees
  unfold State.collOpen
  rw [readEntry_of_record hrec]
  dsimp only
  rw [hfirst, hrest, hrec']
  dsimp only
  rw [live_of_running hrun, if_pos rfl]

/-- An OPEN of a new step opens it. -/
theorem collOpen_of_newStep {s : State} {q : CollMsg} {sp : Bool} (hst : q.stype = stOpen) (h : NewStep s q sp)
    (hmember : q.member < (tableEntry s q.key.handle).members) (hlen : q.payload.length = 24) :
    ∃ u, ReadsSound s u ∧ Sends (newOpen u q sp) (s.collOpen q) := by
  have hsound : ReadsSound s ((s.readEntry q).collTaken q) := (ReadsSound.readEntry h.record).trans (.takeCredit ..)
  refine ⟨_, hsound, ?_⟩
  unfold State.collOpen
  dsimp only
  generalize (s.readEntry q).collTaken q = u at hsound
  have hnew := hsound.newStep h
  rw [← hsound.tableEntry_eq] at hmember
  obtain ⟨hfirst, hrest⟩ := checks_eq_none_of_newStep hnew (by rw [hst]; decide) (formBad_open hst hmember hlen)
  rw [hfirst, hrest, hnew.record.none, openFor_opens hnew, entryOf_msgEntry_of_none hnew.record.none hnew.record.context.opened,
    hnew.fixed, if_neg Bool.false_ne_true]
  exact Sends.statusTo ..

theorem open_opens {s : State} {m : Inbound} {rest : List Inbound} {sp : Bool} (h : Arrives s stOpen m rest)
    (hnew : NewStep s (collMsgOf m) sp) (hawake : s.memAwake (s.entryAddr (collMsgOf m).key.handle) 64 = true)
    (hvc : (collMsgOf m).vc = 2) (hmember : (collMsgOf m).member < (tableEntry s (collMsgOf m).key.handle).members)
    (hlen : (collMsgOf m).payload.length = 24) :
    ∃ t j, exec .openArrival s = .next t ∧ WaitsFirst t rest ∧ Opened s t (collMsgOf m) sp j := by
  have htaken : ReadsSound (s.dequeued rest) (arrivalTaken s m rest) := arrivalTaken_sound s m rest
  obtain ⟨u, hu, hsends⟩ := collOpen_of_newStep h.stype (htaken.newStep (newStep_dequeued rest hnew))
    (by rw [htaken.tableEntry_eq]; exact hmember) hlen
  have hread : ReadsSound (s.dequeued rest) u := htaken.trans hu
  obtain ⟨-, -, -, harrivals, -⟩ := u.openInst_opens (collMsgOf m).key (u.readWords (u.entryAddr (collMsgOf m).key.handle) 16)
    (u.memberTable (tableEntry u (collMsgOf m).key.handle)) (tableEntry u (collMsgOf m).key.handle).total none sp nofun
  refine ⟨_, newInst u (collMsgOf m) sp, open_taken h hnew.record.context hvc (entryAsleep_of_awake hawake),
    (Settles.settled _).waitsFirst ?_, (Settles.settled _).opened (hsends.opened (hread.opened (newOpen_opened ..)))⟩
  have hrest : (newOpen u (collMsgOf m) sp).coll.inq = rest := harrivals.trans (congrArg Coll.inq hread.coll)
  exact hrest ▸ hsends.arrivals

theorem open_answered {s : State} {m : Inbound} {rest : List Inbound} {i : Inst} (h : Arrives s stOpen m rest)
    (hcontext : ContextPasses s (collMsgOf m)) (hrec : s.inst? (collMsgOf m).key = some i) (hrun : i.st = .running)
    (hvalid : i.ent.valid = true) (hmember : (collMsgOf m).member < i.ent.members) (hlen : (collMsgOf m).payload.length = 24)
    (hagrees : Agrees i.ent (digestOver i) i.members (collMsgOf m)) (hvc : (collMsgOf m).vc = 2) :
    exec .openArrival s = .next (settled (((arrivalTaken s m rest).collTaken (collMsgOf m)).statusTo (collMsgOf m).key
      (collMsgOf m).src none (collMsgOf m).chunk (collMsgOf m).member (collMsgOf m).dg
      (statusAux 0 (some (collMsgOf m).member) false))) := by
  have htaken : Quiet (s.dequeued rest) (arrivalTaken s m rest) := (arrivalTaken_sound s m rest).toQuiet
  have hcore : (collMsgOf m).core = none := h.network
  rw [open_taken h hcontext hvc (entryAsleep_of_record hrec), collOpen_of_running h.stype
    (htaken.contextPasses (contextPasses_dequeued rest hcontext)) ((htaken.inst? _).trans hrec) hrun hvalid hmember hlen hagrees, hcore]

/-! Sparse maps that grow, and sums. -/

theorem length_sput_of_absent {α : Type} [DecidableEq α] {d : α} {m : Sparse α} {i : Nat} (v : α) :
    ∀ {lo : Option Nat}, swfFrom d lo m = true → sget d m i = d → (sput m i v).length = m.length + 1 := by
  induction m with
  | nil => exact fun _ _ => rfl
  | cons e m ih =>
    obtain ⟨k, w⟩ := e
    intro lo hwf habsent
    simp only [swfFrom, Bool.and_eq_true] at hwf
    obtain ⟨⟨-, hw⟩, hwf⟩ := hwf
    rw [sget] at habsent
    rw [sput]
    split
    · rfl
    · split at habsent
      · simp [habsent] at hw
      · rw [if_neg ‹_›, List.length_cons, ih hwf habsent, List.length_cons]

theorem length_sput_le {α : Type} (m : Sparse α) (i : Nat) (v : α) : (sput m i v).length ≤ m.length + 1 := by
  induction m with
  | nil => exact Nat.le_refl _
  | cons e m ih =>
    rw [sput]
    split
    · exact Nat.le_refl _
    · split
      · exact Nat.le_succ _
      · exact Nat.succ_le_succ ih

theorem sum_eq_foldl (l : List Nat) : l.foldl (· + ·) 0 = l.sum := List.sum_eq_foldl.symm

theorem foldl_modFirst {α β : Type} {p : α → Bool} {f : α → α} {g : β → α → β}
    (h : ∀ b x, g b (f x) = g b x) (l : List α) :
    ∀ b, (modFirst p f l).foldl g b = l.foldl g b := by
  induction l with
  | nil => exact fun _ => rfl
  | cons x l ih =>
    intro b
    rw [modFirst]
    split
    · rw [List.foldl_cons, List.foldl_cons, h]
    · rw [List.foldl_cons, List.foldl_cons, ih]

/-- A change of a record that holds as much leaves where a new one finds its place. -/
theorem State.place_modInst (s : State) (k : InstKey) {f : Inst → Inst} (hlines : ∀ i b, (f i).linesOn b = i.linesOn b)
    (hspill : ∀ i, (f i).spillLines = i.spillLines) (hctx : ∀ i, (f i).ctx = i.ctx) (howners : ∀ i, (f i).owners = i.owners)
    (x : Entry) (total : Nat) (owners : List Nat) (c : Nat) : (s.modInst k f).place x total owners c = s.place x total owners c := by
  have hused : ∀ b, (s.modInst k f).coll.insts.foldl (fun a i => a + i.linesOn b) 0 = s.coll.insts.foldl (fun a i => a + i.linesOn b) 0 :=
    fun b => foldl_modFirst (fun a i => by rw [hlines]) _ _
  have hctxLines : (s.modInst k f).ctxLines c = s.ctxLines c :=
    foldl_modFirst (fun a i => by rw [hctx, howners]; simp only [hlines]) _ _
  have hspilled : (s.modInst k f).spillFree = s.spillFree := by
    unfold State.spillFree
    congr 1
    exact foldl_modFirst (fun a i => by rw [hspill]) _ _
  unfold State.place
  simp only [hused, hctxLines, hspilled]
  rfl

end Sys2Proof.Machine
end

/-! ### What each arrival does: COUNTs (R142, R143) -/

section
namespace Sys2Proof.Machine

/-- The record holds a member's count. -/
def Inst.holdsCount (i : Inst) (q : CollMsg) : Inst :=
  { i with
    counts := sset 0 i.counts q.member q.aux.toNat, memberSrc := sset 0 i.memberSrc q.member q.src
    memberChunks := smod 0 i.memberChunks q.member (· + 1) }

/-- The record with its counts, whose members have contributed to no chunk yet. -/
def Inst.counted (i : Inst) (q : CollMsg) : Inst := { i.holdsCount q with memberChunks := [] }

/-- The unit holds a member's count, and with the last gives the ranges: what `State.collCount` does once every check passed. -/
def State.countHeld (s : State) (q : CollMsg) (i : Inst) : State :=
  let t := (if q.logged then s else s.record (handleCtx q.key.handle) 0x04 recColl 0 q.payload).modInst i.key (·.holdsCount q)
  match t.inst? i.key with
  | none => t
  | some j => if j.ent.members ≤ j.memberChunks.length then
      (t.modInst i.key (fun i => { i with memberChunks := [] })).countsDone { j with memberChunks := [] } q else t

theorem State.countHeld_eq {s : State} {q : CollMsg} {i : Inst} (hrec : s.inst? i.key = some i)
    (hlog : s.recording (handleCtx q.key.handle) = false) :
    s.countHeld q i = if i.ent.members ≤ (i.holdsCount q).memberChunks.length then
      ((s.modInst i.key (·.holdsCount q)).modInst i.key (fun i => { i with memberChunks := [] })).countsDone (i.counted q) q
    else s.modInst i.key (·.holdsCount q) := by
  have hheld : (s.modInst i.key (·.holdsCount q)).inst? i.key = some (i.holdsCount q) := State.inst?_modInst hrec rfl
  unfold State.countHeld
  rw [State.record_eq_self hlog, ite_self]
  dsimp only
  rw [hheld]
  rfl

theorem digestTotal_of_counting {i : Inst} {q : CollMsg} (hst : q.stype = stCount) (hkind : i.ent.varsize = true) :
    Inst.digestTotal (some i) q i.ent = some 0 := by
  unfold Inst.digestTotal
  rw [hkind, hst]
  rfl

/-- A count of a record that counts is held (R142). -/
theorem collCount_of_counting {s : State} {q : CollMsg} {i : Inst} (hst : q.stype = stCount) (hcontext : ContextPasses s q)
    (hrec : s.inst? q.key = some i) (hcounting : i.st = .counting) (hvalid : i.ent.valid = true) (hkind : i.ent.varsize = true)
    (hform : s.formBad q i.ent = false) (hagrees : Agrees i.ent 0 i.members q) (habsent : sget 0 i.memberChunks q.member = 0) :
    s.collCount q = (s.collTaken q).countHeld q i := by
  have hquiet : Quiet s (s.collTaken q) := .takeCredit ..
  have hcontext' := hquiet.contextPasses hcontext
  have hrec' : (s.collTaken q).inst? q.key = some i := by rw [hquiet.inst?, hrec]
  have hkey := State.inst?_key hrec
  have hlive : i.live = true := by simp [Inst.live, hcounting]
  have hform' : (s.collTaken q).formBad q i.ent = false := by
    rw [← hform]
    unfold State.formBad State.lenBad
    rw [hrec, hrec']
  have hfirst : (s.collTaken q).checkContext q = none :=
    checkContext_eq_none hcontext' (by rw [msgEntry_of_record hrec']; exact hvalid) (fun hnone => by rw [hrec'] at hnone; cases hnone)
  have hrest : (s.collTaken q).checkEntry q = none :=
    checkEntry_eq_none_of_record hrec' hlive hform' (fun _ => hkind) (digestTotal_of_counting hst hkind) hagrees
  have hnew : (decide (i.st = .running) || decide (0 < sget 0 i.memberChunks q.member)) = false := by
    rw [hcounting, habsent]
    rfl
  unfold State.collCount
  rw [readEntry_of_record hrec]
  dsimp only
  rw [hfirst, hrest, hrec']
  dsimp only
  rw [hlive, hnew]
  rfl

/-- The record that a first count opens. -/
def countInst (s : State) (q : CollMsg) : Inst :=
  { key := q.key, st := .counting, entry := s.readWords (s.entryAddr q.key.handle) 16
    members := s.memberTable (tableEntry s q.key.handle), openedAt := s.now, openFt := s.ftimeOr0
    part := (s.ctx (handleCtx q.key.handle)).part }

/-- The first count of a step opens a record that counts (R142). -/
theorem collCount_of_new {s : State} {q : CollMsg} (hst : q.stype = stCount) (h : NewRecord s q 0)
    (hkind : (tableEntry s q.key.handle).varsize = true) (hform : s.formBad q (tableEntry s q.key.handle) = false)
    (hslots : s.fritUsed < 64) :
    ∃ u, ReadsSound s u ∧ s.collCount q =
      (u.modColl (fun c => { c with insts := c.insts ++ [countInst u q] })).countHeld q (countInst u q) := by
  have hsound : ReadsSound s ((s.readEntry q).collTaken q) := (ReadsSound.readEntry h).trans (.takeCredit ..)
  refine ⟨_, hsound, ?_⟩
  unfold State.collCount
  dsimp only
  generalize (s.readEntry q).collTaken q = u at hsound
  have hnew := hsound.newRecord h
  have hent := entryOf_msgEntry_of_none hnew.none hnew.context.opened
  have hwords : u.msgEntry q = u.readWords (u.entryAddr q.key.handle) 16 := by
    rw [State.msgEntry, hnew.none]
    exact if_pos hnew.context.opened
  have hkind' : (tableEntry u q.key.handle).varsize = true := by rw [hsound.tableEntry_eq, hkind]
  have htotal : Inst.digestTotal none q (tableEntry u q.key.handle) = some 0 := by
    unfold Inst.digestTotal
    rw [hkind', hst]
    rfl
  have hform' : u.formBad q (tableEntry u q.key.handle) = false := by
    rw [hsound.tableEntry_eq, ← hform]
    unfold State.formBad State.lenBad
    rw [hnew.none, h.none]
  have hfree : u.recordRoom = some u := if_pos hnew.records
  have hslots' : ¬ 64 ≤ u.fritUsed := by
    rw [hsound.fritUsed]
    exact Nat.not_le.mpr hslots
  rw [checkContext_eq_none_of_new hnew, checkEntry_eq_none_of_new hnew hform' (fun _ => hkind') htotal, hnew.none, hfree, hwords]
  dsimp only
  rw [if_neg hslots']
  rfl

/-- The members' counts, in member order. -/
def Inst.memberCounts (i : Inst) : List Nat := (List.range i.ent.members).map (sget 0 i.counts)

/-- The last count gives the ranges (R143): a total of a chunk or more that finds its place starts the data phase. -/
theorem State.countsDone_gives {s : State} {i : Inst} (q : CollMsg) (hsome : i.memberCounts.sum ≠ 0)
    (hlarge : i.memberCounts.sum < 2 ^ 40) (hchunks : nchunks i.memberCounts.sum i.ent.e ≤ 16777215)
    (hplace : (s.place i.ent i.memberCounts.sum (s.ownersOf i.ctx) i.ctx).isSome = true) :
    ((s.countsDone i q).inst? i.key).map (fun j => (j.st, j.total, j.offsets)) = some (.running, i.memberCounts.sum,
      (List.range i.ent.members).map (fun k => (i.memberCounts.take k).sum)) ∧ s.coll.inq <+: (s.countsDone i q).coll.inq := by
  obtain ⟨sp, hsp⟩ := Option.isSome_iff_exists.mp hplace
  have hcounts : (List.range i.ent.members).map (sget 0 i.counts) = i.memberCounts := rfl
  have hin : ¬ ((decide (i.memberCounts.sum = 0) || decide (2 ^ 40 - 1 < i.memberCounts.sum) ||
      decide (16777215 < nchunks i.memberCounts.sum i.ent.e)) = true) := by
    simp only [Bool.or_eq_true, decide_eq_true_eq]
    omega
  obtain ⟨hopened, -, -, harrivals, -⟩ := s.openInst_opens i.key i.entry i.members i.memberCounts.sum
    (some { i with offsets := (List.range i.ent.members).map (fun k => (i.memberCounts.take k).sum) }) sp (fun j hj => by cases hj; rfl)
  have hsends : Sends (s.openInst i.key i.entry i.members i.memberCounts.sum
      (some { i with offsets := (List.range i.ent.members).map (fun k => (i.memberCounts.take k).sum) }) sp) (s.countsDone i q) := by
    unfold State.countsDone
    simp only [sum_eq_foldl, hcounts]
    rw [if_neg hin, hsp]
    dsimp only
    rw [hopened]
    exact .foldl (fun t k _ => .collSend (by simp) ..) _
  constructor
  · rw [hsends.inst?, hopened]
    rfl
  · rw [← harrivals]
    exact hsends.arrivals

/-! The command. -/

theorem stypeOk_count {s : State} {q : CollMsg} (hst : q.stype = stCount) (hvc : q.vc = 1) : s.stypeOk q = true := by
  unfold State.stypeOk
  rw [hst, hvc]
  simp [stContrib, stPartial, stOpen, stCount]

/-- A COUNT is held up by neither a queue nor a record point. -/
theorem count_taken {s : State} {m : Inbound} {rest : List Inbound} (h : Arrives s stCount m rest)
    (hcontext : ContextPasses s (collMsgOf m)) (hvc : (collMsgOf m).vc = 1) (hawake : s.entryAsleep (collMsgOf m) = false) :
    exec .countArrival s = .next (settled ((arrivalTaken s m rest).collCount (collMsgOf m))) := by
  have htargets : s.targetBenches (collMsgOf m) = [] := targetBenches_of_stype (by rw [h.stype]; decide) (by rw [h.stype]; decide)
  exact collTake_of_arrives h (by decide) (stypeOk_count h.stype hvc) (collBlocked_eq_false h.network
    (roomFor_of_no_targets htargets) hawake (recordStalls_of_unlogged (by rw [h.stype]; decide) hcontext.unlogged.1)) State.collCount

/-- A valid entry has two members or more (R116). -/
theorem two_le_members {x : Entry} {n : Nat} (h : entryInvalid x n = false) : 2 ≤ x.members := by
  unfold entryInvalid at h
  simp only [Bool.or_eq_false_iff, decide_eq_false_iff_not] at h
  omega

theorem count_opens {s : State} {m : Inbound} {rest : List Inbound} (h : Arrives s stCount m rest) (hvc : (collMsgOf m).vc = 1)
    (hlen : (collMsgOf m).payload.length = 24) (hcount : (collMsgOf m).ecount = 0) (hchunk : (collMsgOf m).chunk = 0)
    (hnew : NewRecord s (collMsgOf m) 0) (hawake : s.memAwake (s.entryAddr (collMsgOf m).key.handle) 64 = true)
    (hkind : (tableEntry s (collMsgOf m).key.handle).varsize = true)
    (hmember : (collMsgOf m).member < (tableEntry s (collMsgOf m).key.handle).members)
    (hmx : isMx (tableEntry s (collMsgOf m).key.handle).etype = true → (collMsgOf m).aux.toNat % 32 = 0) (hslots : s.fritUsed < 64) :
    ∃ t, exec .countArrival s = .next t ∧ Waits t rest ∧
      (t.inst? (collMsgOf m).key).map (fun j => (j.st, j.ent, sget 0 j.counts (collMsgOf m).member)) =
        some (.counting, tableEntry s (collMsgOf m).key.handle, (collMsgOf m).aux.toNat) := by
  have htaken : ReadsSound (s.dequeued rest) (arrivalTaken s m rest) := arrivalTaken_sound s m rest
  have hent : tableEntry (arrivalTaken s m rest) (collMsgOf m).key.handle = tableEntry s (collMsgOf m).key.handle := htaken.tableEntry_eq _
  obtain ⟨u, hu, hheld⟩ := collCount_of_new h.stype (htaken.newRecord (newRecord_dequeued rest hnew)) (by rw [hent, hkind])
    (by rw [hent]; exact formBad_count h.stype hmember hlen hcount hchunk hmx) (by rw [htaken.fritUsed]; exact hslots)
  have hread : ReadsSound (s.dequeued rest) u := htaken.trans hu
  have hnew' := hread.newRecord (newRecord_dequeued rest hnew)
  have hmembers : ¬ (countInst u (collMsgOf m)).ent.members ≤
      ((countInst u (collMsgOf m)).holdsCount (collMsgOf m)).memberChunks.length :=
    Nat.not_le.mpr (two_le_members hnew'.invalid)
  have hopened := State.inst?_append_same (s := u) (i := countInst u (collMsgOf m)) hnew'.none
  rw [State.countHeld_eq hopened hnew'.context.unlogged.1, if_neg hmembers] at hheld
  rw [count_taken h hnew.context hvc (entryAsleep_of_awake hawake), hheld]
  refine ⟨_, rfl, (Settles.settled _).waits (congrArg Coll.inq hread.coll), ?_⟩
  rw [(Settles.settled _).inst?]
  refine (congrArg _ (State.inst?_modInst hopened rfl)).trans ?_
  have hentry : tableEntry u (collMsgOf m).key.handle = tableEntry s (collMsgOf m).key.handle := hread.tableEntry_eq _
  rw [Option.map_some, ← hentry]
  exact congrArg (fun n => some (InstState.counting, tableEntry u (collMsgOf m).key.handle, n)) (sget_sset_same ..)

section
variable {s : State} {m : Inbound} {rest : List Inbound} {i : Inst} (h : Arrives s stCount m rest)
  (hcontext : ContextPasses s (collMsgOf m)) (hvc : (collMsgOf m).vc = 1) (hlen : (collMsgOf m).payload.length = 24)
  (hcount : (collMsgOf m).ecount = 0) (hchunk : (collMsgOf m).chunk = 0) (hrec : s.inst? (collMsgOf m).key = some i)
  (hcounting : i.st = .counting) (hvalid : i.ent.valid = true) (hkind : i.ent.varsize = true)
  (hmember : (collMsgOf m).member < i.ent.members) (hmx : isMx i.ent.etype = true → (collMsgOf m).aux.toNat % 32 = 0)
  (hagrees : Agrees i.ent 0 i.members (collMsgOf m)) (habsent : sget 0 i.memberChunks (collMsgOf m).member = 0)
include h hcontext hvc hlen hcount hchunk hrec hcounting hvalid hkind hmember hmx hagrees habsent

theorem count_held : ∃ u, Quiet (s.dequeued rest) u ∧ exec .countArrival s = .next (settled
    (if i.ent.members ≤ (i.holdsCount (collMsgOf m)).memberChunks.length then
      ((u.modInst i.key (·.holdsCount (collMsgOf m))).modInst i.key (fun i => { i with memberChunks := [] })).countsDone
        (i.counted (collMsgOf m)) (collMsgOf m)
    else u.modInst i.key (·.holdsCount (collMsgOf m)))) := by
  have htaken : Quiet (s.dequeued rest) (arrivalTaken s m rest) := (arrivalTaken_sound s m rest).toQuiet
  have hreturned : Quiet (s.dequeued rest) ((arrivalTaken s m rest).collTaken (collMsgOf m)) := htaken.trans (.takeCredit ..)
  have hkey := State.inst?_key hrec
  refine ⟨_, hreturned, ?_⟩
  rw [count_taken h hcontext hvc (entryAsleep_of_record hrec), collCount_of_counting h.stype
    (htaken.contextPasses (contextPasses_dequeued rest hcontext)) ((htaken.inst? _).trans hrec) hcounting hvalid hkind
    (formBad_count h.stype hmember hlen hcount hchunk hmx) hagrees habsent]
  rw [State.countHeld_eq (by rw [hkey]; exact (hreturned.inst? _).trans hrec)
    (hreturned.contextPasses (contextPasses_dequeued rest hcontext)).unlogged.1]

theorem count_waits (hmore : i.memberChunks.length + 1 < i.ent.members) :
    ∃ t, exec .countArrival s = .next t ∧ Waits t rest ∧
      (t.inst? (collMsgOf m).key).map (fun j => (j.st, sget 0 j.counts (collMsgOf m).member)) =
        some (.counting, (collMsgOf m).aux.toNat) := by
  obtain ⟨u, hu, hexec⟩ := count_held h hcontext hvc hlen hcount hchunk hrec hcounting hvalid hkind hmember hmx hagrees habsent
  have hlength : (i.holdsCount (collMsgOf m)).memberChunks.length ≤ i.memberChunks.length + 1 := by
    unfold Inst.holdsCount smod sset
    rw [habsent]
    exact length_sput_le ..
  rw [if_neg (by omega)] at hexec
  refine ⟨_, hexec, (Settles.settled _).waits (congrArg Coll.inq hu.coll), ?_⟩
  have hkey := State.inst?_key hrec
  have hheld := State.inst?_modInst (f := (·.holdsCount (collMsgOf m))) ((hu.inst? i.key).trans (hkey.symm ▸ hrec)) rfl
  rw [(Settles.settled _).inst?, ← hkey, hheld, Option.map_some]
  exact congrArg₂ (fun st n => some (st, n)) hcounting (sget_sset_same ..)

theorem count_ranges (hwf : swf 0 i.memberChunks = true) (hlast : i.memberChunks.length + 1 = i.ent.members)
    (hsome : (i.counted (collMsgOf m)).memberCounts.sum ≠ 0) (hlarge : (i.counted (collMsgOf m)).memberCounts.sum < 2 ^ 40)
    (hchunks : nchunks (i.counted (collMsgOf m)).memberCounts.sum i.ent.e ≤ 16777215)
    (hplace : (s.place i.ent (i.counted (collMsgOf m)).memberCounts.sum (s.ownersOf i.ctx) i.ctx).isSome = true) :
    ∃ t, exec .countArrival s = .next t ∧ WaitsFirst t rest ∧
      (t.inst? (collMsgOf m).key).map (fun j => (j.st, j.total, j.offsets)) = some (.running,
        (i.counted (collMsgOf m)).memberCounts.sum,
        (List.range i.ent.members).map (fun k => ((i.counted (collMsgOf m)).memberCounts.take k).sum)) := by
  obtain ⟨u, hu, hexec⟩ := count_held h hcontext hvc hlen hcount hchunk hrec hcounting hvalid hkind hmember hmx hagrees habsent
  have hlength : (i.holdsCount (collMsgOf m)).memberChunks.length = i.memberChunks.length + 1 := by
    unfold Inst.holdsCount smod sset
    rw [habsent]
    exact length_sput_of_absent _ hwf habsent
  rw [if_pos (by omega)] at hexec
  have hkey := State.inst?_key hrec
  have hplaced := (State.place_modInst (u.modInst i.key (·.holdsCount (collMsgOf m))) i.key (f := fun i => { i with memberChunks := [] })
    (fun _ _ => rfl) (fun _ => rfl) (fun _ => rfl) (fun _ => rfl) i.ent (i.counted (collMsgOf m)).memberCounts.sum
    (u.ownersOf i.ctx) i.ctx).trans (State.place_modInst u i.key (f := (·.holdsCount (collMsgOf m)))
    (fun _ _ => rfl) (fun _ => rfl) (fun _ => rfl) (fun _ => rfl) i.ent _ _ _)
  obtain ⟨hranges, harrivals⟩ := State.countsDone_gives (i := i.counted (collMsgOf m)) (collMsgOf m) hsome hlarge hchunks
    (by
      refine (congrArg Option.isSome hplaced).trans ?_
      rw [hu.place, hu.ownersOf]
      exact hplace)
  refine ⟨_, hexec, (Settles.settled _).waitsFirst ?_, ?_⟩
  · have hrest : u.coll.inq = rest := congrArg Coll.inq hu.coll
    rw [← hrest]
    exact harrivals
  · rw [(Settles.settled _).inst?, ← hkey]
    exact hranges

end

end Sys2Proof.Machine
end

/-! ### What each arrival does: the upper tier (R13, R48, R137), and the whole statement -/

section
namespace Sys2Proof.Machine

/-! The take. -/

theorem stypeOk_upper {s : State} {q : CollMsg} (hst : q.stype = stResult ∨ q.stype = stStatus) (hvc : q.vc = 3) :
    s.stypeOk q = true := by
  unfold State.stypeOk
  rcases hst with hst | hst <;> rw [hst, hvc] <;> simp [stContrib, stPartial, stOpen, stCount, stOffsets, stResult, stStatus]

theorem stypeOk_fritResult {s : State} {q : CollMsg} {i : Inst} (hst : q.stype = stResult) (hvc : q.vc = 1)
    (hmatch : s.upperMatch q = some i) (hfrit : i.frit = true) : s.stypeOk q = true := by
  have hhandle : (s.fritHandle q).getD true = true := by
    unfold State.fritHandle
    rw [if_pos hst, hmatch, Option.map_some, hfrit]
    rfl
  unfold State.stypeOk
  rw [hhandle, hst, hvc]
  simp [stContrib, stPartial, stOpen, stCount, stOffsets, stResult]

/-- An arrival of the upper tier is held up by neither a queue nor a record point. -/
theorem upper_taken {s : State} {row : Nat} {m : Inbound} {rest : List Inbound} (h : Arrives s row m rest)
    (hrow : row = stResult ∨ row = stStatus) (hvc : s.stypeOk (collMsgOf m) = true)
    (hlog : ∀ i, s.upperMatch (collMsgOf m) = some i → s.recording i.ctx = false) (f : State → CollMsg → State) :
    collTake row f s = .next (settled (f (arrivalTaken s m rest) (collMsgOf m))) := by
  have hst : (collMsgOf m).stype = stResult ∨ (collMsgOf m).stype = stStatus := by rw [h.stype]; exact hrow
  have htargets : s.targetBenches (collMsgOf m) = [] :=
    targetBenches_of_stype (by rcases hst with hst | hst <;> rw [hst] <;> decide) (by rcases hst with hst | hst <;> rw [hst] <;> decide)
  have hawake : s.entryAsleep (collMsgOf m) = false := by
    unfold State.entryAsleep
    rcases hst with hst | hst <;> rw [hst] <;> simp [stResult, stStatus]
  have hstall : s.recordStalls (collMsgOf m) = false := by
    unfold State.recordStalls
    rw [if_pos hst]
    cases hmatch : s.upperMatch (collMsgOf m) with
    | none => rfl
    | some i => simp [State.recRoom, hlog i hmatch]
  exact collTake_of_arrives h (by rcases hrow with rfl | rfl <;> decide) hvc
    (collBlocked_eq_false h.network (roomFor_of_no_targets htargets) hawake hstall) f

theorem running_of_upperMatch {s : State} {q : CollMsg} {i : Inst} (h : s.upperMatch q = some i) : i.st = .running := by
  have hfound := List.find?_some h
  simp only [Bool.and_eq_true, decide_eq_true_eq] at hfound
  exact hfound.1.1.1

/-! Results. -/

theorem length_insertNat {x : Nat} {l : List Nat} (h : l.contains x = false) : (insertNat x l).length = l.length + 1 := by
  induction l with
  | nil => rfl
  | cons y l ih =>
    simp only [List.contains_cons, Bool.or_eq_false_iff, beq_eq_false_iff_ne] at h
    rw [insertNat]
    split
    · rfl
    · rw [if_neg h.1, List.length_cons, ih h.2, List.length_cons]

/-- An upper RESULT is sent on under PLACE, and counts its chunk as done (R137). -/
def State.upperSent (s : State) (q : CollMsg) (i : Inst) : State :=
  (s.collSendAll i.key (.result i.key q.chunk 100) recColl (s.resultPackets i q.chunk (q.payload.drop 24))).modInst i.key
    (fun j => { j with upperDone := insertNat q.chunk j.upperDone })

/-- What an upper RESULT of a chunk that the record awaits does. -/
theorem collUpperResult_of_match {s : State} {q : CollMsg} {i : Inst} (hmatch : s.upperMatch q = some i) (hrec : s.inst? i.key = some i)
    (hlog : s.recording i.ctx = false) (hreplay : s.replaying i.ctx = false) (hchunk : q.chunk < i.chunks')
    (hdone : i.upperDone.contains q.chunk = false) :
    s.collUpperResult q = if q.poison then (s.collTaken q).poison i.key Code.poison none false
      else if i.chunks' ≤ i.upperDone.length + 1 then ((s.collTaken q).upperSent q i).completeInst i.key
      else (s.collTaken q).upperSent q i := by
  have hquiet : Quiet s (s.collTaken q) := .takeCredit ..
  have hawaited : (decide (i.chunks' ≤ q.chunk) || i.upperDone.contains q.chunk) = false := by
    rw [hdone, decide_eq_false (Nat.not_le.mpr hchunk), Bool.or_false]
  have hsent : ((s.collTaken q).upperSent q i).inst? i.key = some { i with upperDone := insertNat q.chunk i.upperDone } := by
    refine State.inst?_modInst (i := i) ?_ rfl
    rw [(Sends.collSendAll (Sends.resultPackets_vc _ _ _ _) ..).inst?, hquiet.inst?, hrec]
  unfold State.collUpperResult
  dsimp only
  rw [hquiet.upperMatch, hmatch]
  dsimp only
  rw [hquiet.replaying, hreplay, hawaited, State.record_eq_self (by rw [hquiet.recording, hlog]), ite_self, Bool.false_and,
    if_neg Bool.false_ne_true, if_neg Bool.false_ne_true]
  split
  · rfl
  · change (match ((s.collTaken q).upperSent q i).inst? i.key with | none => _ | some j => _) = _
    rw [hsent, ← length_insertNat hdone]
    rfl

/-- A record that is poisoned leaves the arrivals that wait. -/
theorem State.poison_arrivals (s : State) (k : InstKey) (code : Nat) (blame : Option Nat) (ef : Bool) :
    s.coll.inq <+: (s.poison k code blame ef).coll.inq := by
  unfold State.poison
  split
  · rfl
  · rename_i i _
    split
    · rfl
    · extract_lets ended
      have hended : s.coll.inq <+: ended.coll.inq := by
        have hfreed := (WorksOn.freeHeld (s.countPoison code ef) i).arrivals
        rwa [State.countPoison_coll] at hfreed
      exact hended.trans (Sends.statusAll ..).arrivals

section
variable {s : State} {m : Inbound} {rest : List Inbound} {i : Inst}

theorem result_taken (h : Arrives s stResult m rest) (hvc : (collMsgOf m).vc = 3 ∨ ((collMsgOf m).vc = 1 ∧ i.frit = true))
    (hmatch : s.upperMatch (collMsgOf m) = some i) (hrec : s.inst? i.key = some i) (hlog : s.recording i.ctx = false)
    (hreplay : s.replaying i.ctx = false) (hchunk : (collMsgOf m).chunk < i.chunks')
    (hdone : i.upperDone.contains (collMsgOf m).chunk = false) :
    exec .upperResultArrival s = .next (settled
      (if (collMsgOf m).poison then ((arrivalTaken s m rest).collTaken (collMsgOf m)).poison i.key Code.poison none false
      else if i.chunks' ≤ i.upperDone.length + 1 then
        (((arrivalTaken s m rest).collTaken (collMsgOf m)).upperSent (collMsgOf m) i).completeInst i.key
      else ((arrivalTaken s m rest).collTaken (collMsgOf m)).upperSent (collMsgOf m) i)) := by
  have hok : s.stypeOk (collMsgOf m) = true := by
    rcases hvc with hvc | ⟨hvc, hfrit⟩
    · exact stypeOk_upper (.inl h.stype) hvc
    · exact stypeOk_fritResult h.stype hvc hmatch hfrit
  have htaken : Quiet (s.dequeued rest) (arrivalTaken s m rest) := (arrivalTaken_sound s m rest).toQuiet
  have hexec : exec .upperResultArrival s = .next (settled ((arrivalTaken s m rest).collUpperResult (collMsgOf m))) :=
    upper_taken h (.inl rfl) hok (fun j hj => by rw [hmatch] at hj; cases hj; exact hlog) State.collUpperResult
  rw [hexec, collUpperResult_of_match ((htaken.upperMatch _).trans hmatch) ((htaken.inst? _).trans hrec)
    ((htaken.recording _).trans hlog) ((htaken.replaying _).trans hreplay) hchunk hdone]

/-- An upper RESULT or STATUS that poisons its record leaves the arrivals that wait. -/
theorem poisoned_settled {u : State} (hu : Quiet (s.dequeued rest) u) (hrec : s.inst? i.key = some i) (hlive : i.live = true)
    (code : Nat) :
    WaitsFirst (settled (u.poison i.key code none false)) rest ∧
      ((settled (u.poison i.key code none false)).inst? i.key).map (fun j => (j.st, j.code)) = some (.poisoned, byte code) := by
  refine ⟨(Settles.settled _).waitsFirst ?_, ?_⟩
  · have hrest : u.coll.inq = rest := congrArg Coll.inq hu.coll
    rw [← hrest]
    exact State.poison_arrivals ..
  · rw [(Settles.settled _).inst?, State.poison_inst? ((hu.inst? _).trans hrec) hlive]
    rfl

/-- An arrival of the upper tier that nothing awaits counts in UPPER_ORPHAN (R137). -/
theorem orphan_settled {u : State} (hu : Quiet (s.dequeued rest) u) :
    Waits (settled (u.bump Reg.upperOrphan)) rest ∧ (settled (u.bump Reg.upperOrphan)).coll.insts = s.coll.insts ∧
      (settled (u.bump Reg.upperOrphan)).regN Reg.upperOrphan = min (s.regN Reg.upperOrphan + 1) 0xFFFFFFFF := by
  have hinsts : u.coll.insts = s.coll.insts := by
    rw [hu.coll]
    rfl
  have hsettled := Settles.settled (u.bump Reg.upperOrphan)
  refine ⟨hsettled.waits (congrArg Coll.inq hu.coll), hsettled.insts.trans hinsts, ?_⟩
  rw [hsettled.regN (by decide), State.regN_bump, State.regN, hu.reg _ (by decide)]
  rfl

theorem result_orphan (h : Arrives s stResult m rest) (hvc : (collMsgOf m).vc = 3) (hmatch : s.upperMatch (collMsgOf m) = none) :
    ∃ t, exec .upperResultArrival s = .next t ∧ Waits t rest ∧ t.coll.insts = s.coll.insts ∧
      t.regN Reg.upperOrphan = min (s.regN Reg.upperOrphan + 1) 0xFFFFFFFF := by
  have hreturned : Quiet (s.dequeued rest) ((arrivalTaken s m rest).collTaken (collMsgOf m)) :=
    (arrivalTaken_sound s m rest).toQuiet.trans (.takeCredit ..)
  have hexec : exec .upperResultArrival s = .next (settled ((arrivalTaken s m rest).collUpperResult (collMsgOf m))) :=
    upper_taken h (.inl rfl) (stypeOk_upper (.inl h.stype) hvc) (fun j hj => by rw [hmatch] at hj; cases hj) State.collUpperResult
  have horphan : (arrivalTaken s m rest).collUpperResult (collMsgOf m) =
      ((arrivalTaken s m rest).collTaken (collMsgOf m)).bump Reg.upperOrphan := by
    unfold State.collUpperResult
    dsimp only
    rw [hreturned.upperMatch, show (s.dequeued rest).upperMatch (collMsgOf m) = none from hmatch]
  exact ⟨_, hexec, horphan ▸ orphan_settled hreturned⟩

/-! Statuses. -/

theorem rxCode_quiet (s : State) (c : Nat) : Quiet s (s.rxCode c).2 :=
  .snd_ite (.refl s) (.bump (by decide) s)

theorem rxCode_fst (s : State) (c : Nat) : (s.rxCode c).1 = if c ≤ 0x0C ∨ c = 0x0F then c else Code.internal := by
  unfold State.rxCode
  by_cases hknown : c ≤ 0x0C ∨ c = 0x0F
  · simp [hknown]
  · simp [hknown]

/-- The code that an upper STATUS poisons its record with: its own, a reserved one as INTERNAL, and POISON if it is poisoned (R13, R48). -/
def upperCode (q : CollMsg) : Nat :=
  if q.poison then Code.poison else if fld q.aux 0 8 ≤ 0x0C ∨ fld q.aux 0 8 = 0x0F then fld q.aux 0 8 else Code.internal

theorem status_taken (h : Arrives s stStatus m rest) (hvc : (collMsgOf m).vc = 3) (hmatch : s.upperMatch (collMsgOf m) = some i)
    (hlog : s.recording i.ctx = false) :
    exec .upperStatusArrival s = .next (settled ((arrivalTaken s m rest).collUpperStatus (collMsgOf m))) :=
  upper_taken h (.inr rfl) (stypeOk_upper (.inr h.stype) hvc) (fun j hj => by rw [hmatch] at hj; cases hj; exact hlog)
    State.collUpperStatus

theorem status_poisons (h : Arrives s stStatus m rest) (hvc : (collMsgOf m).vc = 3) (hmatch : s.upperMatch (collMsgOf m) = some i)
    (hrec : s.inst? i.key = some i) (hlog : s.recording i.ctx = false) (hreplay : s.replaying i.ctx = false)
    (hchunk : (collMsgOf m).chunk < i.chunks' ∨ (collMsgOf m).chunk = 0xFFFFFF) :
    ∃ t, exec .upperStatusArrival s = .next t ∧ WaitsFirst t rest ∧
      (t.inst? i.key).map (fun j => (j.st, j.code)) = some (.poisoned, byte (upperCode (collMsgOf m))) := by
  have hreturned : Quiet (s.dequeued rest) ((arrivalTaken s m rest).collTaken (collMsgOf m)) :=
    (arrivalTaken_sound s m rest).toQuiet.trans (.takeCredit ..)
  have hnamed : (decide (i.chunks' ≤ (collMsgOf m).chunk) && (collMsgOf m).chunk != 0xFFFFFF) = false := by
    rcases hchunk with hchunk | hchunk
    · rw [decide_eq_false (Nat.not_le.mpr hchunk), Bool.false_and]
    · rw [hchunk, bne_self_eq_false, Bool.and_false]
  have hpoisons : ∃ u, Quiet (s.dequeued rest) u ∧
      (arrivalTaken s m rest).collUpperStatus (collMsgOf m) = u.poison i.key (upperCode (collMsgOf m)) none false := by
    unfold State.collUpperStatus upperCode
    rw [if_neg (not_not_intro h.stype), hreturned.upperMatch, show (s.dequeued rest).upperMatch (collMsgOf m) = some i from hmatch]
    dsimp only
    rw [hreturned.replaying, show (s.dequeued rest).replaying i.ctx = false from hreplay, hnamed,
      State.record_eq_self ((hreturned.recording _).trans hlog), ite_self, Bool.false_and, if_neg Bool.false_ne_true,
      if_neg Bool.false_ne_true]
    split
    · exact ⟨_, hreturned, rfl⟩
    · exact ⟨_, hreturned.trans (rxCode_quiet ..), by rw [rxCode_fst]⟩
  obtain ⟨u, hu, heq⟩ := hpoisons
  exact ⟨_, status_taken h hvc hmatch hlog, heq ▸ poisoned_settled hu hrec (live_of_running (running_of_upperMatch hmatch)) _⟩

theorem status_orphan (h : Arrives s stStatus m rest) (hvc : (collMsgOf m).vc = 3) (hmatch : s.upperMatch (collMsgOf m) = some i)
    (hlog : s.recording i.ctx = false) (hreplay : s.replaying i.ctx = false) (hchunk : i.chunks' ≤ (collMsgOf m).chunk)
    (hall : (collMsgOf m).chunk ≠ 0xFFFFFF) :
    ∃ t, exec .upperStatusArrival s = .next t ∧ Waits t rest ∧ t.coll.insts = s.coll.insts ∧
      t.regN Reg.upperOrphan = min (s.regN Reg.upperOrphan + 1) 0xFFFFFFFF := by
  have hreturned : Quiet (s.dequeued rest) ((arrivalTaken s m rest).collTaken (collMsgOf m)) :=
    (arrivalTaken_sound s m rest).toQuiet.trans (.takeCredit ..)
  have hunnamed : (decide (i.chunks' ≤ (collMsgOf m).chunk) && (collMsgOf m).chunk != 0xFFFFFF) = true := by
    rw [decide_eq_true hchunk, bne_iff_ne.mpr hall, Bool.and_true]
  have horphan : (arrivalTaken s m rest).collUpperStatus (collMsgOf m) =
      ((arrivalTaken s m rest).collTaken (collMsgOf m)).bump Reg.upperOrphan := by
    unfold State.collUpperStatus
    rw [if_neg (not_not_intro h.stype), hreturned.upperMatch, show (s.dequeued rest).upperMatch (collMsgOf m) = some i from hmatch]
    dsimp only
    rw [hreturned.replaying, show (s.dequeued rest).replaying i.ctx = false from hreplay, hunnamed]
    rfl
  exact ⟨_, status_taken h hvc hmatch hlog, horphan ▸ orphan_settled hreturned⟩

end

/-! The statement. -/

/-- Settles O26: a rule per kind of arrival, over the take, the checks that pass, and what the unit then does. -/
theorem collectiveArrivals : Obligations.CollectiveArrivals := by
  unfold Obligations.CollectiveArrivals
  intro s m rest i
  refine ⟨fun h => ⟨?_, ?_, ?_⟩, fun h => ⟨?_, ?_, ?_⟩, ?_, ?_, ?_,
    fun h hcontext hvc hlen hcount hchunk => ⟨?_, ?_⟩, ?_, ?_, ?_⟩
  · exact fun haccepted hfrit _ hvc hroom => contribution_steered h (.inl rfl) haccepted hfrit hvc hroom .clean
  · exact fun haccepted hfrit hent hvc => contribution_reduced h (.inl rfl) haccepted hfrit hent hvc
  · exact fun hcontext hrec hrun hvalid hfixed hmember hchunk hcount hwhole hagrees hvc hroom hdone =>
      contribution_discarded h (.inl rfl) hcontext hrec hrun hvalid hfixed hmember hchunk hcount hwhole hagrees hvc hroom hdone .clean
  · exact fun haccepted hfrit _ hvc hroom => contribution_steered h (.inr rfl) haccepted hfrit hvc hroom .clean
  · exact fun haccepted hfrit hent hvc => contribution_reduced h (.inr rfl) haccepted hfrit hent hvc
  · exact fun hcontext hrec hrun hvalid hfixed hmember hchunk hcount hwhole hagrees hvc hroom hdone =>
      contribution_discarded h (.inr rfl) hcontext hrec hrun hvalid hfixed hmember hchunk hcount hwhole hagrees hvc hroom hdone .clean
  · exact fun sp h hnew hawake hfrit hvc hroom hform hslot => contribution_opens h hnew hawake hfrit hvc hroom hform hslot .clean
  · exact fun sp h hnew hawake hvc hmember hlen => open_opens h hnew hawake hvc hmember hlen
  · exact fun h hcontext hrec hrun hvalid hmember hlen hagrees hvc => open_answered h hcontext hrec hrun hvalid hmember hlen hagrees hvc
  · exact fun hnew hawake hkind hmember hmx hslots => count_opens h hvc hlen hcount hchunk hnew hawake hkind hmember hmx hslots
  · intro hrec hcounting hvalid hkind hmember hmx hagrees habsent
    exact ⟨count_waits h hcontext hvc hlen hcount hchunk hrec hcounting hvalid hkind hmember hmx hagrees habsent,
      count_ranges h hcontext hvc hlen hcount hchunk hrec hcounting hvalid hkind hmember hmx hagrees habsent⟩
  · intro h hvc hmatch hrec hlog hreplay hchunk hdone
    have hexec := result_taken h hvc hmatch hrec hlog hreplay hchunk hdone
    refine ⟨fun hsound hmore => ?_, fun hsound hlast => ?_, fun hpoison => ?_⟩
    · rw [hexec, hsound, if_neg Bool.false_ne_true, if_neg (Nat.not_le.mpr hmore)]
      rfl
    · rw [hexec, hsound, if_neg Bool.false_ne_true, if_pos hlast]
      rfl
    · rw [hpoison, if_pos rfl] at hexec
      exact ⟨_, hexec, poisoned_settled ((arrivalTaken_sound s m rest).toQuiet.trans (.takeCredit ..)) hrec
        (live_of_running (running_of_upperMatch hmatch)) Code.poison⟩
  · exact fun h hvc hmatch => result_orphan h hvc hmatch
  · intro h hvc hmatch hrec hlog hreplay
    refine ⟨fun hchunk => ?_, fun hchunk hall => status_orphan h hvc hmatch hlog hreplay hchunk hall⟩
    obtain ⟨t, hexec, hwaits, hcode⟩ := status_poisons h hvc hmatch hrec hlog hreplay hchunk
    refine ⟨t, hexec, hwaits, hcode.trans ?_⟩
    unfold upperCode
    split
    · rfl
    · split <;> rfl

end Sys2Proof.Machine
end

/-! ### Register 0 of each kind (R194) -/

section
namespace Sys2Proof.Machine

section
variable (x : Core) (m : Nat)

@[simp] theorem Core.setS_zero (v : W64) : x.setS 0 v = x := rfl
@[simp] theorem Core.setP_zero (p : W64) : x.setP 0 p = x := rfl

theorem Core.s_setS {n : Nat} (hn : n ≠ 0) (v : W64) : (x.setS n v).s m = if m = n then v else x.s m := by
  by_cases hm : m = 0
  · simp [Core.s, hm, Ne.symm hn]
  · simp [Core.s, Core.setS, hn, hm, sget_sset]

theorem Core.p_setP {n : Nat} (hn : n ≠ 0) (p : W64) : (x.setP n p).p m = if m = n then p else x.p m := by
  by_cases hm : m = 0
  · simp [Core.p, hm, Ne.symm hn]
  · simp [Core.p, Core.setP, hn, hm, sget_sset]

theorem Core.v_setV (n : Nat) (u : W512) : (x.setV n u).v m = if m = n then u else x.v m :=
  sget_sset 0 x.vreg n m u

end

/-- Settles O4: register 0 is answered and refused before the map of registers is asked, which reads back what was written. -/
theorem registerZero : Obligations.RegisterZero := by
  unfold Obligations.RegisterZero
  intro x n m v p u
  exact ⟨x.setS_zero v, x.setP_zero p, rfl, rfl, fun hn => x.s_setS m hn v, fun hn => x.p_setP m hn p, x.v_setV m n u⟩

end Sys2Proof.Machine
end

/-! ### A core's own stores are read (R195, R196, R230, R231) -/

section
namespace Sys2Proof.Machine

/-! Numbers and bytes. -/

theorem sgn_eq_bmod {m : Nat} (hm : 0 < m) (v : Nat) : sgn m v = (v : Int).bmod (2 ^ m) := by
  obtain ⟨k, rfl⟩ : ∃ k, m = k + 1 := ⟨m - 1, by omega⟩
  have hpow : 2 ^ (k + 1) = 2 * 2 ^ k := Nat.pow_succ'
  have hcast : ((2 : Nat) ^ (k + 1) : Nat) = (2 * 2 ^ k : Nat) := hpow
  have hmod : (v : Int) % ((2 * 2 ^ k : Nat) : Int) = (v % (2 * 2 ^ k) : Nat) := by norm_cast
  unfold sgn Int.bmod
  rw [Nat.add_sub_cancel, hpow, hmod]
  dsimp only
  split <;> split <;> omega

theorem w64_tc (x : Int) : w64 (tc 64 x) = BitVec.ofInt 64 x := by
  apply BitVec.eq_of_toNat_eq
  unfold w64 tc
  rw [BitVec.toNat_ofNat, BitVec.toNat_ofInt]
  exact Nat.mod_eq_of_lt (by omega)

theorem w64_tc_sgn {m : Nat} (hm : 0 < m) (v : Nat) : w64 (tc 64 (sgn m v)) = (BitVec.ofNat m v).signExtend 64 := by
  rw [w64_tc, sgn_eq_bmod hm, BitVec.signExtend, BitVec.toInt_ofNat']

@[simp] theorem length_mread (m : List Host.Cell) (a n : Nat) : (mread m a n).length = n := by
  induction n generalizing a with
  | zero => rfl
  | succ n ih => rw [mread, List.length_cons, ih]

section
variable (s : State) (b : Fin 100) (c : Fin 8)

@[simp] theorem State.length_spaceBytes (sp a n : Nat) : (s.spaceBytes b c sp a n).length = n := by
  unfold State.spaceBytes
  split
  · exact length_mread ..
  · split
    · exact length_mread ..
    · exact List.length_replicate
  · exact length_mread ..
  · exact length_mread ..

/-! What a fetch leaves of the stores. -/

@[simp] theorem State.fetched_spaceCheck (sp : Nat) (a : W64) (n : Nat) (wr atomic : Bool) :
    (s.fetched b c).spaceCheck b c sp a n wr atomic = s.spaceCheck b c sp a n wr atomic := by
  rw [State.fetched_eq]
  rfl

@[simp] theorem State.fetched_boundOf : (s.fetched b c).boundOf b c = s.boundOf b c := by
  rw [State.fetched_eq]
  rfl

@[simp] theorem State.fetched_spaceBytes (sp a n : Nat) : (s.fetched b c).spaceBytes b c sp a n = s.spaceBytes b c sp a n := by
  rw [State.fetched_eq]
  rfl

theorem State.fetched_badWords_sublist : (s.fetched b c).badWords.Sublist s.badWords := by
  unfold State.fetched
  dsimp only
  split
  · exact List.Sublist.refl _
  · exact List.filter_sublist

/-- A fetch makes no word bad. -/
theorem State.fetched_badCount {sp a n : Nat} {ce : Bool} (h : s.badCount b c sp a n ce = 0) :
    (s.fetched b c).badCount b c sp a n ce = 0 := by
  unfold State.badCount at h ⊢
  split at h
  case isTrue hsp =>
    rw [if_pos hsp]
    unfold State.badCr at h ⊢
    rw [State.fetched_boundOf]
    exact h
  case isFalse hsp =>
    rw [if_neg hsp]
    exact Nat.eq_zero_of_le_zero (h ▸ ((s.fetched_badWords_sublist b c).filter _).length_le)

/-! The parison bound to a core. -/

/-- What a core is bound to depends on its own binding and on the records alone. -/
theorem State.boundOf_congr {s t : State} (hbound : (t.core (coreNo b c)).bound = (s.core (coreNo b c)).bound)
    (hinst : ∀ k, t.inst? k = s.inst? k) : t.boundOf b c = s.boundOf b c := by
  simp only [State.boundOf, hbound, hinst]

theorem State.spaceBytes_scratch_congr {s t : State} (h : t.boundOf b c = s.boundOf b c) (a n : Nat) :
    t.spaceBytes b c 1 a n = s.spaceBytes b c 1 a n := by
  simp only [State.spaceBytes, h]

/-- A side of a chunk, changed. -/
def Inst.withSide (i : Inst) (ch : Nat) (tw : Bool) (f : Side → Side) : Inst :=
  i.setChunk ((i.chunk ch).setSide tw (f ((i.chunk ch).side tw)))

theorem Inst.side_withSide (i : Inst) (ch : Nat) (tw : Bool) (f : Side → Side) :
    ((i.withSide ch tw f).chunk ch).side tw = f ((i.chunk ch).side tw) := by
  have hidx : ch = ((i.chunk ch).setSide tw (f ((i.chunk ch).side tw))).idx := by simp
  rw [Inst.withSide, Inst.chunk_setChunk, if_pos hidx, Chunk.side_setSide]

theorem State.boundOf_eq_some {s : State} {b : Fin 100} {c : Fin 8} {i : Inst} {ch : Nat} {tw : Bool}
    (h : s.boundOf b c = some (i, ch, tw)) :
    (s.core (coreNo b c)).bound = some (i.key, ch) ∧ s.inst? i.key = some i ∧ i.live = true ∧ tw = (i.bench ch false != b.val) := by
  unfold State.boundOf at h
  split at h
  case h_1 => cases h
  case h_2 key ch' hbound =>
    split at h
    case h_2 => cases h
    case h_1 j hj =>
      split at h
      case isFalse => cases h
      case isTrue hlive =>
        simp only [Option.some.injEq, Prod.mk.injEq] at h
        obtain ⟨rfl, rfl, rfl⟩ := h
        have hkey := State.inst?_key hj
        exact ⟨by rw [hbound, hkey], hkey.symm ▸ hj, hlive, rfl⟩

/-- Changing the parison bound to a core changes that side of it alone. -/
theorem State.boundOf_modSide (f : Side → Side) :
    (s.modSide b c f).boundOf b c = (s.boundOf b c).map (fun y => (y.1.withSide y.2.1 y.2.2 f, y.2)) := by
  cases h : s.boundOf b c with
  | none => simp only [State.modSide, h, Option.map_none]
  | some y =>
    obtain ⟨i, ch, tw⟩ := y
    obtain ⟨hbound, hinst, hlive, htw⟩ := State.boundOf_eq_some h
    have hmod : s.modSide b c f = s.modInst i.key (fun j => j.withSide ch tw f) := by
      simp only [State.modSide, h]
      rfl
    have hthere : (s.modInst i.key (fun j => j.withSide ch tw f)).inst? i.key = some (i.withSide ch tw f) :=
      State.inst?_modInst hinst rfl
    rw [hmod]
    unfold State.boundOf
    rw [State.core_modInst, hbound]
    dsimp only
    rw [hthere]
    dsimp only
    rw [show (i.withSide ch tw f).live = true from hlive, if_pos rfl, htw]
    rfl

theorem State.modSide_eq (f : Side → Side) : s.modSide b c f = { s with coll := (s.modSide b c f).coll } := by
  unfold State.modSide
  split <;> rfl

/-- Forgetting its errors leaves the parison's bytes. -/
theorem State.modSide_spaceBytes {f : Side → Side} (hf : ∀ y, (f y).scratch = y.scratch) (sp a n : Nat) :
    (s.modSide b c f).spaceBytes b c sp a n = s.spaceBytes b c sp a n := by
  unfold State.spaceBytes
  rw [State.boundOf_modSide, State.modSide_eq]
  split
  · rfl
  · cases s.boundOf b c with
    | none => rfl
    | some y => simp only [Option.map_some, Inst.side_withSide, hf]
  · rfl
  · rfl

end

/-! Reading a store. -/

section
variable (s : State) (b : Fin 100) (c : Fin 8) (sp a n : Nat)

/-- The state after words are read without an uncorrectable error: their corrected errors are counted and forgotten. -/
def State.storeRead : State :=
  ((s.bumpBy (spaceCe sp b) (s.badCount b c sp a n true)).clearBad b c sp a n (fun _ ce => ce)).noteLs b c sp a

theorem State.clearBad_eq (p : Nat → Bool → Bool) : s.clearBad b c sp a n p = { s with
    badWords := (s.clearBad b c sp a n p).badWords, coll := (s.clearBad b c sp a n p).coll } := by
  unfold State.clearBad
  split
  · rw [State.modSide_eq]
  · rfl

theorem State.clearBad_coll (h : sp ≠ 1) (p : Nat → Bool → Bool) : (s.clearBad b c sp a n p).coll = s.coll := by
  rw [State.clearBad, if_neg h]

theorem State.clearBad_spaceBytes (p : Nat → Bool → Bool) (sp' a' n' : Nat) :
    (s.clearBad b c sp a n p).spaceBytes b c sp' a' n' = s.spaceBytes b c sp' a' n' := by
  unfold State.clearBad
  split
  · exact State.modSide_spaceBytes s b c
      (f := fun y => { y with bad := y.bad.filter (fun w => !(overlaps a n w.1 8 && p w.1 w.2)) }) (fun _ => rfl) ..
  · rfl

theorem State.noteLs_core (k : Nat) :
    (s.noteLs b c sp a).core k = if k = coreNo b c then (s.core k).near sp a else s.core k := by
  unfold State.noteLs Core.near
  split
  · rw [State.core_modCore]
    split
    · subst_vars; rfl
    · rfl
  · split <;> rfl

theorem State.noteLs_only : s.noteLs b c sp a = { s with cores := (s.noteLs b c sp a).cores } := by
  unfold State.noteLs
  split <;> rfl

@[simp] theorem Core.near_bound (x : Core) : (x.near sp a).bound = x.bound := by
  unfold Core.near
  split <;> rfl

@[simp] theorem Core.near_pc (x : Core) : (x.near sp a).pc = x.pc := by
  unfold Core.near
  split <;> rfl

theorem State.noteLs_spaceBytes (sp' a' n' : Nat) :
    (s.noteLs b c sp a).spaceBytes b c sp' a' n' = s.spaceBytes b c sp' a' n' := by
  have hbound : (s.noteLs b c sp a).boundOf b c = s.boundOf b c := by
    refine State.boundOf_congr b c ?_ (fun k => ?_)
    · rw [State.noteLs_core, if_pos rfl, Core.near_bound]
    · rw [State.noteLs_only]
      rfl
  unfold State.spaceBytes
  rw [hbound, State.noteLs_only]
  rfl

/-- A read of words without an uncorrectable error gives the bytes there (R196). -/
theorem State.readStore_sound (h : s.badCount b c sp a n false = 0) :
    s.readStore b c sp a n = (some (s.spaceBytes b c sp a n), s.storeRead b c sp a n) := by
  rw [State.readStore, h, if_neg (Nat.lt_irrefl 0)]
  dsimp only
  rw [State.clearBad_spaceBytes]
  rfl

theorem State.storeRead_only : s.storeRead b c sp a n = { s with
    cores := (s.storeRead b c sp a n).cores, regs := (s.storeRead b c sp a n).regs,
    badWords := (s.storeRead b c sp a n).badWords, coll := (s.storeRead b c sp a n).coll } := by
  unfold State.storeRead
  rw [State.noteLs_only, State.clearBad_eq]
  rfl

theorem State.storeRead_core (k : Nat) :
    (s.storeRead b c sp a n).core k = if k = coreNo b c then (s.core k).near sp a else s.core k := by
  unfold State.storeRead
  rw [State.noteLs_core, State.clearBad_eq]
  rfl

theorem State.storeRead_bench (i : Nat) : (s.storeRead b c sp a n).bench i = s.bench i := by
  rw [State.storeRead_only]
  rfl

theorem State.storeRead_reg {o : Nat} (ho : o ≠ spaceCe sp b) : (s.storeRead b c sp a n).reg o = s.reg o := by
  unfold State.storeRead
  rw [State.noteLs_only, State.clearBad_eq]
  exact State.reg_setReg_ne _ _ ho

theorem State.storeRead_coll (h : sp ≠ 1) : (s.storeRead b c sp a n).coll = s.coll := by
  unfold State.storeRead
  rw [State.noteLs_only]
  exact State.clearBad_coll _ b c sp a n h _

theorem State.storeRead_spaceBytes (sp' a' n' : Nat) :
    (s.storeRead b c sp a n).spaceBytes b c sp' a' n' = s.spaceBytes b c sp' a' n' := by
  unfold State.storeRead
  rw [State.noteLs_spaceBytes, State.clearBad_spaceBytes]
  rfl

/-- The instruction retires after its read, with a change of its core that keeps what it is bound to. -/
theorem State.storeRead_retire_loadOnly {f : Core → Core} (hf : ∀ x, (f x).bound = x.bound) :
    LoadOnly s ((s.storeRead b c sp a n).retire b c f) b c sp := by
  obtain ⟨⟨⟨hcores, hbenches, hregs⟩, hbench⟩, hrest⟩ := (s.storeRead b c sp a n).retire_only b c f
  have hcoll : ((s.storeRead b c sp a n).retire b c f).coll = (s.storeRead b c sp a n).coll := by rw [State.retire_eq]
  refine ⟨⟨fun k hk => ?_, fun i hi => ?_, ?_, fun o ho hce => ?_, fun hsp => ?_, ?_⟩, ?_, ?_, fun j => ?_⟩
  · rw [hcores k hk, State.storeRead_core, if_neg hk]
  · rw [hbenches i hi, State.storeRead_bench]
  · rw [hbench, State.storeRead_bench, State.storeRead_only]
    rfl
  · rw [hregs o ho, State.storeRead_reg s b c sp a n hce]
  · rw [hcoll, State.storeRead_coll s b c sp a n hsp]
  · have honly := s.storeRead_only b c sp a n
    generalize s.storeRead b c sp a n = u at hrest honly ⊢
    generalize u.retire b c f = t at hrest ⊢
    rw [hrest, honly]
  · rw [State.retire_eq, State.storeRead_only]
  · rw [State.retire_eq, State.storeRead_only]
  · rw [← State.storeRead_spaceBytes s b c sp a n 1 j 1]
    refine State.spaceBytes_scratch_congr b c (State.boundOf_congr b c ?_ (State.inst?_congr (congrArg Coll.insts hcoll))) j 1
    unfold State.retire State.retired
    rw [State.core_modBench, State.countEv_core, State.core_modCore_same]
    exact hf _

end

/-! Loads. -/

@[simp] theorem Core.setS_bound (x : Core) (n : Nat) (v : W64) : (x.setS n v).bound = x.bound := by
  unfold Core.setS
  split <;> rfl

@[simp] theorem Core.setV_bound (x : Core) (n : Nat) (v : W512) : (x.setV n v).bound = x.bound := rfl

section
variable {s : State} {b : Fin 100} {c : Fin 8} {w : W64}

/-- The core of a load once it retires. -/
theorem State.storeRead_retire_core (sp a n : Nat) {f : Core → Core} (hf : ∀ x, (f x).pc = x.pc) :
    ((s.storeRead b c sp a n).retire b c f).core (coreNo b c) =
      (s.core (coreNo b c)).after (f ((s.core (coreNo b c)).near sp a)) := by
  rw [State.retire_core _ _ _ _ (hf _), State.storeRead_core, if_pos rfl]
  simp [Core.after]

/-- LD and LDS of bytes that pass the checks (R230, R231). -/
theorem memLoad_loads (signed : Bool) (hsp : iSpace w ≠ 2)
    (hcheck : s.spaceCheck b c (iSpace w) (memAddr (s.core (coreNo b c)) w) (2 ^ iSz w) false false = 0)
    (hsound : s.badCount b c (iSpace w) (memAddr (s.core (coreNo b c)) w).toNat (2 ^ iSz w) false = 0) :
    LoadOnly s (memLoad b c signed w s) b c (iSpace w) ∧
      (memLoad b c signed w s).core (coreNo b c) = (s.core (coreNo b c)).after
        (((s.core (coreNo b c)).near (iSpace w) (memAddr (s.core (coreNo b c)) w).toNat).setS (iD w)
          (loadVal signed (s.spaceBytes b c (iSpace w) (memAddr (s.core (coreNo b c)) w).toNat (2 ^ iSz w)))) := by
  have hload : memLoad b c signed w s =
      (s.storeRead b c (iSpace w) (memAddr (s.core (coreNo b c)) w).toNat (2 ^ iSz w)).retire b c (fun x => x.setS (iD w)
        (loadVal signed (s.spaceBytes b c (iSpace w) (memAddr (s.core (coreNo b c)) w).toNat (2 ^ iSz w)))) := by
    simp only [memLoad, szBytes, hcheck, hsp, State.readStore_sound s b c _ _ _ hsound, ne_eq, not_true_eq_false, if_false]
  rw [hload]
  exact ⟨State.storeRead_retire_loadOnly s b c _ _ _ (fun x => x.setS_bound ..), State.storeRead_retire_core _ _ _ (fun x => x.setS_pc ..)⟩

theorem loadVal_zero (bs : List Byte) : loadVal false bs = BitVec.ofNat 64 (ofLe bs) := rfl

theorem loadVal_signed {bs : List Byte} {n : Nat} (hlen : bs.length = n) (hn : 0 < n) :
    loadVal true bs = (BitVec.ofNat (8 * n) (ofLe bs)).signExtend 64 := by
  subst hlen
  exact w64_tc_sgn (by omega) _

/-- A guard with an active lane makes an access; one without makes none (R231). -/
theorem byteMask_any (x : Core) (w : W64) : (byteMask x w).any id = decide (x.p (iPg w) ≠ 0) := by
  rw [Bool.eq_iff_iff, decide_eq_true_eq]
  unfold byteMask bit
  rw [List.any_map, List.any_eq_true]
  constructor
  · rintro ⟨i, -, hi⟩ hzero
    simp [hzero] at hi
  · intro hne
    by_contra hnone
    refine hne (BitVec.eq_of_getLsbD_eq fun i hi => ?_)
    rw [show (0 : W64).getLsbD i = false from BitVec.getLsbD_zero]
    by_contra hbit
    exact hnone ⟨i, List.mem_range.mpr hi, by simpa using hbit⟩

/-- The lanes of a vector load: the bytes loaded where the guard is 1 (R221). -/
theorem vLane_loadVec (x : Core) (old : W512) (bs : List Byte) {i : Nat} (hi : i < 64) :
    vLane 8 (loadVec old (byteMask x w) bs) i = if (x.p (iPg w)).getLsbD i then (bs.getD i 0).toNat else vLane 8 old i := by
  have hmask : (byteMask x w).getD i false = (x.p (iPg w)).getLsbD i := by
    simp [byteMask, bit, List.getD_eq_getElem?_getD, hi]
  unfold loadVec
  rw [vLane_ofLanes _ _ _ (by simp), List.getD_eq_getElem _ _ (by simpa using hi), List.getElem_map, List.getElem_range, hmask]
  split
  · exact Nat.mod_eq_of_lt (bs.getD i 0).isLt
  · exact Nat.mod_eq_of_lt (vLane_lt 8 old i)

/-- VLD of bytes that pass the checks (R230, R231). -/
theorem memVld_loads (hguard : (s.core (coreNo b c)).p (iPg w) ≠ 0) (hsp : iSpace w ≠ 2)
    (hcheck : s.spaceCheck b c (iSpace w) (memAddr (s.core (coreNo b c)) w) 64 false false = 0)
    (hsound : s.badCount b c (iSpace w) (memAddr (s.core (coreNo b c)) w).toNat 64 false = 0) :
    LoadOnly s (memVld b c w s) b c (iSpace w) ∧
      (memVld b c w s).core (coreNo b c) = (s.core (coreNo b c)).after
        (((s.core (coreNo b c)).near (iSpace w) (memAddr (s.core (coreNo b c)) w).toNat).setV (iD w)
          (loadVec ((s.core (coreNo b c)).v (iD w)) (byteMask (s.core (coreNo b c)) w)
            (s.spaceBytes b c (iSpace w) (memAddr (s.core (coreNo b c)) w).toNat 64))) := by
  have hload : memVld b c w s =
      (s.storeRead b c (iSpace w) (memAddr (s.core (coreNo b c)) w).toNat 64).retire b c (fun x => x.setV (iD w)
        (loadVec (x.v (iD w)) (byteMask (s.core (coreNo b c)) w)
          (s.spaceBytes b c (iSpace w) (memAddr (s.core (coreNo b c)) w).toNat 64))) := by
    simp only [memVld, byteMask_any, hguard, hcheck, hsp, State.readStore_sound s b c _ _ _ hsound, ne_eq, not_true_eq_false,
      not_false_eq_true, decide_true, Bool.not_true, Bool.false_eq_true, if_false]
  have hnear : ((s.core (coreNo b c)).near (iSpace w) (memAddr (s.core (coreNo b c)) w).toNat).v (iD w) =
      (s.core (coreNo b c)).v (iD w) := by
    unfold Core.near
    split <;> rfl
  rw [hload, ← hnear]
  exact ⟨State.storeRead_retire_loadOnly s b c _ _ _ (fun x => x.setV_bound ..), State.storeRead_retire_core _ _ _ (fun x => x.setV_pc ..)⟩

theorem memVld_masked (hguard : (s.core (coreNo b c)).p (iPg w) = 0) : memVld b c w s = s.retire b c id := by
  simp only [memVld, byteMask_any, hguard, ne_eq, not_true_eq_false, decide_false, Bool.not_false, if_true]

end

/-- Settles O10: each load is its read and its retirement, on the state that the fetch leaves. -/
theorem loadsFromOwnStores : Obligations.LoadsFromOwnStores := by
  unfold Obligations.LoadsFromOwnStores
  intro s b c w x sp a ok n
  have hload (signed : Bool) (hok : ok n) := memLoad_loads (s := s.fetched b c) (b := b) (c := c) (w := w) signed hok.1
    (by rw [State.fetched_core, State.fetched_spaceCheck]; exact hok.2.1)
    (by rw [State.fetched_core]; exact s.fetched_badCount b c hok.2.2)
  simp only [State.fetched_core, State.fetched_spaceBytes] at hload
  refine ⟨fun hfires hok => ?_, fun hfires hok => ?_, fun hissues hguard hok => ?_, fun hissues hguard => ?_⟩
  · obtain ⟨honly, hcore⟩ := hload false hok
    exact ⟨_, coreExec_fires hfires _, honly, hcore⟩
  · obtain ⟨honly, hcore⟩ := hload true hok
    rw [loadVal_signed (State.length_spaceBytes ..) (Nat.two_pow_pos _)] at hcore
    exact ⟨_, coreExec_fires hfires _, honly, hcore⟩
  · obtain ⟨hsp, hcheck, hsound⟩ := hok
    obtain ⟨honly, hcore⟩ := memVld_loads (s := s.fetched b c) (b := b) (c := c) (w := w)
      (by rw [State.fetched_core]; exact hguard) hsp (by rw [State.fetched_core, State.fetched_spaceCheck]; exact hcheck)
      (by rw [State.fetched_core]; exact s.fetched_badCount b c hsound)
    simp only [State.fetched_core, State.fetched_spaceBytes] at hcore
    exact ⟨_, _, laneExec_issues hissues _, honly, hcore, fun i hi => vLane_loadVec x _ _ hi⟩
  · refine ⟨_, laneExec_issues hissues _, ?_⟩
    rw [memVld_masked (by rw [State.fetched_core]; exact hguard)]
    refine ⟨State.retire_only .., ?_⟩
    rw [State.retire_core _ _ _ _ rfl, State.fetched_core]
    rfl

end Sys2Proof.Machine
end

/-! ### Exceptions (R195, R196, R205, R206, R218, R234, R235) -/

section
namespace Sys2Proof.Machine

/-- A fault that is logged changes the log, its counters, the host's copy and what leaves for the host. -/
theorem State.logFault_only (s : State) (f : FaultInfo) : s.logFault f = { s with
    regs := (s.logFault f).regs, fault := (s.logFault f).fault, host := (s.logFault f).host, out := (s.logFault f).out } := by
  unfold State.logFault
  dsimp only
  split
  · rfl
  · rw [State.logEvent_eq]
    split <;> rfl

@[simp] theorem State.logFault_core (s : State) (f : FaultInfo) (k : Nat) : (s.logFault f).core k = s.core k := by
  rw [State.logFault_only]
  rfl

@[simp] theorem State.storeUe_core (s : State) (b sp : Nat) (bound : Option InstKey) (masked : Bool) (k : Nat) :
    (s.storeUe b sp bound masked).core k = s.core k := by
  unfold State.storeUe
  rw [State.logFault_core, State.core_bump]

/-! What raising does. -/

section
variable {s t : State} {b : Fin 100} {c : Fin 8} {cause : Nat} {addr : W64}

/-- An exception depends on what its core then is. -/
theorem raised_congr {u : State} (h : Raised s t b c cause addr) (hcore : u.core (coreNo b c) = t.core (coreNo b c)) :
    Raised s u b c cause addr := by
  obtain ⟨hrun, hcause, hpc, haddr, hs, hv, hp⟩ := h
  constructor <;> rw [hcore] <;> assumption

/-- Halting the cores of bench 99 leaves one that has stopped. -/
theorem raised_halting (h : Raised s t b c cause addr) (k : Nat) :
    Raised s (t.modCore k (fun x => haltCore (if x.run = .stopped then .stopped else .halted) x)) b c cause addr := by
  by_cases hk : coreNo b c = k
  case neg => exact raised_congr h (by rw [State.core_modCore, if_neg hk])
  case pos =>
    subst hk
    obtain ⟨hrun, hcause, hpc, haddr, hs, hv, hp⟩ := h
    constructor <;> rw [State.core_modCore_same]
    · exact if_pos hrun
    all_goals assumption

/-- The state once a core has its exception's record, before the bench or the launch stops. -/
def State.stopCore (s : State) (b : Fin 100) (c : Fin 8) (cause : Nat) (pc : BitVec 13) (addr : W64) : State :=
  (s.modCore (coreNo b c) (fun x =>
    { haltCore .stopped x with bound := x.bound, item := x.item, cause := byte cause, excPc := pc, excAddr := addr })).bump
    (Reg.excCount b c)

theorem State.stopCore_raised (s : State) (b : Fin 100) (c : Fin 8) (cause : Nat) (addr : W64) :
    Raised s (s.stopCore b c cause (s.core (coreNo b c)).pc addr) b c cause addr := by
  unfold State.stopCore
  constructor <;> rw [State.core_bump, State.core_modCore_same] <;> rfl

/-- An exception stops its core and records its cause, instruction and address (R205, R206). -/
theorem State.raise_raised (s : State) (b : Fin 100) (c : Fin 8) (cause : Nat) (addr : W64) :
    Raised s (s.raise b c cause addr) b c cause addr := by
  have hstopped := s.stopCore_raised b c cause addr
  unfold State.raise State.raiseAt
  dsimp only
  split
  case isTrue =>
    have hhalted := List.foldlRecOn (List.range 8) (fun t i => t.modCore (99 * 8 + i) (fun x =>
      haltCore (if x.run = .stopped then .stopped else .halted) x)) (motive := fun t => Raised s t b c cause addr)
      hstopped (fun t ht i _ => raised_halting ht (99 * 8 + i))
    exact raised_congr hhalted (State.logFault_core ..)
  case isFalse =>
    split
    · exact raised_congr hstopped rfl
    · exact hstopped

/-- An exception raised on a state in which the core is as before. -/
theorem State.raise_raised_of_core {u : State} (hcore : u.core (coreNo b c) = s.core (coreNo b c)) (cause : Nat) (addr : W64) :
    Raised s (u.raise b c cause addr) b c cause addr := by
  obtain ⟨hrun, hcause, hpc, haddr, hs, hv, hp⟩ := u.raise_raised b c cause addr
  rw [hcore] at hpc hs hv hp
  exact ⟨hrun, hcause, hpc, haddr, hs, hv, hp⟩

end

/-! The launch that an exception stops. -/

theorem length_modFirst {α : Type} (p : α → Bool) (f : α → α) (l : List α) : (modFirst p f l).length = l.length := by
  induction l with
  | nil => rfl
  | cons x l ih =>
    unfold modFirst
    split
    · rfl
    · rw [List.length_cons, ih, List.length_cons]

/-- The first element that satisfies the predicate is changed. -/
theorem getElem?_modFirst {α : Type} {p : α → Bool} (f : α → α) {l : List α} {i : Nat} {x : α} (hi : l[i]? = some x)
    (hx : p x = true) (hfirst : ∀ j < i, ∀ y, l[j]? = some y → p y = false) : (modFirst p f l)[i]? = some (f x) := by
  induction l generalizing i with
  | nil => cases hi
  | cons y l ih =>
    cases i with
    | zero =>
      obtain rfl : y = x := by simpa using hi
      simp [modFirst, hx]
    | succ i =>
      have hy : p y = false := hfirst 0 (Nat.succ_pos i) y rfl
      simp only [modFirst, hy, Bool.false_eq_true, if_false, List.getElem?_cons_succ]
      exact ih (by simpa using hi) (fun j hj z hz => hfirst (j + 1) (Nat.succ_lt_succ hj) z (by simpa using hz))

/-- An exception's launch is to stop by 2 µs from the first (R206). -/
theorem State.raise_runs {s : State} {b : Fin 100} {n : Nat} (c : Fin 8) (cause : Nat) (addr : W64) (hb : b.val ≠ 99)
    (hn : (s.bench b).launch = some n) : (s.raise b c cause addr).launch.runs =
      modFirst (·.num == n) (fun r => { r with stopAt := some (r.stopAt.getD (s.now + 2000)) }) s.launch.runs := by
  unfold State.raise State.raiseAt
  dsimp only
  rw [if_neg hb, State.bench_bump, State.bench_modCore, hn]
  rfl

/-! Loads and stores that fail a check (R195, R230). -/

section
variable {s : State} {b : Fin 100} {c : Fin 8} {w : W64} {k : Nat} (hk : k ≠ 0)
include hk

theorem memLoad_raises (signed : Bool)
    (h : s.spaceCheck b c (iSpace w) (memAddr (s.core (coreNo b c)) w) (2 ^ iSz w) false false = k) :
    memLoad b c signed w s = s.raise b c k (memAddr (s.core (coreNo b c)) w) := by
  simp only [memLoad, szBytes, h, ne_eq, hk, not_false_eq_true, if_true]

theorem memStore_raises (op n : Nat) (data : List (Option Byte))
    (h : s.spaceCheck b c (iSpace w) (memAddr (s.core (coreNo b c)) w) n true false = k) :
    memStore b c op w n data s = s.raise b c k (memAddr (s.core (coreNo b c)) w) := by
  simp only [memStore, h, ne_eq, hk, not_false_eq_true, if_true]

theorem memVld_raises (hguard : (s.core (coreNo b c)).p (iPg w) ≠ 0)
    (h : s.spaceCheck b c (iSpace w) (memAddr (s.core (coreNo b c)) w) 64 false false = k) :
    memVld b c w s = s.raise b c k (memAddr (s.core (coreNo b c)) w) := by
  simp only [memVld, byteMask_any, h, ne_eq, hk, hguard, not_false_eq_true, decide_true, Bool.not_true, Bool.false_eq_true,
    if_true, if_false]

theorem memVst_raises (hguard : (s.core (coreNo b c)).p (iPg w) ≠ 0)
    (h : s.spaceCheck b c (iSpace w) (memAddr (s.core (coreNo b c)) w) 64 true false = k) :
    memVst b c w s = s.raise b c k (memAddr (s.core (coreNo b c)) w) := by
  simp only [memVst, byteMask_any, ne_eq, hguard, not_false_eq_true, decide_true, Bool.not_true, Bool.false_eq_true, if_false]
  exact memStore_raises hk 5 64 _ h

end

/-! The checks of an access, in their order (R195, R230). -/

section
variable (s : State) (b : Fin 100) (c : Fin 8) {a : W64} {n : Nat} (wr : Bool)

theorem spaceCheck_priv (hb : b.val ≠ 99) : s.spaceCheck b c 3 a n wr false = 0x03 := by
  simp only [State.spaceCheck, ne_eq, hb, not_false_eq_true, and_self, if_true]

theorem spaceCheck_misalign {sp : Nat} (hsp : sp ≠ 3) (ha : a.toNat % n ≠ 0) : s.spaceCheck b c sp a n wr false = 0x05 := by
  simp only [State.spaceCheck, hsp, false_and, if_false, ne_eq, ha, not_false_eq_true, if_true]

section
variable (ha : a.toNat % n = 0)
include ha

theorem spaceCheck_localStore : s.spaceCheck b c 0 a n wr false = if a.toNat + n ≤ 0x40000 then 0 else 0x06 := by
  simp only [State.spaceCheck, ha, ne_eq, not_true_eq_false, if_false, false_and, OfNat.zero_ne_ofNat]

theorem spaceCheck_unbound (hbound : (s.core (coreNo b c)).bound = none) : s.spaceCheck b c 1 a n wr false = 0x07 := by
  simp only [State.spaceCheck, State.boundOf, hbound, ha, ne_eq, not_true_eq_false, if_false, OfNat.one_ne_ofNat, false_and]

theorem spaceCheck_instructionStore (hb : b.val = 99) :
    s.spaceCheck b c 3 a n wr false = if a.toNat + n ≤ 0x10000 then 0 else 0x06 := by
  simp only [State.spaceCheck, hb, ha, ne_eq, not_true_eq_false, and_false, if_false]

theorem spaceCheck_poolAddr (htop : 2 ^ 48 ≤ a.toNat) : s.spaceCheck b c 2 a n wr false = 0x08 := by
  simp only [State.spaceCheck, State.poolCheck, ha, ne_eq, not_true_eq_false, if_false, Nat.reduceEqDiff, false_and, if_pos htop]
  split <;> rfl

theorem spaceCheck_window {x : Nat} {w : Win} (htop : a.toNat < 2 ^ 48) (hctx : s.coreCtx b = some x)
    (hwin : s.findWin x a.toNat n = some w) :
    s.spaceCheck b c 2 a n wr false = if wr = true ∧ w.wr = false then 0x09 else 0 := by
  simp only [State.spaceCheck, State.poolCheck, ha, ne_eq, not_true_eq_false, if_false, Nat.reduceEqDiff, false_and, hctx, hwin,
    if_neg (Nat.not_le.mpr htop)]
  cases wr <;> cases w.wr <;> rfl

end
end

/-- Settles O17: each instruction or fetch comes to one exception, which stops its core with its record. -/
theorem coresRaiseExceptions : Obligations.CoresRaiseExceptions := by
  unfold Obligations.CoresRaiseExceptions
  refine ⟨fun s b c w => ?_, fun s b c a n wr => ?_⟩
  · intro x raises a sp
    have hraise (cause : Nat) (addr : W64) : Raised s ((s.fetched b c).raise b c cause addr) b c cause addr :=
      State.raise_raised_of_core (s.fetched_core b c _) cause addr
    have hbeyond (hruns : s.coreRuns b c = true) (hx : x.beyond = true) :
        exec (.fetchBeyondLoadLimit b c) s = .next (s.raise b c 0x04 0) := by
      simp only [exec_fetchBeyondLoadLimit, execFetchBeyondLoadLimit, hruns, show (s.core (coreNo b c)).beyond = true from hx,
        Bool.and_self, if_true]
    refine ⟨fun hruns hx hread hillegal => ?_, fun hruns hx hbad => ?_, fun m hruns hx hb hm => ?_,
      fun hruns hx => ⟨_, hbeyond hruns hx, s.raise_raised b c 0x04 0⟩, fun hfires hfar => ?_, fun hfires hfar => ?_,
      fun k hcheck hk => ⟨fun hfires => ?_, fun hfires => ?_⟩, fun k hcheck hk hfires => ?_,
      fun k hcheck hk hguard hissues => ?_, fun k hcheck hk hguard hissues => ?_⟩
    · refine ⟨_, ?_, hraise 0x02 0⟩
      simp [execInstructionIllegal, hruns, show (s.core (coreNo b c)).beyond = false from hx, hread, hillegal]
    · refine ⟨(s.storeUe b 3).raise b c 0x01 (BitVec.ofNat 64 (8 * x.pc.toNat)), ?_,
        State.raise_raised_of_core (s.storeUe_core ..) _ _⟩
      simp [execInstructionIllegal, hruns, show (s.core (coreNo b c)).beyond = false from hx, hbad]
      rfl
    · refine ⟨_, hbeyond hruns hx, ?_, fun i r hr hnum hfirst => ?_⟩
      · rw [State.raise_runs c 0x04 0 hb hm, length_modFirst]
      · rw [State.raise_runs c 0x04 0 hb hm, getElem?_modFirst _ hr (by simpa using hnum)
          (fun j hj q hq => by simpa using hfirst j hj q hq)]
        rfl
    · refine ⟨_, (exec_jr b c s).trans (coreExec_fires hfires _), ?_⟩
      rw [State.fetched_core, if_pos hfar]
      exact hraise 0x04 0
    · refine ⟨_, coreExec_fires hfires _, ?_⟩
      rw [ctlPost, State.fetched_core, if_pos hfar]
      exact hraise 0x04 0
    · refine ⟨_, coreExec_fires hfires _, ?_⟩
      rw [memLoad_raises hk false (by rw [State.fetched_core, State.fetched_spaceCheck]; exact hcheck), State.fetched_core]
      exact hraise k a
    · refine ⟨_, coreExec_fires hfires _, ?_⟩
      rw [memLoad_raises hk true (by rw [State.fetched_core, State.fetched_spaceCheck]; exact hcheck), State.fetched_core]
      exact hraise k a
    · refine ⟨_, coreExec_fires hfires _, ?_⟩
      rw [memSt, memStore_raises hk _ _ _ (by rw [State.fetched_core, State.fetched_spaceCheck]; exact hcheck), State.fetched_core]
      exact hraise k a
    · refine ⟨_, laneExec_issues hissues _, ?_⟩
      rw [memVld_raises hk (by rw [State.fetched_core]; exact hguard)
        (by rw [State.fetched_core, State.fetched_spaceCheck]; exact hcheck), State.fetched_core]
      exact hraise k a
    · refine ⟨_, laneExec_issues hissues _, ?_⟩
      rw [memVst_raises hk (by rw [State.fetched_core]; exact hguard)
        (by rw [State.fetched_core, State.fetched_spaceCheck]; exact hcheck), State.fetched_core]
      exact hraise k a
  · refine ⟨fun hb => spaceCheck_priv s b c wr hb, fun sp hsp ha => spaceCheck_misalign s b c wr (by omega) ha,
      fun ha => spaceCheck_localStore s b c wr ha, fun ha hbound => spaceCheck_unbound s b c wr ha hbound,
      fun ha hb => spaceCheck_instructionStore s b c wr ha hb, fun ha htop => spaceCheck_poolAddr s b c wr ha htop,
      fun x w ha htop hctx hwin => spaceCheck_window s b c wr ha htop hctx hwin⟩

end Sys2Proof.Machine
end

/-! ### A record that covers part of a poisoned line (R314, R333) -/

section
namespace Sys2Proof.Machine

/-- The STOP record of a log that ends with its second record (R332, R334). -/
def stopRecord : List Byte := recBytes 0 0x08 recColl 1 0 []

/-- Context 1's STOP record waits for the first half of a line of its log that is poisoned; every controller is awake. -/
def poisonedLog : State :=
  let s := Tests.logged 0 [] {}
  { s with
    recq := [(1, 0x400000000, stopRecord)]
    pool := { s.pool with poisoned := [0x10000000] } }

theorem poisonedLog_clear : Clear poisonedLog .host :=
  ⟨fun _ h => (List.not_mem_nil h).elim, fun _ h => (List.not_mem_nil h).elim, by decide +kernel, by decide +kernel⟩

theorem poisonedLog_awake : poisonedLog.powered = true ∧ poisonedLog.memAwake 0x400000000 stopRecord.length = true := by
  decide +kernel

/-- What a range reads after a command. -/
def bytesAfter (a n : Nat) : Host.Outcome State Fault Refusal → List Byte
  | .next t => t.memRead a n
  | _ => []

/-- The line is written in part, so the record's bytes are dropped (R314). -/
theorem poisonedLog_drops :
    bytesAfter 0x400000000 stopRecord.length (exec .recqStallRelease poisonedLog) = List.replicate 32 0 ∧
      stopRecord ≠ List.replicate 32 0 := by
  decide +kernel

/-- Refutes O34: the queue drains, and what would cover part of a poisoned line of the log is not written (R314); the statement
has every queued record read back from the log, whatever errors its lines hold. -/
theorem not_recordsAndReplays : ¬ Obligations.RecordsAndReplays := by
  unfold Obligations.RecordsAndReplays
  intro h
  obtain ⟨hpowered, hawake⟩ := poisonedLog_awake
  obtain ⟨hdropped, hrecord⟩ := poisonedLog_drops
  obtain ⟨-, -, -, -, -, hdrains, -⟩ := h poisonedLog .host 1 false hpowered poisonedLog_clear
  obtain ⟨t, ht, -, hread, -⟩ := hdrains 1 0x400000000 stopRecord rfl hawake
  rw [ht] at hdropped
  exact hrecord (hread.symm.trans hdropped)

end Sys2Proof.Machine
end

/-! ### A transfer to an instruction store that holds an unreadable word (R196, R200, R201) -/

section
namespace Sys2Proof.Machine

/-- A transfer of 8 bytes from 0x1000 of the pool to the start of the instruction store, tally 5. -/
def imageDesc : DmaDesc := ⟨[w32 (3 + 2 ^ 4 * 5), 8, 0x1000, 0, 0, 0, 0, 0]⟩

/-- Core 0 of bench 0 is halted, with that transfer in progress; its instruction store lists an unreadable word from byte 4,
so the transfer covers half of it. -/
def splitWordState : State :=
  let s := Tests.pooled (Tests.coreAt 0 {} { dmaActive := [(0, (imageDesc, {}))] })
  { s with
    cores := []
    badWords := [{ space := 3, owner := 0, addr := 4 }]
    pool := { s.pool with mem := [(0x1000, 7)] } }

theorem splitWordState_transfers : splitWordState.powered = true ∧ (splitWordState.bench 0).st = .awake ∧
    splitWordState.dmaCode 0 0 imageDesc = 0 ∧ dSpaces imageDesc 0 = some (.pool, .istore) ∧
    splitWordState.dmaSrcBad 0 0 .pool (dSrc imageDesc) (dLen imageDesc) = none ∧
    splitWordState.dmaDstBad .istore (dDst imageDesc) (dLen imageDesc) = none ∧
    splitWordState.memAwake (dSrc imageDesc) (dLen imageDesc) = true ∧
    splitWordState.resident (dSrc imageDesc) (dLen imageDesc) = true ∧
    splitWordState.poolAhead (dSrc imageDesc) (dLen imageDesc) {} = false := by
  decide +kernel

/-- What the instruction store holds at the destination after a command. -/
def imageAfter : Host.Outcome State Fault Refusal → List Byte
  | .next t => dmaAt t 0 0 .istore (dDst imageDesc) (dLen imageDesc)
  | _ => []

/-- A write that covers an unreadable word in part is not made (R196). -/
theorem splitWordState_keeps : imageAfter (exec (.dmaComplete 0 0) splitWordState) ≠
    splitWordState.dmaRead 0 0 .pool (dSrc imageDesc) (dLen imageDesc) := by
  decide +kernel

/-- Refutes O24: the checks of a transfer to an instruction store look at no error of the store, and a write that covers an
unreadable word in part is not made (R196), so the bytes are not in place though the transfer ends OK. The state lists a word
that starts at byte 4: the statement holds every list of unreadable words possible, where a step lists only words at multiples
of 8, which transfers cover whole. -/
theorem not_dmaTransfers : ¬ Obligations.DmaTransfers := by
  unfold Obligations.DmaTransfers
  intro h
  obtain ⟨hpowered, hawake, hcode, hspaces, hsource, hdest, hserved⟩ := splitWordState_transfers
  obtain ⟨-, -, hmoves⟩ := h splitWordState 0 0 imageDesc [] hpowered hawake
  obtain ⟨t, ht, hmoved, -⟩ := hmoves {} .pool .istore rfl hcode hspaces hsource hdest (by
    rintro a (⟨-, rfl⟩ | ⟨himage, -⟩)
    · exact hserved
    · cases himage)
  have hkept := splitWordState_keeps
  rw [ht] at hkept
  exact hkept hmoved

end Sys2Proof.Machine
end

/-! ### Benches sleep, wake and ramp; the warden restarts (R193, R208-R210, R407) -/

section
namespace Sys2Proof.Machine

/-! Sleep. -/

/-- The registers of the bench's cores and the count of free values change, and nothing else. -/
theorem State.loseRegs_only (s : State) (b : Nat) : s.loseRegs b = { s with
    freeCtr := (s.loseRegs b).freeCtr, cores := (s.loseRegs b).cores } := by
  unfold State.loseRegs
  dsimp only
  refine List.foldlRecOn (motive := fun t : State => t = { s with freeCtr := t.freeCtr, cores := t.cores }) _ _ rfl ?_
  intro t ht c _
  rw [ht]
  rfl

/-- Slowing benches' clocks leaves whether they run and since when. -/
theorem halfRates_keep (t : State) (l : List Nat) :
    let u := l.foldl (fun s i => s.modBench i (fun x => { x with halfRate := true })) t
    u = { t with benches := u.benches } ∧
      ∀ i, (u.bench i).st = (t.bench i).st ∧ (u.bench i).wokeAt = (t.bench i).wokeAt := by
  dsimp only
  refine List.foldlRecOn (motive := fun u : State => u = { t with benches := u.benches } ∧
    ∀ i, (u.bench i).st = (t.bench i).st ∧ (u.bench i).wokeAt = (t.bench i).wokeAt) _ _ ⟨rfl, fun _ => ⟨rfl, rfl⟩⟩ ?_
  rintro u ⟨hu, hbench⟩ j -
  refine ⟨by rw [hu]; rfl, fun i => ?_⟩
  rw [State.bench_modBench]
  split
  · subst_vars
    exact hbench _
  · exact hbench i

/-- A bench's registers are lost, its state and its stores are not. -/
theorem State.loseRegs_keep (s : State) (b : Nat) : (s.loseRegs b).benches = s.benches ∧ (s.loseRegs b).ls = s.ls ∧
    (s.loseRegs b).is = s.is ∧ (s.loseRegs b).regs = s.regs ∧ (s.loseRegs b).pool = s.pool := by
  rw [State.loseRegs_only]
  exact ⟨rfl, rfl, rfl, rfl, rfl⟩

section
variable {s : State} {b : Fin 100} (hpow : s.powered = true)
include hpow

theorem exec_benchSleep_sleeps (hawake : (s.bench b).st = .awake) (hidle : s.benchIdle b = true) :
    exec (.benchSleep b false) s = .next ((s.modBench b (fun x => { x with st := .asleep })).loseRegs b) := by
  simp [execBenchSleep, hpow, hawake, hidle]

theorem exec_benchSleep_races (hawake : (s.bench b).st = .awake) (hidle : s.benchIdle b = true) :
    exec (.benchSleep b true) s = .next ((s.bump (Reg.wakeRace b)).modBench b (fun x => { x with idleSince := s.now })) := by
  simp [execBenchSleep, hpow, hawake, hidle]

/-! Waking. -/

theorem exec_benchWakeComplete_wakes (hwaking : (s.bench b).st = .waking) : ∃ t, exec (.benchWakeComplete b) s = .next t ∧
    (t.bench b).st = .awake ∧ (t.bench b).wokeAt = s.now ∧ t = { s with benches := t.benches } := by
  simp only [exec_benchWakeComplete, execBenchWakeComplete, hpow, hwaking, Bool.not_true, Bool.false_or, ne_eq, not_true_eq_false,
    decide_false, Bool.false_eq_true, if_false]
  refine ⟨_, rfl, ?_⟩
  split
  · obtain ⟨honly, hbench⟩ := halfRates_keep (s.modBench b (fun x => { x with
      st := .awake, wokeAt := s.now, idleSince := s.now, progressAt := s.now })) _
    rw [(hbench b).1, (hbench b).2, State.bench_modBench_same]
    refine ⟨rfl, rfl, honly.trans rfl⟩
  · rw [State.bench_modBench_same]
    exact ⟨rfl, rfl, rfl⟩

theorem exec_clockRampComplete_ramps (hhalf : (s.bench b).halfRate = true) (hsince : (s.bench b).wokeAt + 20000 ≤ s.now) :
    exec (.clockRampComplete b) s = .next (s.modBench b (fun x => { x with halfRate := false })) := by
  simp [execClockRampComplete, hpow, hhalf, us, hsince]

end

/-! The warden. -/

section
variable (s : State)

/-- The cores of bench 99 at rest. -/
def wardenRests (t : State) : Prop :=
  ∀ k, k < 8 → (t.core (99 * 8 + k)).run = .halted ∨ (t.core (99 * 8 + k)).run = .stopped

/-- A core that was told to halt is halted, or was stopped by its exception. -/
theorem haltCore_rests (x : Core) : (haltCore (if x.run = .stopped then .stopped else .halted) x).run = .halted ∨
    (haltCore (if x.run = .stopped then .stopped else .halted) x).run = .stopped := by
  unfold haltCore
  dsimp only
  split
  · exact .inr rfl
  · exact .inl rfl

/-- Cores changed one by one, each of them as its own change has it. -/
theorem State.core_foldl_modCore {f : Core → Core} (base n : Nat) (k : Nat) :
    ((List.range n).foldl (fun s i => s.modCore (base + i) f) s).core k =
      if base ≤ k ∧ k < base + n then f (s.core k) else s.core k := by
  induction n with
  | zero => rw [if_neg (by omega)]; rfl
  | succ n ih =>
    rw [List.range_succ, List.foldl_append, List.foldl_cons, List.foldl_nil, State.core_modCore]
    by_cases hk : k = base + n
    · subst hk
      rw [if_pos rfl, ih, if_neg (by omega), if_pos (by omega)]
    · rw [if_neg hk, ih]
      by_cases hin : base ≤ k ∧ k < base + n
      · rw [if_pos hin, if_pos (by omega)]
      · rw [if_neg hin, if_neg (by omega)]

/-- Changing cores leaves the fault unit. -/
theorem State.modCores_fault (base n : Nat) (f : Core → Core) (s : State) :
    ((List.range n).foldl (fun s i => s.modCore (base + i) f) s).fault = s.fault :=
  List.foldlRecOn (motive := fun t : State => t.fault = s.fault) _ _ rfl fun _ ht _ _ => ht

/-- The fields of the fault unit that logging changes are those of the log. -/
theorem State.logFault_fault (f : FaultInfo) : (s.logFault f).fault = { s.fault with
    log := (s.logFault f).fault.log, next := (s.logFault f).fault.next, recent := (s.logFault f).fault.recent,
    lastSevere := (s.logFault f).fault.lastSevere } := by
  unfold State.logFault
  dsimp only
  split
  · rfl
  · rw [State.logEvent_eq]
    split <;> rfl

/-- Core `c` of bench 99 is cleared, loaded and started. -/
def State.startWardenCore (bs : List Byte) (e : W64) (s : State) (c : Nat) : State :=
  { ((s.clearLs (99 * 8 + c)).clearIs (99 * 8 + c)) with
    is := mwrite ((s.clearLs (99 * 8 + c)).clearIs (99 * 8 + c)).is ((99 * 8 + c) * 65536) (bs.take 65536) }.modCore (99 * 8 + c) (fun x =>
      clearExc (startCore (fld e 0 13) [] none none { x with loadLimit := cdiv (min bs.length 65536) 8 }))

/-- A started core: running, with every register 0 and no exception recorded. -/
def Core.freshlyStarted (x : Core) : Prop := x.run = .running ∧ x.sreg = [] ∧ x.cause = 0

theorem State.startWardenCore_starts (bs : List Byte) (e : W64) (c : Nat) :
    ((s.startWardenCore bs e c).core (99 * 8 + c)).freshlyStarted := by
  unfold State.startWardenCore
  rw [State.core_modCore_same]
  exact ⟨rfl, rfl, rfl⟩

/-- Clearing an instruction store leaves the other cores. -/
theorem State.clearIs_core_ne {j k : Nat} (h : k ≠ j) : (s.clearIs j).core k = s.core k := by
  unfold State.clearIs
  rw [State.core_modCore, if_neg h]
  rfl

theorem State.startWardenCore_other (bs : List Byte) (e : W64) {c k : Nat} (hk : k ≠ 99 * 8 + c) :
    (s.startWardenCore bs e c).core k = s.core k := by
  unfold State.startWardenCore
  rw [State.core_modCore, if_neg hk]
  exact State.clearIs_core_ne (s.clearLs (99 * 8 + c)) hk

theorem State.startWardenCore_only (bs : List Byte) (e : W64) (c : Nat) : s.startWardenCore bs e c = { s with
    cores := (s.startWardenCore bs e c).cores, ls := (s.startWardenCore bs e c).ls, is := (s.startWardenCore bs e c).is,
    badWords := (s.startWardenCore bs e c).badWords } := rfl

/-- The cores of bench 99 started one after the other. -/
theorem State.startWardenCores (bs : List Byte) (e : W64) (n : Nat) :
    let t := (List.range n).foldl (State.startWardenCore bs e) s
    t = { s with cores := t.cores, ls := t.ls, is := t.is, badWords := t.badWords } ∧
      ∀ k < n, (t.core (99 * 8 + k)).freshlyStarted := by
  dsimp only
  induction n with
  | zero => exact ⟨rfl, fun k hk => absurd hk (Nat.not_lt_zero k)⟩
  | succ n ih =>
    rw [List.range_succ, List.foldl_append, List.foldl_cons, List.foldl_nil]
    obtain ⟨honly, hstarted⟩ := ih
    refine ⟨?_, fun k hk => ?_⟩
    · generalize (List.range n).foldl (State.startWardenCore bs e) s = t at honly ⊢
      rw [State.startWardenCore_only t, honly]
    · by_cases hlast : k = n
      · subst hlast
        exact State.startWardenCore_starts ..
      · rw [State.startWardenCore_other _ _ _ (by omega)]
        exact hstarted k (by omega)

/-- Bench 99 as the steward starts its program: awake, with no tally. -/
def State.wardenWoken : State :=
  (s.free.2.wakeBench 99).modBench 99 (fun x => { x with
    tallies := [], st := .awake, wokeAt := if x.st = .awake then x.wokeAt else s.now,
    idleSince := s.now, progressAt := s.now })

theorem State.startWarden_eq :
    s.startWarden = (List.range 8).foldl (State.startWardenCore s.wardenBundle s.free.1) s.wardenWoken := rfl

/-- A demand on a bench counts its wake, or stirs it. -/
theorem State.wakeBench_only (b : Nat) : s.wakeBench b = { s with
    regs := (s.wakeBench b).regs, benches := (s.wakeBench b).benches } := by
  unfold State.wakeBench
  split <;> rfl

theorem State.wakeBench_reg (b : Nat) {o : Nat} (ho : o ≠ Reg.wakeCount b) : (s.wakeBench b).reg o = s.reg o := by
  unfold State.wakeBench
  split
  · exact State.reg_setReg_ne s _ ho
  · rfl

/-- The program starts: bench 99 awake, its cores running afresh (R193, R470). -/
theorem State.startWarden_starts : (s.startWarden.bench 99).st = .awake ∧ s.startWarden.fault = s.fault ∧
    (∀ o, o ≠ Reg.wakeCount 99 → s.startWarden.reg o = s.reg o) ∧
    ∀ k < 8, (s.startWarden.core (99 * 8 + k)).freshlyStarted := by
  have hwoken : (s.wardenWoken.bench 99).st = .awake ∧ s.wardenWoken.fault = s.fault ∧
      ∀ o, o ≠ Reg.wakeCount 99 → s.wardenWoken.reg o = s.reg o := by
    refine ⟨?_, ?_, fun o ho => State.wakeBench_reg _ 99 ho⟩
    · rw [State.wardenWoken, State.bench_modBench_same]
    · rw [State.wardenWoken, State.wakeBench_only]
      rfl
  obtain ⟨hawake, hfault, hreg⟩ := hwoken
  obtain ⟨honly, hstarted⟩ := s.wardenWoken.startWardenCores s.wardenBundle s.free.1 8
  rw [← State.startWarden_eq] at honly hstarted
  generalize s.startWarden = u at honly hstarted ⊢
  generalize s.wardenWoken = w at honly hawake hfault hreg
  refine ⟨?_, ?_, fun o ho => ?_, hstarted⟩
  · rw [honly]
    exact hawake
  · rw [honly]
    exact hfault
  · rw [honly]
    exact hreg o ho

end

section
variable {s : State} (hpow : s.powered = true) (howed : s.fault.wardenOwed = true) (hheld : s.fault.wardenHeld = false)
  (hup : s.fault.stewardUp = true) (hreset : s.fault.reset = none)
include hpow howed hheld hup hreset

/-- The restarts of the last 600 s. -/
def State.recentRestarts (s : State) : List Nat :=
  s.fault.wardenRestarts.filter (fun t => decide (s.now ≤ t + 600000000000))

/-- After 8 restarts in 600 s the steward holds bench 99 (R407). -/
theorem exec_wardenRestart_holds (hmany : 8 ≤ s.recentRestarts.length) : ∃ t, exec .wardenRestart s = .next t ∧
    t.fault.wardenOwed = false ∧ t.fault.wardenHeld = true ∧ wardenRests t := by
  have hmany' : 8 ≤ (s.fault.wardenRestarts.filter (fun t => decide (s.now ≤ t + 600 * sec))).length := hmany
  rw [exec_wardenRestart, execWardenRestart, if_neg (by simp [hpow, howed, hheld, hup, hreset]), if_pos hmany']
  have hcores := State.modCores_fault (99 * 8) 8 (fun x : Core => haltCore (if x.run = .stopped then .stopped else .halted) x)
    { s with fault := { s.fault with wardenHeld := true, wardenOwed := false } }
  refine ⟨_, rfl, ?_, ?_, fun k hk => ?_⟩
  · rw [State.logFault_fault, hcores]
  · rw [State.logFault_fault, hcores]
  · rw [State.logFault_core, State.core_foldl_modCore, if_pos (by omega)]
    exact haltCore_rests _

/-- Otherwise it restarts the program (R193, R407). -/
theorem exec_wardenRestart_restarts (hfew : s.recentRestarts.length < 8) : ∃ t, exec .wardenRestart s = .next t ∧
    t.fault.wardenOwed = false ∧ t.fault.wardenHeld = false ∧ t.fault.wardenRestarts = s.recentRestarts ++ [s.now] ∧
    (t.bench 99).st = .awake ∧ t.regN Reg.wardenRestarts = min (s.regN Reg.wardenRestarts + 1) 0xFFFFFFFF ∧
    ∀ k < 8, (t.core (99 * 8 + k)).freshlyStarted := by
  have hfew' : ¬ 8 ≤ (s.fault.wardenRestarts.filter (fun t => decide (s.now ≤ t + 600 * sec))).length := Nat.not_le.mpr hfew
  rw [exec_wardenRestart, execWardenRestart, if_neg (by simp [hpow, howed, hheld, hup, hreset]), if_neg hfew']
  obtain ⟨hawake, hfault, hreg, hstarted⟩ := State.startWarden_starts (State.bump { s with fault := { s.fault with
    wardenOwed := false, wardenRestarts := s.recentRestarts ++ [s.now] } } Reg.wardenRestarts)
  refine ⟨_, rfl, ?_, ?_, ?_, hawake, ?_, hstarted⟩
  · exact congrArg FaultUnit.wardenOwed hfault
  · exact (congrArg FaultUnit.wardenHeld hfault).trans hheld
  · exact congrArg FaultUnit.wardenRestarts hfault
  · exact (congrArg BitVec.toNat (hreg Reg.wardenRestarts (by decide))).trans (State.regN_bump ..)

end

/-- Settles O25: each command's gate is open, so it does what its own lemma says. -/
theorem benchesSleepAndWake : Obligations.BenchesSleepAndWake := by
  unfold Obligations.BenchesSleepAndWake
  intro s b hpow
  refine ⟨fun hawake hidle => ?_, fun hawake hidle => ?_, fun hwaking => ?_,
    fun hhalf hsince => exec_clockRampComplete_ramps hpow hhalf hsince, fun howed hheld hup hreset => ?_⟩
  · obtain ⟨hbenches, hls, his, hregs, hpool⟩ := State.loseRegs_keep (s.modBench b (fun x => { x with st := .asleep })) b
    refine ⟨_, exec_benchSleep_sleeps hpow hawake hidle, ?_, ?_, hls, his, hregs, hpool⟩
    · rw [State.bench, hbenches]
      exact congrArg Bench.st (State.bench_modBench_same ..)
    · rw [State.bench, hbenches]
      exact (congrArg Bench.tallies (State.bench_modBench_same ..)).trans rfl
  · refine ⟨_, exec_benchSleep_races hpow hawake hidle, ?_, rfl, State.regN_bump ..⟩
    rw [State.bench_modBench_same]
    exact hawake
  · obtain ⟨t, ht, hst, hwoke, honly⟩ := exec_benchWakeComplete_wakes hpow hwaking
    exact ⟨t, ht, hst, hwoke, by rw [honly], by rw [honly], by rw [honly]⟩
  · rcases Nat.lt_or_ge s.recentRestarts.length 8 with hfew | hmany
    · obtain ⟨t, ht, hnotOwed, hnotHeld, hlist, hawake, hcount, hstarted⟩ :=
        exec_wardenRestart_restarts hpow howed hheld hup hreset hfew
      exact ⟨t, ht, hnotOwed, fun hmany => absurd hmany (Nat.not_le.mpr hfew), fun _ => ⟨hnotHeld, hlist, hawake, hcount, hstarted⟩⟩
    · obtain ⟨t, ht, hnotOwed, hnowHeld, hrests⟩ := exec_wardenRestart_holds hpow howed hheld hup hreset hmany
      exact ⟨t, ht, hnotOwed, fun _ => ⟨hnowHeld, hrests⟩, fun hfew => absurd hfew (Nat.not_lt.mpr hmany)⟩

end Sys2Proof.Machine
end


/-! ### The bytes and the message of a core's contribution (R119, R160, R174, R254, R256) -/

section
namespace Sys2Proof.Machine

/-! Lengths of encoded elements. -/

@[simp] theorem length_leBytes (k n : Nat) : (leBytes k n).length = k := by
  induction k generalizing n with
  | zero => rfl
  | succ k ih => rw [leBytes, List.length_cons, ih]

theorem ofLe_leBytes (k n : Nat) : ofLe (leBytes k n) = n % 256 ^ k := by
  induction k generalizing n with
  | zero => rw [leBytes, ofLe, Nat.pow_zero, Nat.mod_one]
  | succ k ih =>
    have hbyte : (byte n).toNat = n % 256 := BitVec.toNat_ofNat ..
    rw [leBytes, ofLe, ih, hbyte, Nat.pow_succ', Nat.mod_mul]

theorem length_chunksOf {α : Type} {k : Nat} (hk : 0 < k) : ∀ (f m : Nat) (xs : List α), xs.length = k * m → m ≤ f →
    (chunksOf k f xs).length = m := by
  intro f
  induction f with
  | zero =>
    intro m xs _ hm
    rw [Nat.le_zero.mp hm]
    rfl
  | succ f ih =>
    intro m xs hlen hm
    rw [chunksOf]
    cases m with
    | zero => rw [List.eq_nil_of_length_eq_zero hlen]; rfl
    | succ m =>
      have hpos : xs ≠ [] := by
        rintro rfl
        simp only [List.length_nil, Nat.mul_succ] at hlen
        omega
      rw [if_neg (by simpa using hpos), List.length_cons, ih m (xs.drop k) (by rw [List.length_drop, hlen, Nat.mul_succ]; omega) (by omega)]

theorem length_mxBlock (t : Nat) (c : RoundCtx) (i0 : Nat) (vs : List Val) : (mxBlock t c i0 vs).bytes.length = 1 + 4 * etypeBits t := by
  unfold mxBlock
  dsimp only
  split <;> rw [List.length_cons, length_leBytes, Nat.add_comm]

/-- The blocks of an MX encoding, one after the other. -/
theorem length_mxBlocks (t : Nat) (c : RoundCtx) (ps : List (List Val × Nat)) (a : Encoded) :
    (ps.foldl (fun a p =>
      let b := mxBlock t c (32 * p.2) p.1
      { bytes := a.bytes ++ b.bytes, sat := a.sat + b.sat, nanInt := a.nanInt, sr := a.sr + b.sr }) a).bytes.length =
      a.bytes.length + ps.length * (1 + 4 * etypeBits t) := by
  induction ps generalizing a with
  | nil => simp
  | cons p ps ih =>
    rw [List.foldl_cons, ih]
    dsimp only
    rw [List.length_append, length_mxBlock, List.length_cons]
    ring

/-- Elements outside the MX types take whole bytes. -/
theorem etypeBits_dvd {t : Nat} (h : isMx t = false) : etypeBits t / 8 * 8 = etypeBits t := by
  unfold etypeBits
  split <;> simp_all [isMx]

theorem length_encodeElems {t : Nat} (c : RoundCtx) {vs : List Val} (h : isMx t = true → vs.length % 32 = 0) :
    (encodeElems t c vs).bytes.length = elemBytes t vs.length := by
  unfold encodeElems elemBytes
  split
  · rename_i hmx
    rw [length_mxBlocks, List.length_zipIdx, length_chunksOf (by decide) _ (vs.length / 32) _ (by have := h hmx; omega) (by omega)]
    have hblocks : cdiv vs.length 32 = vs.length / 32 := by
      have := h hmx
      unfold cdiv
      omega
    rw [hblocks, List.length_nil, Nat.zero_add]
  · rename_i hmx
    dsimp only
    have hwhole := etypeBits_dvd (Bool.not_eq_true _ ▸ hmx)
    simp only [List.length_flatten, List.map_map, Function.comp_def, length_leBytes, List.map_const', List.sum_replicate,
      List.length_zipIdx, smul_eq_mul]
    generalize etypeBits t = n at hwhole ⊢
    obtain ⟨m, rfl⟩ : ∃ m, n = m * 8 := ⟨n / 8, hwhole.symm⟩
    rw [Nat.mul_div_cancel _ (by decide), ← Nat.mul_assoc, Nat.mul_div_cancel _ (by decide)]

/-! The message. -/

@[simp] theorem length_subOf (k : InstKey) (stype chunk member ecount : Nat) (dg aux : W32) :
    (subOf k stype chunk member ecount dg aux).length = 24 := by
  simp [subOf]

/-- A word of the subheader is the subheader's, whatever follows it. -/
theorem u32_append {xs : List Byte} (ys : List Byte) {i : Nat} (h : i + 4 ≤ xs.length) : u32 (xs ++ ys) i = u32 xs i := by
  unfold u32 slice
  rw [List.drop_append_of_le_length (by omega), List.take_append_of_le_length (by rw [List.length_drop]; omega)]

/-- A message's fields but its payload come from the subheader. -/
theorem collMsg_append {sub : List Byte} (hsub : sub.length = 24) (xs ys : List Byte) (src : W32) (part vc : Nat) (poison : Bool)
    (lp : Option Nat) (core : Option (Nat × Nat)) (units : Nat) (logged : Bool) :
    collMsg (sub ++ xs) src part vc poison lp core units logged =
      { collMsg (sub ++ ys) src part vc poison lp core units logged with payload := sub ++ xs } := by
  unfold collMsg
  dsimp only
  have hword : ∀ i, i + 4 ≤ 24 → ∀ zs, u32 (sub ++ zs) i = u32 sub i := fun i hi zs => u32_append zs (by omega)
  simp only [hword 0 (by decide), hword 4 (by decide), hword 8 (by decide), hword 12 (by decide), hword 16 (by decide),
    hword 20 (by decide)]

section
variable (s : State) (b : Fin 100) (c : Fin 8) (co : W64) (stype chunk ecount : Nat)

/-- Messages of a core that differ in their elements, as many bytes of them, differ in their payload alone. -/
theorem collMsgOf_coreMsg_elems {xs ys : List Byte} (h : xs.length = ys.length) :
    collMsgOf (s.coreMsg b c co stype chunk ecount xs) = { collMsgOf (s.coreMsg b c co stype chunk ecount ys) with
      payload := (collMsgOf (s.coreMsg b c co stype chunk ecount xs)).payload } := by
  unfold State.coreMsg collMsgOf mkPacket
  dsimp only
  rw [List.length_append, List.length_append, h]
  exact collMsg_append (length_subOf ..) ..

/-- A core's message is a subheader and its elements. -/
theorem payload_coreMsg (xs : List Byte) : ∃ step member dg aux, (collMsgOf (s.coreMsg b c co stype chunk ecount xs)).payload =
    subOf { handle := coHandle co, gen := (s.ctx (handleCtx (coHandle co))).gen, step := step } stype chunk member ecount dg aux ++ xs :=
  ⟨_, _, _, _, rfl⟩

theorem length_payload_coreMsg (xs : List Byte) :
    (collMsgOf (s.coreMsg b c co stype chunk ecount xs)).payload.length = 24 + xs.length := by
  obtain ⟨step, member, dg, aux, hpayload⟩ := payload_coreMsg s b c co stype chunk ecount xs
  rw [hpayload, List.length_append, length_subOf]

/-- The first word of a subheader names its handle, its generation and its kind. -/
theorem u32_subOf (k : InstKey) (member : Nat) (dg aux : W32) (xs : List Byte) :
    u32 (subOf k stype chunk member ecount dg aux ++ xs) 0 =
      (k.handle.toNat + k.gen.toNat * 2 ^ 20 + stype * 2 ^ 28) % 256 ^ 4 := by
  have hword : pack [(0, k.handle.toNat), (20, k.gen.toNat), (28, stype)] =
      k.handle.toNat + k.gen.toNat * 2 ^ 20 + stype * 2 ^ 28 := by
    rw [pack_cons, pack_cons, pack_cons, show pack [] = 0 from rfl, Nat.pow_zero, Nat.mul_one, Nat.add_zero, Nat.add_assoc]
  rw [u32_append _ (by rw [length_subOf]; decide), subOf]
  simp only [List.append_assoc]
  rw [u32_append _ (by rw [length_leBytes])]
  unfold u32 slice
  dsimp only
  rw [List.drop_zero, List.take_of_length_le (by rw [length_leBytes]), length_leBytes, Nat.sub_self, List.replicate_zero,
    List.append_nil, ofLe_leBytes, hword]

theorem u32_payload_coreMsg (xs : List Byte) :
    u32 (collMsgOf (s.coreMsg b c co stype chunk ecount xs)).payload 0 =
      ((coHandle co).toNat + (s.ctx (handleCtx (coHandle co))).gen.toNat * 2 ^ 20 + stype * 2 ^ 28) % 256 ^ 4 := by
  obtain ⟨step, member, dg, aux, hpayload⟩ := payload_coreMsg s b c co stype chunk ecount xs
  rw [hpayload, u32_subOf]

theorem collMsgOf_coreMsg_handle (xs : List Byte) : (collMsgOf (s.coreMsg b c co stype chunk ecount xs)).key.handle = coHandle co := by
  change BitVec.ofNat 20 (fld (w32 (u32 (collMsgOf (s.coreMsg b c co stype chunk ecount xs)).payload 0)) 0 20) = _
  rw [u32_payload_coreMsg]
  apply BitVec.eq_of_toNat_eq
  have hhandle := (coHandle co).isLt
  simp only [fld, w32, BitVec.toNat_ofNat]
  generalize (coHandle co).toNat = h at hhandle ⊢
  omega

theorem collMsgOf_coreMsg_stype {stype : Nat} (h : stype < 16) (xs : List Byte) :
    (collMsgOf (s.coreMsg b c co stype chunk ecount xs)).stype = stype := by
  change fld (w32 (u32 (collMsgOf (s.coreMsg b c co stype chunk ecount xs)).payload 0)) 28 4 = _
  rw [u32_payload_coreMsg]
  have hhandle := (coHandle co).isLt
  have hgen := (s.ctx (handleCtx (coHandle co))).gen.isLt
  simp only [fld, w32, BitVec.toNat_ofNat]
  generalize (coHandle co).toNat = h at hhandle ⊢
  omega

end

end Sys2Proof.Machine
end


/-! ### What the collective unit's work leaves to the cores (R199, R256) -/

section
namespace Sys2Proof.Machine

/-- No core, store or pool byte differs, nor the device's own coordinate. -/
structure Spares (s t : State) : Prop where
  cores : t.cores = s.cores
  ls : t.ls = s.ls
  is : t.is = s.is
  badWords : t.badWords = s.badWords
  mem : t.pool.mem = s.pool.mem
  coord : t.reg Reg.ownCoord = s.reg Reg.ownCoord

namespace Spares

theorem refl (s : State) : Spares s s := ⟨rfl, rfl, rfl, rfl, rfl, rfl⟩

theorem trans {s t u : State} (h : Spares s t) (k : Spares t u) : Spares s u :=
  ⟨k.cores.trans h.cores, k.ls.trans h.ls, k.is.trans h.is, k.badWords.trans h.badWords, k.mem.trans h.mem, k.coord.trans h.coord⟩

theorem ite {p : Prop} [Decidable p] {s t u : State} (ht : Spares s t) (hu : Spares s u) : Spares s (if p then t else u) := by
  split
  · exact ht
  · exact hu

theorem foldl {α : Type} {f : State → α → State} (hf : ∀ s a, Spares s (f s a)) (l : List α) (s : State) : Spares s (l.foldl f s) :=
  List.foldlRecOn (motive := Spares s) _ _ (refl s) fun _ h a _ => h.trans (hf _ a)

theorem core {s t : State} (h : Spares s t) (k : Nat) : t.core k = s.core k := by rw [State.core, State.core, h.cores]

theorem setReg {o : Nat} (ho : Reg.ownCoord ≠ o) (s : State) (v : W64) : Spares s (s.setReg o v) :=
  ⟨rfl, rfl, rfl, rfl, rfl, State.reg_setReg_ne s v ho⟩

theorem bumpBy {o : Nat} (ho : Reg.ownCoord ≠ o) (s : State) (n : Nat) : Spares s (s.bumpBy o n) := setReg ho s _

theorem bump {o : Nat} (ho : Reg.ownCoord ≠ o) (s : State) : Spares s (s.bump o) := setReg ho s _

theorem trackMax {o : Nat} (ho : Reg.ownCoord ≠ o) (s : State) (v : Nat) : Spares s (s.trackMax o v) := ite (setReg ho s _) (refl s)

theorem countEv (s : State) (blk code n : Nat) (vc l : Option Nat) : Spares s (s.countEv blk code n vc l) := by
  refine ⟨?_, ?_, ?_, ?_, ?_, State.countEv_reg _ _ _ _ _ _ _ (fun k _ => ?_) ?_⟩
  case refine_6 => simp only [Reg.cnt, Reg.ownCoord]; omega
  case refine_7 => simp only [Reg.ovf, Reg.ownCoord]; omega
  all_goals rw [State.countEv_eq]

theorem modPool (s : State) {f : Pool → Pool} (hmem : (f s.pool).mem = s.pool.mem) : Spares s (s.modPool f) :=
  ⟨rfl, rfl, rfl, rfl, hmem, rfl⟩

theorem modMem (s : State) (m : Nat) (f : MemCtl → MemCtl) : Spares s (s.modMem m f) := ⟨rfl, rfl, rfl, rfl, rfl, rfl⟩
theorem modBench (s : State) (b : Nat) (f : Bench → Bench) : Spares s (s.modBench b f) := ⟨rfl, rfl, rfl, rfl, rfl, rfl⟩
theorem modColl (s : State) (f : Coll → Coll) : Spares s (s.modColl f) := ⟨rfl, rfl, rfl, rfl, rfl, rfl⟩
theorem modInst (s : State) (k : InstKey) (f : Inst → Inst) : Spares s (s.modInst k f) := ⟨rfl, rfl, rfl, rfl, rfl, rfl⟩

theorem logFault (s : State) (f : FaultInfo) : Spares s (s.logFault f) := by
  refine ⟨?_, ?_, ?_, ?_, ?_, State.logFault_reg s f (by decide) (by decide)⟩
  all_goals rw [State.logFault_only]

/-! Reads of the pool. -/

theorem ownCoord_ne_memReg (m off : Nat) : Reg.ownCoord ≠ memReg m off := by
  unfold memReg
  split <;> simp only [Reg.ownCoord] <;> omega

theorem ceFound (s : State) (line : Nat) : Spares s (s.ceFound line) := (bump (ownCoord_ne_memReg _ _) s).trans (modMem ..)

theorem ueMark (s : State) (home line cls code : Nat) (ctx : Option Nat) : Spares s (s.ueMark home line cls code ctx) :=
  ite (refl s) <| (modPool s rfl).trans <| (bump (ownCoord_ne_memReg _ _) _).trans <| (modMem ..).trans (logFault ..)

theorem ueMet (s : State) (line cls code : Nat) (ctx : Option Nat) : Spares s (s.ueMet line cls code ctx) :=
  (modPool s (f := fun p => { p with latent := p.latent.filter (fun e => e.1 != s.homeLine line) }) rfl).trans <|
    ite (bump (ownCoord_ne_memReg _ _) _) (ueMark ..)

theorem meet (s : State) (a n : Nat) (rd : Bool) (cls : Nat) (ctx : Option Nat) : Spares s (s.meet a n rd cls ctx) := by
  refine foldl (fun t e => ?_) _ s
  split
  · exact refl t
  · exact ite (refl t) (ite (ceFound ..) (ueMet ..))

theorem memServe (s : State) (a n : Nat) : Spares s (s.memServe a n) := foldl (fun t m => modMem t m _) _ s

theorem memBytes (s : State) (a n : Nat) (wr : Bool) : Spares s (s.memBytes a n wr) := foldl (fun t _ => countEv t ..) _ s

/-- The device reads a range of the pool. -/
theorem poolRead (s : State) (a n cls : Nat) (ctx : Option Nat) :
    Spares s (((s.memServe a n).meet a n true cls ctx).memBytes a n false) :=
  (memServe ..).trans <| (meet ..).trans (memBytes ..)

theorem readAtIssue (s : State) (b : Fin 100) (h : BitVec 20) : Spares s (s.readAtIssue b h) := ite (poolRead ..) (refl s)

theorem readEntry (s : State) (m : CollMsg) : Spares s (s.readEntry m) := by
  unfold State.readEntry
  exact ite (refl s) (ite ((poolRead ..).trans (poolRead ..)) (poolRead ..))

/-! The unit's own steps. -/

theorem takeCredit (s : State) (lp : Option Nat) (vc g : Nat) : Spares s (s.takeCredit lp vc g) := by
  obtain ⟨_, h⟩ := AcctOnly.takeCredit s lp vc g
  rw [h]
  exact ⟨rfl, rfl, rfl, rfl, rfl, rfl⟩

theorem countConv (s : State) (e : Encoded) : Spares s (s.countConv e) :=
  (bumpBy (by decide) s _).trans <| (bumpBy (by decide) _ _).trans (bumpBy (by decide) _ _)

theorem openInst (s : State) (k : InstKey) (ws members : List W32) (total : Nat) (old : Option Inst) (spilled : Bool) :
    Spares s (s.openInst k ws members total old spilled) := by
  have hopened : Spares s (((s.dropInst k).modColl (fun c => { c with
      insts := c.insts ++ [s.openedInst k ws members total old spilled] })).bump Reg.opens) :=
    (modColl ..).trans <| (modColl ..).trans (bump (by decide) _)
  exact ite ((hopened.trans (countEv ..)).trans (bump (by decide) _)) (hopened.trans (countEv ..))

theorem wakeBench (s : State) (b : Nat) : Spares s (s.wakeBench b) :=
  ite ((bump (by simp only [Reg.ownCoord, Reg.wakeCount]; omega) s).trans (modBench ..)) (modBench ..)

theorem enterAdder (s : State) (i : Inst) (b : Nat) (y : Contribution) : Spares s (s.enterAdder i b y) := by
  have hqueued : Spares s (s.adderQueued b y) :=
    (wakeBench ..).trans <| (modBench ..).trans (trackMax (by simp only [Reg.ownCoord, Reg.adderQdepthMax]; omega) ..)
  exact ite (hqueued.trans <| (modInst ..).trans <| (modBench ..).trans (modBench ..)) hqueued

theorem steer (s : State) (i : Inst) (y : Contribution) : Spares s (s.steer i y) := by
  have hnoted : Spares s (s.modInst i.key (·.sees y)) := modInst ..
  have hmain := ite (p := i.primClaim = 0) hnoted (hnoted.trans (enterAdder _ i (i.bench y.chunk false) y))
  exact ite hmain (hmain.trans (enterAdder ..))

end Spares

/-! What the counts of a core's contribution leave to the unit. -/

theorem ReadsSound.countConv (s : State) (e : Encoded) : ReadsSound s (s.countConv e) :=
  ⟨(Quiet.bumpBy (by decide) s _).trans <| (Quiet.bumpBy (by decide) _ _).trans (Quiet.bumpBy (by decide) _ _), rfl, fun _ h => h⟩

theorem ReadsSound.readAtIssue {s : State} {b : Fin 100} {h : BitVec 20} (hread : s.ueLines (s.entryAddr h) 64 = []) :
    ReadsSound s (s.readAtIssue b h) := by
  unfold State.readAtIssue
  split
  · exact (memServe ..).trans <| (meet _ _ _ ((memServe s _ _).ueLines hread)).trans (memBytes ..)
  · exact .refl s

theorem ReadsSound.fetched (s : State) (b : Fin 100) (c : Fin 8) : ReadsSound s (s.fetched b c) := by
  refine ⟨⟨by rw [State.fetched_eq]; rfl, fun o ho => State.fetched_reg s b c o ?_⟩, ?_, ?_⟩
  · rintro rfl
    simp only [CollReg, Reg.isCe] at ho
    omega
  · rw [State.fetched_pool]
  · rw [State.fetched_pool]
    exact fun _ h => h

theorem ReadsSound.storeRead (s : State) (b : Fin 100) (c : Fin 8) (a n : Nat) : ReadsSound s (s.storeRead b c 0 a n) := by
  have hcoll := s.storeRead_coll b c 0 a n (by decide)
  refine ⟨⟨by rw [State.storeRead_only, hcoll]; rfl, fun o ho => State.storeRead_reg s b c 0 a n ?_⟩, ?_, ?_⟩
  · rintro rfl
    simp only [CollReg, spaceCe, Reg.lsCe] at ho
    omega
  · rw [State.storeRead_only]
  · rw [State.storeRead_only]
    exact fun _ h => h

/-- Only a core's run state and its wait differ. -/
theorem ReadsSound.modCore (s : State) (k : Nat) (f : Core → Core) : ReadsSound s (s.modCore k f) := ⟨⟨rfl, fun _ _ => rfl⟩, rfl, fun _ h => h⟩

end Sys2Proof.Machine
end


/-! ### A core's contribution is checked, converted and handed on (R199, R254-R257) -/

section
namespace Sys2Proof.Machine

/-! What a core's own message goes by. -/

namespace Quiet

variable {s t : State} (h : Quiet s t)
include h

theorem coreCtx (b : Nat) : t.coreCtx b = s.coreCtx b := by
  unfold State.coreCtx State.ownerOf
  rw [h.ctxs]

theorem fusedEntry (b : Nat) (k : BitVec 20) : t.fusedEntry b k = s.fusedEntry b k := by
  unfold State.fusedEntry State.handleMine
  rw [h.coreCtx, h.entryAddr, h.readWords]

theorem coreMsg (hcoord : t.reg Reg.ownCoord = s.reg Reg.ownCoord) (b : Fin 100) (c : Fin 8) (co : W64) (stype chunk ecount : Nat)
    (xs : List Byte) : t.coreMsg b c co stype chunk ecount xs = s.coreMsg b c co stype chunk ecount xs := by
  have hhop : t.regN Reg.resultHop = s.regN Reg.resultHop := congrArg BitVec.toNat (h.reg _ (by decide))
  have hunit : ∀ n, t.ownUnit n = s.ownUnit n := fun n => by
    unfold State.ownUnit State.ownCoord State.regN
    rw [hcoord]
  unfold State.coreMsg State.collHdr State.ftimeOr0
  simp only [hhop, hunit, h.fusedEntry, h.ctx, h.inst?, h.clk]

theorem contribElems (co ch : W64) (etype e rnd : Nat) (vs : List Val) :
    t.contribElems co ch etype e rnd vs = s.contribElems co ch etype e rnd vs := by
  unfold State.contribElems
  dsimp only
  rw [h.ctx]

theorem msgEntry (q : CollMsg) : t.msgEntry q = s.msgEntry q := by
  unfold State.msgEntry
  rw [h.inst?, h.ctx, h.readWords, h.entryAddr]

theorem targetBenches (q : CollMsg) : t.targetBenches q = s.targetBenches q := by
  unfold State.targetBenches
  rw [h.msgEntry, h.inst?, h.ownersOf]

theorem adderRoom (b n : Nat) : t.adderRoom b n = s.adderRoom b n := by
  unfold State.adderRoom State.adderDepth
  rw [h.bench]

theorem noRoom (q : CollMsg) : t.noRoom q = s.noRoom q := by
  unfold State.noRoom
  rw [h.targetBenches]
  simp only [h.adderRoom]

theorem netWants (b : Nat) : t.netWants b = s.netWants b := by
  unfold State.netWants
  rw [h.coll]
  simp only [h.targetBenches, h.noRoom]

end Quiet

/-! The checks of R255. -/

theorem fusedEntry_of_mine {s : State} {b : Fin 100} {h : BitVec 20} (hmay : MayContribute s b h) :
    entryOf (s.fusedEntry b h) = tableEntry s h := by
  unfold State.fusedEntry State.handleMine
  rw [hmay.mine, if_pos (by simp)]
  rfl

theorem ReadsSound.mayContribute {s t : State} {b : Fin 100} {k : BitVec 20} (h : ReadsSound s t) (hs : MayContribute s b k) :
    MayContribute t b k := by
  obtain ⟨hbench, hmine, hopened, hfree, henabled, hreadable, hvalid, hinvalid⟩ := hs
  refine ⟨hbench, ?_, ?_, ?_, ?_, ?_, ?_, ?_⟩
  · rw [h.coreCtx, hmine]
  · rw [h.ctx, hopened]
  · rw [h.ctx, hfree]
  · rw [h.collEn, henabled]
  · rw [h.entryAddr]
    exact h.ueLines hreadable
  · rw [h.tableEntry_eq, hvalid]
  · rw [h.tableEntry_eq, h.ownersOf, hinvalid]

theorem codesOf_eq_zero {cs : List (Bool × Nat)} (h : ∀ x ∈ cs, x.1 = false) : codesOf cs = 0 := by
  have hnone : cs.filter (·.1) = [] := List.filter_eq_nil_iff.mpr fun x hx => by rw [h x hx]; exact Bool.false_ne_true
  rw [codesOf, hnone]
  rfl

/-- No check of R255 fails. -/
theorem contribCode_eq_zero {s : State} {b : Fin 100} {co : W64} (h : MayContribute s b (coHandle co)) {src : Option (Nat × W64)}
    {dq : Bool} (hlen : ∀ t ch, src = some (t, ch) → fld ch 40 24 = 0 ∧ chCount ch ≠ 0 ∧
      elemBytes (tableEntry s (coHandle co)).etype (chCount ch) ≤ (if (tableEntry s (coHandle co)).frit then 256 else 8168) ∧
      (isMx (tableEntry s (coHandle co)).etype = true ∨ (dq = true ∧ isMx t = true) → chCount ch % 32 = 0))
    (hdq : dq = true → isMx (tableEntry s (coHandle co)).etype = false) : s.contribCode b co src dq = 0 := by
  obtain ⟨hbench, hmine, hopened, hfree, henabled, hreadable, hvalid, hinvalid⟩ := id h
  unfold State.contribCode
  extract_lets k mine x len
  have hx : x = tableEntry s k := fusedEntry_of_mine h
  have hown : mine = true := by simp [mine, State.handleMine, hmine, k]
  have hform : len = false := by
    unfold len
    cases src with
    | none => rfl
    | some p =>
      obtain ⟨hres, hcount, hsize, hmx⟩ := hlen p.1 p.2 rfl
      rw [← hx] at hsize hmx
      have hblocks : ((isMx x.etype || (dq && isMx p.1)) && chCount p.2 % 32 != 0) = false := by
        by_cases hkind : isMx x.etype = true ∨ (dq = true ∧ isMx p.1 = true)
        · rw [hmx hkind]
          simp
        · simp only [not_or, not_and, Bool.not_eq_true] at hkind
          cases dq <;> simp_all
      dsimp only
      rw [hblocks, hres, decide_eq_false (Nat.not_lt.mpr hsize)]
      simpa using hcount
  refine codesOf_eq_zero fun y hy => ?_
  simp only [List.mem_cons, List.not_mem_nil, or_false] at hy
  rcases hy with rfl | rfl | rfl | rfl | rfl | rfl
  · dsimp only
    rw [meetsUe_eq_false hreadable, Bool.and_false]
  · simp [State.ctxFenced, hmine, hfree]
  · simp [State.ctxClosing, hmine, hopened, henabled]
  · simp [hown, hx, k, hvalid, hbench]
  · exact hform
  · dsimp only
    rw [hx, hinvalid]
    cases dq with
    | false => rfl
    | true => rw [hdq rfl]; rfl

/-! Waiting at issue. -/

/-- A contribution to a frit entry does not wait at issue. -/
theorem contribWaits_of_frit {s : State} {m : CollMsg} (b : Fin 100) (h : (entryOf (s.msgEntry m)).frit = true) :
    s.contribWaits b m = none := by
  unfold State.contribWaits
  dsimp only
  rw [h, Bool.true_or, Bool.true_or, if_pos rfl]

/-- What a contribution that passes the checks, its slot free, waits for at issue (R199, R256). -/
theorem contribWaits_of_passes {s : State} {m : CollMsg} (b : Fin 100) (hfrit : (entryOf (s.msgEntry m)).frit = false)
    (hchecks : s.checkContext m = none ∧ s.checkEntry m = none) (hrecord : ∀ i, s.inst? m.key = some i → i.overrun m.chunk = false)
    (hnew : s.inst? m.key = none → m.chunk < max 1 (min (entryOf (s.msgEntry m)).window
      (nchunks (entryOf (s.msgEntry m)).total (entryOf (s.msgEntry m)).e))) :
    s.contribWaits b m = if ((s.targetBenches m).contains b.val && (s.noRoom m || (s.netWants b && (s.bench b).coreTurn))) = true then
      some .contrib else if s.noRoom m = true then some .window else none := by
  unfold State.contribWaits
  extract_lets x late own
  have hlate : late = false := by
    unfold late
    split
    · rename_i i hi
      rw [hrecord i hi, Bool.and_false]
    · rename_i hi
      rw [decide_eq_false (Nat.not_le.mpr (hnew hi)), Bool.and_false]
  rw [hfrit, hchecks.1, hchecks.2, hlate]
  rfl

/-- With room in its benches' queues, and the turn of its own bench's cores, it does not wait. -/
theorem contribWaits_eq_none {s : State} {m : CollMsg} (b : Fin 100) (hfrit : (entryOf (s.msgEntry m)).frit = false)
    (hchecks : s.checkContext m = none ∧ s.checkEntry m = none) (hrecord : ∀ i, s.inst? m.key = some i → i.overrun m.chunk = false)
    (hnew : s.inst? m.key = none → m.chunk < max 1 (min (entryOf (s.msgEntry m)).window
      (nchunks (entryOf (s.msgEntry m)).total (entryOf (s.msgEntry m)).e)))
    (hroom : ∀ v ∈ s.targetBenches m, s.adderRoom v (msgUnits m) = true)
    (hturn : (s.bench b).coreTurn = false ∨ s.netWants b = false) : s.contribWaits b m = none := by
  have hfits : s.noRoom m = false := by
    unfold State.noRoom
    rw [List.any_eq_false]
    intro v hv
    rw [hroom v hv]
    exact Bool.false_ne_true
  have hserved : (s.netWants b && (s.bench b).coreTurn) = false := by
    rcases hturn with h | h
    · rw [h, Bool.and_false]
    · rw [h, Bool.false_and]
  rw [contribWaits_of_passes b hfrit hchecks hrecord hnew, hfits, hserved, Bool.or_false, Bool.and_false]
  rfl

/-- The benches that a contribution to a running record enters. -/
theorem targetBenches_of_running {s : State} {m : CollMsg} {i : Inst} (hrec : s.inst? m.key = some i)
    {v : Nat} (hv : v ∈ s.targetBenches m) : v = i.bench m.chunk false ∨ (i.ent.twin = true ∧ v = i.bench m.chunk true) := by
  unfold State.targetBenches at hv
  rw [msgEntry_of_record hrec, hrec] at hv
  dsimp only at hv
  split at hv
  · cases hv
  · split at hv
    · rename_i htwin
      simp only [List.mem_cons, List.not_mem_nil, or_false] at hv
      exact hv.imp_right fun h => ⟨htwin, h⟩
    · exact .inl (List.mem_singleton.mp hv)

/-! A contribution with other elements, as many bytes of them, passes the same checks. -/

section
variable {s : State} {q : CollMsg} {p : List Byte} (hst : q.stype = stContrib) (hlen : p.length = q.payload.length)
include hst hlen

theorem contribForm_payload {x : Entry} {total offset count recv : Nat} (h : ContribForm x total offset count recv q) :
    ContribForm x total offset count recv { q with payload := p } := by
  obtain ⟨hmember, hchunk, ⟨hwhole, -⟩, hfixed, hpart⟩ := h
  have hother : q.stype ≠ stPartial := by rw [hst]; decide
  exact ⟨hmember, hchunk, ⟨fun _ => ⟨(hwhole hst).1, hlen.trans (hwhole hst).2⟩, fun hp => absurd hp hother⟩, hfixed, hpart⟩

omit hst hlen in
theorem agrees_payload {x : Entry} {total : Nat} {members : List W32} (h : Agrees x total members q) :
    Agrees x total members { q with payload := p } := ⟨h.digest, h.source, h.sound⟩

omit hst hlen in
theorem contextPasses_payload (h : ContextPasses s q) : ContextPasses s { q with payload := p } :=
  ⟨h.opened, h.free, h.service, h.enabled, h.gen, h.part, h.unlogged⟩

theorem accepted_payload {i : Inst} (h : Accepted s q i) : Accepted s { q with payload := p } i :=
  ⟨contextPasses_payload h.context, h.record, h.running, h.valid, contribForm_payload hst hlen h.form, agrees_payload h.agrees, h.slot,
    h.unwritten, h.fresh⟩

omit hst hlen in
theorem newStep_payload {sp : Bool} (h : NewStep s q sp) : NewStep s { q with payload := p } sp :=
  ⟨⟨contextPasses_payload h.record.context, h.record.none, h.record.readable, h.record.valid, h.record.invalid, h.record.table,
    agrees_payload h.record.agrees, h.record.records⟩, h.fixed, h.room⟩

end

/-- A contribution that a running record accepts passes the checks. -/
theorem checks_of_accepted {s : State} {q : CollMsg} {i : Inst} (hst : q.stype = stContrib) (hlive : q.logged = false)
    (h : Accepted s q i) : s.checkContext q = none ∧ s.checkEntry q = none :=
  checks_eq_none_of_running h.context h.record h.running h.valid (by rw [hst]; decide)
    ((formBad_eq_lenBad (.inl hst)).trans (lenBad_eq_false_of_record (.inl hst) hlive h.record h.running h.form)) h.agrees

/-- So does one of a new step. -/
theorem checks_of_newStep {s : State} {q : CollMsg} {sp : Bool} (hst : q.stype = stContrib) (hlive : q.logged = false)
    (h : NewStep s q sp) {a b c : Nat}
    (hform : ContribForm (tableEntry s q.key.handle) (tableEntry s q.key.handle).total a b c q) :
    s.checkContext q = none ∧ s.checkEntry q = none :=
  checks_eq_none_of_newStep h (by rw [hst]; decide)
    ((formBad_eq_lenBad (.inl hst)).trans (lenBad_eq_false_of_none (.inl hst) hlive h.record.none h.fixed hform))

end Sys2Proof.Machine
end


/-! ### CONTRIB, DQCONTRIB, SCONTRIB and COPEN (R145, R199, R254-R258) -/

section
namespace Sys2Proof.Machine

/-! Handing on. -/

/-- A frit contribution goes to the frit path unit's queue. -/
theorem handOn_of_frit {s : State} {m : Inbound} (h : (entryOf (s.msgEntry (collMsgOf m))).frit = true) :
    s.handOn m = s.modColl (fun q => { q with inq := q.inq ++ [m] }) := if_pos h

/-- A contribution that a running record accepts enters its queues. -/
theorem handOn_of_accepted {s : State} {m : Inbound} {i : Inst} (hst : (collMsgOf m).stype = stContrib)
    (h : Accepted s (collMsgOf m) i) (hplain : i.frit = false) (hfrit : i.ent.frit = false) :
    Spares s (s.handOn m) ∧ Steered s (s.handOn m) (collMsgOf m) i ∧ (s.handOn m).coll.inq = s.coll.inq := by
  have htaken : Quiet s (s.collTaken (collMsgOf m)) := .takeCredit ..
  have hrec : (s.collTaken (collMsgOf m)).inst? (collMsgOf m).key = some i := by rw [htaken.inst?, h.record]
  have hhand : s.handOn m = (s.collTaken (collMsgOf m)).steer i (contribOf (collMsgOf m) i.ent) := by
    unfold State.handOn
    rw [msgEntry_of_record h.record, if_neg (by rw [← Inst.ent, hfrit]; exact Bool.false_ne_true),
      collContrib_of_accepted (.inl hst) rfl h, State.collContrib.apply, hplain, if_neg Bool.false_ne_true]
  have hsteers := State.steer_steersInto (by rw [State.inst?_key hrec]; exact hrec) (contribOf (collMsgOf m) i.ent)
  rw [hhand]
  have harrivals : (s.collTaken (collMsgOf m)).coll.inq = s.coll.inq := congrArg Coll.inq htaken.coll
  exact ⟨(Spares.takeCredit ..).trans (.steer ..), htaken.steered (hsteers.steered hrec), hsteers.record.arrivals.trans harrivals⟩

/-- What comes of a new step's first contribution, from the state in which its entry was read. -/
theorem collContrib_newStep_eq {s : State} {q : CollMsg} {sp : Bool} (hst : q.stype = stContrib) (hlive : q.logged = false)
    (h : NewStep s q sp) {a b c : Nat}
    (hform : ContribForm (tableEntry s q.key.handle) (tableEntry s q.key.handle).total a b c q)
    (hslot : q.chunk < max 1 (min (tableEntry s q.key.handle).window
      (nchunks (tableEntry s q.key.handle).total (tableEntry s q.key.handle).e))) (obs : AdderObs) :
    ∃ u, ReadsSound s u ∧ Spares s u ∧
      s.collContrib q obs = State.collContrib.apply q obs (newOpen u q sp) (newInst u q sp) := by
  have hsound : ReadsSound s ((s.readEntry q).collTaken q) := (ReadsSound.readEntry h.record).trans (.takeCredit ..)
  refine ⟨_, hsound, (Spares.readEntry ..).trans (.takeCredit ..), ?_⟩
  unfold State.collContrib
  dsimp only
  generalize (s.readEntry q).collTaken q = u at hsound
  have hnew := hsound.newStep h
  rw [← hsound.tableEntry_eq] at hform hslot
  obtain ⟨hfirst, hrest⟩ := checks_of_newStep hst hlive hnew hform
  have hfits : (newInst u q sp).overrun q.chunk = false := overrun_eq_false (.inl hslot)
  rw [hfirst, hrest, hnew.record.none, openFor_opens hnew]
  dsimp only
  rw [(newOpen_opened ..).1]
  dsimp only
  rw [hfits, if_neg Bool.false_ne_true]

theorem newOpen_inq (s : State) (q : CollMsg) (sp : Bool) : (newOpen s q sp).coll.inq = s.coll.inq ∧
    ∀ b, (newOpen s q sp).bench b = s.bench b := by
  obtain ⟨-, -, -, harrivals, hbench⟩ := s.openInst_opens q.key (s.readWords (s.entryAddr q.key.handle) 16)
    (s.memberTable (tableEntry s q.key.handle)) (tableEntry s q.key.handle).total none sp nofun
  exact ⟨harrivals, hbench⟩

/-- A contribution of a new step opens it and enters its queues. -/
theorem handOn_of_newStep {s : State} {m : Inbound} {sp : Bool} (hst : (collMsgOf m).stype = stContrib)
    (h : NewStep s (collMsgOf m) sp) (hfrit : (tableEntry s (collMsgOf m).key.handle).frit = false) {a b c : Nat}
    (hform : ContribForm (tableEntry s (collMsgOf m).key.handle) (tableEntry s (collMsgOf m).key.handle).total a b c (collMsgOf m))
    (hslot : (collMsgOf m).chunk < max 1 (min (tableEntry s (collMsgOf m).key.handle).window
      (nchunks (tableEntry s (collMsgOf m).key.handle).total (tableEntry s (collMsgOf m).key.handle).e))) :
    ∃ j, Spares s (s.handOn m) ∧ Opened s (s.handOn m) (collMsgOf m) sp j ∧
      Steered s (s.handOn m) (collMsgOf m) { j with chunks := [] } ∧ (s.handOn m).coll.inq = s.coll.inq := by
  obtain ⟨u, hu, hspares, happly⟩ := collContrib_newStep_eq hst rfl h hform hslot .clean
  have hplain : (newInst u (collMsgOf m) sp).frit = false := (congrArg Entry.frit (hu.tableEntry_eq _)).trans hfrit
  rw [State.collContrib.apply, hplain, if_neg Bool.false_ne_true] at happly
  have hhand : s.handOn m = (newOpen u (collMsgOf m) sp).steer (newInst u (collMsgOf m) sp)
      (contribOf (collMsgOf m) (newInst u (collMsgOf m) sp).ent) := by
    unfold State.handOn
    rw [entryOf_msgEntry_of_none h.record.none h.record.context.opened, hfrit, if_neg Bool.false_ne_true, happly]
  have hopened := newOpen_opened u (collMsgOf m) sp
  obtain ⟨harrivals, hbench⟩ := newOpen_inq u (collMsgOf m) sp
  have hsteers := State.steer_steersInto (i := newInst u (collMsgOf m) sp) hopened.1
    (contribOf (collMsgOf m) (newInst u (collMsgOf m) sp).ent)
  obtain ⟨j, hj, hsteered⟩ := steered_of_opened hopened hsteers hbench rfl
  rw [hhand]
  exact ⟨j, hspares.trans <| (Spares.openInst ..).trans (.steer ..), hu.opened hj, hu.steered hsteered,
    hsteers.record.arrivals.trans (harrivals.trans (by rw [hu.coll]))⟩

/-! From issue to handing on. -/

/-- A state of a core's fused instruction after its issue in `s`: its core is `y`, and no other core, no store and nothing of
the collective unit differs. -/
structure Issuing (s u : State) (b : Fin 100) (c : Fin 8) (y : Core) : Prop extends ReadsSound s u where
  core : u.core (coreNo b c) = y
  others : ∀ k, k ≠ coreNo b c → u.core k = s.core k
  ls : u.ls = s.ls
  is : u.is = s.is
  coord : u.reg Reg.ownCoord = s.reg Reg.ownCoord

section
variable {s : State} {b : Fin 100} {c : Fin 8}

theorem Issuing.fetched : Issuing s (s.fetched b c) b c (s.core (coreNo b c)) :=
  { ReadsSound.fetched s b c with
    core := s.fetched_core b c _
    others := fun _ _ => s.fetched_core b c _
    ls := s.fetched_ls b c
    is := s.fetched_is b c
    coord := State.fetched_reg s b c _ (by simp only [Reg.ownCoord, Reg.isCe]; omega) }

/-- The core goes on from its wait. -/
theorem Issuing.resumed : Issuing s (s.modCore (coreNo b c) (fun x => { x with run := .running, wait := none })) b c
    { s.core (coreNo b c) with run := .running, wait := none } :=
  { ReadsSound.modCore s _ _ with
    core := State.core_modCore_same ..
    others := fun k hk => by rw [State.core_modCore, if_neg hk]
    ls := rfl
    is := rfl
    coord := rfl }

variable {u v : State} {y : Core} (h : Issuing s u b c y)
include h

theorem Issuing.spares (hread : ReadsSound u v) (hspares : Spares u v) : Issuing s v b c y :=
  { h.toReadsSound.trans hread with
    core := (hspares.core _).trans h.core
    others := fun k hk => (hspares.core k).trans (h.others k hk)
    ls := hspares.ls.trans h.ls
    is := hspares.is.trans h.is
    coord := hspares.coord.trans h.coord }

/-- The core reads its local store. -/
theorem Issuing.storeRead (a n : Nat) : Issuing s (u.storeRead b c 0 a n) b c (y.near 0 a) :=
  { h.toReadsSound.trans (ReadsSound.storeRead u b c a n) with
    core := by rw [State.storeRead_core, if_pos rfl, h.core]
    others := fun k hk => by rw [State.storeRead_core, if_neg hk, h.others k hk]
    ls := by rw [State.storeRead_only]; exact h.ls
    is := by rw [State.storeRead_only]; exact h.is
    coord := (State.storeRead_reg u b c 0 a n (by simp only [Reg.ownCoord, spaceCe, Reg.lsCe]; omega)).trans h.coord }

end

/-- Where a contribution's source elements stand in the local store, and their bytes. -/
abbrev sourceAddr (s : State) (b : Fin 100) (c : Fin 8) (w : W64) : Nat := ((s.core (coreNo b c)).s (iC w)).toNat
abbrev sourceLen (s : State) (b : Fin 100) (c : Fin 8) (w : W64) : Nat :=
  elemBytes (iType w) (fld ((s.core (coreNo b c)).s (iB w)) 24 16)

/-- The message of a core's contribution. -/
abbrev contribMsg (s : State) (b : Fin 100) (c : Fin 8) (w : W64) : CollMsg := collMsgOf (coreContribution s b c w)

/-- The elements of a core's contribution, converted to the entry's type. -/
def coreElems (s : State) (b : Fin 100) (c : Fin 8) (w : W64) : Encoded :=
  let x := tableEntry s (coHandle ((s.core (coreNo b c)).s (iA w)))
  s.contribElems ((s.core (coreNo b c)).s (iA w)) ((s.core (coreNo b c)).s (iB w)) x.etype x.e (iRnd w) (sourceVals s b c w)

/-- They take the bytes of their count. -/
theorem length_coreElems {s : State} {b : Fin 100} {c : Fin 8} {w : W64} (h : Contributes s b c w) :
    (coreElems s b c w).bytes.length = elemBytes (tableEntry s (coHandle ((s.core (coreNo b c)).s (iA w)))).etype
      (fld ((s.core (coreNo b c)).s (iB w)) 24 16) := by
  have hcount : (sourceVals s b c w).length = fld ((s.core (coreNo b c)).s (iB w)) 24 16 := by
    unfold sourceVals
    dsimp only
    split <;> simp [decodeElems]
  unfold coreElems State.contribElems
  dsimp only
  rw [length_encodeElems _ (fun hmx => by rw [hcount]; exact h.mx (.inl hmx)), hcount]

/-- The contribution that the checks at issue see: its elements are not converted yet. -/
def blankContribution (s : State) (b : Fin 100) (c : Fin 8) (w : W64) : CollMsg :=
  let co := (s.core (coreNo b c)).s (iA w)
  let ch := (s.core (coreNo b c)).s (iB w)
  collMsgOf (s.coreMsg b c co stContrib (fld ch 0 24) (fld ch 24 16)
    (List.replicate (elemBytes (tableEntry s (coHandle co)).etype (fld ch 24 16)) 0))

/-- It differs from the contribution in what its elements are. -/
theorem blankContribution_eq {s : State} {b : Fin 100} {c : Fin 8} {w : W64} (h : Contributes s b c w) :
    blankContribution s b c w = { contribMsg s b c w with payload := (blankContribution s b c w).payload } ∧
      (blankContribution s b c w).payload.length = (contribMsg s b c w).payload.length := by
  have hlen := length_coreElems h
  have hsame : (List.replicate (elemBytes (tableEntry s (coHandle ((s.core (coreNo b c)).s (iA w)))).etype
      (fld ((s.core (coreNo b c)).s (iB w)) 24 16)) (0 : Byte)).length = (coreElems s b c w).bytes.length := by
    rw [List.length_replicate, hlen]
  refine ⟨collMsgOf_coreMsg_elems s b c _ _ _ _ hsame, ?_⟩
  exact (length_payload_coreMsg ..).trans ((congrArg (24 + ·) hsame).trans (length_payload_coreMsg ..).symm)

theorem contribution_handle (s : State) (b : Fin 100) (c : Fin 8) (w : W64) :
    (contribMsg s b c w).key.handle = coHandle ((s.core (coreNo b c)).s (iA w)) := collMsgOf_coreMsg_handle ..

theorem contribution_stype (s : State) (b : Fin 100) (c : Fin 8) (w : W64) :
    (contribMsg s b c w).stype = stContrib := collMsgOf_coreMsg_stype _ _ _ _ _ _ (by decide) _

section
variable {s u : State} {b : Fin 100} {c : Fin 8} {w : W64} {r : RunState} {wt : Option Waiting}
  (hu : Issuing s u b c { s.core (coreNo b c) with run := r, wait := wt }) (h : Contributes s b c w)
include hu h

/-- The code of a contribution that meets its own conditions, once the entry was read. -/
theorem contribution_code : (u.readAtIssue b (coHandle ((s.core (coreNo b c)).s (iA w)))).contribCode b ((s.core (coreNo b c)).s (iA w))
    (some (iType w, (s.core (coreNo b c)).s (iB w))) (iOp w == 2) = 0 := by
  have hread : ReadsSound u (u.readAtIssue b (coHandle ((s.core (coreNo b c)).s (iA w)))) :=
    .readAtIssue (hu.mayContribute h.may).readable
  have hsound := hu.toReadsSound.trans hread
  refine contribCode_eq_zero (hsound.mayContribute h.may) ?_ ?_
  · rintro _ _ ⟨⟩
    rw [hsound.tableEntry_eq]
    refine ⟨h.reserved, h.count, h.size, fun hkind => h.mx (hkind.imp_right fun hdq => ⟨?_, hdq.2⟩)⟩
    exact beq_iff_eq.mp hdq.1
  · rw [hsound.tableEntry_eq]
    exact fun hdq => h.plain (beq_iff_eq.mp hdq)

/-- A contribution that meets its own conditions is converted and handed on, or waits at issue. -/
theorem fusedContrib_checked (hbad : u.badCount b c 0 (sourceAddr s b c w)
      (sourceLen s b c w) false = 0) :
    ∃ v z, Issuing s v b c { s.core (coreNo b c) with run := r, wait := wt } ∧
      Issuing s z b c (Core.near { s.core (coreNo b c) with run := r, wait := wt } 0 (sourceAddr s b c w)) ∧
      fusedContrib b c w u = (v.contribWaits b (blankContribution s b c w)).elim
        ((z.handOn (coreContribution s b c w)).retireD b c w Code.ok) (fun k => v.coreWait b c k w none) := by
  have hregs : ∀ i, (u.core (coreNo b c)).s i = (s.core (coreNo b c)).s i := fun i => by rw [hu.core]; rfl
  have hread : ReadsSound u (u.readAtIssue b (coHandle ((s.core (coreNo b c)).s (iA w)))) :=
    .readAtIssue (hu.mayContribute h.may).readable
  have hspares : Spares u (u.readAtIssue b (coHandle ((s.core (coreNo b c)).s (iA w)))) := .readAtIssue ..
  have hcode := contribution_code hu h
  have hv := hu.spares hread hspares
  unfold fusedContrib
  simp only [hregs]
  rw [if_neg (not_not.mpr h.address), hcode, if_neg (not_not.mpr rfl)]
  generalize u.readAtIssue b (coHandle ((s.core (coreNo b c)).s (iA w))) = v at hread hspares hv ⊢
  have hent : entryOf (v.fusedEntry b (coHandle ((s.core (coreNo b c)).s (iA w)))) =
      tableEntry s (coHandle ((s.core (coreNo b c)).s (iA w))) := by
    rw [hv.fusedEntry, fusedEntry_of_mine h.may]
  have hsound : v.badCount b c 0 (sourceAddr s b c w)
      (sourceLen s b c w) false = 0 := by
    unfold State.badCount State.badIn at hbad ⊢
    rwa [hspares.badWords]
  have hbytes : v.spaceBytes b c 0 (sourceAddr s b c w)
      (sourceLen s b c w) = s.spaceBytes b c 0 (sourceAddr s b c w)
        (sourceLen s b c w) := congrArg (fun ls => mread ls _ _) hv.ls
  have hweight : fld ((s.core (coreNo b c)).s (iD w)) 0 32 = ((s.core (coreNo b c)).s (iD w)).toNat % 2 ^ 32 := by
    rw [fld, Nat.pow_zero, Nat.div_one]
  have hstored := hv.storeRead (sourceAddr s b c w)
    (sourceLen s b c w)
  have hdone := hstored.spares (.countConv _ (coreElems s b c w)) (.countConv _ _)
  have hmessage := hdone.coreMsg hdone.coord b c ((s.core (coreNo b c)).s (iA w)) stContrib (fld ((s.core (coreNo b c)).s (iB w)) 0 24)
    (fld ((s.core (coreNo b c)).s (iB w)) 24 16) (coreElems s b c w).bytes
  refine ⟨v, _, hv, hdone, ?_⟩
  rw [hent, State.readStore_sound v b c 0 _ _ hsound, hbytes, hweight, hv.coreMsg hv.coord]
  dsimp only
  rw [hstored.contribElems]
  change (match v.contribWaits b (blankContribution s b c w) with
    | some k => v.coreWait b c k w none
    | none => State.retireD (State.handOn (State.countConv _ (coreElems s b c w)) (State.coreMsg
        (State.countConv _ (coreElems s b c w)) b c _ stContrib _ _ (coreElems s b c w).bytes)) b c w Code.ok) = _
  rw [hmessage]
  cases v.contribWaits b (blankContribution s b c w) <;> rfl

end

end Sys2Proof.Machine
end


/-! ### A core's contribution reaches the collective path (R199, R254-R258) -/

section
namespace Sys2Proof.Machine

/-! Retirement. -/

/-- The contribution of core `c` retired with OK, and no other core, no store and no byte of the pool differs. -/
structure Contributed (s t : State) (b : Fin 100) (c : Fin 8) (w : W64) : Prop where
  core : t.core (coreNo b c) = (s.core (coreNo b c)).after
    (((s.core (coreNo b c)).near 0 (sourceAddr s b c w)).setS (iD w) 0)
  others : ∀ k, k ≠ coreNo b c → t.core k = s.core k
  ls : t.ls = s.ls
  is : t.is = s.is
  mem : t.pool.mem = s.pool.mem

/-- Where a core runs or waits makes no difference to what it is after it retires. -/
theorem Core.after_goesOn (x : Core) (r : RunState) (wt : Option Waiting) (a d : Nat) (v : W64) :
    (Core.near { x with run := r, wait := wt } 0 a).after ((Core.near { x with run := r, wait := wt } 0 a).setS d v) =
      x.after ((x.near 0 a).setS d v) := by
  unfold Core.after Core.near Core.setS
  split <;> rfl

theorem State.retireD_core (s : State) (b : Fin 100) (c : Fin 8) (w : W64) (v : Nat) :
    (s.retireD b c w v).core (coreNo b c) = (s.core (coreNo b c)).after ((s.core (coreNo b c)).setS (iD w) (w64 v)) :=
  State.retire_core s b c _ (Core.setS_pc ..)

theorem Issuing.contributed {s z t : State} {b : Fin 100} {c : Fin 8} {w : W64} {r : RunState} {wt : Option Waiting}
    (hz : Issuing s z b c (Core.near { s.core (coreNo b c) with run := r, wait := wt } 0 (sourceAddr s b c w)))
    (ht : Spares z t) : Contributed s (t.retireD b c w Code.ok) b c w := by
  have hrest := State.retire_eq t b c (fun x => x.setS (iD w) (w64 Code.ok))
  refine ⟨?_, fun k hk => ?_, ?_, ?_, ?_⟩
  · rw [State.retireD_core, ht.core, hz.core]
    exact Core.after_goesOn ..
  · exact ((State.retire_keeps t b c _).others.cores k hk).trans ((ht.core k).trans (hz.others k hk))
  · rw [State.retireD, hrest]
    exact ht.ls.trans hz.ls
  · rw [State.retireD, hrest]
    exact ht.is.trans hz.is
  · rw [State.retireD, hrest]
    exact ht.mem.trans hz.mem

section
variable (s : State) (b : Fin 100) (c : Fin 8) (f : Core → Core)

theorem State.retire_coll : (s.retire b c f).coll = s.coll := by rw [State.retire_eq]

theorem State.retire_adderQ (i : Nat) : ((s.retire b c f).bench i).adderQ = (s.bench i).adderQ := by
  have hkeeps := State.retire_keeps s b c f
  by_cases hi : i = b.val
  · rw [hi, hkeeps.bench]
  · rw [hkeeps.others.benches i hi]

theorem State.retire_opens : (s.retire b c f).regN Reg.opens = s.regN Reg.opens :=
  congrArg BitVec.toNat ((State.retire_keeps s b c f).others.regs _ (by simp only [benchCounter, Reg.opens]; omega))

variable {s} in
theorem steered_retired {v : State} {q : CollMsg} {i : Inst} (h : Steered v s q i) : Steered v (s.retire b c f) q i := by
  unfold Steered
  simp only [State.retire_adderQ, State.inst?_congr (congrArg Coll.insts (s.retire_coll b c f))]
  exact h

variable {s} in
theorem opened_retired {v : State} {q : CollMsg} {sp : Bool} {i : Inst} (h : Opened v s q sp i) : Opened v (s.retire b c f) q sp i := by
  unfold Opened
  simp only [State.retire_opens, State.inst?_congr (congrArg Coll.insts (s.retire_coll b c f))]
  exact h

end

/-! The three ways of a contribution, and its wait. -/

section
variable {s u : State} {b : Fin 100} {c : Fin 8} {w : W64} {r : RunState} {wt : Option Waiting}
  (hu : Issuing s u b c { s.core (coreNo b c) with run := r, wait := wt }) (h : Contributes s b c w)
  (hbad : u.badCount b c 0 (sourceAddr s b c w)
    (sourceLen s b c w) false = 0)
include hu h hbad

/-- A contribution of a step without a record, to a frit entry, goes to the frit path unit. -/
theorem fusedContrib_frit (hfrit : (tableEntry s (contribMsg s b c w).key.handle).frit = true)
    (hnone : s.inst? (contribMsg s b c w).key = none) :
    (fusedContrib b c w u).coll = { s.coll with inq := s.coll.inq ++ [coreContribution s b c w] } ∧
      Contributed s (fusedContrib b c w u) b c w := by
  obtain ⟨v, z, hv, hz, heq⟩ := fusedContrib_checked hu h hbad
  obtain ⟨hblank, -⟩ := blankContribution_eq h
  have hopen : (s.ctx (handleCtx (contribMsg s b c w).key.handle)).st = .opened := by
    rw [contribution_handle]
    exact h.may.opened
  have hentry : (entryOf (s.msgEntry (contribMsg s b c w))).frit = true := by
    rw [entryOf_msgEntry_of_none hnone hopen, hfrit]
  have hwaits : v.contribWaits b (blankContribution s b c w) = none := by
    rw [hblank]
    exact contribWaits_of_frit b ((congrArg (fun e => (entryOf e).frit) (hv.msgEntry _)).trans hentry)
  have hhand := handOn_of_frit (s := z) (m := coreContribution s b c w) (by rw [hz.msgEntry, hentry])
  rw [hwaits, Option.elim_none, hhand] at heq
  rw [heq]
  exact ⟨(State.retire_coll ..).trans (congrArg (fun q => { q with inq := q.inq ++ [coreContribution s b c w] }) hz.coll),
    hz.contributed (.modColl ..)⟩

/-- A contribution that a running record accepts, with room and its turn, enters its queues. -/
theorem fusedContrib_accepted {j : Inst} (hacc : Accepted s (contribMsg s b c w) j) (hplain : j.frit = false)
    (hfrit : j.ent.frit = false)
    (hroom : s.adderRoom (j.bench (contribMsg s b c w).chunk false)
      (cdiv (20 + (contribMsg s b c w).payload.length) 256) = true)
    (htwin : j.ent.twin = true → s.adderRoom (j.bench (contribMsg s b c w).chunk true)
      (cdiv (20 + (contribMsg s b c w).payload.length) 256) = true)
    (hturn : (s.bench b).coreTurn = false ∨ s.netWants b = false) :
    Steered s (fusedContrib b c w u) (contribMsg s b c w) j ∧ (fusedContrib b c w u).coll.inq = s.coll.inq ∧
      Contributed s (fusedContrib b c w u) b c w := by
  obtain ⟨v, z, hv, hz, heq⟩ := fusedContrib_checked hu h hbad
  obtain ⟨hblank, hlen⟩ := blankContribution_eq h
  have hst := contribution_stype s b c w
  have hwaits : v.contribWaits b (blankContribution s b c w) = none := by
    rw [hblank]
    generalize (blankContribution s b c w).payload = p at hlen ⊢
    have hacc := accepted_payload hst hlen (hv.accepted hacc)
    refine contribWaits_eq_none b (by rw [msgEntry_of_record hacc.record]; exact hfrit) (checks_of_accepted hst rfl hacc)
      (fun i hi => ?_) (fun hnone => ?_) (fun x hx => ?_) ?_
    · obtain rfl : j = i := Option.some.inj (hacc.record.symm.trans hi)
      exact overrun_eq_false hacc.slot
    · rw [hacc.record] at hnone
      cases hnone
    · rw [hv.adderRoom, msgUnits, hlen]
      rcases targetBenches_of_running hacc.record hx with rfl | ⟨hpair, rfl⟩
      · exact hroom
      · exact htwin hpair
    · rw [hv.bench, hv.netWants]
      exact hturn
  obtain ⟨hspares, hsteered, harrivals⟩ := handOn_of_accepted hst (hz.accepted hacc) hplain hfrit
  rw [hwaits, Option.elim_none] at heq
  rw [heq]
  refine ⟨steered_retired b c _ (hz.steered hsteered), ?_, hz.contributed hspares⟩
  rw [State.retireD, State.retire_coll, harrivals, hz.coll]

/-- A contribution of a step that may open, with room and its turn, opens it and enters its queues. -/
theorem fusedContrib_newStep {sp : Bool} (hnew : NewStep s (contribMsg s b c w) sp)
    (hfrit : (tableEntry s (contribMsg s b c w).key.handle).frit = false)
    (hform : ContribForm (tableEntry s (contribMsg s b c w).key.handle)
      (tableEntry s (contribMsg s b c w).key.handle).total 0 0 0 (contribMsg s b c w))
    (hslot : (contribMsg s b c w).chunk <
      max 1 (min (tableEntry s (contribMsg s b c w).key.handle).window
        (nchunks (tableEntry s (contribMsg s b c w).key.handle).total
          (tableEntry s (contribMsg s b c w).key.handle).e)))
    (hroom : ∀ x ∈ s.targetBenches (contribMsg s b c w), s.adderRoom x
      (cdiv (20 + (contribMsg s b c w).payload.length) 256) = true)
    (hturn : (s.bench b).coreTurn = false ∨ s.netWants b = false) :
    ∃ j, Opened s (fusedContrib b c w u) (contribMsg s b c w) sp j ∧
      Steered s (fusedContrib b c w u) (contribMsg s b c w) { j with chunks := [] } ∧
      (fusedContrib b c w u).coll.inq = s.coll.inq ∧ Contributed s (fusedContrib b c w u) b c w := by
  obtain ⟨v, z, hv, hz, heq⟩ := fusedContrib_checked hu h hbad
  obtain ⟨hblank, hlen⟩ := blankContribution_eq h
  have hst := contribution_stype s b c w
  have hwaits : v.contribWaits b (blankContribution s b c w) = none := by
    rw [hblank]
    generalize (blankContribution s b c w).payload = p at hlen ⊢
    have hlive : (contribMsg s b c w).logged = false := rfl
    generalize contribMsg s b c w = q at hnew hfrit hform hslot hroom hlen hst hlive ⊢
    have hnew := newStep_payload (p := p) (hv.newStep hnew)
    have hform := contribForm_payload hst hlen hform
    have hent := entryOf_msgEntry_of_none hnew.record.none hnew.record.context.opened
    rw [← hv.tableEntry_eq] at hfrit hform hslot
    refine contribWaits_eq_none b (by rw [hent]; exact hfrit) (checks_of_newStep hst hlive hnew hform) (fun i hi => ?_)
      (fun _ => by rw [hent]; exact hslot) (fun x hx => ?_) ?_
    · rw [hnew.record.none] at hi
      cases hi
    · rw [hv.adderRoom, msgUnits, hlen]
      exact hroom x ((hv.targetBenches q) ▸ hx)
    · rw [hv.bench, hv.netWants]
      exact hturn
  rw [← hz.tableEntry_eq] at hfrit hform hslot
  obtain ⟨j, hspares, hopened, hsteered, harrivals⟩ := handOn_of_newStep hst (hz.newStep hnew) hfrit hform hslot
  rw [hwaits, Option.elim_none] at heq
  rw [heq]
  refine ⟨j, opened_retired b c _ (hz.opened hopened), steered_retired b c _ (hz.steered hsteered), ?_, hz.contributed hspares⟩
  rw [State.retireD, State.retire_coll, harrivals, hz.coll]

/-- Without room in its own bench's queue it waits for its turn there. -/
theorem fusedContrib_waits {j : Inst} (hacc : Accepted s (contribMsg s b c w) j) (hfrit : j.ent.frit = false)
    (hown : (s.targetBenches (contribMsg s b c w)).contains b.val = true)
    (hfull : s.adderRoom b (cdiv (20 + (contribMsg s b c w).payload.length) 256) = false) :
    (fusedContrib b c w u).core (coreNo b c) = { s.core (coreNo b c) with run := .waiting, wait := some ⟨.contrib, w, none⟩ } ∧
      (fusedContrib b c w u).benches = s.benches ∧ (fusedContrib b c w u).coll = s.coll := by
  obtain ⟨v, z, hv, -, heq⟩ := fusedContrib_checked hu h hbad
  obtain ⟨hblank, hlen⟩ := blankContribution_eq h
  have hst := contribution_stype s b c w
  have hwaits : v.contribWaits b (blankContribution s b c w) = some .contrib := by
    rw [hblank]
    generalize (blankContribution s b c w).payload = p at hlen ⊢
    have hlive : (contribMsg s b c w).logged = false := rfl
    generalize contribMsg s b c w = q at hacc hown hfull hlen hst hlive ⊢
    have hacc := accepted_payload hst hlen (hv.accepted hacc)
    have htargets : v.targetBenches { q with payload := p } = s.targetBenches q := hv.targetBenches q
    have hcrowded : v.noRoom { q with payload := p } = true := by
      unfold State.noRoom
      rw [htargets, List.any_eq_true]
      refine ⟨b, List.contains_iff_mem.mp hown, ?_⟩
      rw [hv.adderRoom, msgUnits, hlen, hfull]
      rfl
    refine (contribWaits_of_passes (m := { q with payload := p }) b (by rw [msgEntry_of_record hacc.record]; exact hfrit)
      (checks_of_accepted hst hlive hacc) (fun i hi => ?_) (fun hnone => ?_)).trans ?_
    · obtain rfl : j = i := Option.some.inj (hacc.record.symm.trans hi)
      exact overrun_eq_false hacc.slot
    · rw [hacc.record] at hnone
      cases hnone
    · rw [htargets, hown, hcrowded, Bool.true_or, Bool.true_and, if_pos rfl]
  rw [hwaits, Option.elim_some] at heq
  rw [heq]
  refine ⟨?_, hv.benches, hv.coll⟩
  unfold State.coreWait
  rw [State.core_modCore_same, hv.core]

end

end Sys2Proof.Machine
end


/-! ### COPEN, and the cores' contributions settled (R145, R199, R254-R258) -/

section
namespace Sys2Proof.Machine

/-! COPEN. -/

/-- What comes of an OPEN of a new step, from the state in which its entry was read. -/
theorem collOpen_newStep_eq {s : State} {q : CollMsg} {sp : Bool} (hst : q.stype = stOpen) (h : NewStep s q sp)
    (hmember : q.member < (tableEntry s q.key.handle).members) (hlen : q.payload.length = 24) :
    ∃ u, ReadsSound s u ∧ Spares s u ∧ s.collOpen q =
      (newOpen u q sp).statusTo q.key q.src q.core q.chunk q.member q.dg (statusAux Code.ok (some q.member) false) := by
  have hsound : ReadsSound s ((s.readEntry q).collTaken q) := (ReadsSound.readEntry h.record).trans (.takeCredit ..)
  refine ⟨_, hsound, (Spares.readEntry ..).trans (.takeCredit ..), ?_⟩
  unfold State.collOpen
  dsimp only
  generalize (s.readEntry q).collTaken q = u at hsound
  have hnew := hsound.newStep h
  rw [← hsound.tableEntry_eq] at hmember
  obtain ⟨hfirst, hrest⟩ := checks_eq_none_of_newStep hnew (by rw [hst]; decide) (formBad_open hst hmember hlen)
  rw [hfirst, hrest, hnew.record.none, openFor_opens hnew, entryOf_msgEntry_of_none hnew.record.none hnew.record.context.opened,
    hnew.fixed, if_neg Bool.false_ne_true]

/-- The OPEN that core `c` sends, and its message. -/
abbrev coreOpen (s : State) (b : Fin 100) (c : Fin 8) (w : W64) : Inbound := s.coreMsg b c ((s.core (coreNo b c)).s (iA w)) stOpen 0 0 []
abbrev openMsg (s : State) (b : Fin 100) (c : Fin 8) (w : W64) : CollMsg := collMsgOf (coreOpen s b c w)

/-- What a core's status record says when it is told OK for its own OPEN (R258). -/
def okStatus (h : BitVec 20) (member : Nat) : W64 := w64 ((statusAux 0 (some member) false).toNat + 2 ^ 32 * h.toNat + 2 ^ 52)

/-- The core with its status record written. -/
def Core.withStatus (x : Core) (v : W64) : Core := { x with statusRec := v }

theorem Core.after_withStatus (x y : Core) (v : W64) : (x.withStatus v).after y = x.after y := rfl

theorem w64_ok : w64 Code.ok = 0 := rfl

section
variable {s : State} {b : Fin 100} {c : Fin 8} {w : W64} (hfires : Fires s b c w 5 0x04)
  (h : MayContribute s b (coHandle ((s.core (coreNo b c)).s (iA w))))
include hfires h

/-- A COPEN that meets its own conditions is handed on. -/
theorem exec_copen_issues : ∃ z, Issuing s z b c (s.core (coreNo b c)) ∧
    exec (.copen b c) s = .next ((z.openOn (coreOpen s b c w)).retireD b c w Code.ok) := by
  have hu : Issuing s (s.fetched b c) b c (s.core (coreNo b c)) := .fetched
  have hread : ReadsSound (s.fetched b c) ((s.fetched b c).readAtIssue b (coHandle ((s.core (coreNo b c)).s (iA w)))) :=
    .readAtIssue (hu.mayContribute h).readable
  have hz := hu.spares hread (.readAtIssue ..)
  refine ⟨_, hz, ?_⟩
  have hcode := contribCode_eq_zero (src := none) (dq := false) (hz.mayContribute h) nofun nofun
  rw [exec_copen, execCopen, coreExec_fires hfires]
  dsimp only
  rw [State.fetched_core, hcode, if_neg (not_not.mpr rfl), hz.coreMsg hz.coord]

/-- Behind its own contributions in the frit path unit's queue, it waits there. -/
theorem exec_copen_queues (hbehind : ∃ j ∈ s.coll.inq, j.core = (coreOpen s b c w).core) :
    ∃ t, exec (.copen b c) s = .next t ∧
      t.coll = { s.coll with inq := s.coll.inq ++ [coreOpen s b c w] } ∧
      t.core (coreNo b c) = (s.core (coreNo b c)).after ((s.core (coreNo b c)).setS (iD w) 0) := by
  obtain ⟨z, hz, hexec⟩ := exec_copen_issues hfires h
  obtain ⟨j, hj, hcore⟩ := hbehind
  have hopen : z.openOn (coreOpen s b c w) =
      z.modColl (fun q => { q with inq := q.inq ++ [coreOpen s b c w] }) :=
    if_pos (List.any_eq_true.mpr ⟨j, by rw [hz.coll]; exact hj, decide_eq_true hcore⟩)
  refine ⟨_, hexec, ?_, ?_⟩
  · rw [State.retireD, State.retire_coll, hopen, State.modColl, hz.coll]
  · rw [State.retireD_core, hopen, State.core_modColl, hz.core]
    rfl

variable (hfirst : ∀ j ∈ s.coll.inq, j.core ≠ (coreOpen s b c w).core)
include hfirst

/-- With none of them there, it is taken at once. -/
theorem exec_copen_opens : ∃ z, Issuing s z b c (s.core (coreNo b c)) ∧ exec (.copen b c) s =
    .next ((z.collOpen (openMsg s b c w)).retireD b c w Code.ok) := by
  obtain ⟨z, hz, hexec⟩ := exec_copen_issues hfires h
  have hopen : z.openOn (coreOpen s b c w) = z.collOpen (openMsg s b c w) := by
    refine if_neg ?_
    rw [hz.coll, List.any_eq_true]
    rintro ⟨j, hj, hcore⟩
    exact hfirst j hj (of_decide_eq_true hcore)
  exact ⟨z, hz, by rw [hexec, hopen]⟩

omit hfires h hfirst in
/-- A core's own OPEN is answered in its status record (R258). -/
theorem statusTo_coreOpen (t : State) (w : W64) : t.statusTo (openMsg s b c w).key (openMsg s b c w).src (openMsg s b c w).core
    (openMsg s b c w).chunk (openMsg s b c w).member (openMsg s b c w).dg (statusAux Code.ok (some (openMsg s b c w).member) false) =
    t.modCore (coreNo b c) (fun x => x.withStatus (okStatus (coHandle ((s.core (coreNo b c)).s (iA w))) (openMsg s b c w).member)) := by
  have hhandle : (openMsg s b c w).key.handle = coHandle ((s.core (coreNo b c)).s (iA w)) := collMsgOf_coreMsg_handle ..
  change t.coreStatusRec (coreNo b c) (openMsg s b c w).key.handle _ = _
  rw [hhandle]
  generalize (openMsg s b c w).member = n
  generalize coHandle ((s.core (coreNo b c)).s (iA w)) = k
  unfold State.coreStatusRec Core.withStatus okStatus
  have hword : pack [(0, (statusAux Code.ok (some n) false).toNat), (32, k.toNat), (52, 1)] =
      (statusAux 0 (some n) false).toNat + 2 ^ 32 * k.toNat + 2 ^ 52 := by
    rw [pack_cons, pack_cons, pack_cons, show pack [] = 0 from rfl, Nat.pow_zero, Nat.mul_one, Nat.one_mul, Nat.add_zero,
      Nat.mul_comm _ (2 ^ 32), Nat.add_assoc]
  rw [hword]

/-- For a step that is open it is told OK. -/
theorem exec_copen_answered {j : Inst} (hcontext : ContextPasses s (openMsg s b c w))
    (hrec : s.inst? (openMsg s b c w).key = some j) (hrun : j.st = .running)
    (hvalid : j.ent.valid = true) (hmember : (openMsg s b c w).member < j.ent.members)
    (hagrees : Agrees j.ent (digestOver j) j.members (openMsg s b c w)) :
    ∃ t, exec (.copen b c) s = .next t ∧ t.coll = s.coll ∧ t.core (coreNo b c) = (s.core (coreNo b c)).after
      (((s.core (coreNo b c)).withStatus (okStatus (coHandle ((s.core (coreNo b c)).s (iA w)))
        (openMsg s b c w).member)).setS (iD w) 0) := by
  obtain ⟨z, hz, hexec⟩ := exec_copen_opens hfires h hfirst
  have hst := collMsgOf_coreMsg_stype s b c ((s.core (coreNo b c)).s (iA w)) 0 0 (stype := stOpen) (by decide) []
  have htaken : Quiet z (z.collTaken (openMsg s b c w)) := .takeCredit ..
  have hspares : Spares z (z.collTaken (openMsg s b c w)) := .takeCredit ..
  refine ⟨_, hexec, ?_, ?_⟩
  all_goals
    rw [collOpen_of_running hst (hz.contextPasses hcontext) ((hz.inst? _).trans hrec) hrun hvalid hmember
      (length_payload_coreMsg ..) hagrees, statusTo_coreOpen]
  · rw [State.retireD, State.retire_coll]
    exact htaken.coll.trans hz.coll
  · rw [State.retireD_core, State.core_modCore_same, hspares.core, hz.core, Core.after_withStatus, w64_ok]

/-- It opens a step that may open. -/
theorem exec_copen_newStep {sp : Bool} (hnew : NewStep s (openMsg s b c w) sp)
    (hmember : (openMsg s b c w).member < (tableEntry s (openMsg s b c w).key.handle).members) :
    ∃ t j, exec (.copen b c) s = .next t ∧ Opened s t (openMsg s b c w) sp j ∧
      t.coll.inq = s.coll.inq ∧ t.core (coreNo b c) = (s.core (coreNo b c)).after
        (((s.core (coreNo b c)).withStatus (okStatus (coHandle ((s.core (coreNo b c)).s (iA w)))
          (openMsg s b c w).member)).setS (iD w) 0) := by
  obtain ⟨z, hz, hexec⟩ := exec_copen_opens hfires h hfirst
  have hst := collMsgOf_coreMsg_stype s b c ((s.core (coreNo b c)).s (iA w)) 0 0 (stype := stOpen) (by decide) []
  rw [← hz.tableEntry_eq] at hmember
  obtain ⟨u, hu, hspares, heq⟩ := collOpen_newStep_eq hst (hz.newStep hnew) hmember (length_payload_coreMsg ..)
  rw [statusTo_coreOpen] at heq
  rw [heq] at hexec
  have hread := hz.toReadsSound.trans hu
  have hopened := newOpen_opened u (openMsg s b c w) sp
  obtain ⟨harrivals, -⟩ := newOpen_inq u (openMsg s b c w) sp
  have hopen : Spares u (newOpen u (openMsg s b c w) sp) := .openInst ..
  refine ⟨_, _, hexec, opened_retired b c _ (((ReadsSound.modCore ..).toQuiet.sends).opened (hread.opened hopened)), ?_, ?_⟩
  · rw [State.retireD, State.retire_coll]
    exact harrivals.trans (by rw [hread.coll])
  · rw [State.retireD_core, State.core_modCore_same, hopen.core, hspares.core, hz.core, Core.after_withStatus, w64_ok]

end

/-! Settling. -/

/-- A core that goes on after writing 0 to a register reads 0 there, at the next instruction. -/
theorem Core.after_setS_zero (x y : Core) (d : Nat) : (x.after (y.setS d 0)).s d = 0 ∧ (x.after (y.setS d 0)).pc = x.pc + 1 := by
  refine ⟨?_, rfl⟩
  by_cases hd : d = 0
  · rw [hd]
    rfl
  · simp [Core.after, Core.s, Core.setS, hd]

/-- Settles O22: each command's contribution is checked, converted once and handed on, by the three lemmas on what it meets. -/
theorem coresContribute : Obligations.CoresContribute := by
  unfold Obligations.CoresContribute
  intro s b c w x retired turn hands
  have hretired : ∀ t w, Contributed s t b c w → retired t w := fun t w h => ⟨h.core, h.others, h.ls, h.is, h.mem⟩
  have hhands : ∀ (i : Instr) (w : W64) (u : State) (r : RunState) (wt : Option Waiting),
      Issuing s u b c { s.core (coreNo b c) with run := r, wait := wt } → Contributes s b c w →
      u.badCount b c 0 (sourceAddr s b c w)
        (sourceLen s b c w) false = 0 →
      exec i s = .next (fusedContrib b c w u) → hands i w := by
    intro i w u r wt hu h hbad hexec
    refine ⟨fun hfrit hnone => ?_, fun j hacc hplain hfrit hroom htwin hturn => ?_, fun sp hnew hfrit hform hslot hroom hturn => ?_⟩
    · obtain ⟨hcoll, hdone⟩ := fusedContrib_frit hu h hbad hfrit hnone
      exact ⟨_, hexec, by rw [hcoll], by rw [hcoll], hretired _ _ hdone⟩
    · obtain ⟨hsteered, harrivals, hdone⟩ := fusedContrib_accepted hu h hbad hacc hplain hfrit hroom htwin hturn
      exact ⟨_, hexec, hsteered, harrivals, hretired _ _ hdone⟩
    · obtain ⟨j, hopened, hsteered, harrivals, hdone⟩ := fusedContrib_newStep hu h hbad hnew hfrit hform hslot hroom hturn
      exact ⟨_, j, hexec, hopened, hsteered, harrivals, hretired _ _ hdone⟩
  have hissued : Issuing s (s.fetched b c) b c { s.core (coreNo b c) with
    run := (s.core (coreNo b c)).run, wait := (s.core (coreNo b c)).wait } := .fetched
  refine ⟨fun hfires h => ?_, fun hfires h => ?_, fun hfires h => ?_, fun v hwaits hfam hop h => ?_,
    fun j hfires h hacc hfrit hown hfull => ?_, fun hfires h => ⟨fun hbehind => ?_, fun hfirst => ⟨?_, ?_⟩⟩⟩
  · exact hhands _ w _ _ _ hissued h (State.fetched_badCount _ _ _ h.sound) (by rw [exec_contrib, execContrib, coreExec_fires hfires])
  · exact hhands _ w _ _ _ hissued h (State.fetched_badCount _ _ _ h.sound) (by rw [exec_dqcontrib, execDqcontrib, coreExec_fires hfires])
  · exact hhands _ w _ _ _ hissued h (State.fetched_badCount _ _ _ h.sound) (by rw [exec_scontrib, execScontrib, coreExec_fires hfires])
  · have hfound : (s.waitsFor b c .contrib).orElse (fun _ => s.waitsFor b c .window) = some v := by
      rcases hwaits with hown | ⟨hnone, hwindow⟩
      · rw [hown]
        rfl
      · rw [hnone]
        exact hwindow
    refine hhands _ v.word _ _ _ .resumed h h.sound ?_
    rw [exec_contribIssueResume, execContribIssueResume, hfound]
  · refine ⟨_, ?_, fusedContrib_waits hissued h (State.fetched_badCount _ _ _ h.sound) hacc hfrit hown hfull⟩
    rw [exec_contrib, execContrib, coreExec_fires hfires]
  · exact exec_copen_queues hfires h hbehind
  · intro j hcontext hrec hrun hvalid hmember hagrees
    exact exec_copen_answered hfires h hfirst hcontext hrec hrun hvalid hmember hagrees
  · intro sp hnew hmember
    obtain ⟨t, j, hexec, hopened, harrivals, hcore⟩ := exec_copen_newStep hfires h hfirst hnew hmember
    obtain ⟨hzero, hpc⟩ := Core.after_setS_zero (s.core (coreNo b c)) _ (iD w)
    exact ⟨t, j, hexec, hopened, harrivals, by rw [hcore]; exact hzero, by rw [hcore]; exact hpc⟩

end Sys2Proof.Machine
end


/-! ### A count of retries that stands above its 32 bits (R392, R456) -/

section
namespace Sys2Proof.Machine

/-- A device after host-ready whose steward is down and holds its measured firmware. No command and no background command is
in progress, and MBOX_RETRY holds more than a 32-bit counter reaches. -/
def retryAbove : State :=
  { Tests.up with
    fault := { stewardUp := false }
    boot := { Tests.up.boot with measured := [[], Config.sha3x512 (compBytes Tests.up.boot.header Tests.up.boot.body [1])] }
    regs := [(Reg.mboxRetry, 0x100000000)] }

/-- It meets what the statement asks of a steward that comes back. -/
theorem retryAbove_comesBack : retryAbove.powered = true ∧ retryAbove.fault.stewardUp = false ∧ retryAbove.hostReached = true ∧
    retryAbove.copyOk = true ∧ retryAbove.fault.reset = none :=
  ⟨by decide +kernel, rfl, by decide +kernel, decide_eq_true rfl, rfl⟩

/-- With nothing to complete, the steward's return counts nothing. -/
theorem retryAbove_counts_nothing : ∃ t, exec .stewardRestartComplete retryAbove = .next t ∧ t.regN Reg.mboxRetry = 0x100000000 := by
  obtain ⟨hpowered, hdown, hreached, hcopy, -⟩ := retryAbove_comesBack
  have hready : (!retryAbove.powered || retryAbove.fault.stewardUp || (retryAbove.hostReached && !retryAbove.copyOk)) = false := by
    rw [hpowered, hdown, hcopy]
    simp
  rw [exec_stewardRestartComplete, execStewardRestartComplete, hready]
  exact ⟨_, rfl, by decide +kernel⟩

/-- Refutes O51: with no command in progress MBOX_RETRY keeps what it holds, where the statement has it cut to 32 bits; the
statement ranges over states whose register holds more. -/
theorem not_faultsReported : ¬ Obligations.FaultsReported := by
  unfold Obligations.FaultsReported
  intro h
  obtain ⟨hpowered, hdown, hreached, hcopy, hreset⟩ := retryAbove_comesBack
  obtain ⟨t, ht, hcount⟩ := retryAbove_counts_nothing
  obtain ⟨-, -, -, -, -, -, -, -, hback⟩ := h retryAbove hpowered
  obtain ⟨u, hu, -, -, -, -, -, -, -, hcompleted, -⟩ := hback hdown hreached hcopy
  obtain ⟨hretries, -⟩ := hcompleted hreset
  obtain rfl : t = u := Host.Outcome.next.inj (ht.symm.trans hu)
  rw [hcount] at hretries
  exact absurd hretries (by decide)

end Sys2Proof.Machine
end


/-! ### Jumps, branches and the fetch of an instruction (R196, R234) -/

section
namespace Sys2Proof.Machine

/-! What a fetch changes. -/

section
variable (s : State) (b : Fin 100) (c : Fin 8)

/-- The words whose corrected errors a fetch meets. -/
def State.fetchCe : List BadWord := s.badIn 3 (coreNo b c) (8 * (s.core (coreNo b c)).pc.toNat) 8 true

theorem State.fetched_met (h : s.fetchCe b c ≠ []) : s.fetched b c =
    { s.bumpBy (Reg.isCe b) (s.fetchCe b c).length with badWords := s.badWords.filter (fun w => !(s.fetchCe b c).contains w) } := by
  have hmet : (s.badIn 3 (coreNo b c) (8 * (s.core (coreNo b c)).pc.toNat) 8 true).isEmpty = false := by
    simpa [State.fetchCe] using h
  rw [State.fetched]
  dsimp only
  rw [hmet]
  rfl

/-- A fetch counts the errors that it corrects in IS_CE (R196). -/
theorem State.fetched_counts (h : s.fetchCe b c ≠ []) :
    (s.fetched b c).regN (Reg.isCe b) = min (s.regN (Reg.isCe b) + (s.fetchCe b c).length) 0xFFFFFFFF := by
  rw [← State.regN_bumpBy, State.fetched_met s b c h]
  rfl

/-- A fetch corrects the errors that it meets and no other. -/
theorem State.mem_fetched_badWords (e : BadWord) :
    e ∈ (s.fetched b c).badWords ↔ e ∈ s.badWords ∧ e ∉ s.fetchCe b c := by
  by_cases h : s.fetchCe b c = []
  · rw [State.fetched_clean s b c h, h]
    simp
  · rw [State.fetched_met s b c h, List.mem_filter]
    simp

end

/-! Jumps. -/

theorem iTarget_eq (w : W64) : iTarget w = w.toNat % 2 ^ 13 := by
  rw [iTarget, fld, Nat.pow_zero, Nat.div_one]

/-- An instruction ends with core `y`, and from `u` on it touched nothing but its core's registers and its progress. -/
def EndsWith (u : State) (b : Fin 100) (c : Fin 8) (o : Host.Outcome State Fault Refusal) (y : Core) : Prop :=
  ∃ t, o = .next t ∧ OnlyCore u t b c ∧ t.core (coreNo b c) = y

section
variable {s u : State} {b : Fin 100} {c : Fin 8} {w : W64} {fam op : Nat} {o : Host.Outcome State Fault Refusal} {x : Core}

/-- An instruction that falls through. -/
theorem EndsWith.retire (hcore : u.core (coreNo b c) = x) {g : Core → Core} (hpc : ∀ y, (g y).pc = y.pc)
    (ho : o = .next (u.retire b c g)) : EndsWith u b c o (x.after (g x)) := by
  subst hcore
  exact ⟨_, ho, State.retire_only .., State.retire_core _ _ _ _ (hpc _)⟩

/-- An instruction that jumps. -/
theorem EndsWith.retireTo (hcore : u.core (coreNo b c) = x) (g : Core → Core) {pc : Nat}
    (ho : o = .next (u.retireTo b c g pc)) : EndsWith u b c o ((g x).jumpsTo pc) := by
  subst hcore
  exact ⟨_, ho, State.retireTo_only .., State.retireTo_core ..⟩

/-- A branch jumps where s[A] is 0 as its opcode asks, else falls through (R234). -/
theorem branch_goes (onZero : Bool) (h : Fires s b c w 6 op) : EndsWith (s.fetched b c) b c (branch b c op onZero s)
    (if decide ((s.core (coreNo b c)).s (iA w) = 0) == onZero then (s.core (coreNo b c)).jumpsTo (w.toNat % 2 ^ 13)
      else (s.core (coreNo b c)).after (s.core (coreNo b c))) := by
  have hbranch : branch b c op onZero s = .next (if decide ((s.core (coreNo b c)).s (iA w) = 0) == onZero
      then (s.fetched b c).retireTo b c id (iTarget w) else (s.fetched b c).retire b c id) := by
    rw [← State.fetched_core s b c]
    exact coreExec_fires h _
  rw [hbranch, iTarget_eq]
  split
  · exact .retireTo (State.fetched_core ..) id rfl
  · exact .retire (State.fetched_core ..) (g := id) (fun _ => rfl) rfl

end

/-- Settles O15: each transfer retires with its program counter, and the fetch is its own lemmas. -/
theorem controlTransfers : Obligations.ControlTransfers := by
  unfold Obligations.ControlTransfers
  intro s b c w x goes target
  have hcore : (s.fetched b c).core (coreNo b c) = x := State.fetched_core ..
  have htarget : iTarget w = target := iTarget_eq w
  refine ⟨fun h => ?_, fun h => ?_, fun h => ?_, fun h hnear => ?_, fun h => ?_, fun h => ?_, ?_⟩
  · exact EndsWith.retire hcore (g := id) (fun _ => rfl) ((exec_nop b c s).trans (coreExec_fires h _))
  · exact htarget ▸ EndsWith.retireTo hcore id ((exec_jmp b c s).trans (coreExec_fires h _))
  · exact htarget ▸ EndsWith.retireTo hcore (fun x => x.setS (iD w) (w64 (x.pc.toNat + 1)))
      ((exec_jal b c s).trans (coreExec_fires h _))
  · refine EndsWith.retireTo hcore id ((exec_jr b c s).trans ((coreExec_fires h _).trans ?_))
    rw [hcore, if_neg (Nat.not_le.mpr hnear)]
  · have hbranch := branch_goes true h
    simp only [beq_true, decide_eq_true_eq] at hbranch
    exact hbranch
  · have hbranch := branch_goes false h
    simp only [beq_false, Bool.not_eq_true', decide_eq_false_iff_not] at hbranch
    exact hbranch
  · exact ⟨State.fetched_clean s b c, State.fetched_counts s b c, State.fetched_reg s b c, State.mem_fetched_badWords s b c,
      State.fetched_eq s b c⟩

end Sys2Proof.Machine
end


/-! ### Scalar instructions (R216, R223, R224) -/

section
namespace Sys2Proof.Machine

/-! Results of two sources. -/

theorem shAmt_eq (y : W64) : shAmt y = y.toNat % 64 := by
  rw [shAmt, fld, Nat.pow_zero, Nat.div_one, show 2 ^ 6 = 64 from rfl]

theorem ofBool_decide (p : Prop) [Decidable p] : ofBool (decide p) = if p then 1 else 0 := by
  unfold ofBool
  simp only [decide_eq_true_eq]

theorem mulHigh_eq (x y : Int) : mulHigh x y = BitVec.ofInt 64 (x * y / 2 ^ 64) := by
  apply BitVec.eq_of_toNat_eq
  unfold mulHigh w64 tc
  rw [BitVec.toNat_ofNat, BitVec.toNat_ofInt]
  omega

theorem mulHigh_natCast (x y : Nat) : mulHigh x y = BitVec.ofNat 64 (x * y / 2 ^ 64) := by
  rw [mulHigh_eq, ← BitVec.ofInt_natCast]
  norm_cast

/-- The quotient of −2^63 by −1 is −2^63 again, modulo 2^64 (R224). -/
theorem divS_eq (x y : W64) : divS x y = if y = 0 then BitVec.allOnes 64
    else if x.toInt = -2 ^ 63 ∧ y.toInt = -1 then BitVec.ofInt 64 (-2 ^ 63) else BitVec.ofInt 64 (x.toInt.tdiv y.toInt) := by
  rw [divS, w64_tc]
  split
  · rfl
  · split
    case isTrue h =>
      rw [h.1, h.2]
      decide
    case isFalse => rfl

theorem remS_eq (x y : W64) : remS x y = if y = 0 then x
    else if x.toInt = -2 ^ 63 ∧ y.toInt = -1 then 0 else BitVec.ofInt 64 (x.toInt.tmod y.toInt) := by
  rw [remS, w64_tc]
  split
  · rfl
  · split
    case isTrue h =>
      rw [h.1, h.2]
      decide
    case isFalse => rfl

theorem mul_toNat (x y : W64) : x * y = BitVec.ofNat 64 (x.toNat * y.toNat) := by
  apply BitVec.eq_of_toNat_eq
  rw [BitVec.toNat_mul, BitVec.toNat_ofNat]

/-! The commands, as their shared operations. -/

section
variable {b : Fin 100} {c : Fin 8} {s : State} {op : Nat} {f g : W64 → W64 → W64}

theorem scalarBin_congr (h : ∀ x y, f x y = g x y) : scalarBin b c op f s = scalarBin b c op g s := by
  rw [funext fun x => funext (h x)]

theorem scalarImm_congr (h : ∀ x w, f x w = g x w) : scalarImm b c op f s = scalarImm b c op g s := by
  rw [funext fun x => funext (h x)]

end

/-- The instructions of two sources are one operation, each with its result (R223). -/
theorem exec_scalarTwo : ∀ e ∈ scalarTwo, ∀ b c s, exec (e.1 b c) s = scalarBin b c e.2.1 e.2.2 s := by
  simp only [scalarTwo, List.forall_mem_cons, List.not_mem_nil, IsEmpty.forall_iff, implies_true, and_true]
  refine ⟨exec_add, exec_sub, exec_and, exec_or, exec_xor, ?shl, ?shr, ?sra, ?slt, ?sltu, ?seq, ?min, ?max, ?minu, ?maxu, ?mul,
    ?mulhs, ?mulhu⟩ <;> intro b c s
  case shl => exact (exec_shl b c s).trans (scalarBin_congr fun x y => by rw [shAmt_eq])
  case shr => exact (exec_shr b c s).trans (scalarBin_congr fun x y => by rw [shAmt_eq])
  case sra => exact (exec_sra b c s).trans (scalarBin_congr fun x y => by rw [shAmt_eq])
  case slt => exact (exec_slt b c s).trans (scalarBin_congr fun x y => ofBool_decide _)
  case sltu => exact (exec_sltu b c s).trans (scalarBin_congr fun x y => ofBool_decide _)
  case seq => exact (exec_seq b c s).trans (scalarBin_congr fun x y => ofBool_decide _)
  case min => exact (exec_min b c s).trans (scalarBin_congr fun x y => by simp only [BitVec.slt, decide_eq_true_eq])
  case max => exact (exec_max b c s).trans (scalarBin_congr fun x y => by simp only [BitVec.slt, decide_eq_true_eq])
  case minu => exact (exec_minu b c s).trans (scalarBin_congr fun x y => by simp only [BitVec.ult, decide_eq_true_eq])
  case maxu => exact (exec_maxu b c s).trans (scalarBin_congr fun x y => by simp only [BitVec.ult, decide_eq_true_eq])
  case mul => exact (exec_mul b c s).trans (scalarBin_congr mul_toNat)
  case mulhs => exact (exec_mulhs b c s).trans (scalarBin_congr fun x y => mulHigh_eq ..)
  case mulhu => exact (exec_mulhu b c s).trans (scalarBin_congr fun x y => mulHigh_natCast ..)

/-- So are the divisions, with their edge cases (R224). -/
theorem exec_scalarDivide : ∀ e ∈ scalarDivide, ∀ b c s, exec (e.1 b c) s = scalarBin b c e.2.1 e.2.2 s := by
  simp only [scalarDivide, List.forall_mem_cons, List.not_mem_nil, IsEmpty.forall_iff, implies_true, and_true]
  refine ⟨?div, exec_divu, ?rem, exec_remu⟩ <;> intro b c s
  case div => exact (exec_div b c s).trans (scalarBin_congr divS_eq)
  case rem => exact (exec_rem b c s).trans (scalarBin_congr remS_eq)

/-! Results of one source and the immediate. -/

theorem iImm_eq (w : W64) : iImm w = w.toNat % 2 ^ 32 := by rw [iImm, fld, Nat.pow_zero, Nat.div_one]

theorem immS_eq (w : W64) : immS w = (BitVec.ofNat 32 w.toNat).signExtend 64 := by
  rw [immS, w64_tc_sgn (by decide), iImm_eq]
  congr 1
  apply BitVec.eq_of_toNat_eq
  simp only [BitVec.toNat_ofNat, Nat.mod_mod]

/-- LIH puts the immediate above the low word of the source. -/
theorem highWord_eq (x : W64) (n : Nat) : w64 (n * 2 ^ 32 + fld x 0 32) = BitVec.ofNat 64 (n * 2 ^ 32) ||| (x &&& 0xFFFFFFFF) := by
  have hlow : fld x 0 32 < 2 ^ 32 := Nat.mod_lt _ (Nat.two_pow_pos 32)
  rw [w64, Nat.mul_comm, Nat.two_pow_add_eq_or_of_lt hlow, BitVec.ofNat_or]
  congr 1
  apply BitVec.eq_of_toNat_eq
  rw [BitVec.toNat_and, show (0xFFFFFFFF : W64).toNat = 2 ^ 32 - 1 from rfl, Nat.and_two_pow_sub_one_eq_mod, BitVec.toNat_ofNat, fld,
    Nat.pow_zero, Nat.div_one]
  omega

/-- The instructions of one source and an immediate (R223). -/
theorem exec_scalarOne : ∀ e ∈ scalarOne, ∀ b c s, exec (e.1 b c) s = scalarImm b c e.2.1
    (fun x w => e.2.2 x ((BitVec.ofNat 32 w.toNat).signExtend 64) (w.toNat % 2 ^ 32)) s := by
  simp only [scalarOne, List.forall_mem_cons, List.not_mem_nil, IsEmpty.forall_iff, implies_true, and_true, ← immS_eq, ← iImm_eq]
  refine ⟨exec_popc, exec_clz, exec_ctz, exec_addi, exec_andi, exec_ori, exec_xori, exec_shli, exec_shri, exec_srai, ?slti, exec_li,
    ?lih⟩ <;> intro b c s
  case slti => exact (exec_slti b c s).trans (scalarImm_congr fun x w => ofBool_decide _)
  case lih => exact (exec_lih b c s).trans (scalarImm_congr fun x w => highWord_eq ..)

/-! Legal encodings. -/

/-- A legal word has a row, uses its fields as the row says, and its tail and codes are permitted (R218). -/
theorem legal_iff (w : W64) : legal w = true ↔ ∃ r, opRow (iFam w) (iOp w) = some r ∧ r.d.ok (iD w) = true ∧ r.a.ok (iA w) = true ∧
    r.b.ok (iB w) = true ∧ (r.tail.isReg = true → r.c.ok (iC w) = true) ∧ r.tail.ok w = true ∧ codeOk w = true := by
  unfold legal
  cases opRow (iFam w) (iOp w) with
  | none => simp
  | some r => simp [and_assoc, imp_iff_not_or]

/-- The REG tail of an opcode without types or rounding (R216). -/
theorem Tail.plain_ok (w : W64) : plain.ok w = true ↔ w.toNat % 2 ^ 23 = 0 ∧ iType w = 0 ∧ iRnd w = 0 := by
  simp [plain, Tail.ok, fld, and_assoc]

/-- The IMM tail: SZ and its neighbour 0, and the immediate below its limit. -/
theorem Tail.imm_ok (w : W64) (n : Nat) : (Tail.imm n).ok w = true ↔ fld w 32 2 = 0 ∧ iImm w < n := by
  simp [Tail.ok]

theorem Use.no_ok {n : Nat} : Use.no.ok n = true ↔ n = 0 := by simp [Use.ok]

/-- A scalar word: its opcodes, the unused field of the REG format, and the limit of an immediate shift (R216, R223). -/
theorem legal_scalar {w : W64} (hfam : iFam w = 0) (h : legal w = true) :
    ((1 ≤ iOp w ∧ iOp w ≤ 0x19) ∨ (0x20 ≤ iOp w ∧ iOp w ≤ 0x29)) ∧
      (iOp w ≤ 0x19 → iC w = 0 ∧ iType w = 0 ∧ iRnd w = 0) ∧ (0x24 ≤ iOp w → iOp w ≤ 0x26 → iImm w < 64) := by
  obtain ⟨r, hrow, -, -, -, hc, htail, -⟩ := (legal_iff w).mp h
  rw [hfam] at hrow
  rw [opRow, rowScalar] at hrow
  split_ifs at hrow with hbinary hunary himm hshift hli
  all_goals obtain rfl := Option.some.inj hrow
  · have hplain := (Tail.plain_ok w).mp htail
    have hcode := Use.no_ok.mp (hc rfl)
    omega
  · have hplain := (Tail.plain_ok w).mp htail
    have hcode := Use.no_ok.mp (hc rfl)
    omega
  · omega
  · have hlimit := (Tail.imm_ok w 64).mp htail
    omega
  · omega

/-- Settles O5: every scalar instruction is one of two shared operations with the result of its table. -/
theorem scalarOperations : Obligations.ScalarOperations := by
  unfold Obligations.ScalarOperations
  refine ⟨fun w hfam hlegal => legal_scalar hfam hlegal, fun e he s b c w h => ?_, fun e he s b c w h => ?_⟩
  · have hexec : exec (e.1 b c) s = scalarBin b c e.2.1 e.2.2 s :=
      (List.mem_append.mp he).elim (exec_scalarTwo e · b c s) (exec_scalarDivide e · b c s)
    exact EndsWith.retire (State.fetched_core ..) (g := fun x => x.setS (iD w) (e.2.2 (x.s (iA w)) (x.s (iB w))))
      (fun x => x.setS_pc ..) (hexec.trans (coreExec_fires h _))
  · exact EndsWith.retire (State.fetched_core ..) (g := fun x => x.setS (iD w) (e.2.2 (x.s (iA w))
      ((BitVec.ofNat 32 w.toNat).signExtend 64) (w.toNat % 2 ^ 32))) (fun x => x.setS_pc ..)
      ((exec_scalarOne e he b c s).trans (coreExec_fires h _))

end Sys2Proof.Machine
end


/-! ### Guarded-off instructions (R221) -/

section
namespace Sys2Proof.Machine

/-- The guard of a command's instruction is bit 0 of p[PG]: it executes as `coreExec` says. -/
def BitGuarded (e : (Fin 100 → Fin 8 → Instr) × Nat × Nat) : Prop :=
  ∀ b c s, ∃ f, exec (e.1 b c) s = coreExec b c e.2.1 e.2.2 f s

/-- The predicate instructions of two predicates are one operation, each with its result (R229). -/
theorem exec_predicateTwo : ∀ e ∈ predicateTwo, ∀ b c s, exec (e.1 b c) s = predBin b c e.2.1 e.2.2 s := by
  simp only [predicateTwo, List.forall_mem_cons, List.not_mem_nil, IsEmpty.forall_iff, implies_true, and_true]
  exact ⟨exec_pand, exec_por, exec_pxor, exec_pandn, exec_pnot⟩

/-- So are those that write a scalar register (R229). -/
theorem exec_predicateOut : ∀ e ∈ predicateOut, ∀ b c s, exec (e.1 b c) s = predToS b c e.2.1 e.2.2 s := by
  simp only [predicateOut, List.forall_mem_cons, List.not_mem_nil, IsEmpty.forall_iff, implies_true, and_true]
  exact ⟨exec_ptos, exec_pcnt, exec_pfirst⟩

theorem guardedMore_bitGuarded : ∀ e ∈ guardedMore, BitGuarded e := by
  simp only [guardedMore, List.forall_mem_cons, List.not_mem_nil, IsEmpty.forall_iff, implies_true, and_true]
  and_intros
  all_goals
    intro b c s
    dsimp [execBeqz, execBnez, branch]
    exact ⟨_, rfl⟩

/-- A guarded-off instruction of any of these retires without an effect (R221). -/
theorem BitGuarded.masked {e : (Fin 100 → Fin 8 → Instr) × Nat × Nat} (he : BitGuarded e) {s : State} {b : Fin 100} {c : Fin 8}
    {w : W64} (h : Issues s b c w e.2.1 e.2.2) (hoff : (s.core (coreNo b c)).guard w = false) :
    EndsWith (s.fetched b c) b c (exec (e.1 b c) s) ((s.core (coreNo b c)).after (s.core (coreNo b c))) := by
  obtain ⟨f, hf⟩ := he b c s
  exact .retire (State.fetched_core ..) (g := id) (fun _ => rfl) (hf.trans (coreExec_masked h hoff f))

/-- Settles O9: every instruction of the statement executes under bit 0 of its guard. -/
theorem guardedOffHasNoEffect : Obligations.GuardedOffHasNoEffect := by
  unfold Obligations.GuardedOffHasNoEffect
  intro e he s b c w h hoff
  have hguarded : BitGuarded e := by
    simp only [guardedOps, List.mem_flatten, List.mem_cons, List.not_mem_nil, or_false] at he
    obtain ⟨l, rfl | rfl | rfl | rfl | rfl | rfl, he⟩ := he
    case inr.inr.inr.inr.inr => exact guardedMore_bitGuarded e he
    all_goals obtain ⟨x, hx, rfl⟩ := List.mem_map.mp he
    · exact fun b c s => ⟨_, exec_scalarTwo x hx b c s⟩
    · exact fun b c s => ⟨_, exec_scalarDivide x hx b c s⟩
    · exact fun b c s => ⟨_, exec_scalarOne x hx b c s⟩
    · exact fun b c s => ⟨_, exec_predicateTwo x hx b c s⟩
    · exact fun b c s => ⟨_, exec_predicateOut x hx b c s⟩
  exact hguarded.masked h hoff

end Sys2Proof.Machine
end


/-! ### Lane-wise and predicate instructions (R221, R226, R227, R229) -/

section
namespace Sys2Proof.Machine

/-! Integers in two's complement. -/

theorem etypeBits_pos (t : Nat) : 0 < etypeBits t := by
  unfold etypeBits
  split <;> decide

theorem laneBits_pos (w : W64) : 0 < laneBits w := etypeBits_pos _

theorem laneInt_eq (w : W64) (n : Nat) : laneInt w n = sgn (laneBits w) n := by
  rw [laneInt, BitVec.toInt_ofNat', sgn_eq_bmod (laneBits_pos w)]

/-- A lane's signed value is the lane modulo its width. -/
theorem sgn_modEq (k n : Nat) : sgn k n ≡ n [ZMOD (2 ^ k : Nat)] := by
  have hmod : ((n % 2 ^ k : Nat) : Int) ≡ n [ZMOD (2 ^ k : Nat)] := by
    rw [Int.natCast_mod]
    exact Int.mod_modEq ..
  unfold sgn
  split
  · exact hmod
  · exact (Int.ModEq.sub hmod (Int.modEq_zero_iff_dvd.mpr dvd_rfl)).trans (by rw [sub_zero])

theorem tc_modEq {k : Nat} {x y : Int} (h : x ≡ y [ZMOD (2 ^ k : Nat)]) : tc k x = tc k y := by
  rw [tc, tc, h]

theorem tc_natCast (k n : Nat) : tc k (n : Int) = n % 2 ^ k := by
  rw [tc, ← Int.natCast_mod, Int.toNat_natCast]

theorem tc_mod (k : Nat) (x : Int) : tc k x % 2 ^ k = tc k x := by
  refine Nat.mod_eq_of_lt ?_
  have hpos : (0 : Int) < (2 ^ k : Nat) := by exact_mod_cast Nat.two_pow_pos k
  have hlt := Int.emod_lt_of_pos x hpos
  unfold tc
  omega

/-- An integer result that agrees with a number modulo the lane width writes that number. -/
theorem tc_lane {k : Nat} {x : Int} {n : Nat} (h : x ≡ n [ZMOD (2 ^ k : Nat)]) : tc k x % 2 ^ k = n % 2 ^ k := by
  rw [tc_mod, tc_modEq h, tc_natCast]

/-- The complement of a lane. -/
theorem natCast_complement_modEq {k n : Nat} (h : n < 2 ^ k) : ((2 ^ k - n : Nat) : Int) ≡ -n [ZMOD (2 ^ k : Nat)] := by
  rw [Nat.cast_sub h.le]
  exact (Int.ModEq.sub (Int.modEq_zero_iff_dvd.mpr dvd_rfl) rfl).trans (by rw [zero_sub])

theorem clampInt_eq {lo hi : Int} (h : lo ≤ hi) (x : Int) : clampInt lo hi x = max lo (min hi x) := by
  unfold clampInt
  split_ifs <;> omega

/-- The saturated lane (R226). -/
theorem satLane_eq (w : W64) (x : Int) :
    satLane (laneBits w) x = tc (laneBits w) (max (-2 ^ (laneBits w - 1)) (min (2 ^ (laneBits w - 1) - 1) x)) := by
  have hpos := Nat.two_pow_pos (laneBits w - 1)
  rw [satLane, clampInt_eq (by omega)]
  push_cast
  rfl

/-! Lanes of the destination. -/

/-- The outcome writes to the active lanes of v[D] the values of `f` modulo the lane width, and nothing else but its core's
progress: an inactive lane keeps its value (R221). -/
def WritesLanes (u : State) (b : Fin 100) (c : Fin 8) (w : W64) (x : Core) (o : Host.Outcome State Fault Refusal) (f : Nat → Nat) :
    Prop :=
  ∃ t v, o = .next t ∧ OnlyCore u t b c ∧ t.core (coreNo b c) = x.after (x.setV (iD w) v) ∧
    ∀ i < 512 / laneBits w, laneAt w v i = if laneOnAt w x i then f i % 2 ^ laneBits w else laneAt w (x.v (iD w)) i

theorem WritesLanes.of_vecRetire {u : State} {b : Fin 100} {c : Fin 8} {w : W64} {x : Core} {o : Host.Outcome State Fault Refusal}
    {f : Nat → Nat} {g : Core → Nat → Nat} (hcore : u.core (coreNo b c) = x) (ho : o = .next (vecRetire b c w (laneBits w) g u))
    (hg : ∀ i, g x i % 2 ^ laneBits w = f i % 2 ^ laneBits w) : WritesLanes u b c w x o f := by
  subst hcore
  refine ⟨_, maskLanes (laneBits w) ((u.core (coreNo b c)).p (iPg w)) ((u.core (coreNo b c)).v (iD w)) (g (u.core (coreNo b c))), ho,
    (State.retire_only ..).of_count .., ?_, fun i hi => ?_⟩
  · rw [vecRetire, State.retire_core _ _ _ _ (Core.setV_pc ..), State.countEv_core]
  · rw [← hg i]
    exact vLane_maskLanes _ _ _ _ i hi

/-! Lane operations. -/

section
variable {s : State} {b : Fin 100} {c : Fin 8} {w : W64} {op : Nat} {o : Host.Outcome State Fault Refusal}

/-- Lane by lane from v[A] and v[B]. -/
theorem vecBin_writes {f : W64 → Nat → Nat → Nat} {g : Nat → Nat} (ho : o = vecBin b c op f s) (h : Issues s b c w 1 op)
    (hg : ∀ i, f w (laneAt w ((s.core (coreNo b c)).v (iA w)) i) (laneAt w ((s.core (coreNo b c)).v (iB w)) i) % 2 ^ laneBits w =
      g i % 2 ^ laneBits w) :
    WritesLanes (s.fetched b c) b c w (s.core (coreNo b c)) o g :=
  .of_vecRetire (State.fetched_core ..) (ho.trans (laneExec_issues h _)) hg

/-- Lane by lane from v[A] and s[B]. -/
theorem vecShift_writes {f : Nat → Nat → Nat → Nat} {g : Nat → Nat} (ho : o = vecShift b c op f s) (h : Issues s b c w 1 op)
    (hg : ∀ i, f (laneBits w) (laneAt w ((s.core (coreNo b c)).v (iA w)) i)
      (((s.core (coreNo b c)).s (iB w)).toNat % laneBits w) % 2 ^ laneBits w = g i % 2 ^ laneBits w) :
    WritesLanes (s.fetched b c) b c w (s.core (coreNo b c)) o g :=
  .of_vecRetire (State.fetched_core ..) (ho.trans (laneExec_issues h _)) hg

/-- Lane by lane from v[A]. -/
theorem vecUn_writes {f : Nat → Nat → Nat} {g : Nat → Nat} (ho : o = vecUn b c op f s) (h : Issues s b c w 1 op)
    (hg : ∀ i, f (iType w) (laneAt w ((s.core (coreNo b c)).v (iA w)) i) % 2 ^ laneBits w = g i % 2 ^ laneBits w) :
    WritesLanes (s.fetched b c) b c w (s.core (coreNo b c)) o g :=
  .of_vecRetire (State.fetched_core ..) (ho.trans (laneExec_issues h _)) hg

end

theorem laneAt_lt (w : W64) (v : W512) (i : Nat) : laneAt w v i < 2 ^ laneBits w := vLane_lt ..

/-- An integer or a floating lane operation: integers modulo the lane width (R227). -/
theorem arithLane_lane (w : W64) (f : Val → Val → Val) {g : Int → Int → Int} {x y n : Nat}
    (h : g (sgn (laneBits w) x) (sgn (laneBits w) y) ≡ n [ZMOD (2 ^ laneBits w : Nat)]) :
    arithLane (iType w) (iRnd w) f g x y % 2 ^ laneBits w =
      (if isInt (iType w) then n else laneOf (iType w) (iRnd w) (f (laneVal (iType w) x) (laneVal (iType w) y))) % 2 ^ laneBits w := by
  unfold arithLane
  split
  · exact tc_lane h
  · rfl

theorem absLane_lane (w : W64) (x : Nat) :
    (if isInt (iType w) then intLane (laneBits w) (sgn (laneBits w) x).natAbs else x % 2 ^ (laneBits w - 1)) % 2 ^ laneBits w =
      (if isInt (iType w) then (laneInt w x).natAbs else x % 2 ^ (laneBits w - 1)) % 2 ^ laneBits w := by
  split
  · rw [laneInt_eq]
    exact tc_lane rfl
  · rfl

theorem negLane_lane (w : W64) {x : Nat} (hx : x < 2 ^ laneBits w) :
    (if isInt (iType w) then intLane (laneBits w) (-(sgn (laneBits w) x)) else x ^^^ 2 ^ (laneBits w - 1)) % 2 ^ laneBits w =
      (if isInt (iType w) then 2 ^ laneBits w - x else x ^^^ 2 ^ (laneBits w - 1)) % 2 ^ laneBits w := by
  split
  · exact tc_lane ((sgn_modEq ..).neg.trans (natCast_complement_modEq hx).symm)
  · rfl

/-- Every lane operation writes its result to the active lanes (R226, R227). -/
theorem laneOps_write : ∀ e ∈ laneOps, ∀ (s : State) (b : Fin 100) (c : Fin 8) (w : W64), Issues s b c w 1 e.2.1 →
    WritesLanes (s.fetched b c) b c w (s.core (coreNo b c)) (exec (e.1 b c) s) (fun i =>
      e.2.2 w (laneAt w ((s.core (coreNo b c)).v (iA w)) i) (laneAt w ((s.core (coreNo b c)).v (iB w)) i)
        ((s.core (coreNo b c)).s (iB w))) := by
  simp only [laneOps, List.forall_mem_cons, List.not_mem_nil, IsEmpty.forall_iff, implies_true, and_true]
  refine ⟨?add, ?sub, ?mul, ?adds, ?subs, ?and, ?or, ?xor, ?shl, ?shr, ?sra, ?abs, ?neg, ?mov⟩ <;> intro s b c w h
  case add =>
    exact vecBin_writes (exec_vadd b c s) h fun i => arithLane_lane w Val.add ((sgn_modEq ..).add (sgn_modEq ..))
  case sub =>
    refine vecBin_writes (exec_vsub b c s) h fun i => arithLane_lane w (fun x y => x.add y.negate) ?_
    rw [Nat.cast_add]
    exact (sgn_modEq ..).add ((sgn_modEq ..).neg.trans (natCast_complement_modEq (laneAt_lt ..)).symm)
  case mul =>
    refine vecBin_writes (exec_vmul b c s) h fun i => arithLane_lane w Val.mul ?_
    rw [Nat.cast_mul]
    exact (sgn_modEq ..).mul (sgn_modEq ..)
  case adds => exact vecBin_writes (exec_vadds b c s) h fun i => by rw [laneInt_eq, laneInt_eq, ← satLane_eq]; rfl
  case subs => exact vecBin_writes (exec_vsubs b c s) h fun i => by rw [laneInt_eq, laneInt_eq, ← satLane_eq]; rfl
  case and => exact vecBin_writes (exec_vand b c s) h fun i => rfl
  case or => exact vecBin_writes (exec_vor b c s) h fun i => rfl
  case xor => exact vecBin_writes (exec_vxor b c s) h fun i => rfl
  case shl => exact vecShift_writes (exec_vshl b c s) h fun i => rfl
  case shr => exact vecShift_writes (exec_vshr b c s) h fun i => rfl
  case sra => exact vecShift_writes (exec_vsra b c s) h fun i => by rw [laneInt_eq]; push_cast; rfl
  case abs => exact vecUn_writes (exec_vabs b c s) h fun i => absLane_lane ..
  case neg => exact vecUn_writes (exec_vneg b c s) h fun i => negLane_lane w (laneAt_lt ..)
  case mov => exact vecUn_writes (exec_vmov b c s) h fun i => rfl

/-! The predicate family. -/

/-- The nine predicate opcodes and what their fields name (R229). -/
theorem rowPredicate_eq_some {op : Nat} {r : OpRow} : rowPredicate op = some r ↔ (1 ≤ op ∧ op ≤ 9) ∧
    ⟨if op ≤ 6 then .p else .s, if op ≠ 6 then .p else .s, if op ≤ 4 then .p else .no, .no, plain⟩ = r := by
  by_cases h : 1 ≤ op ∧ op ≤ 9
  · obtain ⟨hlo, hhi⟩ := h
    interval_cases op <;> simp [rowPredicate]
  · have hnone : rowPredicate op = none := by
      unfold rowPredicate
      split
      case h_10 => rfl
      all_goals omega
    simp [hnone, h]

theorem Use.ok_ite_p {q : Prop} [Decidable q] {n : Nat} : (if q then Use.p else Use.s).ok n = true ↔ (q → n < 8) := by
  split <;> simp_all [Use.ok]

theorem Use.ok_ite_no {q : Prop} [Decidable q] {n : Nat} :
    (if q then Use.p else Use.no).ok n = true ↔ (q → n < 8) ∧ (¬ q → n = 0) := by
  split <;> simp_all [Use.ok]

/-- A predicate word (R229). -/
theorem legal_predicate {w : W64} (hfam : iFam w = 2) : legal w = true ↔ 1 ≤ iOp w ∧ iOp w ≤ 9 ∧ iC w = 0 ∧ iType w = 0 ∧ iRnd w = 0 ∧
    w.toNat % 2 ^ 23 = 0 ∧ (iOp w ≤ 6 → iD w < 8) ∧ (iOp w ≠ 6 → iA w < 8) ∧ (iOp w ≤ 4 → iB w < 8) ∧ (5 ≤ iOp w → iB w = 0) := by
  have hcode : codeOk w = true := by
    rw [codeOk, if_neg (by omega)]
  rw [legal_iff, hfam]
  constructor
  · rintro ⟨r, hrow, hd, ha, hb, hc, htail, -⟩
    obtain ⟨⟨hlo, hhi⟩, rfl⟩ := rowPredicate_eq_some.mp hrow
    obtain ⟨hrest, htype, hrnd⟩ := (Tail.plain_ok w).mp htail
    obtain ⟨hb, hunused⟩ := Use.ok_ite_no.mp hb
    exact ⟨hlo, hhi, Use.no_ok.mp (hc rfl), htype, hrnd, hrest, Use.ok_ite_p.mp hd, Use.ok_ite_p.mp ha, hb,
      fun h => hunused (by omega)⟩
  · rintro ⟨hlo, hhi, hc, htype, hrnd, hrest, hd, ha, hb, hunused⟩
    exact ⟨_, rowPredicate_eq_some.mpr ⟨⟨hlo, hhi⟩, rfl⟩, Use.ok_ite_p.mpr hd, Use.ok_ite_p.mpr ha,
      Use.ok_ite_no.mpr ⟨hb, fun h => hunused (by omega)⟩, fun _ => Use.no_ok.mpr hc, (Tail.plain_ok w).mpr ⟨hrest, htype, hrnd⟩, hcode⟩

/-- Settles O8: a rule per shared operation, over the tables. -/
theorem laneAndPredicateOperations : Obligations.LaneAndPredicateOperations := by
  unfold Obligations.LaneAndPredicateOperations
  refine ⟨fun w hfam => legal_predicate hfam, laneOps_write, fun s b c w => ⟨fun e he h => ?_, fun e he h => ?_, fun h => ?_⟩⟩
  · exact EndsWith.retire (State.fetched_core ..) (g := fun x => x.setP (iD w) (e.2.2 (x.p (iA w)) (x.p (iB w))))
      (fun x => x.setP_pc ..) ((exec_predicateTwo e he b c s).trans (coreExec_fires h _))
  · exact EndsWith.retire (State.fetched_core ..) (g := fun x => x.setS (iD w) (e.2.2 (x.p (iA w))))
      (fun x => x.setS_pc ..) ((exec_predicateOut e he b c s).trans (coreExec_fires h _))
  · exact EndsWith.retire (State.fetched_core ..) (g := fun x => x.setP (iD w) (x.s (iA w)))
      (fun x => x.setP_pc ..) ((exec_pfroms b c s).trans (coreExec_fires h _))

end Sys2Proof.Machine
end


/-! ### VFMA, VMIN, VMAX, VBCAST, VPERM and VINS (R226, R227) -/

section
namespace Sys2Proof.Machine

theorem minMaxLane_min (w : W64) (x y : Nat) : minMaxLane false (iType w) x y = if anyNan w x y then nanOf w
    else if (laneVal (iType w) x).ltZ (laneVal (iType w) y) then x else y := rfl

theorem minMaxLane_max (w : W64) (x y : Nat) : minMaxLane true (iType w) x y = if anyNan w x y then nanOf w
    else if (laneVal (iType w) y).ltZ (laneVal (iType w) x) then x else y := rfl

/-- VFMA of integers, or of floating lanes with one rounding (R227). -/
theorem fmaLane_lane (w : W64) (x y z : Nat) :
    (if isInt (iType w) then intLane (laneBits w) (sgn (laneBits w) x * sgn (laneBits w) y + sgn (laneBits w) z)
      else laneOf (iType w) (iRnd w) (((laneVal (iType w) x).mul (laneVal (iType w) y)).add (laneVal (iType w) z))) % 2 ^ laneBits w =
    (if isInt (iType w) then x * y + z
      else laneOf (iType w) (iRnd w) (((laneVal (iType w) x).mul (laneVal (iType w) y)).add (laneVal (iType w) z))) % 2 ^ laneBits w := by
  split
  · refine tc_lane ?_
    rw [Nat.cast_add, Nat.cast_mul]
    exact ((sgn_modEq ..).mul (sgn_modEq ..)).add (sgn_modEq ..)
  · rfl

/-- The vector that VINS leaves in v[D]: the lane its immediate names, when its guard bit is 1 (R221, R226). -/
def vinsResult (w : W64) (x : Core) : W512 :=
  ofLanes (vinsW w) ((List.range (512 / vinsW w)).map (fun i =>
    if laneOn (vinsW w) (x.p (iPg w)) (iImm w) && i == iImm w then (x.s (iA w)).toNat else vLane (vinsW w) (x.v (iD w)) i))

theorem vLane_vinsResult (w : W64) (x : Core) {i : Nat} (hi : i < 512 / vinsW w) : vLane (vinsW w) (vinsResult w x) i =
    if i = w.toNat % 2 ^ 32 ∧ (x.p (iPg w)).getLsbD (i * vinsW w / 8) = true then (x.s (iA w)).toNat % 2 ^ vinsW w
    else vLane (vinsW w) (x.v (iD w)) i := by
  have hlanes : vinsW w * ((List.range (512 / vinsW w)).map (fun i =>
      if laneOn (vinsW w) (x.p (iPg w)) (iImm w) && i == iImm w then (x.s (iA w)).toNat else vLane (vinsW w) (x.v (iD w)) i)).length ≤
      512 := by
    rw [List.length_map, List.length_range]
    exact Nat.mul_div_le ..
  rw [vinsResult, vLane_ofLanes _ _ _ hlanes, List.getD_eq_getElem _ _ (by simpa using hi), List.getElem_map, List.getElem_range,
    ← iImm_eq]
  by_cases himm : i = iImm w
  · subst himm
    simp only [laneOn, bit, beq_self_eq_true, Bool.and_true, true_and]
    split
    · rfl
    · exact Nat.mod_eq_of_lt (vLane_lt ..)
  · simp only [beq_eq_false_iff_ne.mpr himm, himm, Bool.and_false, Bool.false_eq_true, false_and, if_false]
    exact Nat.mod_eq_of_lt (vLane_lt ..)

/-- Settles O6: each instruction writes its lanes by the rule for lane-wise results. -/
theorem laneMovesAndSelections : Obligations.LaneMovesAndSelections := by
  unfold Obligations.LaneMovesAndSelections
  intro s b c w x a y z writes
  have hcore : (s.fetched b c).core (coreNo b c) = x := State.fetched_core ..
  refine ⟨fun h => ?_, fun h => ?_, fun h => ?_, fun h => ?_, fun h => ?_, fun h => ?_⟩
  · exact WritesLanes.of_vecRetire hcore ((exec_vfma b c s).trans (laneExec_issues h _)) fun i => fmaLane_lane ..
  · exact vecBin_writes (exec_vmin b c s) h fun i => congrArg (· % _) (minMaxLane_min ..)
  · exact vecBin_writes (exec_vmax b c s) h fun i => congrArg (· % _) (minMaxLane_max ..)
  · exact WritesLanes.of_vecRetire hcore ((exec_vbcast b c s).trans (laneExec_issues h _)) fun i => rfl
  · exact WritesLanes.of_vecRetire hcore ((exec_vperm b c s).trans (laneExec_issues h _)) fun i => rfl
  · refine ⟨_, vinsResult w x, (exec_vins b c s).trans (laneExec_issues h _), (State.retire_only ..).of_count .., ?_,
      fun i hi => vLane_vinsResult w x hi⟩
    rw [State.retire_core _ _ _ _ (Core.setV_pc ..), State.countEv_core, hcore]
    rfl

end Sys2Proof.Machine
end


/-! ### VCVT, VCMP, VEXT and VRSUM (R173, R226-R228) -/

section
namespace Sys2Proof.Machine

/-! Conversions. -/

/-- The source lane of destination lane `i` (R228). -/
def cvtFrom (w : W64) (i : Nat) : Nat :=
  if laneW (iC w) < laneBits w then iB w * (512 / laneBits w) + i else if laneW (iC w) = laneBits w then i
  else i - iB w * (512 / laneW (iC w))

/-- Destination lane `i` is one that the instruction writes: narrowing writes the lanes of part Q alone (R228). -/
def cvtPart (w : W64) (i : Nat) : Bool :=
  decide (laneBits w < laneW (iC w) → iB w * (512 / laneW (iC w)) ≤ i ∧ i < (iB w + 1) * (512 / laneW (iC w)))

/-- The conversion of a source lane of the type C to the type of the destination. -/
def cvtConv (w : W64) (x : Core) (i : Nat) : Conv :=
  convTo (iType w) (rndOf (iRnd w)) (laneVal (iC w) (vLane (laneW (iC w)) (x.v (iA w)) (cvtFrom w i)))

theorem cvtLane_eq (w : W64) (x : Core) (i : Nat) :
    cvtLane w x i = if cvtPart w i then some (cvtConv w x i) else none := by
  unfold cvtLane cvtPart cvtConv cvtFrom
  rw [← laneBits]
  by_cases hnarrow : laneBits w < laneW (iC w)
  · simp only [hnarrow, if_true, max_eq_left hnarrow.le, if_neg hnarrow.not_gt, if_neg hnarrow.ne', forall_const, decide_eq_true_eq,
      Nat.add_mul, Nat.one_mul]
  · simp only [hnarrow, if_false, max_eq_right (Nat.le_of_not_lt hnarrow), false_imp_iff, decide_true, if_true]
    split
    · rfl
    · rw [if_pos (by omega)]

theorem filterMap_ite {α β : Type} (p : α → Bool) (f : α → β) (l : List α) :
    l.filterMap (fun a => if p a then some (f a) else none) = (l.filter p).map f := by
  induction l with
  | nil => rfl
  | cons a l ih => cases h : p a <;> simp [h, ih]

/-- The conversions of the active lanes that the instruction writes. -/
def cvtActive (w : W64) (x : Core) : List Conv :=
  ((List.range (512 / laneBits w)).filter (fun i => cvtPart w i && laneOnAt w x i)).map (cvtConv w x)

theorem cvtActive_eq (w : W64) (x : Core) : cvtActive w x =
    ((List.range (512 / laneBits w)).filter (laneOn (laneBits w) (x.p (iPg w)))).filterMap (cvtLane w x) := by
  rw [cvtActive, funext (cvtLane_eq w x), filterMap_ite, List.filter_filter]
  rfl

/-- What the conversions count (R173). -/
def cvtCounts (cs : List Conv) : Encoded := { sat := (cs.filter (·.sat)).length, nanInt := (cs.filter (·.nanInt)).length }

/-- The counts of conversions leave the cores. -/
theorem State.countConv_core (s : State) (e : Encoded) (k : Nat) : (s.countConv e).core k = s.core k := rfl

/-- VCVT converts the active lanes that it writes, and counts their conversions (R173, R228). -/
theorem vcvt_writes {s : State} {b : Fin 100} {c : Fin 8} {w : W64} {x : Core} (hcore : (s.fetched b c).core (coreNo b c) = x)
    (h : Issues s b c w 1 0x11) : WritesLanes ((s.fetched b c).countConv (cvtCounts (cvtActive w x))) b c w x (exec (.vcvt b c) s)
      (fun i => if cvtPart w i then (cvtConv w x i).bits else laneAt w (x.v (iD w)) i) := by
  subst hcore
  rw [cvtActive_eq]
  refine WritesLanes.of_vecRetire (State.countConv_core ..) ((exec_vcvt b c s).trans (laneExec_issues h _)) fun i => ?_
  rw [cvtLane_eq]
  cases cvtPart w i <;> rfl

/-! Comparisons. -/

/-- Bit `j` of a comparison's predicate, for each lane width (R227). -/
theorem getLsbD_predLanes_width {lw : Nat} (h : lw = 8 ∨ lw = 16 ∨ lw = 32) (p : W64) (f : Nat → Bool) {j : Nat} (hj : j < 64) :
    (predLanes lw p f).getLsbD j = (laneOn lw p (8 * j / lw) && f (8 * j / lw)) := by
  obtain ⟨g, hg, h64, rfl⟩ : ∃ g, 0 < g ∧ g * (64 / g) = 64 ∧ lw = 8 * g := by
    obtain rfl | rfl | rfl := h
    · exact ⟨1, by decide⟩
    · exact ⟨2, by decide⟩
    · exact ⟨4, by decide⟩
  rw [Nat.mul_div_mul_left _ _ (by decide)]
  exact getLsbD_predLanes g hg h64 p f j hj

/-- The lane widths of a legal VCMP. -/
theorem laneBits_of_vcmp {w : W64} (hfam : iFam w = 1) (hop : iOp w = 0x12) (h : legal w = true) :
    laneBits w = 8 ∨ laneBits w = 16 ∨ laneBits w = 32 := by
  obtain ⟨r, hrow, -, -, -, -, htail, -⟩ := (legal_iff w).mp h
  rw [hfam, hop] at hrow
  obtain rfl := Option.some.inj hrow
  simp only [Tail.ok, Bool.and_eq_true] at htail
  exact laneW_cases htail.1.2

/-- Settles O7: VCVT writes its lanes by the rule for lane-wise results, and the others are one retirement each. -/
theorem laneConversionsAndReductions : Obligations.LaneConversionsAndReductions := by
  unfold Obligations.LaneConversionsAndReductions
  intro s b c w x st sw dw src from_ conv cvt cvts
  have hcore : (s.fetched b c).core (coreNo b c) = x := State.fetched_core ..
  have hcvt (i : Nat) : cvt i ↔ (cvtPart w i && laneOnAt w x i) = true := by
    rw [Bool.and_eq_true, cvtPart, decide_eq_true_eq, and_comm]
  refine ⟨fun h => ?_, fun h => ?_, fun h => ?_, fun h => ?_⟩
  · have hcounts : cvts = cvtActive w x :=
      congrArg (List.map conv) (List.filter_congr fun i _ => (Bool.decide_congr (hcvt i)).trans Bool.decide_eq_true)
    obtain ⟨t, v, ht, honly, hafter, hlanes⟩ := vcvt_writes hcore h
    refine ⟨t, v, ht, hcounts ▸ honly, hafter, fun i hi => ?_⟩
    rw [hlanes i hi]
    simp only [hcvt, Bool.and_eq_true]
    by_cases hpart : cvtPart w i = true
    · simp only [hpart, if_true, true_and]
      rfl
    · simp only [hpart, if_false, false_and, ite_self, Bool.false_eq_true, Nat.mod_eq_of_lt (laneAt_lt ..)]
  · refine ⟨_, predLanes dw (x.p (iPg w)) (fun i => cmpLane (iC w) (iType w) (laneAt w (x.v (iA w)) i) (laneAt w (x.v (iB w)) i)),
      (exec_vcmp b c s).trans (laneExec_issues h _), (State.retire_only ..).of_count .., ?_, fun j hj => ?_⟩
    · rw [State.retire_core _ _ _ _ (Core.setP_pc ..), State.countEv_core, hcore]
      rfl
    · exact getLsbD_predLanes_width (laneBits_of_vcmp h.fam h.op h.ready.legal) _ _ hj
  · refine ⟨_, (exec_vext b c s).trans (coreExec_fires h _), (State.retire_only ..).of_count .., ?_⟩
    rw [State.retire_core _ _ _ _ (Core.setS_pc ..), State.countEv_core, hcore]
    rfl
  · refine ⟨_, (exec_vrsum b c s).trans (laneExec_issues h _), (State.retire_only ..).of_count .., ?_⟩
    rw [State.retire_core _ _ _ _ (Core.setS_pc ..), State.countEv_core, hcore]
    rfl

end Sys2Proof.Machine
end


/-! ### A core's own stores are written (R195, R196, R230-R232, R235) -/

section
namespace Sys2Proof.Machine

/-! Bytes. -/

theorem getD_mread (m : List Host.Cell) (a : Nat) {n i : Nat} (hi : i < n) : (mread m a n).getD i 0 = sget 0 m (a + i) := by
  induction n generalizing a i with
  | zero => exact absurd hi (Nat.not_lt_zero i)
  | succ n ih =>
    cases i with
    | zero => rfl
    | succ i => exact (ih (a + 1) (Nat.lt_of_succ_lt_succ hi)).trans (congrArg _ (by omega))

/-- A byte of a range that a write gives some bytes of. -/
theorem getD_mread_mwriteSome (m : List Host.Cell) (a : Nat) (bs : List (Option Byte)) {i : Nat} (hi : i < bs.length) :
    (mread (mwriteSome m a bs) a bs.length).getD i 0 = (bs.getD i none).getD ((mread m a bs.length).getD i 0) := by
  rw [getD_mread _ _ hi, getD_mread _ _ hi, sget_mwriteSome_in _ _ _ _ hi]

/-! The load limit. -/

/-- The addresses that a write from `a` of some of these bytes reaches. -/
def writtenFrom (a : Nat) (bs : List (Option Byte)) : List Nat :=
  ((List.range bs.length).filter (fun i => (bs.getD i none).isSome)).map (a + ·)

theorem zipIdx_eq_range (bs : List (Option Byte)) : bs.zipIdx = (List.range bs.length).map (fun i => (bs.getD i none, i)) := by
  refine List.ext_getElem (by simp) fun i hi _ => ?_
  have hlt : i < bs.length := by simpa using hi
  simp [hlt]

/-- The instruction store's load limit, as a write's bytes raise it (R235). -/
theorem loadLimit_foldl (a m : Nat) (bs : List (Option Byte)) :
    bs.zipIdx.foldl (fun m (y : Option Byte × Nat) => if y.1.isSome then max m ((a + y.2) / 8 + 1) else m) m =
      (writtenFrom a bs).foldl (fun m j => max m (j / 8 + 1)) m := by
  rw [zipIdx_eq_range, writtenFrom, List.foldl_map, List.foldl_map, List.foldl_filter]

@[simp] theorem limitTo_bound (x : Core) (sp : Nat) (js : List Nat) : (limitTo x sp js).bound = x.bound := by
  unfold limitTo
  split <;> rfl

@[simp] theorem limitTo_pc (x : Core) (sp : Nat) (js : List Nat) : (limitTo x sp js).pc = x.pc := by
  unfold limitTo
  split <;> rfl

/-! Writing a store. -/

section
variable (s : State) (b : Fin 100) (c : Fin 8) (sp a : Nat) (bs : List (Option Byte))

/-- The bytes of a write put in a core's store, and the load limit they raise. -/
def State.storePut : State :=
  match sp with
  | 0 => { s with ls := mwriteSome s.ls (coreNo b c * 262144 + a) bs }
  | 1 => s.modSide b c (fun y => { y with scratch := mwriteSome y.scratch a bs })
  | _ => { s with is := mwriteSome s.is (coreNo b c * 65536 + a) bs }.modCore (coreNo b c)
      (fun x => { x with loadLimit := (writtenFrom a bs).foldl (fun m j => max m (j / 8 + 1)) x.loadLimit })

theorem State.storePut_only : s.storePut b c sp a bs = { s with
    cores := (s.storePut b c sp a bs).cores, coll := (s.storePut b c sp a bs).coll,
    ls := (s.storePut b c sp a bs).ls, is := (s.storePut b c sp a bs).is } := by
  unfold State.storePut
  split
  · rfl
  · rw [State.modSide_eq]
  · rfl

variable {sp}

theorem State.storePut_coll (h : sp ≠ 1) : (s.storePut b c sp a bs).coll = s.coll := by
  unfold State.storePut
  split
  · rfl
  · exact absurd rfl h
  · rfl

/-- The cores after a write of a store other than the pool's. -/
theorem State.storePut_core (hsp : sp = 0 ∨ sp = 1 ∨ sp = 3) (k : Nat) : (s.storePut b c sp a bs).core k =
    if k = coreNo b c then limitTo (s.core k) sp (writtenFrom a bs) else s.core k := by
  rcases hsp with rfl | rfl | rfl
  · exact (ite_self _).symm
  · refine Eq.trans ?_ (ite_self _).symm
    rw [State.storePut, State.modSide_eq]
    rfl
  · refine (State.core_modCore ..).trans ?_
    split
    · subst_vars; rfl
    · rfl

theorem State.storePut_boundOf (h : sp ≠ 1) : (s.storePut b c sp a bs).boundOf b c = s.boundOf b c := by
  refine State.boundOf_congr b c ?_ (State.inst?_congr (congrArg Coll.insts (s.storePut_coll b c a bs h)))
  unfold State.storePut
  split
  · rfl
  · exact absurd rfl h
  · rw [State.core_modCore_same]
    rfl

/-- The local stores beyond the bytes written. -/
theorem State.storePut_ls_out {j : Nat}
    (h : sp = 0 → j < coreNo b c * 262144 + a ∨ coreNo b c * 262144 + a + bs.length ≤ j) :
    sget 0 (s.storePut b c sp a bs).ls j = sget 0 s.ls j := by
  unfold State.storePut
  split
  · exact sget_mwriteSome_out _ _ _ _ (h rfl)
  · rw [State.modSide_eq]
  · rfl

/-- The instruction stores beyond the bytes written. -/
theorem State.storePut_is_out (hsp : sp = 0 ∨ sp = 1 ∨ sp = 3) {j : Nat}
    (h : sp = 3 → j < coreNo b c * 65536 + a ∨ coreNo b c * 65536 + a + bs.length ≤ j) :
    sget 0 (s.storePut b c sp a bs).is j = sget 0 s.is j := by
  rcases hsp with rfl | rfl | rfl
  · rfl
  · rw [State.storePut, State.modSide_eq]
  · exact sget_mwriteSome_out _ _ _ _ (h rfl)

/-- The bound parison beyond the bytes written. -/
theorem State.storePut_scratch_out {j : Nat} (h : sp = 1 → j < a ∨ a + bs.length ≤ j) :
    (s.storePut b c sp a bs).spaceBytes b c 1 j 1 = s.spaceBytes b c 1 j 1 := by
  by_cases hsp : sp = 1
  case neg => exact State.spaceBytes_scratch_congr b c (s.storePut_boundOf b c a bs hsp) j 1
  subst hsp
  simp only [State.storePut, State.spaceBytes, State.boundOf_modSide]
  cases s.boundOf b c with
  | none => rfl
  | some y =>
    simp only [Option.map_some, Inst.side_withSide]
    exact congrArg (· :: []) (sget_mwriteSome_out _ _ _ _ (h rfl))

/-- The bytes written: those given, the others as they were. -/
theorem State.storePut_bytes (hsp : sp = 0 ∨ sp = 1 ∨ sp = 3) (hbound : sp = 1 → s.boundOf b c ≠ none) {i : Nat}
    (hi : i < bs.length) : ((s.storePut b c sp a bs).spaceBytes b c sp a bs.length).getD i 0 =
      (bs.getD i none).getD ((s.spaceBytes b c sp a bs.length).getD i 0) := by
  rcases hsp with rfl | rfl | rfl
  · exact getD_mread_mwriteSome _ _ _ hi
  · simp only [State.storePut, State.spaceBytes, State.boundOf_modSide]
    cases h : s.boundOf b c with
    | none => exact absurd h (hbound rfl)
    | some y =>
      simp only [Option.map_some, Inst.side_withSide]
      exact getD_mread_mwriteSome _ _ _ hi
  · exact getD_mread_mwriteSome _ _ _ hi

variable (sp)

/-- The state after a write over words without an uncorrectable error: the errors of the words it touches are forgotten. -/
def State.storeWritten : State :=
  ((s.clearBad b c sp a bs.length (fun w _ => (List.range 8).any (fun i =>
    decide (a ≤ w + i) && (bs.getD (w + i - a) none).isSome))).noteLs b c sp a).storePut b c sp a bs

/-- A write over words without an uncorrectable error is made (R196). -/
theorem State.writeStore_sound (h : s.badCount b c sp a bs.length false = 0) :
    s.writeStore b c sp a bs = (true, s.storeWritten b c sp a bs) := by
  have hue : (if sp = 1 then (s.badCr b c a bs.length false).map (·.1)
      else (s.badIn sp (coreNo b c) a bs.length false).map (·.addr)) = [] := by
    unfold State.badCount at h
    split at h
    · rw [if_pos ‹_›, List.length_eq_zero_iff.mp h]; rfl
    · rw [if_neg ‹_›, List.length_eq_zero_iff.mp h]; rfl
  unfold State.writeStore
  simp only [hue, List.any_nil, Bool.false_eq_true, if_false, loadLimit_foldl]
  rfl

theorem State.storeWritten_only : s.storeWritten b c sp a bs = { s with
    cores := (s.storeWritten b c sp a bs).cores, badWords := (s.storeWritten b c sp a bs).badWords,
    coll := (s.storeWritten b c sp a bs).coll, ls := (s.storeWritten b c sp a bs).ls, is := (s.storeWritten b c sp a bs).is } := by
  unfold State.storeWritten
  rw [State.storePut_only, State.noteLs_only, State.clearBad_eq]

/-- The words whose errors a write forgets are bytes of no store. -/
theorem State.cleared_spaceBytes (p : Nat → Bool → Bool) (n sp' a' n' : Nat) :
    ((s.clearBad b c sp a n p).noteLs b c sp a).spaceBytes b c sp' a' n' = s.spaceBytes b c sp' a' n' :=
  (State.noteLs_spaceBytes ..).trans (State.clearBad_spaceBytes ..)

theorem State.cleared_core (p : Nat → Bool → Bool) (n k : Nat) : ((s.clearBad b c sp a n p).noteLs b c sp a).core k =
    if k = coreNo b c then (s.core k).near sp a else s.core k := by
  rw [State.noteLs_core, State.clearBad_eq]
  rfl

theorem State.cleared_ls (p : Nat → Bool → Bool) (n : Nat) : ((s.clearBad b c sp a n p).noteLs b c sp a).ls = s.ls := by
  rw [State.noteLs_only, State.clearBad_eq]

theorem State.cleared_is (p : Nat → Bool → Bool) (n : Nat) : ((s.clearBad b c sp a n p).noteLs b c sp a).is = s.is := by
  rw [State.noteLs_only, State.clearBad_eq]

theorem State.cleared_bound (p : Nat → Bool → Bool) (n : Nat) (h : s.boundOf b c ≠ none) :
    ((s.clearBad b c sp a n p).noteLs b c sp a).boundOf b c ≠ none := by
  have hnote : ((s.clearBad b c sp a n p).noteLs b c sp a).boundOf b c = (s.clearBad b c sp a n p).boundOf b c := by
    refine State.boundOf_congr b c ?_ (fun k => ?_)
    · rw [State.noteLs_core, if_pos rfl, Core.near_bound]
    · rw [State.noteLs_only]
      rfl
  rw [hnote, State.clearBad]
  split
  · rw [State.boundOf_modSide]
    exact mt Option.map_eq_none_iff.mp h
  · exact h

end

/-- A parison is bound to a core whose access to it passes the checks (R195). -/
theorem State.boundOf_of_check {s : State} {b : Fin 100} {c : Fin 8} {a : W64} {n : Nat} {wr atomic : Bool}
    (h : s.spaceCheck b c 1 a n wr atomic = 0) : s.boundOf b c ≠ none := by
  intro hnone
  simp only [State.spaceCheck, hnone, false_and, if_false, OfNat.one_ne_ofNat] at h
  split at h <;> cases h

theorem iSpace_cases (w : W64) (h : iSpace w ≠ 2) : iSpace w = 0 ∨ iSpace w = 1 ∨ iSpace w = 3 := by
  have hlt : iSpace w < 4 := Nat.mod_lt _ (Nat.two_pow_pos 2)
  omega

section
variable (s : State) (b : Fin 100) (c : Fin 8) {sp : Nat} (a : Nat) (bs : List (Option Byte))

theorem State.retire_boundOf : (s.retire b c id).boundOf b c = s.boundOf b c := by
  refine State.boundOf_congr b c ?_ (State.inst?_congr (congrArg Coll.insts (by rw [State.retire_eq])))
  rw [State.retire_core _ _ _ _ rfl]
  rfl

theorem State.retire_spaceBytes (n : Nat) : (s.retire b c id).spaceBytes b c sp a n = s.spaceBytes b c sp a n := by
  unfold State.spaceBytes
  rw [State.retire_boundOf, State.retire_eq]
  rfl

/-- The instruction retires after its write: its frame (R230-R232). -/
theorem State.storeWritten_retire_storesAt {n : Nat} (hlen : bs.length = n) (hsp : sp = 0 ∨ sp = 1 ∨ sp = 3) :
    StoresAt s ((s.storeWritten b c sp a bs).retire b c id) b c sp a n := by
  subst hlen
  have hcoll : ((s.storeWritten b c sp a bs).retire b c id).coll = (s.storeWritten b c sp a bs).coll := by rw [State.retire_eq]
  obtain ⟨⟨⟨hcores, hbenches, hregs⟩, hbench⟩, hrest⟩ := (s.storeWritten b c sp a bs).retire_only b c id
  have honly := s.storeWritten_only b c sp a bs
  refine ⟨⟨fun k hk => ?_, fun i hi => ?_, ?_, fun o ho _ => ?_, fun hne => ?_, ?_⟩, fun j hj => ?_, fun j hj => ?_, fun j hj => ?_⟩
  · rw [hcores k hk, State.storeWritten, State.storePut_core _ _ _ _ _ hsp, if_neg hk, State.cleared_core, if_neg hk]
  · rw [hbenches i hi, honly]
    rfl
  · rw [hbench, honly]
    rfl
  · rw [hregs o ho, honly]
    rfl
  · rw [hcoll, State.storeWritten, State.storePut_coll _ _ _ _ _ hne, State.noteLs_only]
    exact State.clearBad_coll _ _ _ _ _ _ hne _
  · generalize s.storeWritten b c sp a bs = u at hrest honly ⊢
    generalize u.retire b c id = t at hrest ⊢
    rw [hrest, honly]
  · rw [State.retire_eq]
    exact (State.storePut_ls_out _ b c a bs hj).trans (by rw [State.cleared_ls])
  · rw [State.retire_eq]
    exact (State.storePut_is_out _ b c a bs hsp hj).trans (by rw [State.cleared_is])
  · rw [State.spaceBytes_scratch_congr b c (State.retire_boundOf ..)]
    exact (State.storePut_scratch_out _ b c a bs hj).trans (State.cleared_spaceBytes ..)

variable {a bs} {b c s}

/-- The core of a store once it retires. -/
theorem State.storeWritten_retire_core (hsp : sp = 0 ∨ sp = 1 ∨ sp = 3) :
    ((s.storeWritten b c sp a bs).retire b c id).core (coreNo b c) =
      (s.core (coreNo b c)).after (limitTo ((s.core (coreNo b c)).near sp a) sp (writtenFrom a bs)) := by
  rw [State.retire_core _ _ _ _ rfl, State.storeWritten, State.storePut_core _ _ _ _ _ hsp, if_pos rfl, State.cleared_core,
    if_pos rfl]
  simp [Core.after]

/-- The bytes of a store once it retires. -/
theorem State.storeWritten_retire_bytes (hsp : sp = 0 ∨ sp = 1 ∨ sp = 3) (hbound : sp = 1 → s.boundOf b c ≠ none) {i : Nat}
    (hi : i < bs.length) : (((s.storeWritten b c sp a bs).retire b c id).spaceBytes b c sp a bs.length).getD i 0 =
      (bs.getD i none).getD ((s.spaceBytes b c sp a bs.length).getD i 0) := by
  rw [State.retire_spaceBytes, State.storeWritten, State.storePut_bytes _ _ _ _ _ hsp (fun h => ?_) hi, State.cleared_spaceBytes]
  exact State.cleared_bound s b c sp a _ bs.length (hbound h)

end

/-! ST and VST. -/

section
variable {s : State} {b : Fin 100} {c : Fin 8} {w : W64} {n : Nat} {data : List (Option Byte)}

/-- A store of bytes that pass the checks (R230-R232). -/
theorem memStore_stores (op : Nat) (hlen : data.length = n) (hsp : iSpace w ≠ 2)
    (hcheck : s.spaceCheck b c (iSpace w) (memAddr (s.core (coreNo b c)) w) n true false = 0)
    (hsound : s.badCount b c (iSpace w) (memAddr (s.core (coreNo b c)) w).toNat n false = 0) :
    memStore b c op w n data s =
      (s.storeWritten b c (iSpace w) (memAddr (s.core (coreNo b c)) w).toNat data).retire b c id := by
  subst hlen
  simp only [memStore, hcheck, hsp, State.writeStore_sound s b c _ _ _ hsound, ne_eq, not_true_eq_false, if_false]

theorem memVst_masked (hguard : (s.core (coreNo b c)).p (iPg w) = 0) : memVst b c w s = s.retire b c id := by
  simp only [memVst, byteMask_any, hguard, ne_eq, not_true_eq_false, decide_false, Bool.not_false, if_true]

/-- The bytes that VST stores: those of its active lanes (R221). -/
def vstData (x : Core) (w : W64) : List (Option Byte) :=
  (List.range 64).map (fun i => if (x.p (iPg w)).getLsbD i then some (BitVec.ofNat 8 (vLane 8 (x.v (iB w)) i)) else none)

theorem getD_vstData (x : Core) (w : W64) {i : Nat} (hi : i < 64) : (vstData x w).getD i none =
    if (x.p (iPg w)).getLsbD i then some (BitVec.ofNat 8 (vLane 8 (x.v (iB w)) i)) else none := by
  simp [vstData, List.getD_eq_getElem?_getD, hi]

theorem memVst_active (hguard : (s.core (coreNo b c)).p (iPg w) ≠ 0) :
    memVst b c w s = memStore b c 5 w 64 (vstData (s.core (coreNo b c)) w) s := by
  simp only [memVst, byteMask_any, hguard, ne_eq, not_false_eq_true, decide_true, Bool.not_true, Bool.false_eq_true, if_false]
  refine congrArg (memStore b c 5 w 64 · s) (List.map_congr_left fun i hi => ?_)
  have hmask : (byteMask (s.core (coreNo b c)) w).getD i false = ((s.core (coreNo b c)).p (iPg w)).getLsbD i := by
    simp [byteMask, bit, List.getD_eq_getElem?_getD, List.mem_range.mp hi]
  rw [hmask]
  rfl

end

theorem writtenFrom_map_some (a : Nat) (bs : List Byte) : writtenFrom a (bs.map some) = (List.range bs.length).map (a + ·) := by
  unfold writtenFrom
  rw [List.filter_eq_self.mpr fun i hi => ?_, List.length_map]
  have hlt : i < bs.length := by simpa using hi
  simp [hlt]

theorem writtenFrom_vstData (a : Nat) (x : Core) (w : W64) :
    writtenFrom a (vstData x w) = ((List.range 64).filter (fun i => (x.p (iPg w)).getLsbD i)).map (a + ·) := by
  unfold writtenFrom
  rw [show (vstData x w).length = 64 by simp [vstData]]
  refine congrArg _ (List.filter_congr fun i hi => ?_)
  rw [getD_vstData x w (List.mem_range.mp hi)]
  split <;> simp_all

/-- Settles O11: a store is its write and its retirement, on the state that the fetch leaves. -/
theorem storesToOwnStores : Obligations.StoresToOwnStores := by
  unfold Obligations.StoresToOwnStores
  intro s b c w x sp a ok n
  have hcore : (s.fetched b c).core (coreNo b c) = x := State.fetched_core ..
  have hstore (op : Nat) {m : Nat} {data : List (Option Byte)} (hlen : data.length = m) (hok : ok m) :
      memStore b c op w m data (s.fetched b c) = ((s.fetched b c).storeWritten b c sp a.toNat data).retire b c id := by
    obtain ⟨hsp, hcheck, hsound⟩ := hok
    refine (memStore_stores op hlen hsp ?_ ?_).trans (by rw [hcore])
    · rw [hcore, State.fetched_spaceCheck]; exact hcheck
    · rw [hcore]; exact s.fetched_badCount b c hsound
  have hbound {m : Nat} (hok : ok m) (h : sp = 1) : (s.fetched b c).boundOf b c ≠ none := by
    rw [State.fetched_boundOf]
    exact State.boundOf_of_check (h ▸ hok.2.1)
  have hspace {m : Nat} (hok : ok m) := iSpace_cases w hok.1
  refine ⟨fun hfires hok => ?_, fun hissues hguard hok => ?_, fun hissues hguard => ?_⟩
  · have hlen : ((leBytes n (x.s (iB w)).toNat).map some).length = n := by simp
    refine ⟨((s.fetched b c).storeWritten b c sp a.toNat ((leBytes n (x.s (iB w)).toNat).map some)).retire b c id,
      (coreExec_fires hfires _).trans ?_, ?_, ?_, ?_⟩
    · rw [memSt, hcore]
      exact congrArg _ (hstore 3 hlen hok)
    · exact State.storeWritten_retire_storesAt (s.fetched b c) b c a.toNat _ hlen (hspace hok)
    · rw [State.storeWritten_retire_core (hspace hok), hcore, writtenFrom_map_some, length_leBytes]
    · refine List.ext_getElem (by rw [State.length_spaceBytes, length_leBytes]) fun i hi hi' => ?_
      have hbyte := State.storeWritten_retire_bytes (s := s.fetched b c) (b := b) (c := c) (a := a.toNat)
        (bs := (leBytes n (x.s (iB w)).toNat).map some) (hspace hok) (hbound hok) (i := i) (by simpa using hi')
      rw [hlen, List.getD_eq_getElem _ _ hi] at hbyte
      rw [hbyte, List.getD_eq_getElem?_getD, List.getElem?_map, List.getElem?_eq_getElem hi']
      rfl
  · have hlen : (vstData x w).length = 64 := by simp [vstData]
    refine ⟨((s.fetched b c).storeWritten b c sp a.toNat (vstData x w)).retire b c id,
      (laneExec_issues hissues _).trans ?_, ?_, ?_, fun i hi => ?_⟩
    · rw [memVst_active (by rw [hcore]; exact hguard), hcore]
      exact congrArg _ (hstore 5 hlen hok)
    · exact State.storeWritten_retire_storesAt (s.fetched b c) b c a.toNat _ hlen (hspace hok)
    · rw [State.storeWritten_retire_core (hspace hok), hcore, writtenFrom_vstData]
    · have hbyte := State.storeWritten_retire_bytes (s := s.fetched b c) (b := b) (c := c) (a := a.toNat)
        (bs := vstData x w) (hspace hok) (hbound hok) (i := i) (by omega)
      rw [hlen, getD_vstData x w hi, State.fetched_spaceBytes] at hbyte
      refine hbyte.trans ?_
      split <;> rfl
  · refine ⟨(s.fetched b c).retire b c id, (laneExec_issues hissues _).trans ?_, State.retire_only .., ?_⟩
    · rw [memVst_masked (by rw [hcore]; exact hguard)]
    · rw [State.retire_core _ _ _ _ rfl, hcore]
      rfl

end Sys2Proof.Machine
end


/-! ### A pool access becomes outstanding (R231, R233) -/

section
namespace Sys2Proof.Machine

/-- A demand on controllers changes their states alone. -/
theorem State.demandMems_only (s : State) (ms : List Nat) :
    s.demandMems ms = { s with pool := { s.pool with ctl := (s.demandMems ms).pool.ctl } } := by
  induction ms generalizing s with
  | nil => rfl
  | cons m ms ih => exact ih _

section
variable {s : State} {b : Fin 100} {c : Fin 8} {w : W64}

/-- The state in which an access has reached the pool unit. -/
theorem State.reach_memDemand (s : State) (a n rank : Nat) : ((s.memDemand a n).reach rank).2 = { s with
    pool := { s.pool with ctl := (s.memDemand a n).pool.ctl, nextSeq := s.pool.nextSeq + 1 } } := by
  unfold State.memDemand State.reach State.modPool
  rw [State.demandMems_only]

theorem State.reach_memDemand_at (s : State) (a n : Nat) : ((s.memDemand a n).reach (benchRank b c)).1 = reachedAt s b c := by
  unfold State.memDemand State.reach
  rw [State.demandMems_only]
  rfl

/-- An access with room among the core's others becomes outstanding (R233). -/
theorem State.poolIssue_issues (o : OutAccess) (hroom : (s.core (coreNo b c)).outRoom o.op = true) :
    PoolIssued s (s.poolIssue b c w o) b c ∧ (s.poolIssue b c w o).core (coreNo b c) =
      (s.core (coreNo b c)).after { s.core (coreNo b c) with outs := (s.core (coreNo b c)).outs ++
        [{ o with pc := (s.core (coreNo b c)).pc, reach := reachedAt s b c }] } := by
  have hissue : s.poolIssue b c w o = ((s.memDemand o.addr o.size).reach (benchRank b c)).2.retire b c
      (fun x => { x with outs := x.outs ++ [{ o with pc := x.pc, reach := reachedAt s b c }] }) := by
    simp only [State.poolIssue, hroom, Bool.not_true, Bool.false_eq_true, if_false, State.reach_memDemand_at]
  rw [hissue]
  have hreach := s.reach_memDemand o.addr o.size (benchRank b c)
  generalize ((s.memDemand o.addr o.size).reach (benchRank b c)).2 = u at hreach ⊢
  have hcore (k : Nat) : u.core k = s.core k := by rw [hreach]; rfl
  have hbench (k : Nat) : u.bench k = s.bench k := by rw [hreach]; rfl
  obtain ⟨⟨⟨hcores, hbenches, hregs⟩, hown⟩, hrest⟩ := u.retire_only b c
    (fun x => { x with outs := x.outs ++ [{ o with pc := x.pc, reach := reachedAt s b c }] })
  refine ⟨⟨⟨⟨fun k hk => ?_, fun i hi => ?_, fun off hoff => ?_⟩, ?_⟩, ?_⟩, ?_⟩
  · rw [hcores k hk, hcore]
  · rw [hbenches i hi, hbench]
  · rw [hregs off hoff, hreach]
    rfl
  · rw [hown, hbench, hreach]
    rfl
  · rw [hrest, hreach]
  · rw [State.retire_core _ _ _ _ rfl, hcore]

/-- A load has room among the core's loads, a store or an atomic among its others (R233). -/
theorem Core.outRoom_load {x : Core} {op : Nat} (hop : isStoreOp op = false)
    (h : (x.outs.filter (fun o => !isStoreOp o.op)).length < 32) : x.outRoom op = true := by
  simpa [Core.outRoom, hop] using h

theorem Core.outRoom_store {x : Core} {op : Nat} (hop : isStoreOp op = true)
    (h : (x.outs.filter (fun o => isStoreOp o.op)).length < 32) : x.outRoom op = true := by
  simpa [Core.outRoom, hop] using h

/-! The memory instructions whose address passes the checks of the pool. -/

theorem memLoad_pool (signed : Bool) (hsp : iSpace w = 2)
    (hcheck : s.spaceCheck b c 2 (memAddr (s.core (coreNo b c)) w) (2 ^ iSz w) false false = 0) :
    memLoad b c signed w s = s.poolIssue b c w
      (outOf (if signed then 2 else 1) (memAddr (s.core (coreNo b c)) w).toNat (2 ^ iSz w) (iD w) 0 0 [] []) := by
  simp only [memLoad, szBytes, hsp, hcheck, ne_eq, not_true_eq_false, if_false, if_true]
  rfl

theorem memStore_pool (op : Nat) {n : Nat} (data : List (Option Byte)) (hsp : iSpace w = 2)
    (hcheck : s.spaceCheck b c 2 (memAddr (s.core (coreNo b c)) w) n true false = 0) :
    memStore b c op w n data s = s.poolIssue b c w (outOf op (memAddr (s.core (coreNo b c)) w).toNat n 0 0 0 data []) := by
  simp only [memStore, hsp, hcheck, ne_eq, not_true_eq_false, if_false, if_true]
  rfl

theorem memVld_pool (hsp : iSpace w = 2) (hguard : (s.core (coreNo b c)).p (iPg w) ≠ 0)
    (hcheck : s.spaceCheck b c 2 (memAddr (s.core (coreNo b c)) w) 64 false false = 0) :
    memVld b c w s = s.poolIssue b c w
      (outOf 4 (memAddr (s.core (coreNo b c)) w).toNat 64 (iD w) 0 0 [] (byteMask (s.core (coreNo b c)) w)) := by
  simp only [memVld, byteMask_any, hguard, hsp, hcheck, ne_eq, not_true_eq_false, not_false_eq_true, decide_true, Bool.not_true,
    Bool.false_eq_true, if_false, if_true]
  rfl

/-- The address of an atomic (R231): ACAS has no offset. -/
theorem memAtomic_pool (op : Nat) {a : W64} {n : Nat}
    (ha : a = if op = 8 then (s.core (coreNo b c)).s (iA w) else memAddr (s.core (coreNo b c)) w) (hn : n = if op = 7 then 4 else 8)
    (hcheck : s.spaceCheck b c 2 a n true true = 0) :
    memAtomic b c op w s = s.poolIssue b c w (outOf op a.toNat n (iD w) ((s.core (coreNo b c)).s (iB w))
      (if op = 8 then (s.core (coreNo b c)).s (iC w) else 0) [] []) := by
  subst ha hn
  simp only [memAtomic, hcheck, ne_eq, not_true_eq_false, if_false]
  rfl

end

/-- Settles O12: each access passes its checks and is issued on the state that the fetch leaves. -/
theorem poolAccessesBecomeOutstanding : Obligations.PoolAccessesBecomeOutstanding := by
  unfold Obligations.PoolAccessesBecomeOutstanding
  intro s b c w x a loads others goes ok n mask
  have hcore : (s.fetched b c).core (coreNo b c) = x := State.fetched_core ..
  have hreach : reachedAt (s.fetched b c) b c = reachedAt s b c := by rw [State.fetched_eq]; rfl
  have hgoes {i : Instr} {o : OutAccess} (hroom : x.outRoom o.op = true)
      (hexec : exec i s = .next ((s.fetched b c).poolIssue b c w o)) : goes i o := by
    obtain ⟨hissued, hafter⟩ := State.poolIssue_issues (s := s.fetched b c) (b := b) (c := c) (w := w) o (by rw [hcore]; exact hroom)
    exact ⟨_, hexec, hissued, by rw [hafter, hcore, hreach]⟩
  have hcheck {a : W64} {n : Nat} {wr atomic : Bool} (h : ok a n wr atomic) :
      (s.fetched b c).spaceCheck b c 2 a n wr atomic = 0 := (State.fetched_spaceCheck ..).trans h
  refine ⟨fun hfires hsp hok hroom => hgoes (Core.outRoom_load rfl hroom) ?_,
    fun hfires hsp hok hroom => hgoes (Core.outRoom_load rfl hroom) ?_,
    fun hfires hsp hok hroom => hgoes (Core.outRoom_store rfl hroom) ?_,
    fun hissues hsp hguard hok hroom => hgoes (Core.outRoom_load rfl hroom) ?_,
    fun hissues hsp hguard hok hroom => hgoes (Core.outRoom_store rfl hroom) ?_,
    fun hfires hok hroom => hgoes (Core.outRoom_store rfl hroom) ?_, fun hfires hok hroom => hgoes (Core.outRoom_store rfl hroom) ?_,
    fun hfires hok hroom => hgoes (Core.outRoom_store rfl hroom) ?_⟩
  · refine (coreExec_fires hfires _).trans ?_
    rw [memLoad_pool false hsp (by rw [hcore]; exact hcheck hok), hcore]
    rfl
  · refine (coreExec_fires hfires _).trans ?_
    rw [memLoad_pool true hsp (by rw [hcore]; exact hcheck hok), hcore]
    rfl
  · refine (coreExec_fires hfires _).trans ?_
    rw [memSt, memStore_pool 3 _ hsp (by rw [hcore]; exact hcheck hok), hcore]
    rfl
  · refine (laneExec_issues hissues _).trans ?_
    rw [memVld_pool hsp (by rw [hcore]; exact hguard) (by rw [hcore]; exact hcheck hok), hcore]
    rfl
  · refine (laneExec_issues hissues _).trans ?_
    rw [memVst_active (by rw [hcore]; exact hguard), memStore_pool 5 _ hsp (by rw [hcore]; exact hcheck hok), hcore]
    rfl
  · refine (coreExec_fires hfires _).trans ?_
    rw [memAtomic_pool 6 rfl rfl (by rw [hcore]; exact hcheck hok), hcore]
    rfl
  · refine (coreExec_fires hfires _).trans ?_
    rw [memAtomic_pool 7 rfl rfl (by rw [hcore]; exact hcheck hok), hcore]
    rfl
  · refine (coreExec_fires hfires _).trans ?_
    rw [memAtomic_pool 8 rfl rfl (by rw [hcore]; exact hcheck hok), hcore]
    rfl

end Sys2Proof.Machine
end


/-! ### Fences, DMA descriptors and stalled issue (R202, R231-R233) -/

section
namespace Sys2Proof.Machine

/-! A change of a bench, and a retirement. -/

section
variable {s u : State} {b : Fin 100} {c : Fin 8}

/-- An instruction that changes its bench and retires changes its core and its bench alone. -/
theorem State.retire_onlyBench (hrest : u = { s with benches := u.benches }) (hbenches : ∀ i, i ≠ b.val → u.bench i = s.bench i)
    (f : Core → Core) : OnlyBench s (u.retire b c f) b c := by
  obtain ⟨hcores, hothers, hregs⟩ := (u.retire_keeps b c f).others
  refine ⟨⟨fun k hk => ?_, fun i hi => (hothers i hi).trans (hbenches i hi), fun off hoff => ?_⟩, ?_⟩
  · rw [hcores k hk, hrest]
    rfl
  · rw [hregs off hoff, hrest]
    rfl
  · have hretire := u.retire_eq b c f
    rw [hretire]
    generalize u.retire b c f = t
    rw [hrest]

theorem State.postItem_only (s : State) (b : Nat) (i : WorkItem) : s.postItem b i = { s with benches := (s.postItem b i).benches } := rfl

theorem State.postItem_bench_ne {b k : Nat} (h : k ≠ b) (i : WorkItem) : (s.postItem b i).bench k = s.bench k := by
  unfold State.postItem State.feedItems
  rw [State.bench_modBench, if_neg h, State.bench_modBench, if_neg h]

/-- An item goes to the end of a queue with room for it (R202). -/
theorem State.postItem_items {b : Nat} (hroom : (s.bench b).items.length < 256) (hwait : (s.bench b).itemWait = []) (i : WorkItem) :
    ((s.postItem b i).bench b).items = (s.bench b).items ++ [{ i with num := (s.bench b).itemNum }] := by
  unfold State.postItem State.feedItems
  rw [State.bench_modBench_same, State.bench_modBench_same]
  obtain ⟨k, hk⟩ : ∃ k, 256 - (s.bench b).items.length = k + 1 := ⟨255 - (s.bench b).items.length, by omega⟩
  simp [hwait, hk]

theorem State.postItem_tallies (b : Nat) (i : WorkItem) : ((s.postItem b i).bench b).tallies = (s.bench b).tallies := by
  unfold State.postItem State.feedItems
  rw [State.bench_modBench_same, State.bench_modBench_same]

/-- The state after a POST to a queue with room. -/
def State.posted (s : State) (b : Fin 100) (c : Fin 8) (w : W64) : State :=
  (s.postItem b { entry := ((s.core (coreNo b c)).s (iA w)).toNat, arg := (s.core (coreNo b c)).s (iB w) }).retire b c id

theorem ctlPost_posts {w : W64} (hentry : ((s.core (coreNo b c)).s (iA w)).toNat < 8192)
    (hroom : (s.bench b).items.length < 256) (hwait : (s.bench b).itemWait = []) : ctlPost b c w s = s.posted b c w := by
  simp only [ctlPost, Nat.not_le.mpr hentry, Nat.not_le.mpr hroom, hwait, if_false, decide_false, List.isEmpty_nil,
    Bool.not_true, Bool.or_false, Bool.false_eq_true]
  rfl

theorem State.posted_only (w : W64) : OnlyBench s (s.posted b c w) b c :=
  State.retire_onlyBench (State.postItem_only ..) (fun _ hi => State.postItem_bench_ne hi _) id

theorem State.posted_core (w : W64) : (s.posted b c w).core (coreNo b c) = (s.core (coreNo b c)).after (s.core (coreNo b c)) :=
  State.retire_core _ _ _ _ rfl

theorem State.posted_items {w : W64} (hroom : (s.bench b).items.length < 256) (hwait : (s.bench b).itemWait = []) :
    ((s.posted b c w).bench b).items = (s.bench b).items ++
      [{ entry := ((s.core (coreNo b c)).s (iA w)).toNat, arg := (s.core (coreNo b c)).s (iB w), num := (s.bench b).itemNum }] :=
  (congrArg Bench.items (State.retire_keeps _ b c id).bench).trans (State.postItem_items hroom hwait _)

theorem State.posted_tallies (w : W64) : ((s.posted b c w).bench b).tallies = (s.bench b).tallies :=
  (congrArg Bench.tallies (State.retire_keeps _ b c id).bench).trans (State.postItem_tallies ..)

end

/-! A descriptor read from the local store. -/

/-- A piece of the bytes read from a memory. -/
theorem slice_mread (m : List Host.Cell) (a : Nat) {n i k : Nat} (h : i + k ≤ n) : slice (mread m a n) i k = mread m (a + i) k := by
  refine List.ext_getElem (by simp [slice]) fun j _ hj => ?_
  have hlt : j < k := by simpa using hj
  have hread := getD_mread m a (n := n) (i := i + j) (by omega)
  rw [List.getD_eq_getElem _ _ (by simp; omega)] at hread
  have hpart := getD_mread m (a + i) hlt
  rw [List.getD_eq_getElem _ _ hj] at hpart
  rw [hpart, Nat.add_assoc, ← hread]
  simp only [slice]
  rw [List.getElem_append_left (by simp; omega), List.getElem_take, List.getElem_drop]

section
variable {s : State} {b : Fin 100} {c : Fin 8} {w : W64}

/-- The descriptor at `a` of a core's local store (R231). -/
def State.descAt (s : State) (b : Fin 100) (c : Fin 8) (a : Nat) : DmaDesc :=
  { ws := (List.range 8).map (fun i => BitVec.ofNat 32 (ofLe (s.spaceBytes b c 0 (a + 4 * i) 4))) }

theorem State.descAt_eq (a : Nat) :
    DmaDesc.mk ((List.range 8).map (fun i => w32 (u32 (s.spaceBytes b c 0 a 32) (4 * i)))) = s.descAt b c a := by
  refine congrArg DmaDesc.mk (List.map_congr_left fun i hi => ?_)
  have hlt := List.mem_range.mp hi
  simp only [u32, State.spaceBytes, w32]
  rw [slice_mread _ _ (by omega), Nat.add_assoc]

theorem State.fetched_descAt (a : Nat) : (s.fetched b c).descAt b c a = s.descAt b c a := by
  simp only [State.descAt, State.fetched_spaceBytes]

/-- DMAQ with a descriptor that passes the checks, and room in the queue (R231). -/
theorem memDmaq_queues {a : Nat} (ha : (memAddr (s.core (coreNo b c)) w).toNat = a)
    (hcheck : lsCheck (memAddr (s.core (coreNo b c)) w) 32 = 0) (hroom : (s.core (coreNo b c)).dmaQ.length < 16)
    (hsound : s.badCount b c 0 a 32 false = 0) :
    LoadOnly s (memDmaq b c w s) b c 0 ∧ (memDmaq b c w s).core (coreNo b c) = (s.core (coreNo b c)).after
      { (s.core (coreNo b c)).near 0 a with dmaQ := (s.core (coreNo b c)).dmaQ ++ [s.descAt b c a] } := by
  subst ha
  have hqueue : memDmaq b c w s = (s.storeRead b c 0 (memAddr (s.core (coreNo b c)) w).toNat 32).retire b c
      (fun x => { x with dmaQ := x.dmaQ ++ [s.descAt b c (memAddr (s.core (coreNo b c)) w).toNat] }) := by
    simp only [memDmaq, hcheck, Nat.not_le.mpr hroom, State.readStore_sound s b c _ _ _ hsound, ne_eq, not_true_eq_false, if_false,
      State.descAt_eq]
  rw [hqueue]
  exact ⟨State.storeRead_retire_loadOnly s b c _ _ _ (fun _ => rfl), State.storeRead_retire_core _ _ _ (fun _ => rfl)⟩

end

/-! A stalled core that goes on. -/

section
variable (s : State) (b : Fin 100) (c : Fin 8)

/-- A core no longer waits. -/
def State.unstalled : State := s.modCore (coreNo b c) (fun x => { x with run := .running, wait := none })

theorem State.unstalled_core : (s.unstalled b c).core (coreNo b c) = { s.core (coreNo b c) with run := .running, wait := none } :=
  State.core_modCore_same ..

theorem State.unstalled_core_ne {k : Nat} (h : k ≠ coreNo b c) : (s.unstalled b c).core k = s.core k :=
  (State.core_modCore ..).trans (if_neg h)

variable {s b c}

theorem KeepsOthers.of_unstalled {t : State} (h : KeepsOthers (s.unstalled b c) t b c) : KeepsOthers s t b c :=
  ⟨fun k hk => (h.cores k hk).trans (s.unstalled_core_ne b c hk), h.benches, h.regs⟩

theorem PoolIssued.of_unstalled {t : State} (h : PoolIssued (s.unstalled b c) t b c) : PoolIssued s t b c :=
  ⟨⟨h.keeps.others.of_unstalled, h.keeps.bench⟩, h.rest⟩

theorem OnlyBench.of_unstalled {t : State} (h : OnlyBench (s.unstalled b c) t b c) : OnlyBench s t b c :=
  ⟨h.others.of_unstalled, h.rest⟩

theorem execCoreStallRelease_load {q : Waiting} (hq : s.waitsFor b c .stall = some q) (hfam : iFam q.word = 3) (hop : iOp q.word = 1) :
    execCoreStallRelease b c s = .next (memLoad b c false q.word (s.unstalled b c)) := by
  simp only [execCoreStallRelease, hq, hfam, hop]
  rfl

theorem execCoreStallRelease_post {q : Waiting} (hq : s.waitsFor b c .stall = some q) (hfam : iFam q.word = 6) :
    execCoreStallRelease b c s = .next (ctlPost b c q.word (s.unstalled b c)) := by
  simp only [execCoreStallRelease, hq, hfam, if_true]
  rfl

end

/-- Settles O14: a fence that is passed, a descriptor and a stalled access or item each retire, a fence that is not waits. -/
theorem fencesQueuesAndStalls : Obligations.FencesQueuesAndStalls := by
  unfold Obligations.FencesQueuesAndStalls
  intro s b c w x a
  have hcore : (s.fetched b c).core (coreNo b c) = x := State.fetched_core ..
  have hstalled := s.unstalled_core b c
  refine ⟨fun hfires hnone => ?_, fun hfires hsome => ?_, fun q hq hnone => ?_, fun hfires hcheck hroom hsound => ?_,
    fun q hq hfam hop hsp hcheck hroom => ?_, fun q hq hfam hentry hroom hwait => ?_⟩
  · refine ⟨(s.fetched b c).retire b c id, (exec_fence b c s).trans ((coreExec_fires hfires _).trans ?_), State.retire_only .., ?_⟩
    · rw [hcore, hnone]
      rfl
    · rw [State.retire_core _ _ _ _ rfl, hcore]
      rfl
  · refine (exec_fence b c s).trans ((coreExec_fires hfires _).trans ?_)
    rw [hcore, if_neg (by simpa using hsome)]
    rfl
  · refine ⟨s.retire b c id, ?_, State.retire_only .., State.retire_core _ _ _ _ rfl⟩
    rw [exec_fenceComplete, execFenceComplete, hq]
    exact if_pos (List.isEmpty_iff.mpr hnone)
  · obtain ⟨honly, hafter⟩ := memDmaq_queues (s := s.fetched b c) (b := b) (c := c) (w := w) (a := a.toNat) (by rw [hcore])
      (by rw [hcore]; exact hcheck) (by rw [hcore]; exact hroom) (s.fetched_badCount b c hsound)
    refine ⟨_, (exec_dmaq b c s).trans (coreExec_fires hfires _), honly, ?_⟩
    rw [hafter, hcore, State.fetched_descAt]
    rfl
  · have hload := memLoad_pool (s := s.unstalled b c) (b := b) (c := c) false hsp (by rw [hstalled]; exact hcheck)
    obtain ⟨hissued, hafter⟩ := State.poolIssue_issues (s := s.unstalled b c) (b := b) (c := c) (w := q.word)
      (outOf 1 (memAddr x q.word).toNat (2 ^ iSz q.word) (iD q.word) 0 0 [] [])
      (by rw [hstalled]; exact Core.outRoom_load rfl hroom)
    refine ⟨_, ?_, PoolIssued.of_unstalled hissued, ?_⟩
    · rw [exec_coreStallRelease, execCoreStallRelease_load hq hfam hop, hload, hstalled]
      rfl
    · rw [hafter, hstalled]
      rfl
  · have hpost := ctlPost_posts (s := s.unstalled b c) (b := b) (c := c) (w := q.word) (by rw [hstalled]; exact hentry) hroom hwait
    refine ⟨(s.unstalled b c).posted b c q.word, ?_, (State.posted_only q.word).of_unstalled, ?_, ?_⟩
    · rw [exec_coreStallRelease, execCoreStallRelease_post hq hfam, hpost]
    · rw [State.posted_core, hstalled]
      rfl
    · rw [State.posted_items (s := s.unstalled b c) hroom hwait, hstalled]
      rfl

end Sys2Proof.Machine
end


/-! ### Tallies, POST and TWAIT (R202, R234, R236, R237) -/

section
namespace Sys2Proof.Machine

/-! Tallies. -/

theorem tallyNo_eq (w : W64) : tallyNo w = w.toNat % 64 := by
  rw [tallyNo, iImm_eq]
  omega

/-- The low word of a scalar register. -/
theorem w32_fld (v : W64) : w32 (fld v 0 32) = BitVec.ofNat 32 v.toNat := by
  refine BitVec.eq_of_toNat_eq ?_
  simp [w32, fld]

/-- The order of tallies is that of R236. -/
theorem reached_iff (t x : W32) : reached t x = true ↔ serialReached t x := by
  have ht := t.isLt
  have hx := x.isLt
  rw [reached, decide_eq_true_eq, BitVec.toNat_sub, serialReached]
  omega

section
variable {s : State} {b : Fin 100} {c : Fin 8}

/-- The state after an instruction that sets a tally. -/
theorem State.setTally_retire_only (n : Nat) (v : W32) : OnlyBench s ((s.setTally b n v).retire b c id) b c :=
  State.retire_onlyBench rfl (fun _ hi => (State.bench_modBench ..).trans (if_neg hi)) id

theorem State.setTally_retire_core (n : Nat) (v : W32) :
    ((s.setTally b n v).retire b c id).core (coreNo b c) = (s.core (coreNo b c)).after (s.core (coreNo b c)) :=
  State.retire_core _ _ _ _ rfl

theorem State.setTally_retire_tally (n : Nat) (v : W32) (j : Nat) :
    ((s.setTally b n v).retire b c id).tally b j = if j = n then v else s.tally b j := by
  unfold State.tally
  rw [(State.retire_keeps _ b c id).bench, State.setTally, State.bench_modBench_same]
  exact sget_sset ..

@[simp] theorem State.fetched_tally (n : Nat) : (s.fetched b c).tally b n = s.tally b n := by rw [State.tally, State.fetched_bench]; rfl

/-! Contexts that are not logged (R328). -/

theorem Unlogged.fetched (h : Unlogged s b) : Unlogged (s.fetched b c) b := by
  rw [State.fetched_eq]
  exact h

/-- An instruction of a context that is not logged retires with its live value. -/
theorem State.retireValue_unlogged (h : Unlogged s b) {d : Nat} {live : State → W64 × State} {v : W64} (hlive : live s = (v, s)) :
    s.retireValue b c d live = s.retire b c (fun y => y.setS d v) := by
  unfold State.retireValue
  dsimp only
  split
  · rw [hlive]
  · next x hx =>
    obtain ⟨hrec, hrpl⟩ := h x hx
    simp [hrpl, State.recRoom, hrec, hlive, State.record]

theorem State.logCtx_unlogged (h : Unlogged s b) : s.logCtx b = none := by
  refine Option.filter_eq_none_iff.mpr fun x hx => ?_
  rw [(h x hx).2]
  exact Bool.false_ne_true

theorem State.waitRoom_unlogged (h : Unlogged s b) (n : Nat) : s.waitRoom b n = true := by
  unfold State.waitRoom
  split
  · next x hx => simp [State.recRoom, (h x hx).1]
  · rfl

/-- A value in s[D] ends an instruction. -/
theorem State.retire_setS (d : Nat) (v : W64) : OnlyCore s (s.retire b c (fun y => y.setS d v)) b c ∧
    (s.retire b c (fun y => y.setS d v)).core (coreNo b c) = (s.core (coreNo b c)).after ((s.core (coreNo b c)).setS d v) :=
  ⟨State.retire_only .., State.retire_core _ _ _ _ (Core.setS_pc ..)⟩

/-! TWAIT. -/

theorem State.twaitMet_iff (w : W64) : s.twaitMet b c w = true ↔
    serialReached (s.tally b (w.toNat % 64)) (BitVec.ofNat 32 ((s.core (coreNo b c)).s (iA w)).toNat) := by
  rw [State.twaitMet, reached_iff, tallyNo_eq, w32_fld]

theorem State.fetched_twaitMet (w : W64) : (s.fetched b c).twaitMet b c w = s.twaitMet b c w := by
  simp only [State.twaitMet, State.fetched_tally, State.fetched_core]

end

/-- TINC, TSET, TRD and POST each set a tally, read one, or post an item, and retire (R202, R234, R236). -/
theorem talliesAndPosts (s : State) (b : Fin 100) (c : Fin 8) (w : W64) :
    let x := s.core (coreNo b c)
    let n := w.toNat % 64
    let v := BitVec.ofNat 32 (x.s (iA w)).toNat
    (Fires s b c w 6 0x10 → ∃ t, exec (.tinc b c) s = .next t ∧ OnlyBench (s.fetched b c) t b c ∧ t.core (coreNo b c) = x.after x ∧
      ∀ j, t.tally b j = if j = n then s.tally b n + v else s.tally b j) ∧
    (Fires s b c w 6 0x11 → ∃ t, exec (.tset b c) s = .next t ∧ OnlyBench (s.fetched b c) t b c ∧ t.core (coreNo b c) = x.after x ∧
      ∀ j, t.tally b j = if j = n then v else s.tally b j) ∧
    (Fires s b c w 6 0x12 → Unlogged s b → ∃ t, exec (.trd b c) s = .next t ∧ OnlyCore (s.fetched b c) t b c ∧
      t.core (coreNo b c) = x.after (x.setS (iD w) (BitVec.ofNat 64 (s.tally b n).toNat))) ∧
    (Fires s b c w 6 0x08 → (x.s (iA w)).toNat < 8192 → (s.bench b).items.length < 256 → (s.bench b).itemWait = [] →
      ∃ t, exec (.post b c) s = .next t ∧ OnlyBench (s.fetched b c) t b c ∧ t.core (coreNo b c) = x.after x ∧
        (t.bench b).items = (s.bench b).items ++
          [{ entry := (x.s (iA w)).toNat, arg := x.s (iB w), num := (s.bench b).itemNum }] ∧
        (t.bench b).tallies = (s.bench b).tallies) := by
  intro x n v
  have hcore : (s.fetched b c).core (coreNo b c) = x := State.fetched_core ..
  have hset (r : W32) : OnlyBench (s.fetched b c) (((s.fetched b c).setTally b n r).retire b c id) b c ∧
      (((s.fetched b c).setTally b n r).retire b c id).core (coreNo b c) = x.after x ∧
      ∀ j, (((s.fetched b c).setTally b n r).retire b c id).tally b j = if j = n then r else s.tally b j := by
    refine ⟨State.setTally_retire_only .., ?_, fun j => ?_⟩
    · rw [State.setTally_retire_core, hcore]
    · rw [State.setTally_retire_tally, State.fetched_tally]
  refine ⟨fun hfires => ⟨_, ?_, hset (s.tally b n + v)⟩, fun hfires => ⟨_, ?_, hset v⟩, fun hfires hlog => ?_,
    fun hfires hentry hroom hwait => ?_⟩
  · refine (exec_tinc b c s).trans ((coreExec_fires hfires _).trans ?_)
    rw [tallyNo_eq, w32_fld, hcore, State.fetched_tally]
  · refine (exec_tset b c s).trans ((coreExec_fires hfires _).trans ?_)
    rw [tallyNo_eq, w32_fld, hcore]
  · obtain ⟨honly, hafter⟩ := State.retire_setS (s := s.fetched b c) (b := b) (c := c) (iD w) (BitVec.ofNat 64 (s.tally b n).toNat)
    refine ⟨_, (exec_trd b c s).trans ((coreExec_fires hfires _).trans ?_), honly, ?_⟩
    · rw [State.retireValue_unlogged hlog.fetched (v := BitVec.ofNat 64 (s.tally b n).toNat)]
      rw [tallyNo_eq, State.fetched_tally]
      rfl
    · rw [hafter, hcore]
  · have hbench : (s.fetched b c).bench b = s.bench b := State.fetched_bench ..
    refine ⟨(s.fetched b c).posted b c w, (exec_post b c s).trans ((coreExec_fires hfires _).trans ?_), State.posted_only w, ?_, ?_, ?_⟩
    · exact congrArg _ (ctlPost_posts (by rw [hcore]; exact hentry) (by rw [hbench]; exact hroom) (by rw [hbench]; exact hwait))
    · rw [State.posted_core, hcore]
    · rw [State.posted_items (by rw [hbench]; exact hroom) (by rw [hbench]; exact hwait), hcore, hbench]
    · rw [State.posted_tallies, hbench]

/-- Settles O16: tallies and posts, then TWAIT at once, waiting, reached and timed out. -/
theorem talliesPostsAndWaits : Obligations.TalliesPostsAndWaits := by
  unfold Obligations.TalliesPostsAndWaits
  refine ⟨talliesAndPosts, ?_⟩
  intro s b c w hlog x met done
  have hcore : (s.fetched b c).core (coreNo b c) = x := State.fetched_core ..
  have hmet (q : W64) : s.twaitMet b c q = true ↔ met q := State.twaitMet_iff q
  have hdone {u : State} {i : Instr} {q v : W64} (hu : u.core (coreNo b c) = x)
      (hexec : exec i s = .next (u.retire b c (fun y => y.setS (iD q) v))) : done u i q v := by
    obtain ⟨honly, hafter⟩ := State.retire_setS (s := u) (b := b) (c := c) (iD q) v
    exact ⟨_, hexec, honly, by rw [hafter, hu]⟩
  refine ⟨fun hfires hw => hdone hcore ?_, fun hfires hw => ?_, fun q hq hw => hdone rfl ?_, fun q d hq hw hd hlate => hdone rfl ?_⟩
  · refine (exec_twait b c s).trans ((coreExec_fires hfires _).trans ?_)
    dsimp only
    rw [State.logCtx_unlogged hlog.fetched]
    dsimp only
    rw [State.fetched_twaitMet, if_pos ((hmet w).mpr hw), State.retireValue_unlogged hlog.fetched rfl]
  · refine (exec_twait b c s).trans ((coreExec_fires hfires _).trans ?_)
    dsimp only
    rw [State.logCtx_unlogged hlog.fetched]
    dsimp only
    rw [State.fetched_twaitMet, if_neg (mt (hmet w).mp hw), hcore, State.fetched_clk]
    have hzero : ((x.s (iB w)).toNat = 0) = (x.s (iB w) = 0) := propext (BitVec.toNat_eq (y := 0)).symm
    simp only [hzero]
    rfl
  · rw [exec_twaitReached, execTwaitReached, hq]
    dsimp only
    rw [State.twaitDone, (hmet q.word).mpr hw, State.waitRoom_unlogged hlog, State.retireValue_unlogged hlog rfl]
    rfl
  · have hnot : s.twaitMet b c q.word = false := by rw [Bool.eq_false_iff]; exact mt (hmet q.word).mp hw
    have hpast : s.late q = true := by simp [State.late, hd, hlate]
    rw [exec_twaitTimeout, execTwaitTimeout, hq]
    dsimp only
    rw [hpast, State.logCtx_unlogged hlog, hnot, State.waitRoom_unlogged hlog, State.retireValue_unlogged hlog rfl]
    rfl

end Sys2Proof.Machine
end


/-! ### Special registers (R239, R240, R490) -/

section
namespace Sys2Proof.Machine

section
variable {s : State} {b : Fin 100} {c : Fin 8}

/-! What a fetch leaves of the registers that a core reads. -/

@[simp] theorem State.fetched_coreCtx (i : Nat) : (s.fetched b c).coreCtx i = s.coreCtx i := by
  rw [State.fetched_eq]
  rfl

@[simp] theorem State.fetched_coreId : (s.fetched b c).coreId b c = s.coreId b c := by
  rw [State.fetched_eq]
  rfl

@[simp] theorem State.fetched_counterOpen (o : Nat) : (s.fetched b c).counterOpen b o = s.counterOpen b o := by
  rw [State.fetched_eq]
  rfl

theorem Clear.fetched {r : Requester} (h : Clear s r) : Clear (s.fetched b c) r := by
  obtain ⟨hlow, hlatch, hreads, hwrites⟩ := h
  rw [State.fetched_eq]
  exact ⟨hlow, hlatch, hreads, hwrites⟩

/-- The counter of corrected instruction words lies among the bench blocks. -/
theorem isCe_range (b : Fin 100) : 0x2000038 ≤ Reg.isCe b ∧ Reg.isCe b < 0x2640000 := by
  have hb := b.isLt
  simp only [Reg.isCe]
  omega

theorem State.fetched_lportsOf {p : Nat} (h : p < 256) : (s.fetched b c).lportsOf p = s.lportsOf p := by
  have hne : Reg.portCfg p ≠ Reg.isCe b := by
    have := isCe_range b
    simp only [Reg.portCfg]
    omega
  simp only [State.lportsOf, State.split, State.fetched_reg s b c _ hne]

/-- A fetch leaves the counter blocks (R490). -/
theorem State.fetched_regValue {o : Nat} (h : o < 0xF2000) : (s.fetched b c).regValue (0x3F00000 + o) = s.regValue (0x3F00000 + o) := by
  have hreg : (s.fetched b c).reg (0x3F00000 + o) = s.reg (0x3F00000 + o) := by
    have := isCe_range b
    exact State.fetched_reg s b c _ (by omega)
  have habsent : (s.fetched b c).absentReg (0x3F00000 + o) = s.absentReg (0x3F00000 + o) := by
    simp only [State.absentReg, State.fetched_lportsOf (show (0x3F00000 + o - 0x3F00000) / 0x1000 < 256 by omega)]
    simp (disch := omega) only [decide_eq_false, decide_eq_true, Bool.and_false, Bool.false_eq_true, if_false]
  have hview : (s.fetched b c).regView (0x3F00000 + o) = s.regView (0x3F00000 + o) := by
    have hlow (n : Nat) (hn : n ≤ 0x3F00000) : ¬ 0x3F00000 + o < n := by omega
    simp only [State.regView, hlow, Nat.reduceLeDiff, if_false, Nat.le_refl]
    rw [State.fetched_eq]
  simp only [State.regValue, hreg, habsent, hview]

/-- What CTRRD of offset `o` of the counter blocks gives, and the state it leaves (R239, R490). -/
def ctrrdLive (b : Fin 100) (c : Fin 8) (o : Nat) (s : State) : W64 × State :=
  let s := if b.val = 99 then s.touch (.warden c) (0x3F00000 + o) else s
  if counterNamed o && s.counterOpen b o then (s.regValue (0x3F00000 + o), s) else (0, s.ignored (.warden c) (0x3F00000 + o) true)

/-- CTRRD of a counter that its program may read gives the counter's value, and changes nothing else. -/
theorem ctrrdLive_open {o : Nat} (hclear : b.val = 99 → Clear s (.warden c)) (hnamed : counterNamed o = true)
    (hopen : s.counterOpen b o = true) : ctrrdLive b c o s = (s.regValue (0x3F00000 + o), s) := by
  have htouch : (if b.val = 99 then s.touch (.warden c) (0x3F00000 + o) else s) = s := by
    split
    · exact touch_clear (hclear ‹_›) _
    · rfl
  simp only [ctrrdLive, htouch, hnamed, hopen, Bool.and_self, if_true]

/-- A context with PERMS [0], and the warden, may read counters. -/
theorem State.perms_open (h : ∀ y, s.coreCtx b = some y → (s.ctx y).perms.getLsbD 0 = true) :
    (s.coreCtx b).any (fun y => !bit (s.ctx y).perms 0) = false := by
  cases hctx : s.coreCtx b with
  | none => rfl
  | some y => simp [bit, h y hctx]

/-- The blocks of a counter that CTRRD names. -/
theorem counterNamed_lt {o : Nat} (h : counterNamed o = true) : o < 0xF2000 := by
  simp only [counterNamed, Bool.and_eq_true, decide_eq_true_eq] at h
  omega

/-- Bench 99 belongs to no context. -/
theorem State.coreCtx_warden {b : Fin 100} (h : b.val = 99) : s.coreCtx b = none := if_pos h

/-- An instruction of the warden bench retires with its live value, in the state that computing it leaves. -/
theorem State.retireValue_warden (h : b.val = 99) (d : Nat) (live : State → W64 × State) :
    s.retireValue b c d live = (live s).2.retire b c (fun y => y.setS d (live s).1) := by
  unfold State.retireValue
  rw [State.coreCtx_warden h]

end

theorem demanded_eq (s : State) (o : Nat) : demanded s o = s.wardenWake o := rfl

/-- DMA_STATUS (R212): its last completion and how many descriptors are queued. -/
theorem Core.dmaStat_eq (x : Core) : x.dmaStat = BitVec.ofNat 64 (x.dmaStatus.toNat + 256 * x.dmaQ.length) := by
  simp only [Core.dmaStat, w64, pack, List.foldl_cons, List.foldl_nil]
  congr 1
  omega

/-- Settles O19: a special register is read through the register rules, in a context that is not logged or on bench 99. -/
theorem specialRegisters : Obligations.SpecialRegisters := by
  unfold Obligations.SpecialRegisters
  intro s b c w hlog x a gives
  have hcore : (s.fetched b c).core (coreNo b c) = x := State.fetched_core ..
  have hgives {i : Instr} {v : W64} (f : Core → Core) (hf : f x = x.setS (iD w) v)
      (hexec : exec i s = .next ((s.fetched b c).retire b c f)) : gives i v := by
    refine ⟨_, hexec, State.retire_only .., ?_⟩
    rw [State.retire_core _ _ _ _ (by rw [hcore, hf, Core.setS_pc]), hcore, hf]
  have hlive {i : Instr} {v : W64} (live : State → W64 × State) (hv : live (s.fetched b c) = (v, s.fetched b c))
      (hexec : exec i s = .next ((s.fetched b c).retireValue b c (iD w) live)) : gives i v :=
    hgives _ rfl (by rw [hexec, State.retireValue_unlogged hlog.fetched hv])
  have hraise : Raised s ((s.fetched b c).raise b c 0x03 0) b c 0x03 0 := State.raise_raised_of_core (s.fetched_core b c _) ..
  have hrdsr (hfires : Fires s b c w 7 0x01) := (exec_rdsr b c s).trans (coreExec_fires hfires _)
  have hfld (v : W64) (n : Nat) : fld v 0 n = v.toNat % 2 ^ n := by simp [fld]
  refine ⟨fun hfires himm => hgives (fun y => y.setS (iD w) (s.coreId b c)) rfl ?_,
    fun hfires himm => hlive (fun u => (u.clk.ftime, u)) ?_ ?_,
    fun hfires himm => hlive (fun u => (w64 ((u.now - (u.bench b).wokeAt) * 8 / 5), u)) ?_ ?_,
    fun hfires himm => hgives (fun y => y.setS (iD w) (w64 y.loadLimit)) rfl ?_,
    fun hfires himm => hlive (fun u => (x.dmaStat, u)) ?_ ?_,
    fun hfires hperm halign hclear hnamed hopen => hlive (ctrrdLive b c (a.toNat % 2 ^ 22)) ?_ ?_,
    fun hfires hb => ⟨(s.fetched b c).raise b c 0x03 0, ?_, hraise⟩, fun hfires hb => ⟨(s.fetched b c).raise b c 0x03 0, ?_, hraise⟩,
    fun hfires hb halign => ?_, fun hfires hb halign => ?_⟩
  · rw [hrdsr hfires]
    simp only [himm, State.fetched_coreId]
  · simp only [State.fetched_clk]
  · rw [hrdsr hfires]
    simp only [himm]
  · simp only [State.fetched_now, State.fetched_bench]
    rfl
  · rw [hrdsr hfires]
    simp only [himm]
  · rw [hrdsr hfires]
    simp only [himm]
  · simp only [Core.dmaStat_eq]
  · rw [hrdsr hfires]
    simp only [himm, hcore]
  · rw [ctrrdLive_open (fun hb => (hclear hb).fetched) hnamed ((State.fetched_counterOpen _).trans hopen),
      State.fetched_regValue (counterNamed_lt hnamed)]
  · refine (exec_ctrrd b c s).trans ((coreExec_fires hfires _).trans ?_)
    have hopen' := State.perms_open (s := s.fetched b c) (b := b) (by simpa using hperm)
    simp only [hopen', hcore, show (x.s (iA w)).toNat % 4 = 0 from halign, hfld, ne_eq, not_true_eq_false, Bool.false_eq_true, if_false]
    rfl
  · refine (exec_rdreg b c s).trans ((coreExec_fires hfires _).trans ?_)
    simp only [hb, ne_eq, not_false_eq_true, if_true]
  · refine (exec_wrreg b c s).trans ((coreExec_fires hfires _).trans ?_)
    simp only [hb, ne_eq, not_false_eq_true, if_true]
  · intro r
    refine ⟨r.2.retire b c (fun y => y.setS (iD w) r.1), (exec_rdreg b c s).trans ((coreExec_fires hfires _).trans ?_),
      State.retire_setS (iD w) r.1⟩
    simp only [hb, hcore, show (x.s (iA w)).toNat % 4 = 0 from halign, hfld, State.retireValue_warden hb, ne_eq, not_true_eq_false,
      if_false]
    rfl
  · refine ⟨(s.fetched b c).retire b c id, State.retire_only .., ?_, (exec_wrreg b c s).trans ((coreExec_fires hfires _).trans ?_)⟩
    · rw [State.retire_core _ _ _ _ rfl, hcore]
      rfl
    · simp only [hb, hcore, show (x.s (iA w)).toNat % 4 = 0 from halign, w32_fld, hfld _ 26, ne_eq, not_true_eq_false, if_false]
      rw [← demanded_eq]

end Sys2Proof.Machine
end


/-! ### Items (R202, R238) -/

section
namespace Sys2Proof.Machine

/-- The item that refutes O18: its entry is the first one beyond the instruction store's 8192 instructions. -/
def itemBeyond : WorkItem := { entry := 8192, arg := 9 }

/-- The launch that runs on bench 0. -/
def launchThere : Run := { num := 1, idx := 0, ws := [], ctx := 1, benches := [0], started := true }

/-- Bench 0 runs a launch, its cores are idle, and the item waits in its queue. -/
def benchBeyond : State := { Tests.up with
  benches := [(0, { st := .awake, launch := some 1, items := [itemBeyond] })], launch := { runs := [launchThere] } }

/-- Core 0 may start the item. -/
theorem benchBeyond_starts : (benchBeyond.core 0).run = .halted ∧ (benchBeyond.bench 0).st = .awake ∧ benchBeyond.powered = true ∧
    benchBeyond.benchHeld 0 = false ∧ benchBeyond.fenceActive = false ∧ benchBeyond.runOn 0 = some launchThere ∧
    (benchBeyond.bench 0).items = [itemBeyond] ∧ (benchBeyond.bench 0).itemWait = [] := by
  decide +kernel

theorem benchBeyond_coreCtx : benchBeyond.coreCtx 0 = none := by decide +kernel

theorem benchBeyond_unlogged : Unlogged benchBeyond 0 := by
  intro x hx
  cases benchBeyond_coreCtx.symm.trans hx

/-- The placement rule gives core 0 the item. -/
theorem benchBeyond_itemCore : benchBeyond.itemCore 0 itemBeyond = some 0 := by decide +kernel

/-- The model's core 0 then stands past the end of its instruction store (R235). -/
theorem benchBeyond_pastEnd : ∃ t, exec (.itemStart 0 0) benchBeyond = .next t ∧ (t.core 0).pastEnd = true := by
  obtain ⟨hidle, hawake, hpowered, hheld, hfence, hrun, hitems, -⟩ := benchBeyond_starts
  refine ⟨benchBeyond.startItem 0 0 itemBeyond, ?_, by decide +kernel⟩
  have hcore : (benchBeyond.core (coreNo 0 0)).run = .halted := hidle
  have hlog : benchBeyond.logCtx 0 = none := State.logCtx_unlogged (b := 0) benchBeyond_unlogged
  have hroom : benchBeyond.waitRoom 0 16 = true := State.waitRoom_unlogged benchBeyond_unlogged 16
  simp [execItemStart, hcore, hawake, hpowered, hheld, hfence, hrun, hitems, hlog, hroom, benchBeyond_coreCtx, benchBeyond_itemCore]

/-- Refutes O18: the statement has each started core inside its instruction store; an item whose entry is 8192 starts its
core past the end of it. -/
theorem not_itemsEndAndStart : ¬ Obligations.ItemsEndAndStart := by
  unfold Obligations.ItemsEndAndStart
  intro h
  obtain ⟨hidle, hawake, hpowered, hheld, hfence, hrun, hitems, hwait⟩ := benchBeyond_starts
  obtain ⟨t, ht, -, -, hcore⟩ := (h benchBeyond 0 0 0).2.1 launchThere itemBeyond [] hidle hawake hpowered hheld hfence hrun
    benchBeyond_unlogged hitems hwait (by decide)
  obtain ⟨u, hu, hpast⟩ := benchBeyond_pastEnd
  obtain rfl : t = u := Host.Outcome.next.inj (ht.symm.trans hu)
  rw [show t.core 0 = _ from hcore] at hpast
  exact Bool.false_ne_true hpast

end Sys2Proof.Machine
end


/-! ### Two cached blocks in one place of the backing (R309, R314) -/

section
namespace Sys2Proof.Machine

/-- The outstanding load that refutes O13: four bytes of one block of the cached window and four of the next. -/
def loadAcross : OutAccess := { op := 1, addr := 0x8000000FFC, size := 8, dest := 1, x := 0, y := 0, data := [], mask := [] }

/-- A cached window of context 1 whose record gives two blocks one place in the backing: way 16 of a set is way 0 of the
next. The last line there is uncorrectable; it stands for the block that the record lists first, which is not the one the
load reads it for. -/
def sharedPlace : State :=
  let s := Tests.pooled (Tests.coreAt 0 { outs := [loadAcross] })
  { s with pool := { s.pool with
      windows := [(winKey 1 0 0, 15), (winKey 1 0 1, 0x40000), (winKey 1 0 2, 1), (winKey 1 0 3, 1)]
      cache := [{ ctx := 1, win := 0, blocks := [{ blk := 0x8000001 }, { blk := 0x8000000, dirty := true, way := 16 }] }]
      latent := [(1087, false)] } }

/-- The load meets everything that the statement asks. -/
theorem sharedPlace_serves : sharedPlace.powered = true ∧ (sharedPlace.core 0).outs[0]? = some loadAcross ∧
    sharedPlace.poolAhead loadAcross.addr loadAcross.size loadAcross.reach = false ∧
    sharedPlace.memAwake loadAcross.addr loadAcross.size = true ∧ sharedPlace.resident loadAcross.addr loadAcross.size = true ∧
    sharedPlace.ueLines loadAcross.addr 8 = [] := by
  decide +kernel

/-- Serving the load puts the block it reads first in the record, so that it meets the error there: its core stops. -/
theorem sharedPlace_stops : ((Tests.nx (.poolAccessReturn 0 0 0 .clean) sharedPlace).core 0).run = .stopped := by decide +kernel

/-- Refutes O13: the order of a window's blocks says which of two in one place of the backing reads a line there, and the
access itself changes that order; the statement ranges over records in which two blocks share a place. -/
theorem not_poolReturnsAccess : ¬ Obligations.PoolReturnsAccess := by
  unfold Obligations.PoolReturnsAccess
  intro h
  obtain ⟨hpowered, hout, hahead, hawake, hresident, hclean⟩ := sharedPlace_serves
  obtain ⟨t, ht, -, -, -, hload, -⟩ := h sharedPlace 0 0 0 loadAcross hpowered hout (fun _ hp => absurd hp List.not_mem_nil) hahead
    hawake hresident hclean
  obtain ⟨-, hcore⟩ := hload rfl
  have hstop := sharedPlace_stops
  rw [Tests.nx, ht] at hstop
  rw [show t.core 0 = _ from hcore] at hstop
  exact absurd hstop (by decide)

end Sys2Proof.Machine
end

/-! ### What moving packets leaves to the cores (R65, R69, R77, R92, R250) -/

section
namespace Sys2Proof.Machine

/-- What the movement of packets has no part in: the cores, their local stores, and what contexts record and replay. -/
def State.program (s : State) : Sparse Core × List Host.Cell × Sparse Rpl := (s.cores, s.ls, s.rpl)

section
variable (s : State)

/-! Counting and logging. -/

@[simp] theorem State.program_bump (o : Nat) : (s.bump o).program = s.program := rfl
@[simp] theorem State.program_bumpBy (o n : Nat) : (s.bumpBy o n).program = s.program := rfl
@[simp] theorem State.program_bumpAt (lp : Option Nat) (port : Nat → Nat) (int : Nat) : (s.bumpAt lp port int).program = s.program := by
  cases lp <;> rfl
@[simp] theorem State.program_setReg (o : Nat) (v : W64) : (s.setReg o v).program = s.program := rfl
@[simp] theorem State.program_trackMax (o v : Nat) : (s.trackMax o v).program = s.program := by
  unfold State.trackMax
  split <;> rfl
@[simp] theorem State.program_trackFree : s.trackFree.program = s.program := by
  rw [State.trackFree_eq]
  rfl
@[simp] theorem State.program_countEv (blk code n : Nat) (vc l : Option Nat) : (s.countEv blk code n vc l).program = s.program := by
  rw [State.countEv_eq]
  rfl
@[simp] theorem State.program_logFault (f : FaultInfo) : (s.logFault f).program = s.program := by
  rw [State.logFault_only]
  rfl
@[simp] theorem State.program_oweReset (level cls index : Nat) : (s.oweReset level cls index).program = s.program := rfl
@[simp] theorem State.program_free : s.free.2.program = s.program := rfl
@[simp] theorem State.program_modSw (f : Switch → Switch) : (s.modSw f).program = s.program := rfl
@[simp] theorem State.program_modRoute (f : Route → Route) : (s.modRoute f).program = s.program := rfl
@[simp] theorem State.program_modBench (b : Nat) (f : Bench → Bench) : (s.modBench b f).program = s.program := rfl

theorem State.program_ite {p : Prop} [Decidable p] {t u : State} (ht : t.program = s.program) (hu : u.program = s.program) :
    (if p then t else u).program = s.program := by
  split
  · exact ht
  · exact hu

theorem State.program_foldl {α : Type} {f : State → α → State} (hf : ∀ t a, (f t a).program = t.program) (l : List α) :
    (l.foldl f s).program = s.program :=
  List.foldlRecOn (motive := fun t : State => t.program = s.program) _ _ rfl fun _ h a _ => (hf _ a).trans h

/-! The buffer. -/

@[simp] theorem State.program_returnCredit (lp vc : Nat) (term : Bool) (g : Nat) : (s.returnCredit lp vc term g).program = s.program := rfl

@[simp] theorem State.program_takeCredit (lp : Option Nat) (vc g : Nat) : (s.takeCredit lp vc g).program = s.program := by
  obtain ⟨_, h⟩ := AcctOnly.takeCredit s lp vc g
  rw [h]
  rfl

@[simp] theorem State.program_uncharge (x : Stored) : (s.uncharge x).program = s.program := by
  unfold State.uncharge
  split
  · rfl
  · split <;> rfl

@[simp] theorem State.program_quarantine (n : Nat) : (s.quarantine n).program = s.program := by
  unfold State.quarantine
  split
  · rfl
  · dsimp only
    split <;> simp

@[simp] theorem State.program_freeStored (id : Nat) : (s.freeStored id).program = s.program := by
  unfold State.freeStored
  split
  · rfl
  · dsimp only
    rw [State.program_quarantine]
    split <;> simp

@[simp] theorem State.program_deref (id : Nat) : (s.deref id).program = s.program := by
  unfold State.deref
  split
  · rfl
  · dsimp only
    split
    · exact State.program_freeStored ..
    · rfl

@[simp] theorem State.program_bufFault (cls : Nat) : (s.bufFault cls).program = s.program := by
  unfold State.bufFault
  simp

@[simp] theorem State.program_dataUe (x : Stored) (w : Nat) (ports : List Nat) : (s.dataUe x w ports).program = s.program := by
  unfold State.dataUe
  dsimp only
  split <;> simp

@[simp] theorem State.program_losePacket (x : Stored) : (s.losePacket x).program = s.program := by
  unfold State.losePacket
  dsimp only
  rw [State.program_quarantine, State.program_bump]
  split <;> simp

@[simp] theorem State.program_readObs (obs : BufObs) (x : Stored) (ports : List Nat) : (s.readObs obs x ports).1.program = s.program := by
  cases obs <;> simp [State.readObs, State.refFault, State.linkFault]

@[simp] theorem State.program_readCopy (stored : Option Nat) : (s.readCopy stored).program = s.program := by
  unfold State.readCopy
  split
  · rfl
  · rename_i x _
    dsimp only
    have hread := s.free.2.program_readObs (pickObs s.free.1 [.clean, .refCe, .refUe, .refZero]) x []
    split <;> rename_i heq <;> rw [heq] at hread
    · exact hread
    · exact (State.program_deref ..).trans hread

@[simp] theorem State.program_readLocal (obs : BufObs) (id : Nat) : (s.readLocal obs id).1.program = s.program := by
  unfold State.readLocal
  split
  · rfl
  · rename_i x _
    have hread := s.program_readObs obs x []
    split <;> rename_i heq <;> rw [heq] at hread <;> exact hread

@[simp] theorem State.program_enqueue (id lp vc : Nat) : (s.enqueue id lp vc).program = s.program := State.program_trackMax ..

@[simp] theorem State.program_store (x : Stored) (qs : List Nat) (vc : Nat) (own : Bool) : (s.store x qs vc own).program = s.program := by
  unfold State.store
  extract_lets id all targets item held stored charged queued counted lost
  have hcharged : charged.program = s.program := by
    refine s.program_ite rfl ?_
    split <;> rfl
  have hqueued : queued.program = s.program :=
    (State.program_trackFree _).trans ((State.program_foldl _ (fun t lp => t.program_enqueue id lp vc) _).trans hcharged)
  have hcounted : counted.program = s.program := s.program_ite hqueued ((State.program_countEv ..).trans hqueued)
  exact s.program_ite ((State.program_freeStored ..).trans hcounted) hcounted

/-! Routing. -/

@[simp] theorem State.program_correctEntry (e : EntryRef) : (s.correctEntry e).program = s.program := by
  unfold State.correctEntry
  split <;> rfl

@[simp] theorem State.program_detectErr (e : EntryRef) : (s.detectErr e).program = s.program := by
  unfold State.detectErr
  dsimp only
  split <;> simp

@[simp] theorem State.program_lookupErr (bank : Bool) (t i : Nat) : (s.lookupErr bank t i).2.program = s.program := by
  unfold State.lookupErr
  split
  · exact State.program_correctEntry ..
  · split
    · rfl
    · exact State.program_detectErr ..

@[simp] theorem State.program_choose (r : RouteReq) (adapt : Bool) (cands : List Nat) : (s.choose r adapt cands).2.program = s.program := by
  cases adapt <;> rfl

theorem State.program_snd_ite {α : Type} {p : Prop} [Decidable p] {x y : α × State} (hx : x.2.program = s.program)
    (hy : y.2.program = s.program) : (if p then x else y).2.program = s.program := by
  split
  · exact hx
  · exact hy

/-- A packet made inside the device is routed by two lookups, with counts. -/
@[simp] theorem State.program_routePkt (r : RouteReq) : (s.routePkt r none).2.program = s.program := by
  unfold State.routePkt
  extract_lets +onlyGivenNames bank
  have hpart : (if r.vc = 0 then (false, s) else s.lookupErr bank 3 r.part).2.program = s.program :=
    s.program_snd_ite rfl (s.program_lookupErr ..)
  generalize (if r.vc = 0 then (false, s) else s.lookupErr bank 3 r.part) = x at hpart ⊢
  obtain ⟨perr, s1⟩ := x
  dsimp -zeta only at hpart ⊢
  extract_lets +onlyGivenNames inDeny
  refine s.program_snd_ite ((State.program_bump ..).trans hpart) ?_
  generalize (if r.mc = true then (2, fld r.dest 0 12)
      else if coordRack r.dest ≠ s1.ownRack then (0, coordRack r.dest) else (1, coordNode r.dest)) = ti
  obtain ⟨t, i⟩ := ti
  dsimp -zeta only
  have hentry : (s1.lookupErr bank t i).2.program = s.program := (s1.program_lookupErr ..).trans hpart
  generalize s1.lookupErr bank t i = x at hentry ⊢
  obtain ⟨err, s2⟩ := x
  dsimp -zeta only at hentry ⊢
  extract_lets +onlyGivenNames ws w4 code miss
  have hmiss : (s2.bump miss).program = s.program := (State.program_bump ..).trans hentry
  refine s.program_snd_ite hmiss (s.program_snd_ite hmiss ?_)
  rw [if_neg (by simp)]
  extract_lets +onlyGivenNames s3 adapt live inPart s4 cands
  have hports : s4.program = s.program :=
    have habsent : s3.program = s.program := (State.program_bumpBy ..).trans hentry
    s.program_ite ((State.program_bumpBy ..).trans habsent) habsent
  have hcounted (o : Nat) : (s4.bump o).program = s.program := (State.program_bump ..).trans hports
  refine s.program_snd_ite (s.program_snd_ite (hcounted _) hports) (s.program_snd_ite (hcounted _) ?_)
  exact (s4.program_choose ..).trans hports

/-! A bench takes packets. -/

@[simp] theorem State.program_benchCredit (b : Nat) (lp : Option Nat) (vc g : Nat) : (s.benchCredit b lp vc g).program = s.program := by
  unfold State.benchCredit
  split
  · split
    · rfl
    · exact State.program_takeCredit ..
  · rfl

@[simp] theorem State.program_benchTook (b : Nat) (p : Inbound) : (s.benchTook b p).program = s.program := by
  unfold State.benchTook
  simp

@[simp] theorem State.program_releaseOwed (b : Nat) : (s.releaseOwed b).program = s.program := by
  unfold State.releaseOwed
  exact s.program_foldl (fun t e => t.program_ite rfl ((State.program_takeCredit ..).trans (State.program_modBench ..))) _

@[simp] theorem State.program_discardAll (b : Nat) (ps : List Inbound) : (s.discardAll b ps).program = s.program :=
  s.program_foldl (fun t p => t.program_benchTook b p) ps

@[simp] theorem State.program_feedRecv (b : Nat) : (s.feedRecv b).program = s.program := rfl

@[simp] theorem State.program_enterRecv (b : Nat) (g : List Inbound) : (s.enterRecv b g).program = s.program := rfl

@[simp] theorem State.program_enterMsgs (b : Nat) : (s.enterMsgs b).program = s.program :=
  (State.program_foldl _ (fun t m => t.program_enterRecv b (orderedPkts m)) _).trans rfl

@[simp] theorem State.program_abandonVc5 (b : Nat) (ms : List OpenMsg) : (s.abandonVc5 b ms).program = s.program := by
  unfold State.abandonVc5
  simp

theorem State.program_acceptVc5 {t : State} {b : Nat} {p : Inbound} (h : s.acceptVc5 b p = some t) : t.program = s.program := by
  unfold State.acceptVc5 at h
  extract_lets hd chan q ms drop mine holds full n r unplaced loose taken rest clash others keep at h
  split at h
  · cases h
    simp
  · split at h
    · cases h
      simp
    · split at h
      · split at h
        · cases h
          exact (State.program_releaseOwed ..).trans <| (State.program_discardAll ..).trans <|
            (State.program_abandonVc5 ..).trans <| (State.program_modBench ..).trans (State.program_bump ..)
        · split at h
          · cases h
          · cases h
            simp
      · split at h
        · cases h
        · cases h
          simp

theorem program_retryVc5 (b k : Nat) : (retryVc5 b k s).program = s.program := by
  induction k generalizing s with
  | zero => rfl
  | succ k ih =>
    rw [retryVc5]
    split
    · rfl
    · split
      · rfl
      · rename_i p ps _ _ t ht
        exact (ih _).trans ((t.program_modBench ..).trans (s.program_acceptVc5 ht))

@[simp] theorem State.program_takeVc5 (b : Nat) (p : Inbound) : (s.takeVc5 b p).program = s.program :=
  (State.program_releaseOwed ..).trans (program_retryVc5 ..)

@[simp] theorem State.program_takeOrdered (b vc : Nat) (p : Inbound) : (s.takeOrdered b vc p).program = s.program := by
  unfold State.takeOrdered
  extract_lets h chan mine st seqOk
  split
  · rfl
  · split
    · simp
    · split
      · simp
      · rfl

@[simp] theorem State.program_wakeBench (b : Nat) : (s.wakeBench b).program = s.program := by
  rw [State.wakeBench_only]
  rfl

/-! A packet reaches a unit, or leaves the device. -/

variable (p : Packet)

theorem State.program_deliver (u : Nat) (lp : Option Nat) (core : Option (Nat × Nat)) (g : Nat) (stored : Option Nat) :
    (s.deliver p u lp core g stored).1.program = s.program := by
  unfold State.deliver
  extract_lets vc inb drop received collIn counted reach poolIn
  have hdrop (t : State) : (drop t).program = t.program := (State.program_takeCredit ..).trans (State.program_readCopy ..)
  have hreceived : received.program = s.program := s.program_ite (s.program_bumpAt ..) rfl
  clear_value drop received
  split
  · exact (hdrop _).trans (s.program_bumpAt ..)
  · exact (hdrop _).trans (s.program_bumpAt ..)
  · split
    · exact (hdrop _).trans (s.program_bumpAt ..)
    · split
      · split
        · exact (hdrop _).trans (s.program_bumpAt ..)
        · split
          · exact (hdrop _).trans (s.program_bump _)
          · split
            · exact (hdrop _).trans (s.program_bump _)
            · split
              · exact (State.program_takeVc5 ..).trans ((State.program_wakeBench ..).trans hreceived)
              · exact (State.program_takeOrdered ..).trans ((State.program_wakeBench ..).trans hreceived)
      · split
        · exact s.program_ite ((hdrop _).trans hreceived) ((State.program_modSw ..).trans hreceived)
        · split
          · exact hreceived
          · exact (received.program_bump Reg.reqRx).trans hreceived

theorem State.program_deliverCopy (w : Writer) (u id : Nat) : (s.deliverCopy w p u id).1.program = s.program := by
  unfold State.deliverCopy
  extract_lets r
  have hread : (r.2.readLocal (pickObs r.1 [.clean, .dataCe, .dataUe (r.1.toNat / 4)]) id).1.program = s.program :=
    State.program_readLocal ..
  split <;> rename_i heq <;> rw [heq] at hread
  · exact hread
  · exact (State.program_deliver ..).trans hread

variable {s p}

theorem State.program_tryInternal {w : Writer} {r : State × Option Nat} (h : s.tryInternal w p = some r) : r.1.program = s.program := by
  unfold State.tryInternal at h
  extract_lets routed at h
  split at h
  · split at h
    · cases h
      exact State.program_deliver ..
    · cases h
  · have hrouted : routed.2.program = s.program := s.program_routePkt _
    split at h
    · cases h
      exact hrouted
    · obtain ⟨t, ht, rfl⟩ := Option.map_eq_some_iff.mp h
      have hstored : t.program = s.program := by
        unfold State.takeIn at ht
        extract_lets g at ht
        split at ht
        · cases ht
        · cases ht
          exact (State.program_store ..).trans hrouted
      extract_lets t'
      have hcounted : t'.program = s.program := (State.program_countEv ..).trans hstored
      split
      · exact (State.program_deliverCopy ..).trans hcounted
      · exact hcounted

/-- Each packet of one copy is routed, then stored or delivered. -/
theorem State.program_tryCopies {ps : List Packet} {t : State} {w : Writer} (h : s.tryCopies w ps = some t) : t.program = s.program := by
  unfold State.tryCopies at h
  extract_lets plan routed out g at h
  have hplan : routed.program = s.program := by
    refine List.foldlRecOn (motive := fun a : State × List (Packet × List Nat × Option Nat × Bool) => a.1.program = s.program) _ _ rfl ?_
    rintro ⟨u, xs⟩ hu p _
    dsimp only at hu ⊢
    split
    · exact hu
    · have hroute := (u.program_routePkt (routeReqOf p.h)).trans hu
      split <;> exact hroute
  split at h
  · cases h
  · cases h
    refine (State.program_foldl _ (fun u x => ?_) _).trans hplan
    extract_lets own stored
    have hstored : stored.program = u.program := u.program_ite rfl (State.program_store ..)
    clear_value own
    cases own
    case none => exact hstored
    case some u' =>
      exact u.program_ite ((State.program_deliver ..).trans hstored) ((State.program_deliverCopy ..).trans hstored)

variable (s p)

theorem State.program_writeOrHold (w : Writer) (more : List Packet) : (s.writeOrHold w p more).1.program = s.program := by
  unfold State.writeOrHold
  extract_lets hold
  split
  · rfl
  · split
    · rename_i hwrites
      unfold State.tryGroup at hwrites
      split at hwrites
      · exact State.program_tryInternal hwrites
      · obtain ⟨t, ht, rfl⟩ := Option.map_eq_some_iff.mp hwrites
        exact State.program_tryCopies ht
    · rfl

theorem State.program_answerRefusal (code : Option Nat) : (s.answerRefusal p code).program = s.program := by
  unfold State.answerRefusal
  split
  · rfl
  · split
    · exact State.program_writeOrHold ..
    · rfl

theorem State.program_send (w : Writer) : (s.send w p).program = s.program :=
  (State.program_answerRefusal ..).trans (State.program_writeOrHold ..)

theorem State.program_sendCopies (w : Writer) (ps : List Packet) : (s.sendCopies w ps).program = s.program := by
  unfold State.sendCopies
  split
  · rfl
  · exact State.program_send ..
  · exact State.program_writeOrHold ..

variable {s p}

theorem State.program_sendRequest {w : Writer} {t : State} (h : s.sendRequest w p = some t) : t.program = s.program := by
  unfold State.sendRequest at h
  split at h
  · cases h
  · rename_i hsent
    cases h
    exact (State.program_answerRefusal ..).trans (State.program_tryInternal hsent)

end

end Sys2Proof.Machine
end

/-! ### RECV, RECVH and DROP (R246, R250-R252) -/

section
namespace Sys2Proof.Machine

/-! Bytes of a core's own local store. -/

section
variable (s : State) (b : Fin 100) (c : Fin 8) {a n m : Nat}

/-- A part of sound words is sound. -/
theorem State.badCount_of_le (h : n ≤ m) (ce : Bool) (hsound : s.badCount b c 0 a m ce = 0) : s.badCount b c 0 a n ce = 0 := by
  have hnone : s.badIn 0 (coreNo b c) a m ce = [] := List.length_eq_zero_iff.mp hsound
  refine List.length_eq_zero_iff.mpr (List.filter_eq_nil_iff.mpr fun w hw hbad => List.filter_eq_nil_iff.mp hnone w hw ?_)
  simp only [Bool.and_eq_true, overlaps, decide_eq_true_eq] at hbad ⊢
  obtain ⟨hword, hover⟩ := hbad
  exact ⟨hword, by omega⟩

theorem lsCheck_of_le {v : W64} (h : n ≤ m) (hcheck : lsCheck v m = 0) : lsCheck v n = 0 := by
  unfold lsCheck at hcheck ⊢
  split
  · rw [if_pos ‹_›] at hcheck
    cases hcheck
  · rw [if_neg ‹_›] at hcheck
    split at hcheck
    · exact if_pos (by omega)
    · cases hcheck

variable (a) (bs : List Byte)

/-- The local stores after bytes are written to one. -/
theorem State.storeWritten_ls : (s.storeWritten b c 0 a (bs.map some)).ls = mwriteSome s.ls (coreNo b c * 262144 + a) (bs.map some) :=
  congrArg (mwriteSome · (coreNo b c * 262144 + a) (bs.map some)) (s.cleared_ls b c 0 a _ _)

theorem State.storeWritten_is : (s.storeWritten b c 0 a (bs.map some)).is = s.is := by
  have hput (u : State) : (u.storePut b c 0 a (bs.map some)).is = u.is := rfl
  rw [State.storeWritten, hput, State.cleared_is]

theorem State.storeWritten_core (k : Nat) : (s.storeWritten b c 0 a (bs.map some)).core k =
    if k = coreNo b c then (s.core k).near 0 a else s.core k := by
  rw [State.storeWritten, State.storePut_core _ _ _ _ _ (.inl rfl), State.cleared_core]
  split
  · exact if_neg (by decide)
  · rfl

theorem State.storeWritten_coll : (s.storeWritten b c 0 a (bs.map some)).coll = s.coll := by
  rw [State.storeWritten, State.storePut_coll _ _ _ _ _ (by decide), State.noteLs_only]
  exact State.clearBad_coll _ _ _ _ _ _ (by decide) _

theorem State.storeWritten_reg (o : Nat) : (s.storeWritten b c 0 a (bs.map some)).reg o = s.reg o := by
  rw [State.storeWritten_only]
  rfl

theorem State.storeWritten_bench (i : Nat) : (s.storeWritten b c 0 a (bs.map some)).bench i = s.bench i := by
  rw [State.storeWritten_only]
  rfl

end

end Sys2Proof.Machine

/-! Bytes of a core's own local store, and an access to it. -/

section
open Sys2Proof Sys2Proof.Machine
variable {s t u : State} {b : Fin 100} {c : Fin 8} {a : Nat} {bs : List Byte}

/-- The bytes written, and no others. -/
theorem LocalBytes.of_ls (h : t.ls = mwriteSome s.ls (coreNo b c * 262144 + a) (bs.map some)) : LocalBytes s t b c a bs := by
  refine ⟨?_, fun j hj => ?_⟩
  · refine List.ext_getElem (State.length_spaceBytes ..) fun i hi hi' => ?_
    have hbyte := getD_mread_mwriteSome s.ls (coreNo b c * 262144 + a) (bs.map some) (i := i) (by simpa using hi')
    rw [List.length_map, ← h] at hbyte
    rw [← List.getD_eq_getElem _ 0 hi]
    refine hbyte.trans ?_
    simp [hi']
  · rw [h]
    exact sget_mwriteSome_out _ _ _ _ (by simpa using hj)

theorem LocalAccess.trans (h : LocalAccess s t b c) (k : LocalAccess t u b c) : LocalAccess s u b c := by
  refine ⟨fun i hi => (k.cores i hi).trans (h.cores i hi), fun i hi => (k.benches i hi).trans (h.benches i hi),
    fun o ho hce => (k.regs o ho hce).trans (h.regs o ho hce), ?_⟩
  have hk := k.rest
  generalize u.cores = x1, u.benches = x2, u.regs = x3, u.badWords = x4, u.ls = x5, u.sw = x6 at hk
  subst hk
  rw [h.rest]

end

namespace Sys2Proof.Machine

/-! A take (R331): bytes to the local store and a value to s[D]. -/

section
variable {s t : State} {b : Fin 100} {c : Fin 8} {w : W64} {a : W64}

theorem Unlogged.congr (h : Unlogged s b) (hctxs : t.ctxs = s.ctxs) (hrpl : t.rpl = s.rpl) : Unlogged t b := by
  have hcoreCtx : t.coreCtx b = s.coreCtx b := by rw [State.coreCtx, State.coreCtx, State.ownerOf, State.ownerOf, hctxs]
  intro x hx
  rw [hcoreCtx] at hx
  rw [State.recording, State.replaying, State.rplOf, hrpl]
  exact h x hx

theorem Quiet.unlogged (hq : Quiet s t) (h : Unlogged s b) : Unlogged t b := h.congr hq.ctxs hq.rpl

/-- A context that is not logged records no take. -/
theorem State.record_unlogged (h : Unlogged s b) (rtype : Nat) (src : RecSrc) (aux : Nat) (body : List Byte) :
    (match s.coreCtx b with | some x => s.record x rtype src aux body | none => s) = s := by
  split
  · next x hx => exact State.record_eq_self (h x hx).1 ..
  · rfl

/-- A take without bytes gives its value. -/
theorem State.takeRetire_value {pre : State → State} (hlog : Unlogged (pre s) b) (kind v : Nat) (a : W64) :
    s.takeRetire b c w kind v a [] pre = (pre s).retireD b c w v := by
  have hwrite : (s.writeStore b c 0 a.toNat ([] : List (Option Byte))).1 = true := by
    unfold State.writeStore
    simp
  unfold State.takeRetire
  rw [List.map_nil]
  split <;> rename_i heq <;> rw [heq] at hwrite
  · cases hwrite
  · exact congrArg (State.retireD · b c w v) (State.record_unlogged hlog ..)

/-- A take with bytes writes them over sound words, and gives its value. -/
theorem State.takeRetire_bytes {pre : State → State} {bs : List Byte} (hne : bs ≠ [])
    (hsound : s.badCount b c 0 a.toNat bs.length false = 0)
    (hlog : Unlogged (pre (s.storeWritten b c 0 a.toNat (bs.map some))) b) (kind v : Nat) :
    s.takeRetire b c w kind v a bs pre = (pre (s.storeWritten b c 0 a.toNat (bs.map some))).retireD b c w v := by
  unfold State.takeRetire
  rw [State.writeStore_sound s b c 0 a.toNat (bs.map some) (by rw [List.length_map]; exact hsound)]
  dsimp only
  rw [List.isEmpty_eq_false_iff.mpr hne, if_neg Bool.false_ne_true]
  exact congrArg (State.retireD · b c w v) (State.record_unlogged hlog ..)

theorem State.storeWritten_unlogged (h : Unlogged s b) (n : Nat) (bs : List Byte) :
    Unlogged (s.storeWritten b c 0 n (bs.map some)) b := by
  refine h.congr ?_ ?_
  all_goals rw [State.storeWritten_only]

theorem State.retireD_only (v : Nat) : OnlyCore s (s.retireD b c w v) b c := State.retire_only ..

theorem State.retireD_ls (v : Nat) : (s.retireD b c w v).ls = s.ls := by
  rw [State.retireD, State.retire_eq]

end

/-! A packet leaves the receive queue (R250). -/

/-- At most bench `b` and the switch differ: packets entered or left that bench's queues, with their credits. -/
structure BenchAndSwitch (b : Nat) (s t : State) : Prop where
  rest : t = { s with benches := t.benches, sw := t.sw }
  benches : ∀ i, i ≠ b → t.bench i = s.bench i

namespace BenchAndSwitch

variable {b : Nat} {s t u : State}

theorem refl (b : Nat) (s : State) : BenchAndSwitch b s s := ⟨rfl, fun _ _ => rfl⟩

theorem trans (h : BenchAndSwitch b s t) (k : BenchAndSwitch b t u) : BenchAndSwitch b s u := by
  refine ⟨?_, fun i hi => (k.benches i hi).trans (h.benches i hi)⟩
  have hk := k.rest
  generalize u.benches = x, u.sw = y at hk
  subst hk
  rw [h.rest]

theorem modBench (b : Nat) (s : State) (f : Bench → Bench) : BenchAndSwitch b s (s.modBench b f) :=
  ⟨rfl, fun _ hi => (State.bench_modBench ..).trans (if_neg hi)⟩

theorem takeCredit (b : Nat) (s : State) (lp : Option Nat) (vc g : Nat) : BenchAndSwitch b s (s.takeCredit lp vc g) := by
  obtain ⟨_, h⟩ := AcctOnly.takeCredit s lp vc g
  rw [h]
  exact ⟨rfl, fun _ _ => rfl⟩

theorem benchCredit (b : Nat) (s : State) (lp : Option Nat) (vc g : Nat) : BenchAndSwitch b s (s.benchCredit b lp vc g) := by
  unfold State.benchCredit
  split
  · split
    · exact modBench ..
    · exact takeCredit ..
  · exact refl b s

theorem releaseOwed (b : Nat) (s : State) : BenchAndSwitch b s (s.releaseOwed b) :=
  List.foldlRecOn (motive := BenchAndSwitch b s) _ _ (refl b s) fun t h e _ => by
    split
    · exact h
    · exact h.trans ((modBench ..).trans (takeCredit ..))

end BenchAndSwitch

/-- The head of bench `b`'s receive queue is gone, and what waits has entered; its credit is not yet returned. -/
def State.popped (s : State) (b : Nat) : State := (s.modBench b (fun x => { x with recvQ := x.recvQ.drop 1 })).feedRecv b

section
variable {s : State} {b : Nat} {p : Inbound} {ps : List Inbound}

theorem State.popped_credits (s : State) (b : Nat) : BenchAndSwitch b s (s.popped b) := (BenchAndSwitch.modBench ..).trans (.modBench ..)

theorem State.popped_bench (hhead : (s.bench b).recvQ = p :: ps) (hwait : (s.bench b).recvWait = []) :
    ((s.popped b).bench b).recvQ = ps ∧ ((s.popped b).bench b).vc5Wait = (s.bench b).vc5Wait := by
  unfold State.popped State.feedRecv
  rw [State.bench_modBench_same, State.bench_modBench_same]
  simp [hhead, hwait, feedGroups]

/-- The head packet leaves a queue for which none waits: its copy is read, and its credit returned (R76, R250). -/
theorem State.recvPop_takes (hhead : (s.bench b).recvQ = p :: ps) (hwait : (s.bench b).recvWait = [])
    (hvc5 : (s.bench b).vc5Wait = []) :
    BenchAndSwitch b ((s.popped b).readCopy p.stored) (s.recvPop b) ∧ ((s.recvPop b).bench b).recvQ = ps := by
  obtain ⟨hqueue, hnone⟩ := State.popped_bench hhead hwait
  have hread := (BufferFrame.readCopy (s.popped b) p.stored).benchFrame b
  have hcredit := BenchFrame.benchCredit ((s.popped b).readCopy p.stored) b p.lp (hVc p.pkt.h) p.units
  have hpop : s.recvPop b = (((s.popped b).readCopy p.stored).benchCredit b p.lp (hVc p.pkt.h) p.units).releaseOwed b := by
    unfold State.recvPop
    rw [hhead]
    dsimp only
    rw [retryVc5All_of_noneWaits]
    · rfl
    · exact hcredit.vc5Wait.trans (hread.vc5Wait.trans (hnone.trans hvc5))
  rw [hpop]
  refine ⟨(BenchAndSwitch.benchCredit ..).trans (.releaseOwed ..), ?_⟩
  exact (BenchFrame.releaseOwed ..).recvQ.trans (hcredit.recvQ.trans (hread.recvQ.trans hqueue))

theorem State.recvPop_program (hhead : (s.bench b).recvQ = p :: ps) (hwait : (s.bench b).recvWait = [])
    (hvc5 : (s.bench b).vc5Wait = []) : (s.recvPop b).program = s.program := by
  have hpop := (State.recvPop_takes hhead hwait hvc5).1.rest
  rw [hpop]
  exact (State.program_readCopy ..).trans rfl

theorem State.recvPop_unlogged {b : Fin 100} (hlog : Unlogged s b) (hhead : (s.bench b).recvQ = p :: ps)
    (hwait : (s.bench b).recvWait = []) (hvc5 : (s.bench b).vc5Wait = []) : Unlogged (s.recvPop b) b := by
  have hread : Unlogged ((s.popped b).readCopy p.stored) b := (Quiet.readCopy _ p.stored).unlogged (t := _) (hlog.congr rfl rfl)
  have hpop := (State.recvPop_takes hhead hwait hvc5).1.rest
  rw [hpop]
  exact hread.congr rfl rfl

/-- A packet that no stored copy stands for leaves the queue with its credit. -/
theorem State.recvPop_credits (hhead : (s.bench b).recvQ = p :: ps) (hwait : (s.bench b).recvWait = [])
    (hvc5 : (s.bench b).vc5Wait = []) (hown : p.stored = none) : BenchAndSwitch b s (s.recvPop b) := by
  have hpop := (State.recvPop_takes hhead hwait hvc5).1
  rw [hown] at hpop
  exact (s.popped_credits b).trans hpop

end

end Sys2Proof.Machine
end

section
namespace Sys2Proof.Machine

/-! What a take leaves. -/

section
variable {s t u : State} {b : Fin 100} {c : Fin 8} {w : W64} {a : Nat} {bs : List Byte}

theorem State.core_of_program (h : t.program = s.program) (k : Nat) : t.core k = s.core k := by
  rw [State.core, State.core, show t.cores = s.cores from congrArg Prod.fst h]

theorem State.ls_of_program (h : t.program = s.program) : t.ls = s.ls := congrArg (fun y => y.2.1) h

theorem State.rpl_of_program (h : t.program = s.program) : t.rpl = s.rpl := congrArg (fun y => y.2.2) h

/-- An instruction that wrote bytes to its core's local store, and did something to a queue, retires with its value. -/
structure TakesBytes (s t : State) (b : Fin 100) (c : Fin 8) (w : W64) (a : Nat) (bs : List Byte) (v : Nat) : Prop where
  bytes : LocalBytes s t b c a bs
  cores : ∀ k, k ≠ coreNo b c → t.core k = s.core k
  core : t.core (coreNo b c) = (s.core (coreNo b c)).after (((s.core (coreNo b c)).near 0 a).setS (iD w) (w64 v))

theorem TakesBytes.of_written (hu : u.program = (s.storeWritten b c 0 a (bs.map some)).program) (v : Nat) :
    TakesBytes s (u.retireD b c w v) b c w a bs v := by
  have hcore (k : Nat) := (State.core_of_program hu k).trans (s.storeWritten_core b c a bs k)
  refine ⟨.of_ls ?_, fun k hk => ?_, ?_⟩
  · rw [State.retireD_ls, State.ls_of_program hu, State.storeWritten_ls]
  · rw [(State.retireD_only v).keeps.others.cores k hk, hcore, if_neg hk]
  · rw [State.retireD_core, hcore, if_pos rfl]
    simp [Core.after]

/-! What a core's instruction did between a local store and a queue, step by step. -/

theorem OnlyCore.localAccess (h : OnlyCore s t b c) : LocalAccess s t b c := by
  refine ⟨h.keeps.others.cores, h.keeps.others.benches, fun o ho _ => h.keeps.others.regs o ho, ?_⟩
  have hrest := h.rest
  generalize t.cores = x1, t.benches = x2, t.regs = x3 at hrest
  subst hrest
  rfl

theorem BenchAndSwitch.localAccess {b : Fin 100} (h : BenchAndSwitch b s t) : LocalAccess s t b c := by
  have hrest := h.rest
  refine ⟨fun _ _ => ?_, h.benches, fun _ _ _ => ?_, ?_⟩
  all_goals
    generalize t.benches = x1, t.sw = x2 at hrest
    subst hrest
    rfl

variable (s b c a bs)

theorem State.storeWritten_localAccess : LocalAccess s (s.storeWritten b c 0 a (bs.map some)) b c := by
  refine ⟨fun k hk => (s.storeWritten_core b c a bs k).trans (if_neg hk), fun i _ => s.storeWritten_bench b c a bs i,
    fun o _ _ => s.storeWritten_reg b c a bs o, ?_⟩
  have hrest := s.storeWritten_only b c 0 a (bs.map some)
  rw [s.storeWritten_coll b c a bs, s.storeWritten_is b c a bs] at hrest
  generalize s.storeWritten b c 0 a (bs.map some) = t at hrest ⊢
  generalize t.cores = x1, t.badWords = x2, t.ls = x3 at hrest
  subst hrest
  rfl

end

/-! RECV and RECVH at a queue that holds a packet. -/

section
variable {s : State} {b : Fin 100} {c : Fin 8} {w : W64} {p : Inbound} {ps : List Inbound}

theorem hdrBytes_ne_nil (h : Hdr) (bs : List Byte) : hdrBytes h ++ bs ≠ [] := by
  simp [hdrBytes, leBytes]

/-- A packet that fits is written and removed (R251). -/
theorem recvNow_takes (hlog : Unlogged s b) (hhead : (s.bench b).recvQ = p :: ps) (hwait : (s.bench b).recvWait = [])
    (hvc5 : (s.bench b).vc5Wait = []) (hsound : hPoison p.pkt.h = false)
    (hfits : recvSize p.pkt ≤ ((s.core (coreNo b c)).s (iB w)).toNat) (hlen : (recvBytes p.pkt).length = recvSize p.pkt)
    (hgood : s.badCount b c 0 ((s.core (coreNo b c)).s (iA w)).toNat (recvSize p.pkt) false = 0) :
    recvNow b c w p s = ((s.storeWritten b c 0 ((s.core (coreNo b c)).s (iA w)).toNat ((recvBytes p.pkt).map some)).recvPop b).retireD
      b c w (256 * (recvBytes p.pkt).length) := by
  simp only [recvNow, hsound, Bool.false_eq_true, if_false, Nat.not_lt.mpr hfits, Code.ok, Nat.zero_add]
  rw [State.takeRetire_bytes, hlen]
  · rw [recvBytes, List.append_assoc]
    exact hdrBytes_ne_nil _ _
  · rwa [hlen]
  · refine State.recvPop_unlogged (State.storeWritten_unlogged hlog _ _) (p := p) (ps := ps) ?_ ?_ ?_
    all_goals rwa [State.storeWritten_bench]

/-- One that does not fit stays, and its size is told. -/
theorem recvNow_tooLong (hlog : Unlogged s b) (hsound : hPoison p.pkt.h = false)
    (hlong : ((s.core (coreNo b c)).s (iB w)).toNat < recvSize p.pkt) :
    recvNow b c w p s = s.retireD b c w (Code.lenErr + 256 * recvSize p.pkt) := by
  simp only [recvNow, hsound, Bool.false_eq_true, if_false, hlong, if_true]
  exact State.takeRetire_value hlog ..

/-- RECVH writes the header and leaves the packet. -/
theorem recvhNow_takes (hlog : Unlogged s b)
    (hgood : s.badCount b c 0 ((s.core (coreNo b c)).s (iA w)).toNat (recvhBytes p.pkt).length false = 0) :
    recvhNow b c w p s = (s.storeWritten b c 0 ((s.core (coreNo b c)).s (iA w)).toNat ((recvhBytes p.pkt).map some)).retireD
      b c w (256 * (recvhBytes p.pkt).length) := by
  have hne : recvhBytes p.pkt ≠ [] := hdrBytes_ne_nil _ _
  have htaken := State.takeRetire_bytes (w := w) (a := (s.core (coreNo b c)).s (iA w)) (pre := id) hne hgood
    (State.storeWritten_unlogged hlog _ _) 2 (Code.ok + 256 * (recvhBytes p.pkt).length)
  refine htaken.trans ?_
  rw [Code.ok, Nat.zero_add]
  rfl

theorem length_recvhBytes_le (q : Packet) : (recvhBytes q).length ≤ 20 := by
  unfold recvhBytes hdrBytes
  split <;> simp

theorem State.recvWaiter_recv {q : Waiting} (h : s.waitsFor b c .recv = some q) : s.recvWaiter b c = some (1, q) := by
  rw [State.recvWaiter, h]

/-- The state of a core that begins to wait, with a timeout in s[C] where that is not 0. -/
theorem State.recvWait_eq (k : WaitKind) (w v : W64) : s.recvWait b c k w v.toNat = s.modCore (coreNo b c) (fun y => { y with
    run := .waiting, wait := some ⟨k, w, if v = 0 then none else some (s.clk.ftime.toNat + v.toNat)⟩ }) := by
  have hzero : (v.toNat = 0) = (v = 0) := propext (BitVec.toNat_eq (y := 0)).symm
  simp only [State.recvWait, hzero]
  rfl

end

/-- Settles O21: a take is its bytes and its value, in a context that is not logged; the head leaves the queue with its credit. -/
theorem receivesTakePackets : Obligations.ReceivesTakePackets := by
  unfold Obligations.ReceivesTakePackets
  intro s b c w p ps hlog x head ok takes
  have hfetched := hlog.fetched (c := c)
  have hcore : (s.fetched b c).core (coreNo b c) = x := State.fetched_core ..
  have hbench : (s.fetched b c).bench b = s.bench b := State.fetched_bench ..
  have htakes {u t : State} {i : Instr} {q : W64} {bs : List Byte} {rest : List Inbound} (hcores : ∀ k, u.core k = s.core k)
      (hls : u.ls = s.ls) (hexec : exec i s = .next t) (htaken : TakesBytes u t b c q (x.s (iA q)).toNat bs (256 * bs.length))
      (hlocal : p.stored = none ∨ rest = p :: ps → LocalAccess u t b c) (hrest : (t.bench b).recvQ = rest) :
      takes u i q bs rest := by
    obtain ⟨hbytes, hothers, hcore⟩ := htaken
    refine ⟨t, hexec, hlocal, ?_, hrest, fun k hk => (hothers k hk).trans (hcores k), ?_⟩
    · exact ⟨hbytes.1, fun j hj => (hbytes.2 j hj).trans (by rw [hls])⟩
    · rw [hcore, hcores]
      rfl
  have hrecv {u : State} {i : Instr} {q : W64} (hcores : ∀ k, u.core k = s.core k) (hls : u.ls = s.ls) (hb : u.bench b = s.bench b)
      (hulog : Unlogged u b) (hhead : head) (hsound : hPoison p.pkt.h = false) (hfits : recvSize p.pkt ≤ (x.s (iB q)).toNat)
      (hlen : (recvBytes p.pkt).length = recvSize p.pkt) (hgood : u.badCount b c 0 (x.s (iA q)).toNat (recvSize p.pkt) false = 0)
      (hexec : exec i s = .next (recvNow b c q p u)) : takes u i q (recvBytes p.pkt) ps := by
    obtain ⟨hqueue, hwait, hvc5⟩ := hhead
    rw [← hb] at hqueue hwait hvc5
    have hux : u.core (coreNo b c) = x := hcores _
    rw [recvNow_takes hulog hqueue hwait hvc5 hsound (by rwa [hux]) hlen (by rwa [hux]), hux] at hexec
    rw [← State.storeWritten_bench u b c (x.s (iA q)).toNat (recvBytes p.pkt)] at hqueue hwait hvc5
    refine htakes hcores hls hexec (.of_written (State.recvPop_program hqueue hwait hvc5) _) (fun hown => ?_) ?_
    · have hnone : p.stored = none := hown.resolve_right fun h => absurd (congrArg List.length h) (by simp)
      exact (u.storeWritten_localAccess b c _ _).trans <|
        (State.recvPop_credits hqueue hwait hvc5 hnone).localAccess.trans (State.retireD_only _).localAccess
    · exact (congrArg Bench.recvQ (State.retireD_only _).keeps.bench).trans (State.recvPop_takes hqueue hwait hvc5).2
  have hroom (u : State) (hu : Unlogged u b) (n : Nat) : u.waitRoom b n = true := State.waitRoom_unlogged hu n
  refine ⟨fun hfires hhead hsound hcheck hfits hlen hok => ?_, fun hfires hhead hsound hcheck hlong => ?_, fun hfires hnone hcheck => ?_,
    fun hfires hhead hok => ?_, fun q hq hhead hsound hfits hlen hok => ?_, fun q d hq hd hlate hnone => ?_, fun hfires hhead => ?_,
    fun hfires hnone => ?_⟩
  · refine hrecv (s.fetched_core b c) (s.fetched_ls b c) hbench hfetched hhead hsound hfits hlen (s.fetched_badCount b c hok.2) ?_
    refine (exec_recv b c s).trans ((coreExec_fires hfires _).trans ?_)
    simp [hcore, hcheck, State.logCtx_unlogged hfetched, hroom _ hfetched, hbench, hhead.1]
  · refine ⟨(s.fetched b c).retireD b c w (Code.lenErr + 256 * recvSize p.pkt), ?_, State.retireD_only _, ?_⟩
    · refine (exec_recv b c s).trans ((coreExec_fires hfires _).trans ?_)
      rw [← recvNow_tooLong (p := p) hfetched hsound (by rwa [hcore])]
      simp [hcore, hcheck, State.logCtx_unlogged hfetched, hroom _ hfetched, hbench, hhead.1]
    · rw [State.retireD_core, hcore]
      rfl
  · refine (exec_recv b c s).trans ((coreExec_fires hfires _).trans ?_)
    simp [hcore, hcheck, State.logCtx_unlogged hfetched, hbench, hnone, State.recvWait_eq]
  · have hgood := State.badCount_of_le (s.fetched b c) b c (length_recvhBytes_le p.pkt) false (s.fetched_badCount b c hok.2)
    refine htakes (s.fetched_core b c) (s.fetched_ls b c)
      (t := ((s.fetched b c).storeWritten b c 0 (x.s (iA w)).toNat ((recvhBytes p.pkt).map some)).retireD b c w
        (256 * (recvhBytes p.pkt).length)) ?_ (.of_written rfl _)
      (fun _ => (State.storeWritten_localAccess ..).trans (State.retireD_only _).localAccess) ?_
    · refine (exec_recvh b c s).trans ((coreExec_fires hfires _).trans ?_)
      have hnow := recvhNow_takes (w := w) (p := p) hfetched (by rw [hcore]; exact hgood)
      rw [hcore] at hnow
      rw [← hnow]
      simp [hcore, hok.1, State.logCtx_unlogged hfetched, hroom _ hfetched, hbench, hhead.1]
    · refine (congrArg Bench.recvQ (State.retireD_only _).keeps.bench).trans ?_
      rw [State.storeWritten_bench]
      exact (congrArg Bench.recvQ hbench).trans hhead.1
  · refine hrecv (fun _ => rfl) rfl rfl hlog hhead hsound hfits hlen hok.2 ?_
    simp [execRecvDeliver, State.recvWaiter_recv hq, State.logCtx_unlogged hlog, hroom _ hlog, hhead.1]
  · refine ⟨s.retireD b c q.word 0, ?_, State.retireD_only _, State.retireD_core ..⟩
    have hpast : s.late q = true := by simp [State.late, hd, hlate]
    simp [execRecvTimeout, hq, hpast, State.logCtx_unlogged hlog, hnone, hroom _ hlog,
      State.takeRetire_value (pre := id) (s := s) hlog]
  · obtain ⟨hqueue, hwait, hvc5⟩ : ((s.fetched b c).bench b).recvQ = p :: ps ∧ ((s.fetched b c).bench b).recvWait = [] ∧
        ((s.fetched b c).bench b).vc5Wait = [] := by
      rw [hbench]
      exact hhead
    have hprogram := State.recvPop_program hqueue hwait hvc5
    refine ⟨((s.fetched b c).recvPop b).retireD b c w (256 * recvSize p.pkt), ?_, fun hown => ?_, ?_, ?_, fun k hk => ?_, ?_⟩
    · refine (exec_drop b c s).trans ((coreExec_fires hfires _).trans ?_)
      simp [State.logCtx_unlogged hfetched, hroom _ hfetched, hbench, hhead.1,
        State.takeRetire_value (pre := fun s => s.recvPop b) (s := s.fetched b c) (State.recvPop_unlogged hfetched hqueue hwait hvc5)]
    · exact (State.recvPop_credits hqueue hwait hvc5 hown).localAccess.trans (State.retireD_only _).localAccess
    · rw [State.retireD_ls, State.ls_of_program hprogram, State.fetched_ls]
    · exact (congrArg Bench.recvQ (State.retireD_only _).keeps.bench).trans (State.recvPop_takes hqueue hwait hvc5).2
    · rw [(State.retireD_only _).keeps.others.cores k hk, State.core_of_program hprogram, State.fetched_core]
    · rw [State.retireD_core, State.core_of_program hprogram, hcore]
      rfl
  · refine ⟨(s.fetched b c).retireD b c w 0, ?_, State.retireD_only _, ?_⟩
    · refine (exec_drop b c s).trans ((coreExec_fires hfires _).trans ?_)
      simp [State.logCtx_unlogged hfetched, hroom _ hfetched, hbench, hnone,
        State.takeRetire_value (pre := id) (s := s.fetched b c) hfetched]
    · rw [State.retireD_core, hcore]
      rfl

end Sys2Proof.Machine
end

/-! ### What a context's log and the collective unit's results leave to the cores (R135, R152, R331) -/

section
namespace Sys2Proof.Machine

section
variable (s : State)

theorem State.cores_foldl {α : Type} {f : State → α → State} (hf : ∀ t a, (f t a).cores = t.cores) (l : List α) :
    (l.foldl f s).cores = s.cores :=
  List.foldlRecOn (motive := fun t : State => t.cores = s.cores) _ _ rfl fun _ h a _ => (hf _ a).trans h

/-! Records are written to the pool. -/

@[simp] theorem State.cores_memServe (a n : Nat) : (s.memServe a n).cores = s.cores := (Spares.memServe ..).cores

@[simp] theorem State.cores_meet (a n : Nat) (rd : Bool) (cls : Nat) (ctx : Option Nat) : (s.meet a n rd cls ctx).cores = s.cores :=
  (Spares.meet ..).cores

@[simp] theorem State.cores_memBytes (a n : Nat) (wr : Bool) : (s.memBytes a n wr).cores = s.cores := (Spares.memBytes ..).cores

@[simp] theorem State.cores_demandMems (ms : List Nat) : (s.demandMems ms).cores = s.cores := by
  refine State.cores_foldl (f := fun t m => t.modMem m _) s (fun t m => ?_) ms
  rfl

@[simp] theorem State.cores_doneMems (ms : List Nat) : (s.doneMems ms).cores = s.cores := by
  refine State.cores_foldl (f := fun t m => t.modMem m _) s (fun t m => ?_) ms
  rfl

@[simp] theorem State.cores_setCache (x : CacheWin) : (s.setCache x).cores = s.cores := rfl

theorem State.cores_cacheDemand (blk : Nat) : (s.cacheDemand blk).2.cores = s.cores := by
  unfold State.cacheDemand
  split
  · rfl
  · dsimp only
    split
    · simp [apply_ite State.cores]
    · split <;> simp [apply_ite State.cores]

theorem State.cores_cacheAccess (a n : Nat) : (s.cacheAccess a n).2.cores = s.cores := by
  unfold State.cacheAccess
  split
  · exact s.cores_foldl (fun t blk => t.cores_cacheDemand blk) _
  · refine s.cores_foldl (fun t blk => ?_) _
    split
    · rfl
    · exact t.cores_cacheDemand blk

theorem State.cores_fillBlock (c wn blk : Nat) (prefetch : Bool) : (s.fillBlock c wn blk prefetch).cores = s.cores := by
  unfold State.fillBlock
  extract_lets w out evicted filled x b
  clear_value out
  have hfilled : filled.cores = s.cores := by
    cases out <;> simp [filled, evicted]
  obtain ⟨blocks, dirty⟩ := cacheInsert w x.blocks b
  cases out <;> simp [State.unhide, State.freshLines, hfilled]

@[simp] theorem State.cores_cacheNow (a n : Nat) : (s.cacheNow a n).cores = s.cores := by
  have haccess := s.cores_cacheAccess a n
  unfold State.cacheNow
  generalize s.cacheAccess a n = x at haccess ⊢
  obtain ⟨ok, u⟩ := x
  dsimp only at haccess ⊢
  split
  · exact haccess
  · refine (State.cores_cacheAccess ..).trans ((u.cores_foldl (fun t blk => ?_) _).trans haccess)
    split
    · split
      · exact State.cores_fillBlock ..
      · rfl
    · rfl

@[simp] theorem State.cores_memWrite (a : Nat) (bs : List Byte) : (s.memWrite a bs).cores = s.cores := by
  unfold State.memWrite State.dirtied
  split
  · rfl
  · refine (State.cores_foldl _ (fun t blk => ?_) _).trans rfl
    split <;> rfl

@[simp] theorem State.cores_memPut (a : Nat) (bs : List Byte) : (s.memPut a bs).cores = s.cores := by
  unfold State.memPut
  dsimp only
  split <;> simp

@[simp] theorem State.cores_memStore (a : Nat) (bs : List Byte) : (s.memStore a bs).cores = s.cores := by
  unfold State.memStore
  simp

@[simp] theorem State.cores_pushRec (c rtype : Nat) (src : RecSrc) (aux : Nat) (body : List Byte) :
    (s.pushRec c rtype src aux body).cores = s.cores := by
  have hflush : s.flushRecq.cores = s.cores := s.cores_foldl (fun t r => by simp) _
  unfold State.pushRec
  dsimp only
  split
  · exact hflush
  · rfl

theorem State.cores_record (c rtype : Nat) (src : RecSrc) (aux : Nat) (body : List Byte) :
    (s.record c rtype src aux body).cores = s.cores := by
  unfold State.record
  split
  · split
    · rw [State.recStop, if_pos ‹_›]
      exact State.cores_pushRec s c 8 recColl 1 []
    · exact State.cores_pushRec ..
  · rfl

theorem State.cores_ctxOut (c : Nat) (src : RecSrc) (p : Packet) (out : Bool) : (s.ctxOut c src p out).2.cores = s.cores := by
  unfold State.ctxOut
  extract_lets r n bs
  split
  · dsimp only
    split
    · exact State.cores_record ..
    · rfl
  · split
    · exact (State.cores_memStore ..).trans (State.cores_memServe ..)
    · rfl
  · rfl

/-! Packets of the unit leave. -/

theorem State.cores_of_program {t : State} (h : t.program = s.program) : t.cores = s.cores := congrArg Prod.fst h

theorem State.cores_collSendAll (k : InstKey) (w : Writer) (src : RecSrc) (ps : List Packet) (out : Bool) :
    (s.collSendAll k w src ps out).cores = s.cores := by
  have hrecorded : (ps.foldl (fun (a : Bool × State) p => a.2.ctxOut (handleCtx k.handle) src p out) (true, s)).2.cores = s.cores :=
    List.foldlRecOn (motive := fun a : Bool × State => a.2.cores = s.cores) _ _ rfl fun a ha p _ => (a.2.cores_ctxOut ..).trans ha
  unfold State.collSendAll
  dsimp only
  split
  · exact (State.cores_of_program _ (State.program_sendCopies ..)).trans hrecorded
  · exact hrecorded

theorem State.cores_poison (k : InstKey) (code : Nat) (blame : Option Nat) (ef : Bool) : (s.poison k code blame ef).cores = s.cores := by
  have hcounted : (s.countPoison code ef).cores = s.cores := by
    unfold State.countPoison
    split <;> rfl
  have hpurged (i : Inst) (t : State) : (t.freeHeld i).cores = t.cores :=
    t.cores_foldl (fun u b => by rw [State.purgeQueue_eq]) i.owners
  unfold State.poison
  split
  · rfl
  · dsimp only
    split
    · rfl
    · exact (State.cores_collSendAll ..).trans ((hpurged _ _).trans hcounted)

theorem State.cores_emitResult (i : Inst) (c : Nat) (twin : Bool) (elems : List Byte) : (s.emitResult i c twin elems).cores = s.cores :=
  State.cores_collSendAll ..

theorem State.cores_progress (k : InstKey) : (s.progress k).cores = s.cores := by
  unfold State.progress
  split
  · rfl
  · dsimp only
    split
    · rfl
    · split
      · exact State.cores_collSendAll ..
      · rfl

theorem State.cores_sideDone (k : InstKey) (c : Nat) (twin : Bool) (elems : List Byte) : (s.sideDone k c twin elems).cores = s.cores := by
  unfold State.sideDone
  split
  · rfl
  · split
    · exact State.cores_poison ..
    · extract_lets ch mine other y ch' s'
      have hheld : s'.cores = s.cores := State.countEv_cores ..
      split
      · exact hheld
      · split
        · exact hheld
        · exact (State.cores_emitResult ..).trans hheld

end

end Sys2Proof.Machine
end

/-! ### CTAKE, FINAL and CINFO (R259-R261, R263) -/

section
namespace Sys2Proof.Machine

section
variable {s : State} {b : Fin 100} {c : Fin 8} {w : W64} {i : Inst} {ch : Nat} {q : Contribution}

/-! The chunk bound to a core. -/

theorem State.boundRec_eq_some (h : s.boundRec b c = some (i, ch)) :
    (s.core (coreNo b c)).bound = some (i.key, ch) ∧ s.inst? i.key = some i := by
  unfold State.boundRec at h
  split at h
  · cases h
  · rename_i key ch' hbound
    obtain ⟨j, hj, heq⟩ := Option.map_eq_some_iff.mp h
    cases heq
    have hkey := State.inst?_key hj
    exact ⟨by rw [hbound, hkey], hkey.symm ▸ hj⟩

theorem State.boundRec_congr {t : State} (hbound : (t.core (coreNo b c)).bound = (s.core (coreNo b c)).bound)
    (hcoll : t.coll = s.coll) : t.boundRec b c = s.boundRec b c := by
  simp only [State.boundRec, hbound, State.inst?, hcoll]

@[simp] theorem State.fetched_boundRec : (s.fetched b c).boundRec b c = s.boundRec b c := by
  rw [State.fetched_eq]
  rfl

@[simp] theorem State.fetched_ctakeHead : (s.fetched b c).ctakeHead b i ch = s.ctakeHead b i ch := by
  rw [State.fetched_eq]
  rfl

@[simp] theorem State.fetched_ctakeBytes : (s.fetched b c).ctakeBytes b c = s.ctakeBytes b c := by
  rw [State.fetched_eq]
  rfl

@[simp] theorem State.fetched_finalCode (w co ch : W64) : (s.fetched b c).finalCode b c w co ch = s.finalCode b c w co ch := by
  rw [State.fetched_eq]
  rfl

/-! CTAKE applies a contribution (R260). -/

@[simp] theorem State.program_modInst (k : InstKey) (f : Inst → Inst) : (s.modInst k f).program = s.program := rfl

@[simp] theorem State.program_markApplied (k : InstKey) (twin : Bool) (m : Nat) (src : W32) (core : Option (Nat × Nat)) :
    (s.markApplied k twin m src core).program = s.program := by
  unfold State.markApplied
  exact State.program_modInst ..

@[simp] theorem State.program_noteTaken (k : InstKey) (n : Nat) (twin : Bool) : (s.noteTaken k n twin).program = s.program := by
  unfold State.noteTaken
  exact State.program_modInst ..

@[simp] theorem State.program_ctakeApply : (s.ctakeApply b i q).program = s.program := by
  unfold State.ctakeApply
  dsimp only
  rw [State.program_countEv, State.program_noteTaken, State.program_markApplied, State.program_modInst, State.program_modBench]

theorem State.ctakeApply_unlogged (h : Unlogged s b) : Unlogged (s.ctakeApply b i q) b := by
  refine h.congr ?_ (State.rpl_of_program State.program_ctakeApply)
  unfold State.ctakeApply
  rw [State.countEv_ctxs]
  rfl

theorem State.ctakeApply_adderQ :
    ((s.ctakeApply b i q).bench b).adderQ = dropFirst (fun y => decide (y = q)) (s.bench b).adderQ := by
  unfold State.ctakeApply
  rw [State.countEv_bench]
  exact congrArg Bench.adderQ (s.bench_modBench_same b fun x => { x with adderQ := dropFirst (fun y => decide (y = q)) x.adderQ })

theorem State.noteTaken_inst? {k : InstKey} {j : Inst} (h : s.inst? k = some j) (n : Nat) (twin : Bool) :
    ∃ l, (s.noteTaken k n twin).inst? k = some l ∧ l.chunks = j.chunks := by
  refine ⟨_, State.inst?_modInst h ?_, ?_⟩
  all_goals split <;> rfl

/-- The contribution's member is the last applied to its side. -/
theorem State.ctakeApply_applied (hrec : s.inst? i.key = some i) :
    ((s.ctakeApply b i q).inst? i.key).map (fun j => ((j.chunk q.chunk).side q.twin).applied) =
      some (((i.chunk q.chunk).side q.twin).applied ++ [q.member]) := by
  unfold State.ctakeApply
  extract_lets dropped applied
  obtain ⟨y, happlied, hy⟩ : ∃ y, applied.inst? i.key = some (i.setChunk ((i.chunk q.chunk).setSide q.twin y)) ∧
      y.applied = ((i.chunk q.chunk).side q.twin).applied ++ [q.member] := ⟨_, State.inst?_modInst (s := dropped) hrec rfl, rfl⟩
  obtain ⟨j, hj, hchunks, -, -⟩ := State.markApplied_inst? happlied q.twin q.member q.src q.core
  obtain ⟨l, hl, hlast⟩ := State.noteTaken_inst? hj q.chunk q.twin
  rw [(Quiet.countEv ..).inst?, hl, Option.map_some]
  have hset := i.chunk_setChunk_same ((i.chunk q.chunk).setSide q.twin y)
  rw [Chunk.setSide_idx, Inst.chunk_idx] at hset
  have hchunk : l.chunk q.chunk = (i.chunk q.chunk).setSide q.twin y := by
    rw [← hset, Inst.chunk, Inst.chunk, hlast, hchunks]
  rw [hchunk, Chunk.side_setSide, hy]

/-- CTAKE takes the oldest contribution. -/
theorem ctakeNow_takes (hlog : Unlogged s b) (hbound : s.boundRec b c = some (i, ch)) (hlive : i.live = true)
    (hhead : s.ctakeHead b i ch = some q) (hne : q.elems ≠ []) (hcheck : lsCheck ((s.core (coreNo b c)).s (iC w)) q.elems.length = 0)
    (hsound : s.badCount b c 0 ((s.core (coreNo b c)).s (iC w)).toNat q.elems.length false = 0) :
    s.ctakeNow b c w = some (((s.storeWritten b c 0 ((s.core (coreNo b c)).s (iC w)).toNat (q.elems.map some)).ctakeApply b i q).retireD
      b c w (ctakeWord q.member)) := by
  unfold State.ctakeNow
  simp only [hbound, hlive, hhead, hcheck, Bool.not_true, Bool.false_eq_true, if_false, ne_eq, not_true_eq_false]
  rw [State.takeRetire_bytes hne hsound (State.ctakeApply_unlogged (State.storeWritten_unlogged hlog _ _))]

/-- With no contribution and its side not complete, CTAKE waits. -/
theorem ctakeNow_waits (hbound : s.boundRec b c = some (i, ch)) (hlive : i.live = true) (hhead : s.ctakeHead b i ch = none)
    (hcomplete : i.sideComplete ch (sideOf i ch b) = false) : s.ctakeNow b c w = none := by
  have hside : i.sideComplete ch ((i.chunk ch).side (onTwin b i ch)) = false := hcomplete
  simp only [State.ctakeNow, hbound, hlive, hhead, hside, Bool.not_true, Bool.false_eq_true, if_false]

theorem State.ctakeRoom_unlogged (h : Unlogged s b) : s.ctakeRoom b c = true := State.waitRoom_unlogged h _

/-! FINAL finalises the chunk (R261). -/

/-- A chunk program's chunk is finalised with its encoded elements: they leave, or are held (R135, R146). -/
def State.programDone (s : State) (b : Fin 100) (i : Inst) (ch : Nat) (e : Encoded) : State :=
  (((s.countConv e).modInst i.key (fun i => { i with finalised := insertNat ch i.finalised })).sideDone i.key ch (onTwin b i ch)
    e.bytes).progress i.key

theorem State.cores_programDone (e : Encoded) : (s.programDone b i ch e).cores = s.cores :=
  (State.cores_progress ..).trans ((State.cores_sideDone ..).trans rfl)

theorem State.programDone_finalised (hrec : s.inst? i.key = some i) (e : Encoded) :
    ∃ j, (s.programDone b i ch e).inst? i.key = some j ∧ ch ∈ j.finalised := by
  have hmarked : ((s.countConv e).modInst i.key (fun i => { i with finalised := insertNat ch i.finalised })).inst? i.key =
      some { i with finalised := insertNat ch i.finalised } :=
    State.inst?_modInst (((countConv_quiet s e).inst? _).trans hrec) rfl
  obtain ⟨j, hj, hsub⟩ := ((WorksOn.sideDone (k := i.key) _ ch (onTwin b i ch) e.bytes).trans (WorksOn.progress _)).mine _ hmarked
  exact ⟨j, hj, hsub (mem_insertNat ch _)⟩

/-- The core unbinds its parison and retires with 0. -/
theorem State.unbound_retires (w : W64) (u : State) :
    let t := (u.modCore (coreNo b c) (fun x => { x with bound := none })).retireD b c w 0
    (t.core (coreNo b c)).bound = none ∧ (t.core (coreNo b c)).s (iD w) = 0 ∧
      (t.core (coreNo b c)).pc = (u.core (coreNo b c)).pc + 1 ∧ t.inst? i.key = u.inst? i.key := by
  intro t
  have hcore : t.core (coreNo b c) = Core.after { u.core (coreNo b c) with bound := none }
      (Core.setS { u.core (coreNo b c) with bound := none } (iD w) 0) := by
    unfold t
    rw [State.retireD_core, State.core_modCore_same]
    rfl
  refine ⟨?_, ?_, ?_, ?_⟩
  · rw [hcore]
    exact Core.setS_bound ..
  · rw [hcore]
    exact (Core.after_setS_zero ..).1
  · rw [hcore]
    exact (Core.after_setS_zero ..).2
  · unfold t
    rw [State.retireD, State.retire_eq]
    rfl

theorem fusedFinal_finalises {n : Nat} (hbound : s.boundRec b c = some (i, ch)) (hlive : i.live = true)
    (hcode : s.finalCode b c w ((s.core (coreNo b c)).s (iA w)) ((s.core (coreNo b c)).s (iB w)) = 0)
    (hn : elemBytes (iType w) (chCount ((s.core (coreNo b c)).s (iB w))) = n) (hcheck : lsCheck ((s.core (coreNo b c)).s (iC w)) n = 0)
    (hsound : s.badCount b c 0 ((s.core (coreNo b c)).s (iC w)).toNat n false = 0) :
    ∃ e, fusedFinal b c w s = (((s.storeRead b c 0 ((s.core (coreNo b c)).s (iC w)).toNat n).programDone b i ch e).modCore (coreNo b c)
      (fun x => { x with bound := none })).retireD b c w 0 := by
  have hread : (s.storeRead b c 0 ((s.core (coreNo b c)).s (iC w)).toNat n).boundRec b c = some (i, ch) := by
    rw [State.boundRec_congr _ (s.storeRead_coll b c 0 _ n (by decide)), hbound]
    rw [State.storeRead_core, if_pos rfl, Core.near_bound]
  simp only [fusedFinal, hn, hcheck, hcode, State.readStore_sound s b c 0 _ _ hsound, hread, hlive, ne_eq, not_true_eq_false, if_false,
    Bool.not_true, Bool.false_eq_true]
  exact ⟨_, rfl⟩

/-! CINFO (R263). -/

/-- An instruction of a context that is not logged retires with its live value, and what that changed of no log. -/
theorem State.retireValue_changes {t : State} (h : Unlogged s b) {d : Nat} {live : State → W64 × State} {v : W64}
    (hlive : live s = (v, t)) (hrpl : t.rpl = s.rpl) : s.retireValue b c d live = t.retire b c (fun y => y.setS d v) := by
  unfold State.retireValue
  dsimp only
  split
  · rw [hlive]
  · next x hx =>
    obtain ⟨hrec, hrep⟩ := h x hx
    have htrec : t.recording x = false := by rw [← hrec, State.recording, State.recording, State.rplOf, State.rplOf, hrpl]
    simp [hrep, State.recRoom, hrec, hlive, State.record, htrec]

/-- What an instruction does to its own core is its own. -/
theorem OnlyCore.of_modCore {t : State} {f : Core → Core} (h : OnlyCore (s.modCore (coreNo b c) f) t b c) : OnlyCore s t b c := by
  obtain ⟨⟨⟨hcores, hbenches, hregs⟩, hbench⟩, hrest⟩ := h
  refine ⟨⟨⟨fun k hk => (hcores k hk).trans ?_, hbenches, hregs⟩, hbench⟩, hrest⟩
  rw [State.core_modCore, if_neg hk]

theorem cinfo_key (a d : Nat) : w64 (pack [(0, a), (32, d)]) = BitVec.ofNat 64 (a + 2 ^ 32 * d) := by
  have hnil : pack [] = 0 := rfl
  rw [w64, pack_cons, pack_cons, hnil, Nat.pow_zero, Nat.mul_one, Nat.add_zero, Nat.mul_comm]

theorem chunkOperand_eq (k n : Nat) : chunkOperand k n = BitVec.ofNat 64 (k % 2 ^ 24 + 2 ^ 24 * (n % 65536)) := by
  rw [chunkOperand, Nat.mul_comm (n % 65536)]
  rfl

theorem iImm_mod (w : W64) : iImm w % 256 = w.toNat % 256 := by
  rw [iImm_eq]
  omega

end

/-- Settles O23: CTAKE by its outcome in a context that is not logged, FINAL by the record that lists its finalised chunks. -/
theorem chunkProgramsReduce : Obligations.ChunkProgramsReduce := by
  unfold Obligations.ChunkProgramsReduce
  intro s b c w i ch hlog hbound hlive x takes ok
  have hfetched := hlog.fetched (c := c)
  have hcore : (s.fetched b c).core (coreNo b c) = x := State.fetched_core ..
  have hfbound : (s.fetched b c).boundRec b c = some (i, ch) := State.fetched_boundRec.trans hbound
  have hroom (u : State) (hu : Unlogged u b) : u.ctakeRoom b c = true := State.ctakeRoom_unlogged hu
  have htakes {u : State} {cmd : Instr} {v : W64} {q : Contribution} (hux : u.core (coreNo b c) = x) (hls : u.ls = s.ls)
      (hbench : (u.bench b).adderQ = (s.bench b).adderQ) (hrec : u.boundRec b c = some (i, ch))
      (hexec : exec cmd s = .next (((u.storeWritten b c 0 (x.s (iC v)).toNat (q.elems.map some)).ctakeApply b i q).retireD b c v
        (ctakeWord q.member))) : takes cmd v q := by
    obtain ⟨hbytes, -, htaken⟩ := TakesBytes.of_written (w := v) (u.storeWritten b c 0 (x.s (iC v)).toNat
      (q.elems.map some)).program_ctakeApply (ctakeWord q.member)
    refine ⟨_, hexec, ⟨hbytes.1, fun j hj => (hbytes.2 j hj).trans (by rw [hls])⟩, ?_, ?_, ?_⟩
    · rw [htaken, hux, ctakeWord, Code.ok, Nat.zero_add]
      rfl
    · refine (congrArg Bench.adderQ (State.retireD_only _).keeps.bench).trans (State.ctakeApply_adderQ.trans ?_)
      rw [State.storeWritten_bench, hbench]
    · have hinst : (u.storeWritten b c 0 (x.s (iC v)).toNat (q.elems.map some)).inst? i.key = some i :=
        (State.inst?_congr (congrArg Coll.insts (u.storeWritten_coll b c _ q.elems)) _).trans (State.boundRec_eq_some hrec).2
      rw [← State.ctakeApply_applied (b := b) hinst, State.retireD, State.retire_eq]
      rfl
  refine ⟨fun q hfires hhead hcheck hne hok => ?_, fun hfires hnone hcheck hopen => ?_, fun q v hv hhead hne hok => ?_,
    fun v d hv hd hlate hnone hopen => ?_, fun hfires hcode hok => ?_, fun hfires => ?_⟩
  · have hnow := ctakeNow_takes (w := w) hfetched hfbound hlive (State.fetched_ctakeHead.trans hhead) hne
      (by rw [hcore]; exact hok.1) (by rw [hcore]; exact s.fetched_badCount b c hok.2)
    rw [hcore] at hnow
    refine htakes hcore (s.fetched_ls b c) (congrArg Bench.adderQ (s.fetched_bench b c b)) hfbound ?_
    refine (exec_ctake b c s).trans ((coreExec_fires hfires _).trans ?_)
    simp [hcore, hcheck, State.logCtx_unlogged hfetched, hroom _ hfetched, hnow]
  · have hnow := ctakeNow_waits (w := w) hfbound hlive (State.fetched_ctakeHead.trans hnone) hopen
    refine (exec_ctake b c s).trans ((coreExec_fires hfires _).trans ?_)
    simp [hcore, hcheck, State.logCtx_unlogged hfetched, hroom _ hfetched, hnow, State.recvWait_eq]
  · have hnow := ctakeNow_takes (w := v.word) hlog hbound hlive hhead hne hok.1 hok.2
    refine htakes rfl rfl rfl hbound ?_
    simp only [execCtakeDeliver, exec_ctakeDeliver, hv, State.logCtx_unlogged hlog, hroom _ hlog, hnow, Bool.not_true,
      Bool.false_eq_true, if_false, x]
  · have hnow := ctakeNow_waits (w := v.word) hbound hlive hnone hopen
    have hpast : s.late v = true := by simp [State.late, hd, hlate]
    refine ⟨s.retireD b c v.word 0, ?_, State.retireD_only _, State.retireD_core ..⟩
    simp [execCtakeTimeout, hv, hpast, State.logCtx_unlogged hlog, hnow, State.waitRoom_unlogged hlog,
      State.takeRetire_value (pre := id) (s := s) hlog]
  · obtain ⟨e, hfinal⟩ := fusedFinal_finalises (s := s.fetched b c) (w := w) hfbound hlive
      (by rw [hcore, State.fetched_finalCode]; exact hcode) rfl (by rw [hcore]; exact hok.1)
      (by rw [hcore]; exact s.fetched_badCount b c hok.2)
    generalize elemBytes (iType w) (chCount (((s.fetched b c).core (coreNo b c)).s (iB w))) = n at hfinal
    have hrec : ((s.fetched b c).storeRead b c 0 (((s.fetched b c).core (coreNo b c)).s (iC w)).toNat n).inst? i.key = some i :=
      (State.inst?_congr (congrArg Coll.insts (State.storeRead_coll _ b c 0 _ n (by decide))) _).trans
        (State.boundRec_eq_some hfbound).2
    obtain ⟨j, hj, hmem⟩ := State.programDone_finalised (b := b) (ch := ch) hrec e
    have hexec := (exec_finalChunk b c s).trans ((coreExec_fires hfires _).trans (congrArg _ hfinal))
    obtain ⟨hunbound, hzero, hpc, hinsts⟩ := State.unbound_retires (b := b) (c := c) w
      (((s.fetched b c).storeRead b c 0 (((s.fetched b c).core (coreNo b c)).s (iC w)).toNat n).programDone b i ch e)
    refine ⟨_, hexec, hunbound, hzero, hpc.trans ?_, ?_⟩
    · rw [State.core, State.cores_programDone]
      change ((State.storeRead _ b c 0 _ n).core (coreNo b c)).pc + 1 = _
      rw [State.storeRead_core, if_pos rfl, Core.near_pc, hcore]
    · rw [hinsts, hj, Option.map_some, List.contains_iff_mem.mpr hmem]
  · have hn := iImm_mod w
    have hexec := (exec_cinfo b c s).trans (coreExec_fires hfires _)
    simp only [hn, State.logCtx_unlogged hfetched, Option.isSome_none, Bool.false_eq_true, if_false, hfbound] at hexec
    split
    · rw [if_pos ‹_›, State.retireValue_changes hfetched (t := (s.fetched b c).modCore (coreNo b c) _) rfl rfl, hcore] at hexec
      refine ⟨_, hexec, ((State.retire_setS _ _).1).of_modCore, ?_⟩
      rw [(State.retire_setS _ _).2, State.core_modCore_same, hcore]
      rfl
    · rw [if_neg ‹_›] at hexec
      refine ⟨_, hexec, (State.retire_setS _ _).1, ?_⟩
      rw [(State.retire_setS _ _).2, hcore, cinfo_key, chunkOperand_eq]
      rfl

end Sys2Proof.Machine
end

/-! ### SEND, DISPATCH and the send queue (R247-R249, R262) -/

section
namespace Sys2Proof.Machine

/-! What a packet of a bench is made from. -/

/-- Two states of one device with the same contexts: a bench's packets and its codes for them are the same in both. -/
structure SameSender (s t : State) : Prop where
  ctxs : t.ctxs = s.ctxs
  coord : t.ownCoord = s.ownCoord

namespace SameSender

variable {s t u : State}

theorem trans (h : SameSender s t) (k : SameSender t u) : SameSender s u := ⟨k.ctxs.trans h.ctxs, k.coord.trans h.coord⟩

theorem of_reg (hctxs : t.ctxs = s.ctxs) (hreg : t.reg Reg.ownCoord = s.reg Reg.ownCoord) : SameSender s t :=
  ⟨hctxs, by rw [State.ownCoord, State.ownCoord, State.regN, State.regN, hreg]⟩

theorem coreCtx (h : SameSender s t) (b : Nat) : t.coreCtx b = s.coreCtx b := by
  rw [State.coreCtx, State.coreCtx, State.ownerOf, State.ownerOf, h.ctxs]

theorem ctx (h : SameSender s t) (x : Nat) : t.ctx x = s.ctx x := by rw [State.ctx, State.ctx, h.ctxs]

theorem sendPacket (h : SameSender s t) (b : Nat) : t.sendPacket b = s.sendPacket b := by
  funext dest w2 w3 count payload
  unfold State.sendPacket State.ownUnit State.ctx
  rw [h.coreCtx, h.coord, h.ctxs]

theorem sendCode (h : SameSender s t) (b : Fin 100) (a v : W64) : t.sendCode b a v = s.sendCode b a v := by
  simp only [State.sendCode, State.ctxFenced, State.ctxClosing, h.coreCtx, h.ctx]

theorem dispatchCode (h : SameSender s t) (b : Fin 100) (v : W64) (k : Nat) (bad : Bool) :
    t.dispatchCode b v k bad = s.dispatchCode b v k bad := by
  simp only [State.dispatchCode, State.ctxFenced, State.ctxClosing, h.coreCtx, h.ctx]

theorem fetched (s : State) (b : Fin 100) (c : Fin 8) : SameSender s (s.fetched b c) :=
  .of_reg (s.fetched_ctxs b c) (s.fetched_reg b c _ (by simp only [Reg.ownCoord, Reg.isCe]; omega))

theorem unstalled (s : State) (b : Fin 100) (c : Fin 8) : SameSender s (s.unstalled b c) := ⟨rfl, rfl⟩

theorem storeRead (s : State) (b : Fin 100) (c : Fin 8) (a n : Nat) : SameSender s (s.storeRead b c 0 a n) :=
  .of_reg (by rw [State.storeRead_only]) (s.storeRead_reg b c 0 a n (by simp only [Reg.ownCoord, spaceCe, Reg.lsCe]; omega))

end SameSender

/-- The room a packet takes is set by its payload's length (R249). -/
theorem pktUnits_sendPacket (s : State) (b : Nat) (dest w2 w3 : W32) (count : Nat) {xs ys : List Byte} (h : xs.length = ys.length) :
    pktUnits (s.sendPacket b dest w2 w3 count xs) = pktUnits (s.sendPacket b dest w2 w3 count ys) := by
  simp only [pktUnits, packetSize, State.sendPacket, h]

/-- The high word of a scalar register. -/
theorem w32_fld_high (v : W64) : w32 (fld v 32 32) = BitVec.ofNat 32 (v.toNat / 2 ^ 32) := by
  refine BitVec.eq_of_toNat_eq ?_
  simp [w32, fld]

/-! Reads of the local store, and packets that enter the send queue. -/

section
variable (s : State) (b : Fin 100) (c : Fin 8) (a n : Nat)

theorem State.storeRead_ls : (s.storeRead b c 0 a n).ls = s.ls := by rw [State.storeRead_only]

theorem State.storeRead_localAccess : LocalAccess s (s.storeRead b c 0 a n) b c := by
  refine ⟨fun k hk => (s.storeRead_core b c 0 a n k).trans (if_neg hk), fun i _ => s.storeRead_bench b c 0 a n i,
    fun o _ hce => s.storeRead_reg b c 0 a n hce, ?_⟩
  have hrest := s.storeRead_only b c 0 a n
  rw [s.storeRead_coll b c 0 a n (by decide)] at hrest
  generalize s.storeRead b c 0 a n = t at hrest ⊢
  generalize t.cores = x1, t.regs = x2, t.badWords = x3 at hrest
  subst hrest
  rfl

/-- A read makes no word bad. -/
theorem State.storeRead_badCount {a' n' : Nat} {ce : Bool} (h : s.badCount b c 0 a' n' ce = 0) :
    (s.storeRead b c 0 a n).badCount b c 0 a' n' ce = 0 := by
  have hwords : (s.storeRead b c 0 a n).badWords.Sublist s.badWords := by
    unfold State.storeRead
    rw [State.noteLs_only]
    exact List.filter_sublist
  have hfewer : (s.storeRead b c 0 a n).badCount b c 0 a' n' ce ≤ s.badCount b c 0 a' n' ce := (hwords.filter _).length_le
  omega

theorem State.unstalled_localAccess : LocalAccess s (s.unstalled b c) b c :=
  ⟨fun _ hk => s.unstalled_core_ne b c hk, fun _ _ => rfl, fun _ _ _ => rfl, rfl⟩

end

/-- Packets of core `c` enter bench `b`'s send queue in order. -/
def State.sendPushAll (s : State) (b c : Nat) (ps : List Packet) : State := ps.foldl (fun s p => s.sendPush b c p) s

section
variable (s : State) (b c : Nat)

theorem State.sendPushAll_credits (ps : List Packet) : BenchAndSwitch b s (s.sendPushAll b c ps) :=
  List.foldlRecOn (motive := BenchAndSwitch b s) _ _ (.refl b s) fun _ h _ _ => h.trans (.modBench ..)

theorem State.program_sendPushAll (ps : List Packet) : (s.sendPushAll b c ps).program = s.program := by
  refine State.program_foldl (f := fun t p => t.sendPush b c p) s (fun t p => ?_) ps
  rfl

theorem State.sendPush_sendQ (p : Packet) : ((s.sendPush b c p).bench b).sendQ = (s.bench b).sendQ ++ [(p, c)] :=
  congrArg Bench.sendQ (s.bench_modBench_same b fun x => { x with sendQ := x.sendQ ++ [(p, c)] })

theorem State.sendPushAll_sendQ (ps : List Packet) :
    ((s.sendPushAll b c ps).bench b).sendQ = (s.bench b).sendQ ++ ps.map (fun p => (p, c)) := by
  induction ps generalizing s with
  | nil => simp [State.sendPushAll]
  | cons p ps ih =>
    refine (ih (s.sendPush b c p)).trans ?_
    rw [State.sendPush_sendQ, List.append_assoc]
    rfl

theorem State.sendUsed_sendPush (p : Packet) : (s.sendPush b c p).sendUsed b = s.sendUsed b + pktUnits p := by
  rw [State.sendUsed, State.sendPush_sendQ, List.foldl_append]
  rfl

/-- A DISPATCH whose packets all have room queues them all and retires (R262). -/
theorem State.dispatchPush_fits {b : Fin 100} {c : Fin 8} (w : W64) (ps : List Packet)
    (hroom : s.sendUsed b + (ps.map pktUnits).sum ≤ 128) :
    s.dispatchPush b c w ps = (s.sendPushAll b c ps).retire b c (fun x => { x.setS (iD w) (w64 Code.ok) with toSend := [] }) := by
  induction ps generalizing s with
  | nil => rfl
  | cons p ps ih =>
    rw [List.map_cons, List.sum_cons] at hroom
    have hfits : s.sendFits b p = true := decide_eq_true (by omega)
    rw [State.dispatchPush, if_pos hfits]
    exact ih _ (by rw [State.sendUsed_sendPush]; omega)

end

/-! SEND (R248). -/

/-- The packet of a SEND with payload `bs` (R247). -/
def State.sendOf (s : State) (b : Fin 100) (c : Fin 8) (w : W64) (bs : List Byte) : Packet :=
  let x := s.core (coreNo b c)
  s.sendPacket b (BitVec.ofNat 32 (x.s (iA w)).toNat) (BitVec.ofNat 32 (x.s (iC w)).toNat)
    (BitVec.ofNat 32 ((x.s (iC w)).toNat / 2 ^ 32)) (fld (x.s (iA w)) 32 16) bs

section
variable {s : State} {b : Fin 100} {c : Fin 8} {w : W64} {a n : Nat}

section
variable (hn : fld ((s.core (coreNo b c)).s (iC w)) 0 14 = n)
  (hcheck : lsCheck ((s.core (coreNo b c)).s (iB w)) n = 0)
  (hcode : s.sendCode b ((s.core (coreNo b c)).s (iA w)) ((s.core (coreNo b c)).s (iC w)) = 0)
include hn hcheck hcode

/-- SEND with room queues its packet. -/
theorem commSend_queues (ha : ((s.core (coreNo b c)).s (iB w)).toNat = a) (hsound : s.badCount b c 0 a n false = 0)
    (hroom : s.sendUsed b + pktUnits (s.sendOf b c w (s.spaceBytes b c 0 a n)) ≤ 128) :
    commSend b c w s = ((s.storeRead b c 0 a n).sendPushAll b c [s.sendOf b c w (s.spaceBytes b c 0 a n)]).retireD b c w 0 := by
  rw [State.sendOf, pktUnits_sendPacket (ys := List.replicate n 0) _ _ _ _ _ _ (by simp)] at hroom
  simp only [commSend, hn, hcheck, hcode, ha, State.sendFits, w32_fld, w32_fld_high, hroom, State.readStore_sound s b c 0 a n hsound,
    (SameSender.storeRead s b c a n).sendPacket, ne_eq, not_true_eq_false, if_false, decide_true, Bool.not_true, Bool.false_eq_true]
  rfl

/-- SEND without room waits. -/
theorem commSend_waits (hfull : 128 < s.sendUsed b + pktUnits (s.sendOf b c w (s.spaceBytes b c 0 a n))) :
    commSend b c w s = s.coreWait b c .sendRoom w none := by
  rw [State.sendOf, pktUnits_sendPacket (ys := List.replicate n 0) _ _ _ _ _ _ (by simp)] at hfull
  simp only [commSend, hn, hcheck, hcode, State.sendFits, w32_fld, w32_fld_high, Nat.not_le.mpr hfull, ne_eq, not_true_eq_false,
    if_false, decide_false, Bool.not_false, if_true]

end

/-- What a SEND that queued `p` leaves. -/
theorem State.sendPushAll_retires (p : Packet) :
    let t := ((s.storeRead b c 0 a n).sendPushAll b c [p]).retireD b c w 0
    LocalAccess s t b c ∧ t.ls = s.ls ∧
      t.core (coreNo b c) = (s.core (coreNo b c)).after (((s.core (coreNo b c)).near 0 a).setS (iD w) 0) ∧
      (t.bench b).sendQ = (s.bench b).sendQ ++ [(p, c.val)] := by
  have hprogram := (s.storeRead b c 0 a n).program_sendPushAll b c [p]
  refine ⟨?_, ?_, ?_, ?_⟩
  · exact (s.storeRead_localAccess b c a n).trans <|
      (State.sendPushAll_credits _ b c [p]).localAccess.trans (State.retireD_only _).localAccess
  · rw [State.retireD_ls, State.ls_of_program hprogram, State.storeRead_ls]
  · rw [State.retireD_core, State.core_of_program hprogram, State.storeRead_core, if_pos rfl]
    simp [Core.after, w64]
  · refine (congrArg Bench.sendQ (State.retireD_only _).keeps.bench).trans ?_
    exact (State.sendPushAll_sendQ ..).trans (by rw [State.storeRead_bench]; rfl)

end

/-! The head of the send queue departs (R249). -/

section
variable {s t : State} {b : Fin 100}

/-- A context that is not logged makes no record of its packets. -/
theorem State.ctxOut_unlogged {x : Nat} (hrec : s.recording x = false) (hrep : s.replaying x = false) (src : RecSrc) (p : Packet) :
    s.ctxOut x src p = (true, s) := by
  have hrec' : (s.rplOf x).st ≠ .recording := of_decide_eq_false hrec
  have hrep' : (s.rplOf x).st ≠ .replaying := of_decide_eq_false hrep
  unfold State.ctxOut
  dsimp only
  split
  · exact absurd ‹_› hrec'
  · exact absurd ‹_› hrep'
  · rfl

theorem execSendqDepart_departs {p : Packet} {k : Nat} {ps : List (Packet × Nat)} (hpowered : s.powered = true)
    (hqueue : (s.bench b).sendQ = (p, k) :: ps) (hlog : Unlogged s b)
    (hsent : (s.modBench b (fun y => { y with sendQ := ps })).sendRequest (.bench b) p = some t) : execSendqDepart b s = .next t := by
  have hpop : s.modBench b (fun y => { y with sendQ := y.sendQ.drop 1 }) = s.modBench b (fun y => { y with sendQ := ps }) := by
    have hdrop : (sget {} s.benches b).sendQ.drop 1 = ps := congrArg (List.drop 1) hqueue
    unfold State.modBench smod
    dsimp only
    rw [hdrop]
  have hrpl : t.rpl = s.rpl := (State.rpl_of_program (State.program_sendRequest hsent)).trans rfl
  unfold execSendqDepart
  rw [hpowered, hqueue, Bool.not_true, if_neg Bool.false_ne_true]
  dsimp only
  rw [hpop]
  split
  · next x hx =>
    obtain ⟨hrec, hrep⟩ := hlog x hx
    have hstalls : s.outStalls b = false := by simp [State.outStalls, hqueue, hx, State.recRoom, hrec]
    have hout : t.ctxOut x { bench := b, core := k } p = (true, t) := by
      refine State.ctxOut_unlogged ?_ ?_ ..
      · rw [← hrec, State.recording, State.recording, State.rplOf, State.rplOf, hrpl]
      · rw [← hrep, State.replaying, State.replaying, State.rplOf, State.rplOf, hrpl]
    simp [execSendqDepart.go, hsent, hrep, hstalls, hout]
  · simp [execSendqDepart.go, hsent]

end

/-! DISPATCH (R262). -/

section
variable {s : State} {b : Fin 100} {c : Fin 8} {w : W64} {k : Nat}

/-- The head of a DISPATCH's list reads as it does in the whole list. -/
theorem State.listHead (s : State) (b : Fin 100) (c : Fin 8) (a : Nat) {n : Nat} (h : 8 ≤ n) :
    u64 (s.spaceBytes b c 0 a 8) 0 = u64 (s.spaceBytes b c 0 a n) 0 := by
  simp only [u64, State.spaceBytes]
  rw [slice_mread _ _ (by omega), slice_mread _ _ (by omega)]

/-- A list and a row that are readable raise nothing. -/
theorem State.dispatchCauses_none {la ra : W64} {len : Nat} (hhead : u64 (s.spaceBytes b c 0 la.toNat 8) 0 = k) (hk : k ≤ 8)
    (hlist : lsCheck la (8 + 16 * k) = 0) (hrow : lsCheck ra len = 0) (hlistGood : s.badCount b c 0 la.toNat (8 + 16 * k) false = 0)
    (hrowGood : s.badCount b c 0 ra.toNat len false = 0) : s.dispatchCauses b c la ra len = [] := by
  have hmod : k % 16 = k := Nat.mod_eq_of_lt (by omega)
  have hhd := lsCheck_of_le (show 8 ≤ 8 + 16 * k by omega) hlist
  have hhdGood := s.badCount_of_le b c (show 8 ≤ 8 + 16 * k by omega) false hlistGood
  simp [State.dispatchCauses, hhead, hmod, hk, hhd, hhdGood, hlist, hlistGood, hrow, hrowGood]

/-- The state of a DISPATCH once its list and its row are read. -/
def State.dispatchRead (s : State) (b : Fin 100) (c : Fin 8) (la n ra len : Nat) : State :=
  (s.storeRead b c 0 la n).storeRead b c 0 ra len

/-- The operands of a DISPATCH pass every check: its list of `k` entries is `list`, and its row `row` (R262). -/
structure DispatchPasses (s : State) (b : Fin 100) (c : Fin 8) (w : W64) (k : Nat) (list row : List Byte) : Prop where
  listBytes : s.spaceBytes b c 0 ((s.core (coreNo b c)).s (iA w)).toNat (8 + 16 * k) = list
  rowBytes : s.spaceBytes b c 0 ((s.core (coreNo b c)).s (iC w)).toNat (fld ((s.core (coreNo b c)).s (iB w)) 0 14) = row
  head : u64 list 0 = k
  few : k ≤ 8
  listInRange : lsCheck ((s.core (coreNo b c)).s (iA w)) (8 + 16 * k) = 0
  rowInRange : lsCheck ((s.core (coreNo b c)).s (iC w)) (fld ((s.core (coreNo b c)).s (iB w)) 0 14) = 0
  listGood : s.badCount b c 0 ((s.core (coreNo b c)).s (iA w)).toNat (8 + 16 * k) false = 0
  rowGood : s.badCount b c 0 ((s.core (coreNo b c)).s (iC w)).toNat (fld ((s.core (coreNo b c)).s (iB w)) 0 14) false = 0
  entries : ∀ i < k, u64 list (8 + 16 * i) < 2 ^ 60
  code : s.dispatchCode b ((s.core (coreNo b c)).s (iB w)) k false = 0

theorem DispatchPasses.fetched {list row : List Byte} (h : DispatchPasses s b c w k list row) :
    DispatchPasses (s.fetched b c) b c w k list row := by
  obtain ⟨hlistBytes, hrowBytes, hhead, hk, hlist, hrow, hlistGood, hrowGood, hents, hcode⟩ := h
  rw [← State.fetched_core s b c] at hlistBytes hrowBytes hlist hrow hlistGood hrowGood hcode
  exact ⟨by rw [State.fetched_spaceBytes, hlistBytes], by rw [State.fetched_spaceBytes, hrowBytes], hhead, hk, hlist, hrow,
    s.fetched_badCount b c hlistGood, s.fetched_badCount b c hrowGood, hents, by rw [(SameSender.fetched s b c).dispatchCode, hcode]⟩

/-- DISPATCH reads its list and its row, and queues what packets fit. -/
theorem commDispatch_queues {list row : List Byte} (h : DispatchPasses s b c w k list row) :
    commDispatch b c w s = (s.dispatchRead b c ((s.core (coreNo b c)).s (iA w)).toNat (8 + 16 * k)
      ((s.core (coreNo b c)).s (iC w)).toNat (fld ((s.core (coreNo b c)).s (iB w)) 0 14)).dispatchPush b c w
        (dispatchPackets s b ((s.core (coreNo b c)).s (iB w)) list row k) := by
  obtain ⟨hlistBytes, hrowBytes, hhead, hk, hlist, hrow, hlistGood, hrowGood, hents, hcode⟩ := h
  unfold commDispatch
  dsimp only
  generalize (s.core (coreNo b c)).s (iA w) = la, (s.core (coreNo b c)).s (iB w) = t, (s.core (coreNo b c)).s (iC w) = ra at *
  have hhead8 : u64 (s.spaceBytes b c 0 la.toNat 8) 0 = k := by
    rw [s.listHead b c la.toNat (n := 8 + 16 * k) (by omega), hlistBytes, hhead]
  have hmod : k % 16 = k := Nat.mod_eq_of_lt (by omega)
  have hdiv : k / 16 = 0 := Nat.div_eq_of_lt (by omega)
  have hsame : SameSender s (s.dispatchRead b c la.toNat (8 + 16 * k) ra.toNat (fld t 0 14)) :=
    (SameSender.storeRead ..).trans (.storeRead ..)
  have hrowRead := State.readStore_sound _ b c 0 ra.toNat (fld t 0 14) (s.storeRead_badCount b c la.toNat (8 + 16 * k) hrowGood)
  rw [State.storeRead_spaceBytes, hrowBytes] at hrowRead
  have hany : ((List.range k).map (fun i => (u64 list (8 + 16 * i), slice list (16 + 16 * i) 8))).any (fun e => decide (2 ^ 60 ≤ e.1)) =
      false := by
    simp only [List.any_map, List.any_eq_false, List.mem_range, Function.comp_apply, decide_eq_true_eq, Nat.not_le]
    exact hents
  simp only [State.dispatchCauses_none hhead8 hk hlist hrow hlistGood hrowGood, lowestCause, hhead8, hmod, hk, if_true,
    State.readStore_sound s b c 0 la.toNat _ hlistGood, hlistBytes, hrowRead, Option.getD_some, Nat.min_eq_left hk, hany, hdiv]
  change (if (s.dispatchRead b c la.toNat (8 + 16 * k) ra.toNat (fld t 0 14)).dispatchCode b t k false ≠ 0 then _ else _) = _
  rw [hsame.dispatchCode, hcode, if_neg (by decide), List.map_map, w32_fld, w32_fld_high]
  refine congrArg (State.dispatchPush (s.dispatchRead b c la.toNat (8 + 16 * k) ra.toNat (fld t 0 14)) b c w)
    (List.map_congr_left fun i _ => ?_)
  exact congrFun (congrFun (congrFun (congrFun (congrFun (hsame.sendPacket b) _) _) _) _) _

/-- What a DISPATCH that queued every packet leaves. -/
theorem State.dispatchRead_retires (s : State) (b : Fin 100) (c : Fin 8) (w : W64) (la n ra len : Nat) (ps : List Packet) :
    let t := ((s.dispatchRead b c la n ra len).sendPushAll b c ps).retire b c
      (fun x => { x.setS (iD w) (w64 Code.ok) with toSend := [] })
    LocalAccess s t b c ∧ t.ls = s.ls ∧ (t.core (coreNo b c)).s (iD w) = 0 ∧
      (t.core (coreNo b c)).pc = (s.core (coreNo b c)).pc + 1 ∧
      (t.bench b).sendQ = (s.bench b).sendQ ++ ps.map (fun p => (p, c.val)) := by
  intro t
  have hprogram := (s.dispatchRead b c la n ra len).program_sendPushAll b c ps
  have hretired : OnlyCore ((s.dispatchRead b c la n ra len).sendPushAll b c ps) t b c := State.retire_only ..
  have hcore : t.core (coreNo b c) = (((s.core (coreNo b c)).near 0 la).near 0 ra).after
      { (((s.core (coreNo b c)).near 0 la).near 0 ra).setS (iD w) 0 with toSend := [] } := by
    refine (State.retire_core _ _ _ _ (Core.setS_pc ..)).trans ?_
    rw [State.core_of_program hprogram, State.dispatchRead, State.storeRead_core, if_pos rfl, State.storeRead_core, if_pos rfl]
    rfl
  obtain ⟨hzero, hpc⟩ := Core.after_setS_zero (((s.core (coreNo b c)).near 0 la).near 0 ra)
    (((s.core (coreNo b c)).near 0 la).near 0 ra) (iD w)
  refine ⟨?_, ?_, ?_, ?_, ?_⟩
  · exact (s.storeRead_localAccess b c la n).trans <| (State.storeRead_localAccess _ b c ra len).trans <|
      (State.sendPushAll_credits _ b c ps).localAccess.trans hretired.localAccess
  · have hls : t.ls = ((s.dispatchRead b c la n ra len).sendPushAll b c ps).ls := by
      unfold t
      rw [State.retire_eq]
    rw [hls, State.ls_of_program hprogram, State.dispatchRead, State.storeRead_ls, State.storeRead_ls]
  · rw [hcore]
    exact hzero
  · rw [hcore, ← Core.near_pc (sp := 0) (a := la), ← Core.near_pc (sp := 0) (a := ra)]
    exact hpc
  · refine (congrArg Bench.sendQ hretired.keeps.bench).trans ((State.sendPushAll_sendQ ..).trans ?_)
    rw [State.dispatchRead, State.storeRead_bench, State.storeRead_bench]

end

/-- Settles O20: SEND and DISPATCH read their bytes, make their packets and append them; the head departs as the switch takes it. -/
theorem sendsQueuePackets : Obligations.SendsQueuePackets := by
  unfold Obligations.SendsQueuePackets
  intro s b c w x pkt ok queues
  have hfetched := SameSender.fetched s b c
  have hunstalled := SameSender.unstalled s b c
  have hfcore : (s.fetched b c).core (coreNo b c) = x := State.fetched_core ..
  have hfpkt : (s.fetched b c).sendOf b c w ((s.fetched b c).spaceBytes b c 0 (x.s (iB w)).toNat (fld (x.s (iC w)) 0 14)) = pkt w := by
    rw [State.sendOf, hfcore, hfetched.sendPacket, State.fetched_spaceBytes]
  have hfused : (s.fetched b c).sendUsed b = s.sendUsed b := by rw [State.sendUsed, State.fetched_bench]; rfl
  refine ⟨fun hfires hok hroom => ?_, fun hfires hok hfull => ?_, fun q hq hfam hok hroom => ?_,
    fun p k ps t hpowered hqueue hlog hsent => ?_,
    fun list row k hfires hlistBytes hrowBytes hhead hone hk hlist hrow hlistGood hrowGood hents hcode hroom => ?_⟩
  · obtain ⟨hcheck, hcode, hgood⟩ := hok
    have hnow := commSend_queues (s := s.fetched b c) (w := w) (a := (x.s (iB w)).toNat) (n := fld (x.s (iC w)) 0 14)
      (by rw [hfcore]) (by rw [hfcore]; exact hcheck) (by rw [hfcore, hfetched.sendCode]; exact hcode) (by rw [hfcore])
      (s.fetched_badCount b c hgood) (by rw [hfpkt, hfused]; exact hroom)
    rw [hfpkt] at hnow
    obtain ⟨hlocal, hls, hcore, hsendQ⟩ := State.sendPushAll_retires (s := s.fetched b c) (b := b) (c := c) (w := w)
      (a := (x.s (iB w)).toNat) (n := fld (x.s (iC w)) 0 14) (pkt w)
    refine ⟨_, (exec_send b c s).trans ((coreExec_fires hfires _).trans (congrArg _ hnow)), hlocal, hls.trans (s.fetched_ls b c),
      hcore.trans (by rw [hfcore]), hsendQ.trans (by rw [State.fetched_bench])⟩
  · obtain ⟨hcheck, hcode, -⟩ := hok
    refine (exec_send b c s).trans ((coreExec_fires hfires _).trans (congrArg _ ?_))
    exact commSend_waits (n := fld (x.s (iC w)) 0 14) (a := (x.s (iB w)).toNat) (by rw [hfcore])
      (by rw [hfcore]; exact hcheck) (by rw [hfcore, hfetched.sendCode]; exact hcode) (by rw [hfpkt, hfused]; exact hfull)
  · obtain ⟨hcheck, hcode, hgood⟩ := hok
    have hucore := s.unstalled_core b c
    have hupkt : (s.unstalled b c).sendOf b c q.word (s.spaceBytes b c 0 (x.s (iB q.word)).toNat (fld (x.s (iC q.word)) 0 14)) =
        pkt q.word := by
      rw [State.sendOf, hunstalled.sendPacket, hucore]
      rfl
    have hnow := commSend_queues (s := s.unstalled b c) (w := q.word) (a := (x.s (iB q.word)).toNat) (n := fld (x.s (iC q.word)) 0 14)
      (by rw [hucore]; rfl) (by rw [hucore]; exact hcheck) (by rw [hucore, hunstalled.sendCode]; exact hcode) (by rw [hucore]; rfl)
      hgood (hupkt.symm ▸ hroom)
    obtain ⟨hlocal, hls, hcore, hsendQ⟩ := State.sendPushAll_retires (s := s.unstalled b c) (b := b) (c := c) (w := q.word)
      (a := (x.s (iB q.word)).toNat) (n := fld (x.s (iC q.word)) 0 14) (pkt q.word)
    refine ⟨_, ?_, (s.unstalled_localAccess b c).trans hlocal, hls, hcore.trans ?_, hsendQ⟩
    · rw [← hupkt]
      refine (exec_sendQueueRoom b c s).trans ?_
      simp only [execSendQueueRoom, hq, hfam, if_true]
      exact congrArg _ hnow
    · rw [hucore]
      exact Core.after_goesOn ..
  · exact (exec_sendqDepart b s).trans (execSendqDepart_departs hpowered hqueue hlog hsent)
  · have hpackets : dispatchPackets (s.fetched b c) b (x.s (iB w)) list row k = dispatchPackets s b (x.s (iB w)) list row k := by
      unfold dispatchPackets
      rw [hfetched.sendPacket]
    have hpasses : DispatchPasses s b c w k list row :=
      ⟨hlistBytes.symm, hrowBytes.symm, hhead, hk, hlist, hrow, hlistGood, hrowGood, hents, hcode⟩
    have hnow := commDispatch_queues hpasses.fetched
    rw [hfcore] at hnow
    rw [hpackets, State.dispatchPush_fits] at hnow
    · obtain ⟨hlocal, hls, hzero, hpc, hsendQ⟩ := (s.fetched b c).dispatchRead_retires b c w (x.s (iA w)).toNat (8 + 16 * k)
        (x.s (iC w)).toNat (fld (x.s (iB w)) 0 14) (dispatchPackets s b (x.s (iB w)) list row k)
      refine ⟨_, (exec_dispatch b c s).trans ((coreExec_fires hfires _).trans (congrArg _ hnow)), hlocal,
        hls.trans (s.fetched_ls b c), .inl hzero, hpc.trans (by rw [hfcore]), hsendQ.trans (by rw [State.fetched_bench])⟩
    · rw [State.dispatchRead, State.sendUsed, State.storeRead_bench, State.storeRead_bench]
      exact (congrArg (· + _) hfused).trans_le hroom

end Sys2Proof.Machine
end
